-- ==== Sys2Proof/Word.lean ====
section
/-! DEFINITION. The words of the machine and their plainest arithmetic. -/

namespace Sys2Proof

/-- A byte of a link frame, a descriptor, an image or a memory. -/
abbrev Byte := BitVec 8

/-- A run of bytes in ascending address order. -/
abbrev Bytes := List Byte

/-- A BAR0 register word (R589). -/
abbrev Word := BitVec 32

/-- A MONO, NET or HDM time in nanoseconds (R11, R505). -/
abbrev Time := BitVec 32

/-- An instant on MONO with its wraps counted, in nanoseconds since MONO last started from 0: what a period is measured
from. -/
abbrev Instant := Nat

/-- A line index: 40 bits, modulo 2^40 (R175). -/
abbrev Line := BitVec 40

/-- A web position in units of 1/256 line, modulo 2^48 (R175). -/
abbrev Pos := BitVec 48

/-- Two words of one modulus compared as the signed value of their difference (R175, R505). -/
def sdiff {n : Nat} (a b : BitVec n) : Int := (a - b).toInt

end Sys2Proof
end

