-- ==== Sys2Proof/Syntax.lean ====
section
/-! DEFINITION. The commands of the block: one constructor for each row of spec/opcode_table.json, with the
operands that its rule takes from outside the block (a register value, the bytes of a descriptor or of a host
buffer, a received frame, a sample of a pin). A command that has no operand is an event that the block's own
state decides. -/

namespace Sys2Proof

/-- Outcome of a CSI-2 header's ECC (R266). -/
inductive Ecc where
  | good | corrected | bad
  deriving DecidableEq, Repr

/-- Which output's pulse ends (R211): STROBE[s], CAM_TRIG[c], or a compare's 100 ns drive of TPULSE[t]. -/
inductive OutPin where
  | strobe (s : Nat) | camtrig (c : Nat) | tpulse (t : Nat)
  deriving DecidableEq, Repr

/-- What a crossing that times out has from the domains it joins (R488): a camera's clock lane in a low-power state, words in its stream FIFO, and
whether an event is pending there. -/
structure XingSide where
  clockLow : Bool
  words : Nat
  event : Bool
  deriving DecidableEq, Repr

/-- What an end of a 1000BASE-X link advertises under Clause 37 (R512). -/
structure NetAdvert where
  fullDuplex : Bool
  pause : Bool
  deriving DecidableEq, Repr

/-- The exchange of the network link that has just ended: none, or the link is lost; the PHY's in-band report of its link, rate in Mbit/s and
duplex; the partner's advertisement (R512). -/
inductive NetExchange where
  | none
  | inBand (mbit : Nat) (fullDuplex : Bool)
  | clause37 (partner : NetAdvert)
  deriving DecidableEq, Repr

/-- Causes of HST.LINK_DOWN (R349). -/
inductive LinkLoss where
  | dataLink | hotReset | d3hot
  deriving DecidableEq, Repr

/-- Lanes that the PCI Express link has trained to (R346). -/
inductive LinkWidth where
  | x1 | x2 | x4 | x8
  deriving DecidableEq, Repr

/-- Rates that the PCI Express link has trained to: 2.5, 5.0, 8.0, 16.0 and 32.0 GT/s (R346). -/
inductive LinkSpeed where
  | gt2 | gt5 | gt8 | gt16 | gt32
  deriving DecidableEq, Repr

/-- Max payload sizes in bytes (R347). -/
inductive MaxPayload where
  | b128 | b256 | b512
  deriving DecidableEq, Repr

/-- Max read request sizes in bytes (R347). -/
inductive MaxRead where
  | b128 | b256 | b512 | b1024 | b2048 | b4096
  deriving DecidableEq, Repr

/-- What the link and the host's configuration writes have settled when the function serves BAR0 again
(R346 to R350): negotiated width and rate, max payload and max read request size, 10-bit tags, Relaxed Ordering, ASPM L1 enable, MSI-X
enable and mask. -/
structure PcieCfg where
  width : LinkWidth
  speed : LinkSpeed
  payload : MaxPayload
  readSize : MaxRead
  tags10 : Bool
  relaxed : Bool
  l1En : Bool
  msixEn : Bool
  msixMask : Bool
  deriving DecidableEq, Repr

/-- One entry of an ANNOUNCE (R318). -/
structure AnnEntry where
  port : Nat
  ovs : Bool
  seq : BitVec 32
  line : Line
  deriving DecidableEq, Repr

/-- What a HELLO claims (R318, R322): versions (bit 0 Twin 1, bit 1 Twin 2), mode, PRINTING, role_req, module
serial and settings digest. -/
structure Hello where
  versions : Nat
  mode : Nat
  printing : Bool
  roleReq : Bool
  serial : BitVec 64
  digest : BitVec 16
  deriving DecidableEq, Repr

/-- What a heartbeat carries (R318, R320, R324): device state, role code, HELD flag, highest line begun, settings digest, the newest
twin control sequence number it acknowledges, and two flags of the model's (log 140): the joining module reports ready (R323), and the
module is DETACHED (R327). -/
structure HbInfo where
  state : Nat
  role : Nat
  held : Bool
  line : Line
  digest : BitVec 16
  ack : BitVec 32
  ready : Bool
  detached : Bool
  deriving DecidableEq, Repr

/-- What a CHANGE record asks of both modules (R326 to R333, R422, R441). A table travels as its image, with whether the
colour loop loads it and the offsets δ of the bar behind it (R303, R306); an ingest as the section's header record, the next expected
line of each plane, and for each strip of each plane where the data sent begin and how long the stream then is (R330). -/
inductive ChangeBody where
  | table (image : Bytes) (loop : Bool) (delta : List Int)
  | place (group sec handle : Nat) (start : Line) (repeat' pitch origin : Nat) (map : BitVec 32)
  | cancelPlacement (group handle : Nat)
  | seal (sec : Nat)
  | cancelSection (sec : Nat)
  | ingest (sec : Nat) (header : Bytes) (next : List Nat) (strips : List (List (Nat × Nat)))
  | print
  | stop
  | spit (mask : BitVec 8) (param : Bytes)
  | strip (mask : BitVec 8) (param : Bytes)
  deriving DecidableEq, Repr

/-- A CHECK frame (R326). -/
inductive CheckBody where
  | pos (p : Pos)
  | fire (port : Nat) (seq : BitVec 32) (hdmTime : Time) (rdu : Nat)
  | hdm (port : Nat) (serial : BitVec 64) (hdmPort version : Nat)
  deriving DecidableEq, Repr

/-- A section in a checkpoint (R333): the header record of R45, whether it is SEALED, the next expected line of each plane, and for each
strip of each plane where the data sent begin and how long the stream is. -/
structure SectionRec where
  header : Bytes
  sealed' : Bool
  next : List Nat
  strips : List (List (Nat × Nat))
  deriving DecidableEq, Repr

/-- What a checkpoint holds (R332, R333): `settings` by BAR0 offset; the geometry as its items in order; `changes` are those pending at
`line`, with their identifiers; `gref` port by port, `deltas` eight to a bar, `seqs` port by port. -/
structure CkptBody where
  line : Line
  number : BitVec 32
  serial : BitVec 64
  settings : List (Nat × Word)
  geom : List Int
  tables : List Bytes
  changes : List (Nat × Option Line × ChangeBody)
  sections : List SectionRec
  placements : List ChangeBody
  gref : List Bytes
  deltas : List Int
  seqs : List (BitVec 32 × Line)
  deriving DecidableEq, Repr

/-- Readings of one rank's mode registers (R456): refresh-rate report as the band 0 to 5 of the table,
temperature in degrees Celsius, refresh management required. -/
structure RankReading where
  band : Nat
  temp : Int
  rfm : Bool
  deriving DecidableEq, Repr

/-- One sample of the sensors (R548): diode code in 1/256 degree before trim, power-stage reading in 0.25
degree, and its age in ms. -/
structure DieSample where
  raw : Int
  stage : Int
  stageAge : Nat
  deriving DecidableEq, Repr

/-- The commands (spec/opcode_table.json). `ring` is a host ring, `d` the 32 bytes of the descriptor that the
8824 takes from it, `p` a link (0 to 23 a head port, 24 and 25 the twin ports), `v` a register value. -/
inductive Instr where
  -- lines
  | sendDecision (p : Nat)
  | lineBegin (p : Nat)
  | overspeedEpisodeEnd (p : Nat)
  | linePacked (p : Nat)
  | primingDone (p : Nat)
  -- raster store
  | ingestHeader (ring : Nat) (d record : Bytes)
  | ingestPlaneRaw (ring : Nat) (d band : Bytes)
  | ingestPlaneIbrik (ring : Nat) (d container : Bytes)
  | seal (ring : Nat) (d : Bytes)
  | cancelSection (ring : Nat) (d : Bytes)
  | place (ring : Nat) (d : Bytes)
  | cancelPlacement (ring : Nat) (d : Bytes)
  | placementResolve (g : Nat)
  -- tables
  | loadTable (ring : Nat) (d image : Bytes)
  | waveLoad (ring : Nat) (d image : Bytes)
  | phoTableLoad (ring : Nat) (d image : Bytes)
  | waitingLoadCommit (kind target : Nat)
  | readTable (ring : Nat) (d : Bytes)
  -- Wick
  | tempReport (p : Nat) (frame : Bytes)
  | tempTimeout (p h : Nat)
  | waveBankWrite (p : Nat)
  | waveAck (p : Nat) (frame : Bytes)
  | waveAckTimeout (p : Nat)
  -- Meridian
  | encTransition (e : Nat) (a b : Bool) (held : Nat) (t : Time)
  | quadWindowEnd (e : Nat)
  | encIndex (e : Nat) (level : Bool) (held : Nat) (t : Time)
  | estimatorTick
  | webStopTimeout
  | ssiRequest
  | ssiPeriod
  | ssiHeldStart
  | ssiReading (init : Bool) (edges : List (Nat × Bool))
  | posLoadNow
  | posLoadSsi
  | posRebase
  | slipWindowEnd
  | geomCommit
  | latchTrigger (n : Nat) (level : Bool) (held : Nat) (t : Time)
  | latchSoft (n : Nat)
  | latchResultRead (n : Nat)
  | cmpArm (n : Nat) (v : Word)
  | cmpDisarm (n : Nat) (v : Word)
  | cmpFire (n : Nat)
  | outputPulseEnd (pin : OutPin)
  -- Gahild
  | portEnable (p : Nat) (v : Word)
  | portDisable (p : Nat) (v : Word)
  | portRetrainCmd (p : Nat) (v : Word)
  | downTimeout (p : Nat)
  | detectTest (p : Nat) (first second : Bool)
  | tsAReceived (p : Nat) (block : Bytes) (satisfied : Bool) (want : Nat)
  | tsBReceived (p : Nat) (block : Bytes)
  | trainTimeout (p : Nat)
  | blockLockAcquired (p : Nat) (blocks : List (BitVec 130 × Nat))
  | blockLockLost (p : Nat) (blocks : List (BitVec 130 × Nat))
  | lockComplete (p : Nat) (blocks : List (BitVec 130 × Nat))
  | lockTimeout (p : Nat)
  | statCaps (p : Nat) (frame : Bytes)
  | syncEcho (p : Nat) (frame : Bytes) (t4 : Time)
  | statAck (p : Nat) (frame : Bytes)
  | capsTimeout (p : Nat)
  | syncPeriodic (p : Nat)
  | nak (p : Nat) (frame : Bytes)
  | statTimeout (p : Nat)
  | partnerWindowEnd (p : Nat)
  | ctlResendTimeout (p : Nat)
  -- Photometer
  | deskew (c : Nat)
  | csiFrameStart (c : Nat) (ecc : Ecc)
  | csiPixelData (c : Nat) (dataType : Nat) (ecc : Ecc) (samples : List (BitVec 14)) (heldBack : Bool)
  | csiFrameEnd (c : Nat) (ecc : Ecc)
  | csiOtherPacket (c channel dataType : Nat) (ecc : Ecc)
  | cameraFrameTimeout (c : Nat)
  | expCommit (c : Nat) (v : Word)
  | expSetWritten (c : Nat)
  | i2cNak (c entry : Nat)
  | cameraPortDisable (c : Nat) (v : Word)
  | capbuf (ring : Nat) (d : Bytes)
  | loopPeriodEnd
  | loopGainReset (bars : BitVec 8)
  | loopToneReset (bars : BitVec 8)
  | loopHoldEnd
  | camBlack (ring : Nat) (d : Bytes)
  | camBlackTimeout (c : Nat)
  -- twin
  | pair
  | unpair
  | checkpointNow
  | pairLinkTimeout
  | pairIndexTimeout
  | pairReadyTimeout
  | hello (t : Nat) (frame : Bytes)
  | hb (t : Nat) (frame : Bytes)
  | hbSend (t : Nat)
  | announce (t : Nat) (frame : Bytes)
  | change (t : Nat) (frame : Bytes)
  | vote (t : Nat) (frame : Bytes)
  | decide (t : Nat) (frame : Bytes)
  | data (t : Nat) (frame : Bytes)
  | ckpt (t : Nat) (frame : Bytes)
  | check (t : Nat) (frame : Bytes)
  | checkFireSend
  | give (t : Nat) (frame : Bytes)
  | join (t : Nat) (frame : Bytes)
  | twinAliveEdge
  | twinAliveToggle
  | partnerTimeout
  | announceTimeout (p : Nat)
  | voteTimeout
  | decideTimeout
  | rejoinTimer
  -- host interface
  | pcieLinkLoss (cause : LinkLoss)
  | l1Entry
  | kick
  | doorbellPoll
  | doorbellRead (block : Option Bytes)
  | ringEnable (r : Nat) (v : Word)
  | ringDisable (r : Nat) (v : Word)
  | nop (ring : Nat) (d : Bytes)
  | checkpoint (ring : Nat) (d : Bytes)
  | completionPost (cring : Nat)
  | statusBlockWrite (r : Nat)
  | ringIrqTimer (r : Nat)
  -- Lamplighter
  | drmRetrain (ring : Nat) (d : Bytes)
  | drmZq (ring : Nat) (d : Bytes)
  | drmSelfref (ring : Nat) (d : Bytes)
  | linkRetrain (ring : Nat) (d : Bytes)
  | waveReload (ring : Nat) (d : Bytes)
  | almWrite (ring : Nat) (d record : Bytes)
  | twinCkpt (ring : Nat) (d : Bytes)
  | spit (ring : Nat) (d param : Bytes)
  | strip (ring : Nat) (d param : Bytes)
  | deferredStart
  | deferTimeout
  | scheduledZq
  | scheduledRetrain
  | scheduledCheckpoint
  -- Lantern
  | faultHandle
  | fatalQuiesce
  | faultAck (v : Word)
  | quietRecovery (c : Nat)
  | recordClear (v : Word)
  | faultForce (src : Nat) (v : Word)
  -- power, resets, device states
  | pwrEnRise
  | pgoodRise
  | railTimeout
  | railFault
  | powerDown (pwrEnFell : Bool)
  | rampDownEnd
  | coldReset
  | resetRelease
  | pllLock
  | factoryLoadDone
  | pcieResetRelease
  | finish
  | print
  | stop
  | warmReset (v : Word)
  | warmResetEnd
  | clockLoss
  | clockRecovered
  -- DRAM training
  | trainInit (c : Nat) (v : Word)
  | trainMrw (c : Nat) (v : Word)
  | trainMrr (c : Nat) (v : Word)
  | trainCbt (c : Nat) (v : Word)
  | trainWckLevel (c : Nat) (v : Word)
  | trainWrite (c : Nat) (v : Word)
  | trainRead (c : Nat) (v : Word)
  | trainClear (c : Nat) (v : Word)
  | trainZq (c : Nat) (v : Word)
  | trainVerify (c : Nat) (v : Word)
  | trainCommit (c : Nat) (v : Word)
  | trainStepEnd (c : Nat) (answered : Bool) (result : Word) (errors : List Nat)
  -- DRAM service
  | dramRequest (src : Nat) (write : Bool) (addr bursts : Nat) (payload : Bytes)
  | refreshDue (c rank pair : Nat)
  | dramTempPoll (c : Nat) (r0 r1 : RankReading)
  | rhWindowStart
  | retrainSlice (c : Nat) (last pass : Bool) (rd wr wck : List Nat)
  | zqLatch (c : Nat)
  | selfrefEntry
  | selfrefTimeout
  | selfrefExit
  -- crossings and the PIX PLL
  | crossingWriteApply (x : Nat)
  | crossingTimeout (x : Nat) (side : XingSide)
  | crossingResync (x : Nat)
  | pixPllEnable (v : Word)
  | pixPllLock
  -- time and network
  | netRateWrite (v : Word)
  | netStep (v : Word)
  | netLoad (v : Word)
  | timeSnapshot
  | monoWrap
  | netWrap
  | secondsCommit (v : Word)
  | secondRollover
  | pulseArm (n : Nat) (v : Word)
  | pulseFire (n : Nat)
  | pulseWidthEnd (n : Nat)
  | netTx (ring : Nat) (d frame : Bytes)
  | netTxDone
  | netRxbuf (ring : Nat) (d : Bytes)
  | netRxFrame (frame : Bytes) (fcsOk : Bool)
  | netLinkChange (exchange : NetExchange)
  | txtsPost
  | txtsRead
  -- Eyepiece
  | eyeEnable (v : Word)
  | eyeDisable (v : Word)
  | eyeCommit
  | displayLineStart (missing : Option Nat)
  | commitPoint
  -- Almanac and sensing
  | dieTempSample (x : DieSample)
  | vinSample (raw : Int)
  | almWrGo (record : Bytes)
  | almWriteDone (programmed readBackOk : Bool)
  | almReadData
  -- registers and the remaining events
  | loCaptureRead (off : Nat)
  | chStatusRead (c : Nat)
  | registerWrite (off : Nat) (v : BitVec 64) (enables : BitVec 8)
  | cameraPortEnable (c : Nat) (v : Word)
  | pcieLinkUp (cfg : PcieCfg)
  | undervoltageLockoutRelease (pwrEn : Bool)
  | dieResetHoldEnd
  | railRetry
  deriving DecidableEq, Repr

end Sys2Proof
end

