-- ==== Sys2Proof/Decode.lean ====
section
/-! DEFINITION. The reading of table words. spec/opcode_table.json gives no row any bits: no word spells a
command. -/

namespace Sys2Proof

/-- The command that the low `nbits` bits of `w` spell: none, since no row has an encoding. -/
def decodeTableWord (nbits w : Nat) : Option Instr :=
  match nbits, w with
  | _, _ => none

end Sys2Proof
end

