-- ==== Sys2Proof/Machine/Crc.lean ====
section
/-! DEFINITION. The control CRC-16 (R370), the CRC-32 of network frames and display signatures, and the
little-endian fields of every structure in memory. -/

namespace Sys2Proof.Machine

/-- One bit of the CRC-16 with generator 0x1021 (R370). -/
def crc16Bit (r : BitVec 16) (b : Bool) : BitVec 16 :=
  if r.msb != b then (r <<< 1) ^^^ 0x1021 else r <<< 1

/-- The bits of a byte, most significant first. -/
def byteBits (b : Byte) : List Bool :=
  [b.getLsbD 7, b.getLsbD 6, b.getLsbD 5, b.getLsbD 4, b.getLsbD 3, b.getLsbD 2, b.getLsbD 1, b.getLsbD 0]

/-- The control CRC-16 of a run of bytes: start 0xFFFF, most significant bit first, no inversion (R370). -/
def crc16 (l : Bytes) : BitVec 16 :=
  l.foldl (fun r b => (byteBits b).foldl crc16Bit r) 0xFFFF

/-- A little-endian number. -/
def le : Bytes → Nat
  | [] => 0
  | b :: t => b.toNat + 256 * le t

/-- The little-endian field of `n` bytes at byte `o` of a structure; bytes beyond its end read 0. -/
def leAt (l : Bytes) (o n : Nat) : Nat := le ((l.drop o).take n)

/-- One byte of a structure; 0 beyond its end. -/
def byteAt (l : Bytes) (o : Nat) : Nat := (l.getD o 0).toNat

/-- A two's complement field of `n` bytes at byte `o`. -/
def leAtInt (l : Bytes) (o n : Nat) : Int :=
  let v := leAt l o n
  if v < 2 ^ (8 * n - 1) then v else (v : Int) - 2 ^ (8 * n)

/-- A number as `n` little-endian bytes. -/
def toLe : Nat → Nat → Bytes
  | 0, _ => []
  | n + 1, v => BitVec.ofNat 8 v :: toLe n (v / 256)

/-- A run of bytes with its control CRC-16 appended, little-endian (R370). -/
def withCrc (l : Bytes) : Bytes := l ++ toLe 2 (crc16 l).toNat

/-- The control CRC-16 stored in the last two bytes of a structure matches the bytes before it. -/
def crcOk (l : Bytes) : Bool :=
  2 ≤ l.length && leAt l (l.length - 2) 2 == (crc16 (l.take (l.length - 2))).toNat

/-- Bits `hi` to `lo` of a number. -/
def nbits (v hi lo : Nat) : Nat := (v >>> lo) % 2 ^ (hi + 1 - lo)

end Sys2Proof.Machine
end

