-- ==== Sys2Proof/Config.lean ====
section
/-! DEFINITION. What one module or one implementation fixes, and the free values: constants without a body,
of which nothing in Lean can prove a value. Each has a row of the assumption log. -/

namespace Sys2Proof

/-- The module serial number, fused at module test (GLB_SERIAL). Free: log 3. -/
opaque Config.serial : BitVec 64

/-- A fresh value for each place where the spec leaves one open and the machine goes on; applied to
`State.free`. Free: log 4. -/
opaque Config.freeWord : Nat → BitVec 64

/-- The 64-bit block signature of R87, whose function the spec does not give. Free: log 5. -/
opaque Config.signature : List Nat → BitVec 64

/-- The compressor lane that coded a block, which R86 leaves open; taken modulo 8. Free: log 6. -/
opaque Config.lane : Nat → Nat

/-- Pages a section takes for its directories beyond its streams and tables (R51), for so many strips. Free: log 7. -/
opaque Config.dirPages : Nat → BitVec 8

/-- The error of the estimator's fixed-point evaluation (R191), a relative error below 2^-40; bounded where
it is used. Free: log 9. -/
opaque Config.estError : Nat → Int

/-- One channel value of a scaled S1 or S2 pixel: R287 gives no coefficients. Applied to the input line
samples, the factor and the output coordinate. Free: log 10. -/
opaque Config.scaled : List Nat → Nat → Nat → Nat

/-- The Ibrik coding of an S1 buffer's pixels (R288), whose arrangement into planes the spec does not give: of the
pixel bytes, the output width and the effort level. Free: log 39. -/
opaque Config.captureCode : List (BitVec 8) → Nat → Nat → List (BitVec 8)

/-- The settings digest input that R324 takes over the active bar geometry, whose byte order the spec does
not give. Free: log 11. -/
opaque Config.geomBytes : List Int → List Nat

/-- The activate counts of refresh management that the memory declares (R459): the count at which an RFM is issued, the
greatest count up to which it may wait, and what a refresh takes off the count. Free: log 43. -/
opaque Config.rfmCount : Nat
opaque Config.rfmMax : Nat
opaque Config.rfmRefresh : Nat

/-- A byte of the pattern of the training generator (R462): of its kind, its seed, the burst and the byte in it. Free: log 159. -/
opaque Config.prbsByte : Nat → Nat → Nat → Nat → BitVec 8

/-- The row of every bank that VERIFY and COMMIT write and read on a channel (R462), which the spec does not name. Free: log 159. -/
opaque Config.verifyRow : Nat → BitVec 17

end Sys2Proof
end

