-- ==== Sys2Proof/Machine/Map.lean ====
section
/-! DEFINITION. Sparse maps in one canonical form: keys strictly rising, no entry equal to what an unlisted
key reads as. The register file, the memories and the larger tables are such maps. -/

namespace Sys2Proof.Machine

/-- A list of (key, value) pairs. -/
abbrev SMap (α : Type) := List (Nat × α)

/-- The entry listed at a key, if one is. -/
def SMap.find? {α : Type} (k : Nat) : SMap α → Option α
  | [] => none
  | (j, v) :: t => if j = k then some v else SMap.find? k t

/-- The value at a key, `d` where none is listed. -/
def SMap.get {α : Type} (d : α) (k : Nat) (m : SMap α) : α := (m.find? k).getD d

/-- The map without a key. -/
def SMap.del {α : Type} (k : Nat) : SMap α → SMap α
  | [] => []
  | (j, v) :: t => if j = k then t else (j, v) :: SMap.del k t

/-- The map with a value listed at a key, in rising order of keys. -/
def SMap.ins {α : Type} (k : Nat) (v : α) : SMap α → SMap α
  | [] => [(k, v)]
  | (j, w) :: t => if k < j then (k, v) :: (j, w) :: t else if j = k then (k, v) :: t else (j, w) :: SMap.ins k v t

/-- Writing `v` at a key of a map that reads as `d` where nothing is listed: writing `d` removes the entry. -/
def SMap.put {α : Type} [DecidableEq α] (d : α) (k : Nat) (v : α) (m : SMap α) : SMap α :=
  if v = d then m.del k else m.ins k v

/-- Keys strictly rise. -/
def SMap.sorted {α : Type} : SMap α → Bool
  | [] => true
  | [_] => true
  | (j, _) :: (k, v) :: t => decide (j < k) && SMap.sorted ((k, v) :: t)

/-- The canonical form of a map that reads as `d` where nothing is listed. -/
def SMap.wf {α : Type} [DecidableEq α] (d : α) (m : SMap α) : Bool :=
  m.sorted && m.all fun e => decide (e.2 ≠ d)

/-- Device DRAM or flash: bytes by address (R443, R539). -/
abbrev Memory := List Host.Cell

/-- What a byte of device DRAM that nothing has written reads as (DESIGN CHOICE: log 12). -/
def Memory.dramFill : Byte := 0

/-- What a byte of erased flash reads as (R539). -/
def Memory.flashFill : Byte := 0xFF

/-- One byte of a memory. -/
def Memory.read (fill : Byte) (m : Memory) (a : Nat) : Byte := SMap.get fill a m

/-- A memory after one byte is written. -/
def Memory.write (fill : Byte) (m : Memory) (a : Nat) (b : Byte) : Memory := SMap.put fill a b m

/-- A memory after a run of bytes is written in ascending address order. -/
def Memory.writes (fill : Byte) (m : Memory) (a : Nat) : Bytes → Memory
  | [] => m
  | b :: t => Memory.writes fill (Memory.write fill m a b) (a + 1) t

/-- A run of `n` bytes from an address. -/
def Memory.reads (fill : Byte) (m : Memory) (a : Nat) : Nat → Bytes
  | 0 => []
  | n + 1 => Memory.read fill m a :: Memory.reads fill m (a + 1) n

/-- The canonical form of a memory. -/
def Memory.wf (fill : Byte) (m : Memory) : Bool := SMap.wf fill m

/-- Element `i` of a list changed by `f`; nothing changed where there is no such element. -/
def upd {α : Type} (i : Nat) (f : α → α) : List α → List α
  | [] => []
  | a :: t => match i with
    | 0 => f a :: t
    | j + 1 => a :: upd j f t

end Sys2Proof.Machine
end

