-- ==== Sys2Proof/Machine/State.lean ====
section
/-! DEFINITION. The state of the NLS-8824-M as plain data, and its value after reset. Register words live in
`State.regs` (keyed by BAR0 offset, unlisted = reset value); what a status register shows of the machine's own
working state lives in the typed fields below and is shown by Machine/Views.lean. -/

namespace Sys2Proof.Machine

/-- Device states (R418). -/
inductive DevState where
  | dark | firstLight | standby | printing | held
  deriving DecidableEq, Repr

/-- A completion's origin: the ring, the position and the header of the descriptor (R371, R380), and how often the host link
had been lost when it was taken (R349). -/
structure Ctx where
  ring : Nat
  index : Nat
  opcode : Nat
  tag : Nat
  irq : Bool
  v1 : Bool
  gen : Nat
  deriving DecidableEq, Repr

/-- A raise on its way to Lantern (R390): source, class as raised (1 C, 2 U, 3 F), instances, action code,
detail, forced, and when it reached Lantern. -/
structure Raise where
  src : Nat
  cls : Nat
  inst0 : Nat
  inst1 : Nat
  action : Nat
  detail : Word
  forced : Bool
  at' : Instant
  deriving DecidableEq, Repr

/-- A twin link frame (R318). -/
inductive TwMsg where
  | hello (h : Hello)
  | hb (h : HbInfo)
  | announce (e : List AnnEntry)
  | change (id : Nat) (line : Option Line) (body : ChangeBody)
  | vote (id : Nat) (yes : Bool) (reason : Nat)
  | decide (id : Nat) (commit : Bool)
  | data (sec plane strip offset : Nat) (payload : Bytes)
  | ckpt (body : CkptBody) (through : Nat)
  | check (body : CheckBody)
  | give (reason : Nat)
  | join (line : Line)
  deriving DecidableEq, Repr

/-- The levels of the display lands in one clock of DISP_PCLK (R522, R523). -/
structure DispClock where
  rgb : List Nat
  de : Bool
  hs : Bool
  vs : Bool
  deriving DecidableEq, Repr

/-- One display line: whether the outputs change on the falling edge of DISP_PCLK, and its clocks in order (R522, R523). -/
structure DispLine where
  falling : Bool
  clocks : List DispClock
  deriving DecidableEq, Repr

/-- The monitored rails and regions (R565). -/
inductive Rail where
  | v3p3 | vdd1 | vdd2h | vdd2l | vddq | core | serdes | memory
  deriving DecidableEq, Repr

/-- What leaves the block: link frames, host-memory writes, interrupts, pins, network frames,
I2C writes, display lines and rails, in the order in which they leave. What leaves a link is given in bytes and as the blocks on its
lane, bit 0 of a block first (R219, R220). -/
inductive Output where
  | linkFrame (p : Nat) (frame : Bytes) (lane : List (BitVec 130))
  | idle (p : Nat) (block : Bytes) (lane : BitVec 130)
  | trainBlock (p : Nat) (block : Bytes) (lane : BitVec 130)
  | electricalIdle (p : Nat)
  | hostWrite (addr : Nat) (bytes : Bytes) (relaxed : Bool)
  | aer
  | hostRead (addr len : Nat)
  | msix (addr : BitVec 64) (data : Word)
  | pin (pin : OutPin) (active : Bool)
  | twinAlive (level : Bool)
  | ssiClock (edges : List (Nat × Bool))
  | i2c (c speed dev regBytes reg dataBytes data : Nat)
  | netFrame (frame : Bytes)
  | displayLine (frame line : Nat) (rgb : List Nat) (lands : DispLine)
  | dramRead (src : Nat) (bytes : Bytes)
  | dramCommand (c op rank arg : Nat)
  | pgood (high : Bool)
  | rail (r : Rail) (on : Bool)
  | display (on : Bool) (lands : DispClock)
  deriving DecidableEq, Repr

/-! ### Lantern -/

/-- A source's previous FAULT record, for merging (R410). -/
structure PrevRec where
  src : Nat
  inst0 : Nat
  inst1 : Nat
  cls : Nat
  at' : Instant
  merged : Nat
  deriving DecidableEq, Repr

/-- One fault class (R394 to R401): RAISED, instant of the last restart of its quiet timer, EVENT-ring
position of its newest record (ring, entry count since enable), and whether a record of it was dropped since it became RAISED. -/
structure ClassState where
  raised : Bool
  since : Instant
  newest : Option (Nat × Nat)
  dropped : Bool
  deriving DecidableEq, Repr

/-- Lantern (R390 to R413); `early` is the instant and the classes of the newest acknowledgement that took effect ahead of a raise (R396). -/
structure Lantern where
  raises : List Raise
  classes : List ClassState
  fHold : Bool
  uFaultN : Bool
  prev : List PrevRec
  seq : BitVec 16
  fatalAt : Option Instant
  fatalPrinting : Bool
  early : Option (Instant × Word)
  deriving DecidableEq, Repr

/-! ### Device, power and clocks -/

/-- Device state, start-up and stop (R418 to R433); the stop line in force, and the one that GLB_STOP_LINE shows. -/
structure Device where
  dev : DevState
  locked : Bool
  factoryLoading : Bool
  factoryLoaded : Bool
  factoryOk : Bool
  factoryStep : Nat
  flStep : Nat
  stoReady : Bool
  stopLine : Option Line
  stopShown : Line
  warm : Bool
  lossReset : Bool
  deriving DecidableEq, Repr

/-- Where the supply sequence stands (R567 to R570). -/
inductive Rails where
  | off | rising | inWindow | falling | retryWait
  deriving DecidableEq, Repr

/-- Supplies, power pins and the supply monitor, with its last sample (R553, R563, R567 to R570). -/
structure Power where
  rails : Rails
  pwrEn : Bool
  vinUp : Bool
  pgood : Bool
  dieHeld : Bool
  resetN : Bool
  riseHeld : Bool
  vinLowRun : Nat
  vinOkRun : Nat
  vinLowRaised : Bool
  vinAt : Option Instant
  deriving DecidableEq, Repr

/-- A register write waiting in a crossing (R484). -/
structure PendWrite where
  off : Nat
  value : Word
  since : Instant
  deriving DecidableEq, Repr

/-- Where a crossing's resynchronisation stands (R490). -/
inductive Resync where
  | running | waiting
  deriving DecidableEq, Repr

/-- One crossing of R489: writes pending, an event pending, stream words held, resynchronisation. -/
structure Crossing where
  writes : List PendWrite
  words : Nat
  sync : Resync
  afterTimeout : Bool
  deriving DecidableEq, Repr

/-- Clocks, PLL locks and crossings (R473 to R490). -/
structure Clocks where
  rootLock : Bool
  pcieUp : Bool
  pixLock : Bool
  refOk : Bool
  xings : List Crossing
  deriving DecidableEq, Repr

/-! ### Host interface -/

/-- A ring's state (R359). -/
inductive RingState where
  | disabled | running | stopped
  deriving DecidableEq, Repr

/-- A completion that waits to be written (R363, R380). -/
structure Completion where
  ctx : Ctx
  status : Nat
  result : BitVec 56
  deriving DecidableEq, Repr

/-- One host ring (R357 to R369, R387): state, stop reason, device index, accepted host index and kick_seq,
pass count of the phase bit, entries written since enable, descriptors in flight, completions that wait for it, descriptors of a CAPTURE ring read and not yet taken, EVENT records dropped, entries and instant since the last signal, status-block entry due, kick_seq of the last refused doorbell entry. -/
structure Ring where
  st : RingState
  reason : Nat
  dev : Nat
  acc : Nat
  kick : Word
  phase : Bool
  written : Nat
  inflight : Nat
  waiting : List Completion
  bufs : List Bytes
  lost : Nat
  unsignalled : Nat
  unsigAt : Instant
  dirty : Bool
  badKick : Option Word
  deriving DecidableEq, Repr

/-- The interrupt sources of R388 that have a status register; the twin chapter gives none (log 16). -/
inductive IrqSrc where
  | lantern | meridian | eyepiece | time | device
  deriving DecidableEq, Repr

/-- The host interface (R346 to R389). `reading` says that a read of the doorbell block is in flight, `again` that a kick
has come during it; `gen` counts the losses of the link and the warm resets, which abandon the descriptors in flight; `turn` is the SUBMIT ring served last, `busyAt` when the link last carried anything, `pend` what
each pending MSI-X vector is to signal, none of them a ring's. -/
structure Host' where
  rings : List Ring
  dlUp : Bool
  l1 : Bool
  d3hot : Bool
  cfg : PcieCfg
  turn : Nat
  busyAt : Instant
  pend : List (Nat × Option IrqSrc)
  reading : Bool
  again : Bool
  pollAt : Instant
  gen : Nat
  deriving DecidableEq, Repr

/-! ### Raster store -/

/-- A plane's kind and resolutions (R43, R45). -/
structure Plane where
  contone : Bool
  xres : Nat
  yres : Nat
  deriving DecidableEq, Repr

/-- One coded block of a strip as the strip directory records it (R76, R94). -/
structure Block where
  off : Nat
  firstLine : Nat
  lines : Nat
  target : Option Nat
  sig : Option (BitVec 64)
  deriving DecidableEq, Repr

/-- One strip of a plane: its stream, its block directory, and whether the anchor table passes its CRC (R52,
R85, R94). In State the stream is what was stored; what the device DRAM holds of it now is what `State.section` reads. -/
structure Strip where
  stream : Bytes
  blocks : List Block
  anchorsOk : Bool
  deriving DecidableEq, Repr

/-- The saved codec state of one strip (R58): last coded line, adaptation state, lines of the unfinished
block. -/
structure Codec where
  lastLine : List Nat
  adapt : Option (Nat × Nat)
  held : List (List Nat)
  deriving DecidableEq, Repr

/-- The stored data of one plane (R49, R56 to R61): next expected line, strips, saved codec states and
whether their CRC holds. -/
structure PlaneData where
  next : Nat
  strips : List Strip
  codec : List Codec
  codecOk : Bool
  deriving DecidableEq, Repr

/-- A section's state (R47); FREE sections are not listed. -/
inductive SecState where
  | opened | sealed'
  deriving DecidableEq, Repr

/-- One section (R42 to R52). `table` is its page table: page i of its own address space lies in page `table[i]` of the
region. -/
structure Section' where
  st : SecState
  width : Nat
  height : Nat
  planes : List Plane
  data : List PlaneData
  table : List Nat
  deriving DecidableEq, Repr

/-- One placement (R64 to R74): handle, section, mode (true NEXT), given start, count, pitch, column origin,
plane map, resolved start line, fixed end line, its PLACE. -/
structure Placement where
  handle : Nat
  sec : Nat
  isNext : Bool
  given : Line
  repeats : Nat
  pitch : Nat
  origin : Nat
  map : BitVec 32
  start : Option Line
  fin : Option Line
  ctx : Option Ctx
  deriving DecidableEq, Repr

/-- A bar group: placements in queue order, the running one first once it has started, placements replaced or ended that still
refer to their section (R50, R66, R70), and those that no longer do but whose boundaries an ITEM compare may still look for
(R210). -/
structure Group where
  queue : List Placement
  running : Bool
  old : List Placement
  past : List Placement
  deriving DecidableEq, Repr

/-- A group with nothing queued, run or ended. -/
def Group.reset : Group := ⟨[], false, [], []⟩

/-- The raster store (R42 to R97). -/
structure Store where
  sections : SMap Section'
  groups : List Group
  handle : Nat
  deriving DecidableEq, Repr

/-! ### Transit, tables and Wick -/

/-- The value of a table: the body of its image (R132, R149, R291, R308), or correction words by nozzle index,
0x8000 where none is listed (R107). -/
inductive TabVal where
  | body (b : Bytes)
  | corr (m : SMap (BitVec 16))
  deriving DecidableEq, Repr

/-- A table in force, the line since which it is, and the pending change of its kind and target (R135). -/
structure Tab where
  kind : Nat
  target : Nat
  cur : TabVal
  since : Line
  pend : Option (Line × TabVal)
  deriving DecidableEq, Repr

/-- What a loop load is to change (R298, R300, R304): steps of gains by port nozzle index, or of offsets by patch, whether it is a
reset of the offsets, and the number of its period. -/
structure LoopSteps where
  reset : Bool
  steps : List (Nat × Int)
  period : Nat
  deriving DecidableEq, Repr

/-- A load that waits behind a pending change (R136): kind, target, its epoch line where that is settled (none for NEXT), first
index for CORR, body, its LOAD_TABLE (none for a loop load), and the steps of a loop load, whose body is made when it is
committed. -/
structure WaitLoad where
  kind : Nat
  target : Nat
  at' : Option Line
  first : Nat
  body : Bytes
  ctx : Option Ctx
  loop : Option LoopSteps
  deriving DecidableEq, Repr

/-- A line begun and not yet sent (R27): its index, whether it goes out as an overspeed slot, its announced
sequence number under a twin, whether force_zero held when it was begun, ρ of R170, its codes after stage 8, and once
packed its payload and the number of substituted row slots (R122). -/
structure Begun where
  line : Line
  ovs : Bool
  seq : Option (BitVec 32)
  zero : Bool
  rho : Rat
  codes : List (BitVec 3)
  packed : Option (Bytes × Nat)
  deriving DecidableEq, Repr

/-- Where a pipeline's decompressor stands in the strips of a plane (R92 to R94): the placement or strip activity and the
repetition that it decodes, the source row from which it has decoded forward, and the last row that it has decoded. -/
structure Decoder where
  owner : Nat
  rep : Nat
  sec : Nat
  plane : Nat
  seek : Nat
  row : Nat
  deriving DecidableEq, Repr

/-- One Transit pipeline (R98 to R130): the instants at which R27 last let it begin lines (newest first), lines begun and waiting, highest line begun since reset, highest line
sent or passed, delay memory (newest first), next line fixed at entry to PRINTING, priming, line of the send decision before,
highest line sent since reset, whether the web has moved back since it was sent (R22), decompressor. -/
structure Pipe where
  opens : List Instant
  begun : List Begun
  highest : Option Line
  passed : Option Line
  first : Option Line
  delay : List (Line × List (BitVec 3))
  priming : Bool
  running : Bool
  lastSent : Option (Line × Time)
  sent : Option Line
  back : Bool
  dec : Option Decoder
  deriving DecidableEq, Repr

/-- A head's temperature state (R162), the head-blank bit and band that apply now, and the results that apply
from a later line (R163, R165). -/
structure Head where
  temp : BitVec 16
  stale : Bool
  hot : Bool
  derate : Bool
  band : Nat
  quiet : Nat
  valid : Bool
  reportAt : Instant
  blank : Bool
  useBand : Nat
  results : List (Line × Bool × Nat)
  deriving DecidableEq, Repr

/-- Why a wave bank is being written (R154, R155, R159). -/
inductive WavePurpose where
  | load (at' : Option Line) (ctx : Option Ctx)
  | afterCaps
  | reload (ctx : Option Ctx)
  deriving DecidableEq, Repr

/-- A bank write to an HDM, and when its last WAVE link frame left (R157, R246 to R248). -/
structure WaveWrite where
  bank : Bool
  body : Bytes
  purpose : WavePurpose
  sent : Bool
  lastAt : Option Instant
  deriving DecidableEq, Repr

/-- Wick's state of one port (R154 to R170). `loaded` says that a WAVE load has been committed since the last reset (R160), `spare`
is the table that the HDM has acknowledged into the bank not in use, and `named` the bank that the last LINE link frame named. -/
structure WickPort where
  bank : Bool
  bankAcked : Bool
  loaded : Bool
  bankFrom : Option (Line × Bool)
  write : Option WaveWrite
  heads : List Head
  ovs : Bool
  ovsU : Bool
  ovsAt : Instant
  bankFire : List (Option (Time × Nat))
  spare : Option Bytes
  named : Bool
  deriving DecidableEq, Repr

/-! ### Meridian -/

/-- A sampled input land behind its filter (R178, R179, R203): its level, the filtered level, for how many samples it has held
its level, and the MONO time and web position at the first of them. -/
structure Land where
  level : Bool
  out : Bool
  run : Nat
  since : Time
  pos : Pos
  deriving DecidableEq, Repr

/-- One encoder input (R178 to R182); `run` is for how many samples A and B have held their present state (R181). -/
structure Encoder where
  a : Land
  b : Land
  z : Land
  counts : BitVec 32
  lastUp : Option Bool
  illegal : Nat
  window : Instant
  sinceIndex : Int
  indexDir : Option Bool
  run : Nat
  deriving DecidableEq, Repr

/-- The SSI port (R184 to R189): transfer in progress, the instant before which no transfer starts, a request held, ENC0
position and instant of the reading's time, when the present period began, a load pending, reference difference, newest word
(MER_SSI_RAW). -/
structure Ssi where
  busy : Bool
  until' : Instant
  held : Bool
  startPos : BitVec 64
  startAt : Instant
  periodAt : Instant
  loadPending : Bool
  dref : Option Int
  raw : Nat
  deriving DecidableEq, Repr

/-- The bar geometry (R193): bar offsets, port offsets, head origins and row delays (D, s). -/
structure Geometry where
  bars : List Nat
  ports : List Int
  origins : List (List Int)
  rows : List (List (List (Nat × Nat)))
  deriving DecidableEq, Repr

/-- One latch result (R204): trigger, position, time. -/
structure LatchResult where
  trig : Nat
  pos : Pos
  mono : Time
  deriving DecidableEq, Repr

/-- One compare unit (R206 to R210): its target (an ITEM compare may have none), the position above which an ITEM compare
looks for its next target, the offset that the arm took, and whether the web has reached the target. -/
structure Compare where
  target : Option Pos
  above : Option Pos
  offset : Word
  due : Bool
  deriving DecidableEq, Repr

/-- The speed estimate in force (R191, R192): newest point (its position Q48.16), v and a. -/
structure Estimate where
  stopped : Bool
  t0 : Time
  x0 : BitVec 64
  v : Rat
  a : Rat
  deriving DecidableEq, Repr

/-- Meridian (R175 to R211). Position is Q48.16 (R176). `latchDue` holds the triggers of each latch unit that it has not
yet recorded, `latchIn` the LATCH_IN land of each unit behind the unit's filter; `strobes`, `camtrigs` and `tpulses` say since when each output is active. -/
structure Meridian where
  pos : BitVec 64
  loaded : Bool
  encs : List Encoder
  points : List (Time × BitVec 64)
  tickPoint : Option (Time × BitVec 64)
  est : Estimate
  ssi : Ssi
  slipStart : BitVec 64
  slipAux : BitVec 64
  aux : BitVec 64
  geom : Geometry
  latches : List (List LatchResult)
  latchDue : List (List LatchResult)
  latchIn : List Land
  cmps : List Compare
  strobes : List (Option Instant)
  camtrigs : List (Option Instant)
  tpulses : List (Option Instant)
  deriving DecidableEq, Repr

/-! ### Gahild links -/

/-- Link states (R225 to R231). -/
inductive LinkState where
  | down | detect | train | lock | caps | active | retrain
  deriving DecidableEq, Repr

/-- Head geometry of a port (R598). -/
structure HeadGeom where
  heads : Nat
  rows : Nat
  nozzles : Nat
  deriving DecidableEq, Repr

/-- A control frame not yet acknowledged (R255). -/
structure CtlFrame where
  seq : BitVec 32
  frame : Bytes
  sentAt : Instant
  resends : Nat
  deriving DecidableEq, Repr

/-- Training handshake counters (R225); `final` says that this end sends TS-B. -/
structure Training where
  preset : Nat
  wanted : Nat
  tries : Nat
  ready : Bool
  readySeen : Nat
  tsbRecv : Nat
  tsbSent : Nat
  final : Bool
  deriving DecidableEq, Repr

/-- A receiver's run of blocks (R222, R231): consecutive valid sync headers, consecutive valid IDLE blocks, and how many blocks
ago each invalid block of the last 1,024 came. -/
structure Receiver where
  headers : Nat
  idles : Nat
  bad : List Nat
  deriving DecidableEq, Repr

/-- One link: a head port, or a twin port up to LOCK (R218, R222 to R259). `version` is 0 outside an exchange and ACTIVE; `proto`
is the version that the last exchange settled, which lines are packed for (R127); `lastSeq` is the sequence number of the last LINE link frame sent, and `quiesced` says that CTRL
QUIESCE has left (R221, R260), `timed` that a time epoch has been set (R238); `ctlExpected` is the control sequence number that a twin port accepts next (R255, R320). -/
structure Link where
  st : LinkState
  since : Instant
  cold : Bool
  maxVer : Nat
  reason : Nat
  busy : Bool
  laShort : Bool
  capsBad : Bool
  dual : Bool
  version : Nat
  proto : Nat
  rate : Nat
  lock : Bool
  train : Training
  fails : List Instant
  capsFirst : Option Bytes
  syncs : List (Int × Time)
  syncWait : Option (Nat × Time × Bool)
  epochId : Nat
  epoch : Time
  delay : Nat
  lmin : Nat
  syncAt : Instant
  windowAt : Instant
  geom : Option HeadGeom
  fireEff : Nat
  geomSent : Bool
  ctlNext : BitVec 32
  ctlExpected : BitVec 32
  ctlAck : Option (BitVec 32)
  unacked : List CtlFrame
  queued : List Bytes
  timed : Bool
  lineNext : BitVec 32
  sentActive : Bool
  lastSeq : BitVec 32
  quiesced : Bool
  rx : Receiver
  lineAck : Option (BitVec 32)
  statNext : Option (BitVec 32)
  statAt : Instant
  naks : Nat
  viols : Nat
  lfsr : BitVec 23
  deriving DecidableEq, Repr

/-! ### Photometer -/

/-- An open camera frame (R269 to R279): number, latched position and time, exposure position, identifier, flags, lines
received, whether S2 writes it, the S1 buffer it fills (with its address and length), and its last packet. -/
structure CamFrame where
  number : BitVec 16
  pfs : Pos
  mono : Time
  pexp : Pos
  expId : Nat
  flags : BitVec 7
  rows : List (List Nat)
  writeS2 : Bool
  s1 : Option (Ctx × Nat × Nat)
  lastAt : Instant
  shortRaised : Bool
  longRaised : Bool
  deriving DecidableEq, Repr

/-- A committed exposure set, and whether the window in which it was committed has closed (R273, R274). -/
structure ExpSet where
  set : Nat
  id : Nat
  closed : Bool
  deriving DecidableEq, Repr

/-- Black-level calibration in progress (R307): the dark set and its identifier, the frames taken, sums and counts by
site type, the set to restore, and whether it has been committed again. -/
structure BlackCal where
  dark : Nat × Nat
  frames : Nat
  sums : List Nat
  counts : List Nat
  restore : Nat × Nat
  restoring : Bool
  deriving DecidableEq, Repr

/-- One camera port (R263 to R290): `waiting` are the commits not yet written, oldest first, and `held` counts the received lines that
the streams have not yet taken (R279). -/
structure Camera where
  deskewed : Bool
  frame : Option CamFrame
  nextNo : BitVec 16
  started : Bool
  lastFlags : BitVec 7
  active : Nat × Nat
  waiting : List ExpSet
  sending : Option ExpSet
  written : Option ExpSet
  uncertain : Bool
  second : Bool
  black : Option BlackCal
  calib : Bool
  held : Nat
  deriving DecidableEq, Repr

/-- Samples gathered for one nozzle or patch: key, sum and number (R298, R300). -/
structure Samples where
  port : Nat
  idx : Nat
  sum : Rat
  n : Nat
  deriving DecidableEq, Repr

/-- The colour loop (R297 to R306, R412): contributions by nozzle and by patch, offsets δ, the host's curves, g_ref, bars under reset,
loop holds, when the period began, the loop's own committed loads (kind, target, epoch line), the epoch line of its newest update,
that of the loads of the present period, once one of them is committed (R302), the number of the present period, and the numbers of
those for which PHO.LOOP_LIMIT has been raised (R305). -/
structure Loop where
  gains : List Samples
  tones : List Samples
  delta : List (List Int)
  base : List (Option Bytes)
  gref : List (SMap (BitVec 8))
  gainReset : BitVec 8
  toneReset : BitVec 8
  holds : List (Nat × Instant)
  periodAt : Instant
  own : List (Nat × Nat × Line)
  epoch : Line
  line : Option Line
  period : Nat
  limited : List Nat
  deriving DecidableEq, Repr

/-- The Photometer (R263 to R309). -/
structure Photometer where
  cams : List Camera
  loop : Loop
  deriving DecidableEq, Repr

/-! ### Twin -/

/-- Roles (R311). -/
inductive Role where
  | none | primary | standby | secondary
  deriving DecidableEq, Repr

/-- Pair states (TWN_STATUS). -/
inductive PairState where
  | unpaired | pairing | paired | detached
  deriving DecidableEq, Repr

/-- A change under agreement (R328): identifier, epoch line, what it asks, when sent or voted, its descriptor and
that descriptor's result, for an ingest the section as it was before it (R330), and whether it is an AT load of the host (R329). -/
structure Proposal where
  id : Nat
  line : Option Line
  body : ChangeBody
  since : Instant
  ctx : Option Ctx
  result : Nat
  undo : Option (Nat × Option Section')
  isAt : Bool
  deriving DecidableEq, Repr

/-- The latest valid checkpoint held or made, the one under way, its journal by change identifier, the number of the newest, the newest
change that it holds, and when it was begun (R332 to R335). -/
structure CkptStore where
  body : Option CkptBody
  building : Option CkptBody
  journal : List (Nat × Option Line × ChangeBody)
  journalBytes : Nat
  number : Word
  through : Nat
  at' : Instant
  deriving DecidableEq, Repr

/-- What the partner has reported of the HDM on a port (R317, R326): serial, HDM port, version. -/
structure HdmId where
  serial : BitVec 64
  hdmPort : Nat
  version : Nat
  deriving DecidableEq, Repr

/-- What a joining module had before pairing gave it anything, to go back to where pairing fails (R323): `waves` are the wave table in
force on each port and whether a load has been committed on it, `seqs` the numbering of each port, `enabled` the Gahild ports enabled,
`shift` what alignment has added to the web position. -/
structure Before where
  sto : Store
  mem : Memory
  tabs : List Tab
  geom : Geometry
  gref : List (SMap (BitVec 8))
  delta : List (List Int)
  base : List (Option Bytes)
  settings : List Word
  waves : List (Bytes × Bool)
  seqs : List (BitVec 32 × Option Line)
  enabled : List Bool
  shift : BitVec 64
  deriving DecidableEq, Repr

/-- What a module keeps of its last pair while it pairs, to go back to where pairing fails: checkpoint and journal, the line that
TWN_CKPT_LINE shows, and the partner's HDMs (R323, R334). -/
structure Kept where
  ckpt : CkptStore
  line : Line
  peers : List (Nat × HdmId)
  deriving DecidableEq, Repr

/-- A chunk received of a CHANGE or of a checkpoint (R318): frame type, what it belongs to, whole length, offset and bytes. -/
structure Chunk where
  type : Nat
  id : Nat
  total : Nat
  offset : Nat
  bytes : Bytes
  deriving DecidableEq, Repr

/-- The twin block (R310 to R345). `prior` is the role held before pairing, `peerState` the partner's device state in its
last heartbeat, `since` is when the present pairing step began, `seen` the identifiers of the newest changes received, `unvoted` the ingests
whose DATA is still to come, `staged` the DATA received and not yet part of a section (section, plane, strip, offset, bytes), `chunks`
those received of CHANGE and CKPT records, `waiting` the frames that no twin port could send, `fires` the newest send decisions (port,
sequence number, fire time in HDM time, row delay unit), `joinShown` and `ckptLine` what TWN_JOIN and TWN_CKPT_LINE show, `entering` that
a module that has taken over in COLD has still to enter PRINTING, `edgeAt` the last edge on TWIN_ALIVE_IN, `greeting` a HELLO heard and
not yet judged, `turn` the port that the next spread frame takes (R320), `ids` the newest committed change of each table and group with
its identifier (R333). -/
structure Twin where
  role : Role
  prior : Role
  peerState : Nat
  before : Option Before
  pair : PairState
  step : Nat
  since : Instant
  joining : Bool
  fail : Nat
  version : Nat
  hbAt : Instant
  aliveAt : Instant
  aliveOut : Bool
  hbBroken : Bool
  index : Option (Pos × Time)
  peerIndex : Option Pos
  lastId : Nat
  seen : List Nat
  unvoted : List (Nat × Option Line × ChangeBody)
  proposals : List Proposal
  held : List Proposal
  anns : List AnnEntry
  joinLine : Option Line
  joinShown : Line
  ckptLine : Line
  firePort : Nat
  fires : List (Nat × BitVec 32 × Time × Nat)
  tookOver : Option Role
  noRejoin : Bool
  ckpt : CkptStore
  resync : List Nat
  entering : Bool
  edgeAt : Option Instant
  waiting : List Bytes
  chunks : List Chunk
  staged : List (Nat × Nat × Nat × Nat × Bytes)
  peers : List (Nat × HdmId)
  kept : Option Kept
  greeting : Option Hello
  turn : Nat
  ids : List (Nat × Option Line × ChangeBody)
  deriving DecidableEq, Repr

/-! ### Lamplighter -/

/-- Who asked for an activity (R437). -/
inductive ActSource where
  | maint (ctx : Ctx)
  | register
  | schedule
  deriving DecidableEq, Repr

/-- A Lamplighter activity (R435 to R441): code, target, origin, arrival, whether it was deferred, epoch line,
parameter. A running SPIT has `left` gap lines to print from line `base` on; a running STRIP prints under the placement
of handle `left` and ends at line `base`. -/
structure Activity where
  code : Nat
  target : Nat
  src : ActSource
  since : Instant
  deferred : Bool
  line : Option Line
  param : Bytes
  left : Nat
  base : Line
  deriving DecidableEq, Repr

/-- Lamplighter (R434 to R441). -/
structure Lamplighter where
  running : List Activity
  queue : List Activity
  retrainNext : Nat
  zqAt : Instant
  retrainAt : Instant
  deriving DecidableEq, Repr

/-! ### DRAM controller -/

/-- A queued request (R445 to R449), numbered in the order of acceptance. A read carries the data that it returns. -/
structure DramReq where
  tag : Nat
  src : Nat
  write : Bool
  addr : Nat
  bursts : Nat
  payload : Bytes
  since : Instant
  deriving DecidableEq, Repr

/-- One bank of one rank (R454, R459 to R461): open row, row last closed, predictor, whether the last request queued to the
open row has been served, rolling activate count, tracker, throttled sources with their last activate. -/
structure Bank where
  openRow : Option Nat
  lastRow : Option Nat
  pred : Nat
  settled : Bool
  acts : Nat
  tracker : List (Nat × Nat)
  throttled : List (Nat × Instant)
  deriving DecidableEq, Repr

/-- One channel (R449 to R471): queues, banks (16 to a rank), postponed refreshes of the bank pairs (8 to a rank), the lower
band last read plus 1, readings left of the hold after band 5, a higher band that waits for the next refresh, mode register
values (by 128·rank + address), the training step that runs, with its rank and start, since when a ZQ latch is due, the periodic retrain, when each bank pair was
last refreshed and the temperatures last read, when a refresh last fell due, and the bank pairs of which one has fallen due in the interval
that runs. -/
structure Channel where
  reads : List DramReq
  writes : List DramReq
  draining : Bool
  banks : List Bank
  postponed : List Nat
  lowRun : Nat
  hotLeft : Nat
  bandUp : Option Nat
  modes : SMap (BitVec 8)
  trained : Bool
  running : Option (Nat × Nat × Instant)
  zqPending : Option Instant
  lastSlice : Option Instant
  slices : Nat
  refreshedAt : List (Option Instant)
  polledAt : Option Instant
  dueAt : Option Instant
  round : List Nat
  deriving DecidableEq, Repr

/-- Self-refresh (R469, R470). -/
inductive SelfRef where
  | active | entering | inside | exiting
  deriving DecidableEq, Repr

/-- A read accepted and not yet returned: its number, source, data, and whether its channel has served it (R448). -/
structure DramReturn where
  tag : Nat
  src : Nat
  bytes : Bytes
  served : Bool
  deriving DecidableEq, Repr

/-- The DRAM controller and the memory behind it (R442 to R471); `windowAt` is when the row-disturbance window began. -/
structure Dram where
  chans : List Channel
  windowAt : Instant
  sr : SelfRef
  next : Nat
  returns : List DramReturn
  ready : Bool
  mem : Memory
  deriving DecidableEq, Repr

/-! ### Time and network -/

/-- One pulse generator (R507 to R510): armed, its target, the period taken at arm, and since when it drives its TPULSE
land. -/
structure PulseGen where
  armed : Bool
  target : Time
  period : Nat
  active : Option Instant
  deriving DecidableEq, Repr

/-- A network frame that waits for transmission or leaves (R514): its transmit timestamp once it has begun (R517). -/
structure TxFrame where
  ctx : Ctx
  frame : Bytes
  ts : Bool
  onestep : Bool
  tsOffset : Nat
  stamp : Option Time
  deriving DecidableEq, Repr

/-- The time block and the network port (R497 to R520). NET has 32 integer and 40 fractional bits. The wraps not yet
posted, oldest first, keep MONO and NET of their cycle, and whether NET went backwards; `laps` counts the wraps of MONO since it started; `base` and `secs` are the seconds unit. -/
structure TimeBlock where
  mono : Time
  laps : Nat
  net : BitVec 72
  monoWraps : List (Time × Time)
  netWraps : List (Bool × Time × Time)
  netValid : Bool
  secValid : Bool
  base : Time
  secs : BitVec 48
  gens : List PulseGen
  txq : List (Nat × Time)
  tx : List TxFrame
  rxWait : List (Bytes × Time × Bool)
  link : Bool
  deriving DecidableEq, Repr

/-! ### Eyepiece -/

/-- A framebuffer as committed (R526, R531). -/
structure FrameBuf where
  addr : Nat
  stride : Nat
  fmt : Nat
  swap : Bool
  width : Nat
  height : Nat
  deriving DecidableEq, Repr

/-- The Eyepiece (R522 to R537); `fetched` is the line that it has fetched ahead, with its address (R530). -/
structure Eyepiece where
  line : Nat
  frame : BitVec 16
  fresh : Bool
  shown : Option FrameBuf
  pending : Option (FrameBuf × Nat)
  pastCommit : Bool
  underran : Bool
  bordered : Bool
  crc : Word
  same : Nat
  lastSig : Option Word
  frozen : Bool
  fetched : Option (Nat × Bytes)
  deriving DecidableEq, Repr

/-! ### Almanac and sensing -/

/-- The Almanac flash and the sensors (R539 to R553): the flash, ALM BUSY with a register write, the record being written
and its slot address, the neighbour offsets, runs of samples for and against suspicion, the timing-margin presets, and the
trims of the diode and of VIN (offset and gain), and the last sample of the die. -/
structure Almanac where
  flash : Memory
  busy : Bool
  job : Option (Bytes × Nat)
  ofs : List Int
  badRun : Nat
  goodRun : Nat
  suspect : Bool
  high : Bool
  fatalRun : Nat
  margin : Bytes
  vinTrim : Int × Nat
  diodeTrim : Int × Nat
  sampledAt : Option Instant
  deriving DecidableEq, Repr

/-! ### The whole machine -/

/-- The state of the block. `free` counts the free values used, `out` is what has left the block, `pending`
holds the commands that wait (the model's own fields). -/
structure State where
  regs : SMap Word
  dev : Device
  pwr : Power
  clk : Clocks
  ltn : Lantern
  lmp : Lamplighter
  hst : Host'
  sto : Store
  tabs : List Tab
  waits : List WaitLoad
  pipes : List Pipe
  wck : List WickPort
  mer : Meridian
  links : List Link
  twn : Twin
  pho : Photometer
  drm : Dram
  tim : TimeBlock
  eye : Eyepiece
  alm : Almanac
  out : List Output
  free : Nat
  pending : List Instr
  deriving DecidableEq, Repr

/-- Why the machine stops with a fault. No rule of the spec stops the block: no meaning raises one. -/
inductive Fault where
  /-- Raised by nothing; safe. -/
  | none
  deriving DecidableEq, Repr

/-- Why a command has no meaning. -/
inductive Refusal where
  /-- Raised by an arm of `exec` whose command has no meaning yet; safe. -/
  | notModelled (mnemonic : String)
  deriving DecidableEq, Repr

/-! ### Reset values (R15, R418, R430) -/

def Ring.reset : Ring :=
  ⟨.disabled, 0, 0, 0, 0, true, 0, 0, [], [], 0, 0, 0, false, none⟩

def Pipe.reset : Pipe := ⟨[], [], none, none, none, [], false, false, none, none, false, none⟩

def Head.reset : Head := ⟨0x8000, true, false, false, 0, 0, false, 0, true, 0, []⟩

def WickPort.reset : WickPort :=
  ⟨false, false, false, none, none, List.replicate 8 Head.reset, false, false, 0, [none, none], none, false⟩

def Land.reset : Land := ⟨false, false, 0, 0, 0⟩

def Encoder.reset : Encoder := ⟨Land.reset, Land.reset, Land.reset, 0, none, 0, 0, 0, none, 0⟩

def Training.reset : Training := ⟨5, 5, 0, false, 0, 0, 0, false⟩

def Link.reset : Link :=
  { st := .down, since := 0, cold := true, maxVer := 2, reason := 0, busy := false, laShort := false, capsBad := false, dual := false, version := 0, proto := 0,
    rate := 0, lock := false, train := Training.reset, fails := [], capsFirst := none, syncs := [],
    syncWait := none, epochId := 0, epoch := 0, delay := 0, lmin := 0, syncAt := 0, windowAt := 0, geom := none, fireEff := 0,
    geomSent := false, ctlNext := 0, ctlExpected := 0, ctlAck := none, unacked := [], queued := [], timed := false, lineNext := 0,
    sentActive := false, lastSeq := 0, quiesced := false, rx := ⟨0, 0, []⟩, lineAck := none, statNext := none, statAt := 0, naks := 0, viols := 0,
    lfsr := 0x1DBFBC }

def Geometry.reset : Geometry :=
  ⟨List.replicate 8 0, List.replicate 24 0, List.replicate 24 (List.replicate 8 0),
    List.replicate 24 (List.replicate 8 (List.replicate 8 (0, 0)))⟩

def Estimate.reset : Estimate := ⟨true, 0, 0, 0, 0⟩

def Meridian.reset : Meridian :=
  { pos := 0, loaded := false, encs := List.replicate 2 Encoder.reset, points := [], tickPoint := none,
    est := Estimate.reset, ssi := ⟨false, 0, false, 0, 0, 0, false, none, 0⟩, slipStart := 0, slipAux := 0, aux := 0,
    geom := Geometry.reset, latches := List.replicate 8 [], latchDue := List.replicate 8 [], latchIn := List.replicate 8 Land.reset,
    cmps := List.replicate 16 ⟨none, none, 0, false⟩,
    strobes := List.replicate 4 none, camtrigs := List.replicate 4 none, tpulses := List.replicate 8 none }

def Camera.reset : Camera :=
  { deskewed := false, frame := none, nextNo := 0, started := false, lastFlags := 0, active := (0, 0), waiting := [],
    sending := none, written := none, uncertain := false, second := false, black := none, calib := false, held := 0 }

def Loop.reset : Loop :=
  ⟨[], [], List.replicate 8 (List.replicate 8 0), List.replicate 8 none, List.replicate 24 [], 0, 0, [], 0, [], 0, none, 0, []⟩

def Twin.reset : Twin :=
  { role := .none, prior := .none, peerState := 0, before := none, pair := .unpaired, step := 0, since := 0, joining := false, fail := 0, version := 0, hbAt := 0, aliveAt := 0,
    aliveOut := false, hbBroken := false, index := none, peerIndex := none, lastId := 0, seen := [], unvoted := [],
    proposals := [], held := [], anns := [], joinLine := none, joinShown := 0, ckptLine := 0, firePort := 0, fires := [], tookOver := none, noRejoin := false,
    ckpt := ⟨none, none, [], 0, 0, 0, 0⟩, resync := [], entering := false, edgeAt := none, waiting := [], chunks := [], staged := [], peers := [],
    kept := none, greeting := none, turn := 0, ids := [] }

def Bank.reset : Bank := ⟨none, none, 1, true, 0, [], []⟩

def Channel.reset : Channel :=
  { reads := [], writes := [], draining := false, banks := List.replicate 32 Bank.reset, postponed := List.replicate 16 0,
    lowRun := 0, hotLeft := 0, bandUp := none, modes := [], trained := false, running := none, zqPending := none, lastSlice := none, slices := 0,
    refreshedAt := List.replicate 16 none, polledAt := none, dueAt := none, round := [] }

def TimeBlock.reset : TimeBlock :=
  { mono := 0, laps := 0, net := 0, monoWraps := [], netWraps := [], netValid := false, secValid := false, base := 0, secs := 0,
    gens := List.replicate 8 ⟨false, 0, 0, none⟩, txq := [], tx := [], rxWait := [], link := false }

def Eyepiece.reset : Eyepiece :=
  ⟨0, 0, true, none, none, false, false, false, 0xFFFFFFFF, 0, none, false, none⟩

def Almanac.reset : Almanac :=
  ⟨[], false, none, [0, 0, 0], 0, 0, false, false, 0, [], (0, 0x8000), (0, 0x8000), none⟩

def ClassState.reset : ClassState := ⟨false, 0, none, false⟩

/-- The machine right after reset (R424 step 3, R430): powered, RESET_N released, in FIRST_LIGHT, the root PLL
not yet locked, every register at its reset value, nothing waiting. -/
def State.reset : State :=
  { regs := []
    dev := { dev := .firstLight, locked := false, factoryLoading := false, factoryLoaded := false, factoryOk := false,
             factoryStep := 0, flStep := 3, stoReady := false, stopLine := none, stopShown := 0, warm := false,
             lossReset := false }
    pwr := { rails := .inWindow, pwrEn := true, vinUp := true, pgood := true, dieHeld := false, resetN := true,
             riseHeld := false, vinLowRun := 0, vinOkRun := 0, vinLowRaised := false, vinAt := none }
    clk := { rootLock := false, pcieUp := false, pixLock := false, refOk := false,
             xings := List.replicate 40 ⟨[], 0, .running, false⟩ }
    ltn := ⟨[], List.replicate 3 ClassState.reset, false, false, [], 0, none, false, none⟩
    lmp := ⟨[], [], 0, 0, 0⟩
    hst := { rings := List.replicate 64 Ring.reset, dlUp := false, l1 := false, d3hot := false,
             cfg := ⟨.x1, .gt2, .b128, .b512, false, false, false, false, false⟩, turn := 63, busyAt := 0, pend := [], reading := false, again := false, pollAt := 0, gen := 0 }
    sto := ⟨[], List.replicate 4 Group.reset, 0⟩
    tabs := []
    waits := []
    pipes := List.replicate 24 Pipe.reset
    wck := List.replicate 24 WickPort.reset
    mer := Meridian.reset
    links := List.replicate 26 Link.reset
    twn := Twin.reset
    pho := ⟨List.replicate 4 Camera.reset, Loop.reset⟩
    drm := { chans := List.replicate 4 Channel.reset, sr := .active, next := 0, windowAt := 0, returns := [], ready := false, mem := [] }
    tim := TimeBlock.reset
    eye := Eyepiece.reset
    alm := Almanac.reset
    out := []
    free := 0
    pending := [] }

end Sys2Proof.Machine
end

