-- ==== Sys2Proof/Machine/Ibrik.lean ====
section
/-! DEFINITION. The Ibrik bitstream: predictors, Rice codes, blocks, strips, the container and the compressor
(R76 to R94). A depth is 8 (contone) or 3 (pre-screened). -/

namespace Sys2Proof.Machine

/-- kmax of a depth (R77). -/
def kMax (d : Nat) : Nat := if d = 8 then 7 else 2

/-- qmax of a depth (R77). -/
def qMax (d : Nat) : Nat := if d = 8 then 24 else 8

/-- The prediction from left, above and above-left (R79). -/
def predict (pred a b c : Nat) : Nat :=
  match pred with
  | 0 => a
  | 1 => b
  | 2 => (a + b) / 2
  | _ => (max (min (a : Int) b) (min (max (a : Int) b) ((a : Int) + b - c))).toNat

/-- The Rice parameter that an adaptation state selects: the smallest k that is kmax or for which n·2^k reaches a
(R80, R87); `fuel` counts the parameters left. -/
def riceK (n a : Nat) : Nat → Nat → Nat
  | 0, k => k
  | fuel + 1, k => if n <<< k < a then riceK n a fuel (k + 1) else k

/-- The adaptation state after a value m (R80). -/
def riceUpdate (n a m : Nat) : Nat × Nat :=
  if n + 1 = 64 then (32, (a + m) / 2) else (n + 1, a + m)

/-- Bits of bytes, the most significant bit of each byte first (R80). -/
def bitsOf (b : Bytes) : List Bool := b.flatMap byteBits

/-- The value of a run of bits, most significant first. -/
def bitsVal (l : List Bool) : Nat := l.foldl (fun a b => 2 * a + b.toNat) 0

/-- `n` bits of a value, most significant first. -/
def valBits : Nat → Nat → List Bool
  | 0, _ => []
  | n + 1, v => v.testBit n :: valBits n v

/-- Ones read before a zero, at most `fuel`; the zero is consumed, and is not looked for after `fuel` ones. -/
def readUnary : Nat → List Bool → Option (Nat × List Bool)
  | 0, l => some (0, l)
  | _ + 1, [] => none
  | _ + 1, false :: t => some (0, t)
  | n + 1, true :: t => (readUnary n t).map fun r => (r.1 + 1, r.2)

/-- `n` bits read as a value. -/
def readBits (n : Nat) (l : List Bool) : Option (Nat × List Bool) :=
  if l.length < n then none else some (bitsVal (l.take n), l.drop n)

/-- The signed error that m stands for (R80). -/
def unzigzag (m : Nat) : Int := if m % 2 = 1 then -((m + 1) / 2 : Nat) else (m / 2 : Nat)

/-- m of a sample under a prediction (R80). -/
def zigzag (d x p : Nat) : Nat :=
  let e := (x + 2 ^ d - p) % 2 ^ d
  if e < 2 ^ (d - 1) then 2 * e else 2 * (2 ^ d - e) - 1

/-- The state of a CODED block's coder: n_acc, a_acc and the bits not yet read. -/
structure Rice where
  n : Nat
  a : Nat
  bits : List Bool
  deriving DecidableEq, Repr

/-- One sample decoded (R80); none where the bits end or a non-escape m exceeds 2^d − 1 (R83). -/
def decodeSample (d p : Nat) (r : Rice) : Option (Nat × Rice) :=
  let k := riceK r.n r.a (kMax d) 0
  match readUnary (qMax d) r.bits with
  | none => none
  | some (q, l) =>
    match readBits (if q = qMax d then d else k) l with
    | none => none
    | some (v, l) =>
      let m := if q = qMax d then v else q <<< k + v
      if 2 ^ d ≤ m then none
      else
        let u := riceUpdate r.n r.a m
        some (((p + unzigzag m) % (2 ^ d : Nat)).toNat, ⟨u.1, u.2, l⟩)

/-- One line decoded under the line above; `left` carries the samples to the left and above-left, none at column 0
(R79). -/
def decodeRow (d pred : Nat) : List Nat → Option (Nat × Nat) → Rice → Option (List Nat × Rice)
  | [], _, r => some ([], r)
  | b :: t, left, r =>
    let ac := left.getD (b, b)
    match decodeSample d (predict pred ac.1 b ac.2) r with
    | none => none
    | some (x, r) => (decodeRow d pred t (some (x, b)) r).map fun o => (x :: o.1, o.2)

/-- The lines of a CODED block decoded (R80). -/
def decodeRows (d pred : Nat) : Nat → List Nat → Rice → Option (List (List Nat) × Rice)
  | 0, _, r => some ([], r)
  | n + 1, above, r =>
    match decodeRow d pred above none r with
    | none => none
    | some (row, r) => (decodeRows d pred n row r).map fun o => (row :: o.1, o.2)

/-- The lines of a RAW block (R81). -/
def rawRows (d w : Nat) : Nat → List Bool → List (List Nat)
  | 0, _ => []
  | n + 1, l => ((List.range w).map fun i => bitsVal ((l.drop (i * d)).take d)) :: rawRows d w n (l.drop (w * d))

/-- Bytes of a RAW block (R81). -/
def rawLength (lines w d : Nat) : Nat := 4 + (lines * w * d + 7) / 8

/-- A block header (R76): type, lines, predictor, k0, length, dist, and whether its reserved fields are zero. -/
structure BlockHeader where
  type : Nat
  lines : Nat
  pred : Nat
  k0 : Nat
  length : Nat
  dist : Nat
  clean : Bool
  deriving DecidableEq, Repr

/-- The header at a byte of a stream (R76); none where the stream ends before it. -/
def blockHeader (stream : Bytes) (off : Nat) : Option BlockHeader :=
  if stream.length < off + 4 then none
  else
    let h := leAt stream off 4
    let type := nbits h 31 30
    some ⟨type, nbits h 29 26 + 1, nbits h 25 24, nbits h 23 20, nbits h 15 0, nbits h 23 0,
      match type with
      | 0 => nbits h 19 16 == 0
      | 1 => nbits h 25 16 == 0
      | _ => nbits h 25 24 == 0⟩

/-- The lines of a CODED or RAW block at a byte of a stream, decoded under a line above; none where it is
malformed (R80, R81, R83). -/
def decodeBody (d w : Nat) (stream : Bytes) (off : Nat) (h : BlockHeader) (above : List Nat) :
    Option (List (List Nat)) :=
  if !h.clean || decide (stream.length < off + h.length) then none
  else
    let payload := (stream.drop (off + 4)).take (h.length - 4)
    if h.type = 1 then
      if h.length = rawLength h.lines w d then some (rawRows d w h.lines (bitsOf payload)) else none
    else if kMax d < h.k0 then none
    else
      match decodeRows d h.pred h.lines above ⟨4, 4 <<< h.k0, bitsOf payload⟩ with
      | some (rows, r) => if r.bits.length < 8 && 4 ≤ h.length then some rows else none
      | none => none

/-- One block decoded: its lines, its length in bytes, and the offset of its target where it is a MATCH; none
where it is malformed (R82, R83). `starts` are the bytes at which earlier blocks of the strip begin. -/
def decodeBlock (d w left : Nat) (starts : List Nat) (stream : Bytes) (off : Nat) (above : List Nat) :
    Option (List (List Nat) × Nat × Option Nat) :=
  match blockHeader stream off with
  | none => none
  | some h =>
    if left < h.lines then none
    else if h.type = 3 then none
    else if h.type = 2 then
      if !h.clean || decide (off < h.dist) || !starts.contains (off - h.dist) then none
      else
        match blockHeader stream (off - h.dist) with
        | none => none
        | some t =>
          if 2 ≤ t.type ∨ t.lines ≠ h.lines then none
          else (decodeBody d w stream (off - h.dist) t above).map fun rows => (rows, 4, some (off - h.dist))
    else (decodeBody d w stream off h above).map fun rows => (rows, h.length, none)

/-- A line of zeros. -/
def zeroLine (w : Nat) : List Nat := List.replicate w 0

/-- A whole strip checked and laid out as blocks, from byte `off` and line `line` on (R83 to R85): none where it
is malformed. Bytes left behind the last block, 1 to 3 as more, make it malformed too, a case that R83 does not list (DESIGN CHOICE,
log 152). `fuel` bounds the blocks. -/
def layoutStrip (d w height version : Nat) (stream : Bytes) :
    Nat → Nat → Nat → List Nat → List Block → Option (List Block)
  | 0, _, _, _, _ => none
  | fuel + 1, off, line, above, acc =>
    if line = height then (if off = stream.length then some acc else none)
    else
      let up := if acc.length % 16 = 0 then zeroLine w else above
      match decodeBlock d w (height - line) (acc.map (·.off)) stream off up with
      | none => none
      | some (rows, len, target) =>
        if version = 1 ∧ target.isSome then none
        else layoutStrip d w height version stream fuel (off + len) (line + rows.length) (rows.getLastD up)
          (acc ++ [⟨off, line, rows.length, target, none⟩])

/-- The lines of a strip as a decompressor delivers them from a block on, none for a line that is blank because its stream
failed, and the first lines of the blocks found malformed (R94). Decoding resumes at the next anchor block that the anchor
table records. -/
def decodeStrip (d w height : Nat) (strip : Strip) :
    Nat → Nat → Nat → Nat → List Nat → List (Option (List Nat)) × List Nat
  | 0, _, _, _, _ => ([], [])
  | fuel + 1, off, line, block, above =>
    if height ≤ line then ([], [])
    else
      let up := if block % 16 = 0 then zeroLine w else above
      match decodeBlock d w (height - line) (strip.blocks.map (·.off)) strip.stream off up with
      | some (rows, len, _) =>
        let r := decodeStrip d w height strip fuel (off + len) (line + rows.length) (block + 1) (rows.getLastD up)
        (rows.map some ++ r.1, r.2)
      | none =>
        let next := (block / 16 + 1) * 16
        match (if strip.anchorsOk then strip.blocks[next]? else none) with
        | some b =>
          if line < b.firstLine then
            let r := decodeStrip d w height strip fuel b.off b.firstLine next (zeroLine w)
            (List.replicate (b.firstLine - line) none ++ r.1, line :: r.2)
          else (List.replicate (height - line) none, [line])
        | none => (List.replicate (height - line) none, [line])

/-- The number of the last anchor block at or before a source row (R93). -/
def seekBlock (strip : Strip) (row : Nat) : Nat :=
  (((strip.blocks.zipIdx.filter fun e => e.2 % 16 == 0 && decide (e.1.firstLine ≤ row)).getLast?).map (·.2)).getD 0

/-- The lines of a strip for a decompressor that has sought to a source row and decodes forward from there, and the first lines
of the blocks that it finds malformed: lines above the anchor block where it starts are blank. A seek needs the anchor table;
where that fails its CRC the strip is blank until the next repetition (R93, R94). -/
def stripLines (d w height : Nat) (strip : Strip) (seek : Nat) : List (Option (List Nat)) × List Nat :=
  let fuel := strip.stream.length / 4 + 2
  if seek = 0 then decodeStrip d w height strip fuel 0 0 0 (zeroLine w)
  else if !strip.anchorsOk then (List.replicate height none, [])
  else
    let n := seekBlock strip seek
    let b := strip.blocks.getD n ⟨0, 0, 0, none, none⟩
    let r := decodeStrip d w height strip fuel b.off b.firstLine n (zeroLine w)
    (List.replicate b.firstLine none ++ r.1, r.2)

/-! ### The container (R84) -/

/-- The strip streams of a container's records, in order; none where a record runs past the end. -/
def containerStrips : Nat → Bytes → Option (List Bytes)
  | 0, l => if l.isEmpty then some [] else none
  | n + 1, l =>
    let len := leAt l 0 4
    if l.length < 4 + len then none
    else (containerStrips n (l.drop (4 + len))).map fun t => (l.drop 4).take len :: t

/-- Width of strip i of a plane (R76, R90). -/
def stripWidth (planeWidth i : Nat) : Nat := min 256 (planeWidth - 256 * i)

/-- Strips of a plane. -/
def stripCount (planeWidth : Nat) : Nat := (planeWidth + 255) / 256

/-- The strips of a container that passes every check of R83 to R85, for a plane of the width, height and depth
given. -/
def readContainer (width height d : Nat) (c : Bytes) : Option (List Strip) :=
  let version := byteAt c 3
  if decide (c.length < 16) || c.take 3 != [0x49, 0x42, 0x4B] || !(version == 1 || version == 2) || leAt c 4 4 != width
      || leAt c 8 4 != height || byteAt c 12 != d || byteAt c 13 != 0 || leAt c 14 2 != (crc16 (c.take 14)).toNat
      || (version == 1 && d == 3) then none
  else
    match containerStrips (stripCount width) (c.drop 16) with
    | none => none
    | some streams =>
      streams.zipIdx.mapM fun (st, i) =>
        (layoutStrip d (stripWidth width i) height version st (st.length / 4 + 2) 0 0 (zeroLine (stripWidth width i)) []).map
          fun blocks => ⟨st, blocks, true⟩

/-! ### The compressor (R86 to R89) -/

/-- One sample coded (R80). -/
def codeSample (d m k : Nat) : List Bool :=
  if qMax d ≤ m >>> k then List.replicate (qMax d) true ++ valBits d m
  else List.replicate (m >>> k) true ++ false :: valBits k m

/-- One line coded under the line above (R79, R80): its bits and the adaptation state after it. -/
def codeRow (d pred : Nat) : List Nat → List Nat → Option (Nat × Nat) → Nat → Nat → List Bool × Nat × Nat
  | b :: above, x :: row, left, n, a =>
    let ac := left.getD (b, b)
    let m := zigzag d x (predict pred ac.1 b ac.2)
    let k := riceK n a (kMax d) 0
    let u := riceUpdate n a m
    let o := codeRow d pred above row (some (x, b)) u.1 u.2
    (codeSample d m k ++ o.1, o.2)
  | _, _, _, n, a => ([], n, a)

/-- The lines of a block coded (R80). -/
def codeRows (d pred : Nat) : List (List Nat) → List Nat → Nat → Nat → List Bool × Nat × Nat
  | [], _, n, a => ([], n, a)
  | row :: t, above, n, a =>
    let o := codeRow d pred above row none n a
    let o' := codeRows d pred t row o.2.1 o.2.2
    (o.1 ++ o'.1, o'.2)

/-- Bits packed into bytes, most significant first, padded with zeros. -/
def packMsb (l : List Bool) : Bytes :=
  (List.range ((l.length + 7) / 8)).map fun i => BitVec.ofNat 8 (bitsVal (((l.drop (8 * i)) ++ List.replicate 8 false).take 8))

/-- A CODED block with its header (R76). -/
def codedBlock (d pred k0 : Nat) (rows : List (List Nat)) (above : List Nat) : Bytes × Nat × Nat :=
  let o := codeRows d pred rows above 4 (4 <<< k0)
  let body := packMsb o.1
  (toLe 4 ((rows.length - 1) <<< 26 + pred <<< 24 + k0 <<< 20 + (4 + body.length)) ++ body, o.2)

/-- A RAW block with its header (R81). -/
def rawBlock (d w : Nat) (rows : List (List Nat)) : Bytes :=
  toLe 4 (1 <<< 30 + (rows.length - 1) <<< 26 + rawLength rows.length w d)
    ++ packMsb (rows.flatMap fun r => r.flatMap fun x => valBits d x)

/-- A MATCH block (R82). -/
def matchBlock (lines dist : Nat) : Bytes := toLe 4 (2 <<< 30 + (lines - 1) <<< 26 + dist)

/-- Predictors tried at an effort level, in ascending order (R88). -/
def effortPreds (e : Nat) : List Nat :=
  if e ≤ 1 then [3] else if e = 2 then [0, 3] else if e = 3 then [0, 1, 3] else [0, 1, 2, 3]

/-- Repeat-match search distance in lines (R88). -/
def searchDistance (e : Nat) : Nat := if e = 0 then 0 else 2 ^ (e + 5)

/-- A strip under compression: its stream and blocks, the last coded line, and the adaptation state with which the
last CODED block ended (R58, R87). -/
structure Coding where
  strip : Strip
  last : List Nat
  adapt : Option (Nat × Nat)
  mismatches : List Nat
  deriving DecidableEq, Repr

/-- The shortest of the CODED results, the lower predictor on equal length (R87). -/
def bestCoded (d k0 : Nat) (rows : List (List Nat)) (above : List Nat) (preds : List Nat) : Option (Bytes × Nat × Nat) :=
  preds.foldl (fun best p =>
    let c := codedBlock d p k0 rows above
    match best with
    | none => some c
    | some b => if c.1.length < b.1.length then some c else some b) none

/-- One block appended to a strip: MATCH, CODED with the best predictor, or RAW, and RAW again where the verify
decode differs (R87, R89). R87 speaks of a block's 16 lines; a short block is matched like any other, with a block of as many
lines (DESIGN CHOICE, log 135). -/
def codeBlock (d w effort : Nat) (rows : List (List Nat)) (c : Coding) : Coding :=
  let number := c.strip.blocks.length
  let off := c.strip.stream.length
  let first := (c.strip.blocks.map (·.lines)).sum
  let above := if number % 16 = 0 then zeroLine w else c.last
  let sig := Config.signature (above ++ rows.flatten)
  let cand := (c.strip.blocks.filter fun b => b.sig == some sig && decide (first - b.firstLine ≤ searchDistance effort)).getLast?
  let target := (cand.map fun b => b.target.getD b.off).filter fun t => decide (off - t ≤ 16777215)
  let k0 := match c.adapt with
    | some (n, a) => riceK n a (kMax d) 0
    | none => if d = 8 then 3 else 1
  let raw := rawBlock d w rows
  let pick : Bytes × Option (Nat × Nat) := match target with
    | some t => (matchBlock rows.length (off - t), none)
    | none =>
      match bestCoded d k0 rows above (effortPreds effort) with
      | some (b, n, a) => if b.length < raw.length then (b, some (n, a)) else (raw, none)
      | none => (raw, none)
  let starts := c.strip.blocks.map (·.off)
  let good := (decodeBlock d w rows.length starts (c.strip.stream ++ pick.1) off above).map (·.1) == some rows
  let bytes := if good then pick.1 else raw
  { strip := { c.strip with stream := c.strip.stream ++ bytes,
                            blocks := c.strip.blocks ++ [⟨off, first, rows.length, if good then target else none, some sig⟩] }
    last := rows.getLastD above
    adapt := if good then pick.2.orElse fun _ => c.adapt else c.adapt
    mismatches := if good then c.mismatches else c.mismatches ++ [number] }

/-- Whole 16-line blocks are coded; the lines left over are answered (R59). `fuel` bounds the blocks. -/
def codeWhole (d w effort : Nat) : Nat → List (List Nat) → Coding → Coding × List (List Nat)
  | 0, rows, c => (c, rows)
  | fuel + 1, rows, c =>
    if rows.length < 16 then (c, rows)
    else codeWhole d w effort fuel (rows.drop 16) (codeBlock d w effort (rows.take 16) c)

/-- Lines appended to a strip; with `flush` the unfinished block is coded as a short block (R59, R60). -/
def codeLines (d w effort : Nat) (flush : Bool) (rows : List (List Nat)) (c : Coding) : Coding × List (List Nat) :=
  let o := codeWhole d w effort (rows.length / 16 + 1) rows c
  if flush && !o.2.isEmpty then (codeBlock d w effort o.2 o.1, []) else o

end Sys2Proof.Machine
end

