-- ==== Sys2Proof/Machine/Regs.lean ====
section
/-! DEFINITION. The BAR0 register map of the spec (R588, and the register tables that close each chapter):
every register's name, address, instances, fields, access codes and reset values. -/

namespace Sys2Proof.Machine

/-- The access codes of R13. -/
inductive Access where
  | ro | rw | wo | w1c | w1s | rws | rwl
  deriving DecidableEq, Repr

/-- One field of a register: its bits, its access code and its reset value. -/
structure RegField where
  hi : Nat
  lo : Nat
  acc : Access
  reset : Nat
  deriving DecidableEq, Repr

/-- Registers whose reset value depends on the instance or on the module. -/
inductive ResetRule where
  | plain | quiet | srcCfg | xtalk | planeW | msix | serialLo | serialHi
  deriving DecidableEq, Repr

/-- A register: its offset in BAR0, the stride and number of instances of each of its indices, its fields. -/
structure Reg where
  base : Nat
  dims : List (Nat × Nat)
  fields : List RegField
  rule : ResetRule := .plain
  deriving DecidableEq, Repr

def Reg.STO_CTRL : Reg := ⟨0x60000, [], [⟨10, 8, .rw, 1⟩, ⟨6, 4, .rw, 2⟩, ⟨2, 0, .rw, 4⟩], .plain⟩
def Reg.STO_REGION : Reg := ⟨0x60004, [], [⟨31, 16, .rwl, 28672⟩, ⟨15, 0, .rwl, 1024⟩], .plain⟩
def Reg.STO_BARGRP : Reg := ⟨0x60008, [], [⟨31, 24, .rw, 0⟩, ⟨23, 16, .rw, 0⟩, ⟨15, 8, .rw, 0⟩, ⟨7, 0, .rw, 255⟩], .plain⟩
def Reg.STO_PAGES : Reg := ⟨0x6000C, [], [⟨19, 0, .ro, 458752⟩], .plain⟩
def Reg.STO_SECTIONS : Reg := ⟨0x60010, [], [⟨28, 16, .ro, 0⟩, ⟨12, 0, .ro, 0⟩], .plain⟩
def Reg.STO_SECT_SEL : Reg := ⟨0x60014, [], [⟨11, 0, .rw, 0⟩], .plain⟩
def Reg.STO_SECT_INFO : Reg := ⟨0x60018, [], [⟨31, 12, .ro, 0⟩, ⟨10, 4, .ro, 0⟩, ⟨1, 0, .ro, 0⟩], .plain⟩
def Reg.STO_PLACE_STATUS : Reg := ⟨0x60020, [(8, 4)], [⟨24, 24, .ro, 0⟩, ⟨20, 16, .ro, 0⟩, ⟨15, 0, .ro, 0⟩], .plain⟩
def Reg.STO_PLACE_REPEAT : Reg := ⟨0x60024, [(8, 4)], [⟨23, 0, .ro, 0⟩], .plain⟩
def Reg.STO_VERIFY_CNT : Reg := ⟨0x60040, [], [⟨31, 0, .rw, 0⟩], .plain⟩
def Reg.STO_BADSTREAM_CNT : Reg := ⟨0x60044, [], [⟨31, 0, .rw, 0⟩], .plain⟩
def Reg.STO_SEEK_CNT : Reg := ⟨0x60048, [], [⟨31, 0, .rw, 0⟩], .plain⟩
def Reg.TRN_CTRL : Reg := ⟨0x80000, [(8192, 24)], [⟨0, 0, .rw, 0⟩], .plain⟩
def Reg.TRN_STATUS : Reg := ⟨0x80004, [(8192, 24)], [⟨13, 8, .ro, 0⟩, ⟨2, 2, .ro, 0⟩, ⟨1, 1, .ro, 0⟩], .plain⟩
def Reg.TRN_GEOM : Reg := ⟨0x80008, [(8192, 24)], [⟨31, 28, .ro, 0⟩, ⟨27, 24, .ro, 0⟩, ⟨15, 0, .ro, 0⟩], .plain⟩
def Reg.TRN_DELAY_USE : Reg := ⟨0x8000C, [(8192, 24)], [⟨20, 0, .ro, 0⟩], .plain⟩
def Reg.TRN_LINE_LO : Reg := ⟨0x80010, [(8192, 24)], [⟨31, 0, .ro, 0⟩], .plain⟩
def Reg.TRN_LINE_HI : Reg := ⟨0x80014, [(8192, 24)], [⟨7, 0, .ro, 0⟩], .plain⟩
def Reg.TRN_G1MAP : Reg := ⟨0x80018, [(8192, 24)], [⟨15, 0, .rw, 65172⟩], .plain⟩
def Reg.TRN_PEER_OUT : Reg := ⟨0x80020, [(8192, 24), (4, 8)], [⟨31, 0, .ro, 0⟩], .plain⟩
def Reg.TRN_STRIPS : Reg := ⟨0x80050, [(8192, 24)], [⟨31, 31, .ro, 0⟩, ⟨7, 0, .ro, 0⟩], .plain⟩
def Reg.TRN_LATE_CNT : Reg := ⟨0x80040, [(8192, 24)], [⟨31, 0, .rw, 0⟩], .plain⟩
def Reg.TRN_NOC_LOST_CNT : Reg := ⟨0x80044, [(8192, 24)], [⟨31, 0, .rw, 0⟩], .plain⟩
def Reg.TRN_ROWSUB_CNT : Reg := ⟨0x80048, [(8192, 24)], [⟨31, 0, .rw, 0⟩], .plain⟩
def Reg.TRN_TABLE_CRC_CNT : Reg := ⟨0x8004C, [(8192, 24)], [⟨31, 0, .rw, 0⟩], .plain⟩
def Reg.WCK_CTRL : Reg := ⟨0x100000, [], [⟨15, 8, .rw, 5⟩, ⟨5, 0, .rw, 0⟩], .plain⟩
def Reg.WCK_STATUS : Reg := ⟨0x100100, [(64, 24)], [⟨7, 7, .ro, 0⟩, ⟨6, 6, .ro, 0⟩, ⟨2, 2, .ro, 0⟩, ⟨1, 1, .ro, 0⟩, ⟨0, 0, .ro, 0⟩], .plain⟩
def Reg.WCK_TMIN : Reg := ⟨0x100104, [(64, 24)], [⟨29, 0, .ro, 7463⟩], .plain⟩
def Reg.WCK_LONGEST : Reg := ⟨0x100108, [(64, 24)], [⟨19, 0, .ro, 0⟩], .plain⟩
def Reg.WCK_OVS_FIRE_CNT : Reg := ⟨0x100110, [(64, 24)], [⟨31, 0, .rw, 0⟩], .plain⟩
def Reg.WCK_OVS_SKIP_CNT : Reg := ⟨0x100114, [(64, 24)], [⟨31, 0, .rw, 0⟩], .plain⟩
def Reg.WCK_LATE_BAND_CNT : Reg := ⟨0x100118, [(64, 24)], [⟨31, 0, .rw, 0⟩], .plain⟩
def Reg.WCK_NOTREADY_CNT : Reg := ⟨0x10011C, [(64, 24)], [⟨31, 0, .rw, 0⟩], .plain⟩
def Reg.WCK_HOT_RECOVER_CNT : Reg := ⟨0x100120, [(64, 24)], [⟨31, 0, .rw, 0⟩], .plain⟩
def Reg.WCK_TABLE_CRC_CNT : Reg := ⟨0x100124, [(64, 24)], [⟨31, 0, .rw, 0⟩], .plain⟩
def Reg.WCK_HEAD : Reg := ⟨0x100800, [(32, 24), (4, 8)], [⟨31, 16, .ro, 32768⟩, ⟨15, 15, .ro, 1⟩, ⟨14, 14, .ro, 0⟩, ⟨13, 13, .ro, 0⟩, ⟨10, 8, .ro, 0⟩], .plain⟩
def Reg.MER_CTRL : Reg := ⟨0x120000, [], [⟨31, 24, .rw, 10⟩, ⟨20, 20, .rw, 1⟩, ⟨19, 16, .rw, 9⟩, ⟨7, 7, .rw, 0⟩, ⟨6, 0, .rw, 24⟩], .plain⟩
def Reg.MER_ACC_LIMIT : Reg := ⟨0x120004, [], [⟨19, 0, .rw, 1000⟩], .plain⟩
def Reg.MER_STATUS : Reg := ⟨0x120008, [], [⟨5, 5, .ro, 0⟩, ⟨4, 4, .ro, 0⟩, ⟨3, 3, .ro, 0⟩, ⟨2, 2, .ro, 0⟩, ⟨1, 1, .ro, 1⟩, ⟨0, 0, .ro, 0⟩], .plain⟩
def Reg.MER_POS_LO : Reg := ⟨0x120010, [], [⟨31, 0, .ro, 0⟩], .plain⟩
def Reg.MER_POS_HI : Reg := ⟨0x120014, [], [⟨15, 0, .ro, 0⟩], .plain⟩
def Reg.MER_POS_SET_LO : Reg := ⟨0x120018, [], [⟨31, 0, .rw, 0⟩], .plain⟩
def Reg.MER_POS_SET_HI : Reg := ⟨0x12001C, [], [⟨15, 0, .rw, 0⟩], .plain⟩
def Reg.MER_POS_CMD : Reg := ⟨0x120020, [], [⟨2, 2, .w1s, 0⟩, ⟨1, 1, .w1s, 0⟩, ⟨0, 0, .w1s, 0⟩], .plain⟩
def Reg.MER_SPEED : Reg := ⟨0x120024, [], [⟨31, 0, .ro, 0⟩], .plain⟩
def Reg.MER_ACCEL : Reg := ⟨0x120028, [], [⟨31, 0, .ro, 0⟩], .plain⟩
def Reg.MER_ENC_CTRL : Reg := ⟨0x120040, [(32, 2)], [⟨31, 31, .rw, 0⟩, ⟨23, 16, .rw, 16⟩, ⟨8, 8, .rw, 0⟩, ⟨7, 0, .rw, 4⟩], .plain⟩
def Reg.MER_ENC_SCALE : Reg := ⟨0x120044, [(32, 2)], [⟨31, 0, .rw, 65536⟩], .plain⟩
def Reg.MER_ENC_COUNT : Reg := ⟨0x120048, [(32, 2)], [⟨31, 0, .ro, 0⟩], .plain⟩
def Reg.MER_ENC_REV : Reg := ⟨0x12004C, [(32, 2)], [⟨27, 0, .rw, 0⟩], .plain⟩
def Reg.MER_SLIP_CTRL : Reg := ⟨0x120080, [], [⟨31, 31, .rw, 0⟩, ⟨30, 30, .rw, 0⟩, ⟨29, 16, .rw, 2048⟩, ⟨15, 0, .rw, 64⟩], .plain⟩
def Reg.MER_SSI_CTRL : Reg := ⟨0x1200A0, [], [⟨31, 31, .rw, 0⟩, ⟨30, 30, .rw, 0⟩, ⟨29, 29, .rw, 0⟩, ⟨28, 28, .rw, 1⟩, ⟨27, 22, .rw, 25⟩, ⟨21, 12, .rw, 99⟩], .plain⟩
def Reg.MER_SSI_TIMING : Reg := ⟨0x1200A4, [], [⟨31, 24, .rw, 0⟩, ⟨23, 16, .rw, 20⟩, ⟨15, 0, .rw, 0⟩], .plain⟩
def Reg.MER_SSI_SCALE : Reg := ⟨0x1200A8, [], [⟨31, 0, .rw, 65536⟩], .plain⟩
def Reg.MER_SSI_OFS_LO : Reg := ⟨0x1200AC, [], [⟨31, 0, .rw, 0⟩], .plain⟩
def Reg.MER_SSI_OFS_HI : Reg := ⟨0x1200B0, [], [⟨15, 0, .rw, 0⟩], .plain⟩
def Reg.MER_SSI_RAW_LO : Reg := ⟨0x1200B4, [], [⟨31, 0, .ro, 0⟩], .plain⟩
def Reg.MER_SSI_RAW_HI : Reg := ⟨0x1200B8, [], [⟨7, 0, .ro, 0⟩], .plain⟩
def Reg.MER_SSI_CMD : Reg := ⟨0x1200BC, [], [⟨0, 0, .w1s, 0⟩], .plain⟩
def Reg.MER_LATCH_CTRL : Reg := ⟨0x120100, [(32, 8)], [⟨31, 31, .rw, 0⟩, ⟨30, 30, .w1s, 0⟩, ⟨29, 28, .rw, 0⟩, ⟨27, 24, .rw, 2⟩, ⟨8, 8, .rw, 0⟩, ⟨4, 0, .rw, 31⟩], .plain⟩
def Reg.MER_LATCH_POS_LO : Reg := ⟨0x120104, [(32, 8)], [⟨31, 0, .ro, 0⟩], .plain⟩
def Reg.MER_LATCH_POS_HI : Reg := ⟨0x120108, [(32, 8)], [⟨15, 0, .ro, 0⟩], .plain⟩
def Reg.MER_LATCH_TIME : Reg := ⟨0x12010C, [(32, 8)], [⟨31, 0, .ro, 0⟩], .plain⟩
def Reg.MER_LATCH_STATUS : Reg := ⟨0x120110, [(32, 8)], [⟨15, 8, .rw, 0⟩, ⟨2, 0, .ro, 0⟩], .plain⟩
def Reg.MER_CMP_POS : Reg := ⟨0x120200, [(16, 16)], [⟨31, 0, .rw, 0⟩], .plain⟩
def Reg.MER_CMP_POS_HI : Reg := ⟨0x120204, [(16, 16)], [⟨15, 0, .rw, 0⟩], .plain⟩
def Reg.MER_CMP_CTRL : Reg := ⟨0x120208, [(16, 16)], [⟨31, 31, .rw, 0⟩, ⟨30, 30, .rw, 0⟩, ⟨29, 29, .w1c, 0⟩, ⟨28, 28, .w1c, 0⟩, ⟨27, 26, .rw, 0⟩, ⟨25, 24, .rw, 0⟩, ⟨23, 21, .rw, 0⟩, ⟨20, 20, .rw, 0⟩, ⟨19, 16, .rw, 0⟩, ⟨15, 12, .rw, 0⟩, ⟨11, 4, .rw, 0⟩], .plain⟩
def Reg.MER_CMP_IVL : Reg := ⟨0x12020C, [(16, 16)], [⟨31, 0, .rw, 0⟩], .plain⟩
def Reg.MER_STROBE : Reg := ⟨0x120300, [(4, 4)], [⟨31, 31, .rw, 0⟩, ⟨19, 0, .rw, 200⟩], .plain⟩
def Reg.MER_CAMTRIG : Reg := ⟨0x120310, [(4, 4)], [⟨31, 31, .rw, 0⟩, ⟨19, 0, .rw, 200⟩], .plain⟩
def Reg.MER_INT_STATUS : Reg := ⟨0x120320, [], [⟨15, 0, .w1c, 0⟩], .plain⟩
def Reg.MER_INT_EN : Reg := ⟨0x120324, [], [⟨15, 0, .rw, 0⟩], .plain⟩
def Reg.MER_BAR_OFS : Reg := ⟨0x120400, [(4, 8)], [⟨31, 0, .rw, 0⟩], .plain⟩
def Reg.MER_PORT_OFS : Reg := ⟨0x120420, [(4, 24)], [⟨15, 0, .rw, 0⟩], .plain⟩
def Reg.MER_HEAD_ORG : Reg := ⟨0x120500, [(32, 24), (4, 8)], [⟨17, 0, .rw, 0⟩], .plain⟩
def Reg.MER_ROW_DLY : Reg := ⟨0x120800, [(128, 24), (16, 8), (4, 4)], [⟨25, 20, .rw, 0⟩, ⟨19, 16, .rw, 0⟩, ⟨9, 4, .rw, 0⟩, ⟨3, 0, .rw, 0⟩], .plain⟩
def Reg.MER_GEOM_COMMIT : Reg := ⟨0x121400, [], [⟨0, 0, .w1s, 0⟩], .plain⟩
def Reg.MER_GEOM_STATUS : Reg := ⟨0x121404, [], [⟨31, 31, .ro, 0⟩, ⟨12, 8, .ro, 0⟩, ⟨2, 0, .ro, 0⟩], .plain⟩
def Reg.MER_ENC_ILLEGAL_CNT : Reg := ⟨0x120050, [(32, 2)], [⟨31, 0, .rw, 0⟩], .plain⟩
def Reg.MER_ENC_INDEX_CNT : Reg := ⟨0x120054, [(32, 2)], [⟨31, 0, .rw, 0⟩], .plain⟩
def Reg.MER_SLIP_CNT : Reg := ⟨0x120084, [], [⟨31, 0, .rw, 0⟩], .plain⟩
def Reg.MER_SSI_FAIL_CNT : Reg := ⟨0x1200C0, [], [⟨31, 0, .rw, 0⟩], .plain⟩
def Reg.MER_CMP_MISSED_CNT : Reg := ⟨0x120328, [], [⟨31, 0, .rw, 0⟩], .plain⟩
def Reg.MER_STROBE_MERGE_CNT : Reg := ⟨0x12032C, [], [⟨31, 0, .rw, 0⟩], .plain⟩
def Reg.GHL_CTRL : Reg := ⟨0x140000, [(4096, 24)], [⟨31, 31, .rw, 0⟩, ⟨30, 30, .w1s, 0⟩, ⟨27, 26, .rw, 2⟩, ⟨23, 21, .rw, 5⟩, ⟨15, 8, .rw, 2⟩], .plain⟩
def Reg.GHL_STATUS : Reg := ⟨0x140004, [(4096, 24)], [⟨31, 31, .ro, 0⟩, ⟨30, 30, .ro, 0⟩, ⟨29, 29, .ro, 0⟩, ⟨28, 28, .ro, 0⟩, ⟨23, 16, .ro, 0⟩, ⟨11, 10, .ro, 0⟩, ⟨9, 9, .ro, 0⟩, ⟨8, 8, .ro, 0⟩, ⟨2, 0, .ro, 0⟩], .plain⟩
def Reg.GHL_CAP_FIRE : Reg := ⟨0x140008, [(4096, 24)], [⟨31, 0, .ro, 0⟩], .plain⟩
def Reg.GHL_FIRE_EFF : Reg := ⟨0x14000C, [(4096, 24)], [⟨31, 0, .ro, 0⟩], .plain⟩
def Reg.GHL_CAP_ID : Reg := ⟨0x140010, [(4096, 24)], [⟨31, 16, .ro, 0⟩, ⟨15, 0, .ro, 0⟩], .plain⟩
def Reg.GHL_CAP_FW : Reg := ⟨0x140014, [(4096, 24)], [⟨31, 0, .ro, 0⟩], .plain⟩
def Reg.GHL_CAP_SER_LO : Reg := ⟨0x140018, [(4096, 24)], [⟨31, 0, .ro, 0⟩], .plain⟩
def Reg.GHL_CAP_SER_HI : Reg := ⟨0x14001C, [(4096, 24)], [⟨31, 0, .ro, 0⟩], .plain⟩
def Reg.GHL_CAP_GEOM : Reg := ⟨0x140020, [(4096, 24)], [⟨31, 28, .ro, 0⟩, ⟨27, 24, .ro, 0⟩, ⟨21, 21, .ro, 0⟩, ⟨20, 20, .ro, 0⟩, ⟨16, 0, .ro, 0⟩], .plain⟩
def Reg.GHL_EPOCH : Reg := ⟨0x140024, [(4096, 24)], [⟨31, 0, .ro, 0⟩], .plain⟩
def Reg.GHL_DELAY : Reg := ⟨0x140028, [(4096, 24)], [⟨31, 24, .ro, 0⟩, ⟨15, 0, .ro, 0⟩], .plain⟩
def Reg.GHL_EQ : Reg := ⟨0x14002C, [(4096, 24)], [⟨31, 29, .ro, 0⟩, ⟨28, 26, .ro, 0⟩, ⟨25, 21, .ro, 0⟩, ⟨15, 8, .ro, 0⟩, ⟨7, 0, .ro, 0⟩], .plain⟩
def Reg.GHL_NAK_CTRL : Reg := ⟨0x140030, [(4096, 24)], [⟨31, 24, .rw, 10⟩, ⟨23, 16, .rw, 16⟩, ⟨15, 0, .rw, 64⟩], .plain⟩
def Reg.GHL_SEQ : Reg := ⟨0x140034, [(4096, 24)], [⟨31, 0, .ro, 0⟩], .plain⟩
def Reg.GHL_ACK : Reg := ⟨0x140038, [(4096, 24)], [⟨31, 0, .ro, 0⟩], .plain⟩
def Reg.GHL_CRC_CNT : Reg := ⟨0x140040, [(4096, 24)], [⟨31, 0, .rw, 0⟩], .plain⟩
def Reg.GHL_NAK_CNT : Reg := ⟨0x140044, [(4096, 24)], [⟨31, 0, .rw, 0⟩], .plain⟩
def Reg.GHL_LINE_NAK_CNT : Reg := ⟨0x140048, [(4096, 24)], [⟨31, 0, .rw, 0⟩], .plain⟩
def Reg.GHL_VIOL_CNT : Reg := ⟨0x14004C, [(4096, 24)], [⟨31, 0, .rw, 0⟩], .plain⟩
def Reg.GHL_RETRAIN_CNT : Reg := ⟨0x140050, [(4096, 24)], [⟨31, 0, .rw, 0⟩], .plain⟩
def Reg.GHL_SYNCHDR_CNT : Reg := ⟨0x140054, [(4096, 24)], [⟨31, 0, .rw, 0⟩], .plain⟩
def Reg.GHL_SKIP_CNT : Reg := ⟨0x140058, [(4096, 24)], [⟨31, 0, .rw, 0⟩], .plain⟩
def Reg.GHL_RESEND_CNT : Reg := ⟨0x14005C, [(4096, 24)], [⟨31, 0, .rw, 0⟩], .plain⟩
def Reg.GHL_EPOCH_DRIFT_CNT : Reg := ⟨0x140060, [(4096, 24)], [⟨31, 0, .rw, 0⟩], .plain⟩
def Reg.GHL_FIRECLAMP_CNT : Reg := ⟨0x140064, [(4096, 24)], [⟨31, 0, .rw, 0⟩], .plain⟩
def Reg.GHL_WAVE_RETRY_CNT : Reg := ⟨0x140068, [(4096, 24)], [⟨31, 0, .rw, 0⟩], .plain⟩
def Reg.PHO_CTRL : Reg := ⟨0x170000, [(16384, 4)], [⟨31, 31, .rw, 0⟩, ⟨27, 26, .rw, 0⟩, ⟨25, 24, .rw, 0⟩, ⟨23, 20, .rw, 0⟩, ⟨15, 8, .rw, 75⟩], .plain⟩
def Reg.PHO_SIZE : Reg := ⟨0x170004, [(16384, 4)], [⟨31, 16, .rw, 1024⟩, ⟨15, 0, .rw, 4096⟩], .plain⟩
def Reg.PHO_STATUS : Reg := ⟨0x170008, [(16384, 4)], [⟨31, 16, .ro, 0⟩, ⟨15, 8, .ro, 0⟩, ⟨7, 7, .ro, 0⟩, ⟨6, 0, .ro, 0⟩], .plain⟩
def Reg.PHO_MOSAIC_LO : Reg := ⟨0x17000C, [(16384, 4)], [⟨29, 0, .rw, 138744328⟩], .plain⟩
def Reg.PHO_MOSAIC_HI : Reg := ⟨0x170010, [(16384, 4)], [⟨17, 0, .rw, 70728⟩], .plain⟩
def Reg.PHO_BLACK : Reg := ⟨0x170020, [(16384, 4), (4, 5)], [⟨15, 0, .rw, 0⟩], .plain⟩
def Reg.PHO_XTALK : Reg := ⟨0x170040, [(16384, 4), (4, 12)], [⟨15, 0, .rw, 0⟩], .xtalk⟩
def Reg.PHO_CAM_POS : Reg := ⟨0x170080, [(16384, 4)], [⟨31, 0, .rw, 0⟩], .plain⟩
def Reg.PHO_ROW_PITCH : Reg := ⟨0x170084, [(16384, 4)], [⟨31, 0, .rw, 33554432⟩], .plain⟩
def Reg.PHO_COL_ORG : Reg := ⟨0x170088, [(16384, 4)], [⟨31, 0, .rw, 0⟩], .plain⟩
def Reg.PHO_COL_PITCH : Reg := ⟨0x17008C, [(16384, 4)], [⟨31, 0, .rw, 131072⟩], .plain⟩
def Reg.PHO_FS_LAT : Reg := ⟨0x170090, [(16384, 4)], [⟨31, 0, .rw, 0⟩], .plain⟩
def Reg.PHO_I2C : Reg := ⟨0x1700A0, [(16384, 4)], [⟨30, 24, .rw, 16⟩, ⟨23, 23, .rw, 1⟩, ⟨22, 22, .rw, 0⟩, ⟨21, 20, .rw, 2⟩], .plain⟩
def Reg.PHO_EXP_LEN : Reg := ⟨0x1700A4, [(16384, 4)], [⟨31, 0, .rw, 0⟩], .plain⟩
def Reg.PHO_EXP_COMMIT : Reg := ⟨0x1700A8, [(16384, 4)], [⟨15, 8, .rw, 0⟩, ⟨2, 0, .rw, 0⟩], .plain⟩
def Reg.PHO_EXP_STATE : Reg := ⟨0x1700AC, [(16384, 4)], [⟨31, 24, .ro, 0⟩, ⟨23, 16, .ro, 0⟩, ⟨15, 8, .ro, 0⟩, ⟨2, 2, .ro, 0⟩, ⟨1, 1, .ro, 0⟩, ⟨0, 0, .ro, 0⟩], .plain⟩
def Reg.PHO_BLACK_CTRL : Reg := ⟨0x1700B0, [(16384, 4)], [⟨2, 0, .rw, 7⟩], .plain⟩
def Reg.PHO_SCTRL : Reg := ⟨0x170100, [(16384, 4), (32, 4)], [⟨31, 31, .rw, 0⟩, ⟨27, 24, .rw, 0⟩, ⟨23, 23, .rw, 0⟩, ⟨22, 22, .rw, 0⟩, ⟨13, 8, .rw, 0⟩], .plain⟩
def Reg.PHO_SCROP0 : Reg := ⟨0x170104, [(16384, 4), (32, 4)], [⟨31, 16, .rw, 0⟩, ⟨15, 0, .rw, 0⟩], .plain⟩
def Reg.PHO_SCROP1 : Reg := ⟨0x170108, [(16384, 4), (32, 4)], [⟨31, 16, .rw, 1024⟩, ⟨15, 0, .rw, 4096⟩], .plain⟩
def Reg.PHO_SSCALE : Reg := ⟨0x17010C, [(16384, 4), (32, 4)], [⟨31, 16, .rw, 256⟩, ⟨15, 0, .rw, 256⟩], .plain⟩
def Reg.PHO_SADDR0 : Reg := ⟨0x170150, [(16384, 4)], [⟨31, 0, .rw, 0⟩], .plain⟩
def Reg.PHO_SADDR1 : Reg := ⟨0x170154, [(16384, 4)], [⟨31, 0, .rw, 0⟩], .plain⟩
def Reg.PHO_EXP_ENTRY : Reg := ⟨0x170400, [(16384, 4), (64, 8), (4, 16)], [⟨31, 16, .rw, 0⟩, ⟨15, 0, .rw, 0⟩], .plain⟩
def Reg.PHO_LOOP_CTRL : Reg := ⟨0x172000, [], [⟨31, 24, .rw, 0⟩, ⟨23, 16, .rw, 0⟩, ⟨15, 15, .rw, 0⟩, ⟨11, 8, .rw, 4⟩, ⟨7, 0, .rw, 10⟩], .plain⟩
def Reg.PHO_LOOP_EXP : Reg := ⟨0x172004, [], [⟨7, 0, .rw, 0⟩], .plain⟩
def Reg.PHO_LOOP_LIMIT : Reg := ⟨0x172008, [], [⟨31, 24, .rw, 25⟩, ⟨23, 16, .rw, 8⟩, ⟨15, 0, .rw, 256⟩], .plain⟩
def Reg.PHO_LOOP_GAIN : Reg := ⟨0x17200C, [], [⟨31, 16, .rw, 512⟩, ⟨11, 0, .rw, 256⟩], .plain⟩
def Reg.PHO_LOOP_RESET : Reg := ⟨0x172010, [], [⟨15, 8, .w1s, 0⟩, ⟨7, 0, .w1s, 0⟩], .plain⟩
def Reg.PHO_LOOP_EPOCH_LO : Reg := ⟨0x172014, [], [⟨31, 0, .ro, 0⟩], .plain⟩
def Reg.PHO_LOOP_EPOCH_HI : Reg := ⟨0x172018, [], [⟨7, 0, .ro, 0⟩], .plain⟩
def Reg.PHO_TONE_AIM : Reg := ⟨0x172100, [(32, 8), (4, 8)], [⟨15, 0, .rw, 0⟩], .plain⟩
def Reg.PHO_PLANE_W : Reg := ⟨0x172200, [(32, 8), (4, 5)], [⟨15, 0, .rw, 0⟩], .planeW⟩
def Reg.PHO_TONE_DELTA : Reg := ⟨0x172300, [(32, 8), (4, 8)], [⟨15, 0, .ro, 0⟩], .plain⟩
def Reg.PHO_DISCARD_CNT : Reg := ⟨0x170200, [(16384, 4)], [⟨31, 0, .rw, 0⟩], .plain⟩
def Reg.PHO_ECC_CNT : Reg := ⟨0x170204, [(16384, 4)], [⟨31, 0, .rw, 0⟩], .plain⟩
def Reg.PHO_EXP_SUPERSEDE_CNT : Reg := ⟨0x170208, [(16384, 4)], [⟨31, 0, .rw, 0⟩], .plain⟩
def Reg.PHO_I2C_NAK_CNT : Reg := ⟨0x17020C, [(16384, 4)], [⟨31, 0, .rw, 0⟩], .plain⟩
def Reg.PHO_S1_DROP_CNT : Reg := ⟨0x170210, [(16384, 4)], [⟨31, 0, .rw, 0⟩], .plain⟩
def Reg.PHO_S3_DROP_CNT : Reg := ⟨0x170214, [(16384, 4)], [⟨31, 0, .rw, 0⟩], .plain⟩
def Reg.PHO_CELL_SKIP_CNT : Reg := ⟨0x170218, [(16384, 4)], [⟨31, 0, .rw, 0⟩], .plain⟩
def Reg.PHO_TABLE_CRC_CNT : Reg := ⟨0x17021C, [(16384, 4)], [⟨31, 0, .rw, 0⟩], .plain⟩
def Reg.PHO_LOOP_SKIP_CNT : Reg := ⟨0x172020, [], [⟨31, 0, .rw, 0⟩], .plain⟩
def Reg.PHO_LOOP_LIMIT_CNT : Reg := ⟨0x172024, [], [⟨31, 0, .rw, 0⟩], .plain⟩
def Reg.PHO_LOOP_DISCARD_CNT : Reg := ⟨0x172028, [], [⟨31, 0, .rw, 0⟩], .plain⟩
def Reg.TWN_CTRL : Reg := ⟨0x160000, [], [⟨7, 7, .rw, 1⟩, ⟨6, 6, .rw, 0⟩, ⟨5, 4, .rw, 2⟩, ⟨3, 2, .rw, 3⟩, ⟨1, 0, .rw, 0⟩], .plain⟩
def Reg.TWN_STATUS : Reg := ⟨0x160004, [], [⟨23, 20, .ro, 0⟩, ⟨17, 16, .ro, 0⟩, ⟨12, 12, .ro, 0⟩, ⟨11, 10, .ro, 0⟩, ⟨9, 8, .ro, 0⟩, ⟨1, 0, .ro, 0⟩], .plain⟩
def Reg.TWN_CMD : Reg := ⟨0x160008, [], [⟨2, 2, .w1s, 0⟩, ⟨1, 1, .w1s, 0⟩, ⟨0, 0, .w1s, 0⟩], .plain⟩
def Reg.TWN_TIMING : Reg := ⟨0x16000C, [], [⟨23, 16, .rw, 32⟩, ⟨8, 0, .rw, 50⟩], .plain⟩
def Reg.TWN_CKPT : Reg := ⟨0x160010, [], [⟨31, 16, .rw, 64⟩, ⟨15, 0, .rw, 10⟩], .plain⟩
def Reg.TWN_POS_TOL : Reg := ⟨0x160014, [], [⟨15, 0, .rw, 256⟩], .plain⟩
def Reg.TWN_UNPROT : Reg := ⟨0x160018, [], [⟨23, 0, .ro, 16777215⟩], .plain⟩
def Reg.TWN_JOIN_LO : Reg := ⟨0x160020, [], [⟨31, 0, .ro, 0⟩], .plain⟩
def Reg.TWN_JOIN_HI : Reg := ⟨0x160024, [], [⟨7, 0, .ro, 0⟩], .plain⟩
def Reg.TWN_CKPT_LINE_LO : Reg := ⟨0x160028, [], [⟨31, 0, .ro, 0⟩], .plain⟩
def Reg.TWN_CKPT_LINE_HI : Reg := ⟨0x16002C, [], [⟨7, 0, .ro, 0⟩], .plain⟩
def Reg.TWN_PARTNER_LO : Reg := ⟨0x160030, [], [⟨31, 0, .ro, 0⟩], .plain⟩
def Reg.TWN_PARTNER_HI : Reg := ⟨0x160034, [], [⟨31, 0, .ro, 0⟩], .plain⟩
def Reg.TWN_HB_MISS_CNT : Reg := ⟨0x160040, [], [⟨31, 0, .rw, 0⟩], .plain⟩
def Reg.TWN_ANN_MISS_CNT : Reg := ⟨0x160044, [], [⟨31, 0, .rw, 0⟩], .plain⟩
def Reg.TWN_ABORT_CNT : Reg := ⟨0x160048, [], [⟨31, 0, .rw, 0⟩], .plain⟩
def Reg.TWN_DISAGREE_CNT : Reg := ⟨0x16004C, [], [⟨31, 0, .rw, 0⟩], .plain⟩
def Reg.TWN_CKPT_CNT : Reg := ⟨0x160050, [], [⟨31, 0, .rw, 0⟩], .plain⟩
def Reg.TWN_TAKEOVER_CNT : Reg := ⟨0x160054, [], [⟨31, 0, .rws, 0⟩], .plain⟩
def Reg.HST_CTRL : Reg := ⟨0x50000, [], [⟨7, 0, .rw, 0⟩], .plain⟩
def Reg.HST_STATUS : Reg := ⟨0x50004, [], [⟨31, 31, .ro, 0⟩, ⟨30, 30, .ro, 0⟩, ⟨29, 29, .ro, 0⟩, ⟨23, 20, .ro, 0⟩, ⟨19, 16, .ro, 0⟩], .plain⟩
def Reg.HST_DB_BASE_LO : Reg := ⟨0x50008, [], [⟨31, 6, .rw, 0⟩], .plain⟩
def Reg.HST_DB_BASE_HI : Reg := ⟨0x5000C, [], [⟨31, 0, .rw, 0⟩], .plain⟩
def Reg.HST_SB_BASE_LO : Reg := ⟨0x50010, [], [⟨31, 6, .rw, 0⟩], .plain⟩
def Reg.HST_SB_BASE_HI : Reg := ⟨0x50014, [], [⟨31, 0, .rw, 0⟩], .plain⟩
def Reg.HST_EVT_ROUTE : Reg := ⟨0x50018, [], [⟨23, 23, .rw, 0⟩, ⟨21, 16, .rw, 0⟩, ⟨15, 15, .rw, 0⟩, ⟨13, 8, .rw, 0⟩, ⟨7, 7, .rw, 0⟩, ⟨5, 0, .rw, 0⟩], .plain⟩
def Reg.HST_MSIX_SRC0 : Reg := ⟨0x5001C, [], [⟨31, 31, .rw, 0⟩, ⟨29, 24, .rw, 0⟩, ⟨23, 23, .rw, 0⟩, ⟨21, 16, .rw, 0⟩, ⟨15, 15, .rw, 0⟩, ⟨13, 8, .rw, 0⟩, ⟨7, 7, .rw, 0⟩, ⟨5, 0, .rw, 0⟩], .plain⟩
def Reg.HST_MSIX_SRC1 : Reg := ⟨0x50020, [], [⟨15, 15, .rw, 0⟩, ⟨13, 8, .rw, 0⟩, ⟨7, 7, .rw, 0⟩, ⟨5, 0, .rw, 0⟩], .plain⟩
def Reg.HST_WIN_BASE_LO : Reg := ⟨0x50100, [(16, 8)], [⟨31, 12, .rw, 0⟩], .plain⟩
def Reg.HST_WIN_BASE_HI : Reg := ⟨0x50104, [(16, 8)], [⟨31, 0, .rw, 0⟩], .plain⟩
def Reg.HST_WIN_SIZE : Reg := ⟨0x50108, [(16, 8)], [⟨31, 0, .rw, 0⟩], .plain⟩
def Reg.HST_WIN_CTRL : Reg := ⟨0x5010C, [(16, 8)], [⟨1, 1, .rw, 0⟩, ⟨0, 0, .rw, 0⟩], .plain⟩
def Reg.HST_RING_BASE_LO : Reg := ⟨0x51000, [(32, 64)], [⟨31, 12, .rw, 0⟩], .plain⟩
def Reg.HST_RING_BASE_HI : Reg := ⟨0x51004, [(32, 64)], [⟨31, 0, .rw, 0⟩], .plain⟩
def Reg.HST_RING_CFG : Reg := ⟨0x51008, [(32, 64)], [⟨31, 31, .rw, 0⟩, ⟨27, 26, .rw, 0⟩, ⟨25, 24, .rw, 2⟩, ⟨20, 16, .rw, 10⟩, ⟨13, 8, .rw, 0⟩], .plain⟩
def Reg.HST_RING_IRQ : Reg := ⟨0x5100C, [(32, 64)], [⟨31, 31, .rw, 0⟩, ⟨23, 16, .rw, 0⟩, ⟨15, 8, .rw, 1⟩, ⟨5, 0, .rw, 0⟩], .plain⟩
def Reg.HST_RING_STATUS : Reg := ⟨0x51010, [(32, 64)], [⟨31, 30, .ro, 0⟩, ⟨27, 24, .ro, 0⟩, ⟨8, 0, .ro, 0⟩], .plain⟩
def Reg.HST_RING_DROP_CNT : Reg := ⟨0x51014, [(32, 64)], [⟨31, 0, .rw, 0⟩], .plain⟩
def Reg.HST_BADDESC_CNT : Reg := ⟨0x50040, [], [⟨31, 0, .rw, 0⟩], .plain⟩
def Reg.HST_DBRANGE_CNT : Reg := ⟨0x50044, [], [⟨31, 0, .rw, 0⟩], .plain⟩
def Reg.HST_WINDOW_CNT : Reg := ⟨0x50048, [], [⟨31, 0, .rw, 0⟩], .plain⟩
def Reg.HST_KICK_CNT : Reg := ⟨0x5004C, [], [⟨31, 0, .rw, 0⟩], .plain⟩
def Reg.HST_EVT_NOROUTE_CNT : Reg := ⟨0x50050, [], [⟨31, 0, .rw, 0⟩], .plain⟩
def Reg.LTN_CTRL : Reg := ⟨0x30000, [], [⟨0, 0, .rw, 1⟩], .plain⟩
def Reg.LTN_STATUS : Reg := ⟨0x30004, [], [⟨5, 5, .ro, 0⟩, ⟨4, 4, .ro, 1⟩, ⟨3, 3, .ro, 0⟩, ⟨2, 2, .ro, 0⟩, ⟨1, 1, .ro, 0⟩, ⟨0, 0, .ro, 0⟩], .plain⟩
def Reg.LTN_ACK : Reg := ⟨0x30008, [], [⟨2, 0, .w1s, 0⟩], .plain⟩
def Reg.LTN_REC_CLR : Reg := ⟨0x3000C, [], [⟨2, 0, .w1s, 0⟩], .plain⟩
def Reg.LTN_QUIET : Reg := ⟨0x30010, [(4, 3)], [⟨15, 0, .rw, 0⟩], .quiet⟩
def Reg.LTN_INT_STATUS : Reg := ⟨0x30020, [], [⟨4, 4, .w1c, 0⟩, ⟨3, 3, .w1c, 0⟩, ⟨2, 2, .w1c, 0⟩, ⟨1, 1, .w1c, 0⟩, ⟨0, 0, .w1c, 0⟩], .plain⟩
def Reg.LTN_INT_EN : Reg := ⟨0x30024, [], [⟨4, 4, .rw, 0⟩, ⟨3, 3, .rw, 1⟩, ⟨2, 2, .rw, 1⟩, ⟨1, 1, .rw, 1⟩, ⟨0, 0, .rw, 0⟩], .plain⟩
def Reg.LTN_RECOVER : Reg := ⟨0x30030, [(4, 3)], [⟨31, 0, .rw, 0⟩], .plain⟩
def Reg.LTN_ESC_CNT : Reg := ⟨0x30040, [(4, 3)], [⟨31, 0, .rw, 0⟩], .plain⟩
def Reg.LTN_SRC_CNT : Reg := ⟨0x30200, [(4, 64)], [⟨31, 0, .rw, 0⟩], .plain⟩
def Reg.LTN_SRC_CFG : Reg := ⟨0x30100, [(4, 64)], [⟨31, 31, .w1s, 0⟩, ⟨23, 8, .rw, 65535⟩, ⟨5, 4, .rw, 0⟩, ⟨1, 1, .rw, 0⟩, ⟨0, 0, .rw, 0⟩], .srcCfg⟩
def Reg.LTN_REC : Reg := ⟨0x30400, [(64, 3), (32, 2), (4, 8)], [⟨31, 0, .rws, 0⟩], .plain⟩
def Reg.GLB_STATE : Reg := ⟨0x100, [], [⟨23, 20, .ro, 0⟩, ⟨19, 16, .ro, 3⟩, ⟨12, 12, .ro, 0⟩, ⟨11, 11, .ro, 0⟩, ⟨10, 10, .ro, 0⟩, ⟨9, 9, .ro, 0⟩, ⟨8, 8, .ro, 0⟩, ⟨7, 7, .ro, 0⟩, ⟨6, 6, .ro, 0⟩, ⟨5, 5, .ro, 0⟩, ⟨2, 0, .ro, 1⟩], .plain⟩
def Reg.GLB_CMD : Reg := ⟨0x104, [], [⟨2, 2, .w1s, 0⟩, ⟨1, 1, .w1s, 0⟩, ⟨0, 0, .w1s, 0⟩], .plain⟩
def Reg.GLB_CTRL : Reg := ⟨0x108, [], [⟨0, 0, .rwl, 0⟩], .plain⟩
def Reg.GLB_RESET : Reg := ⟨0x10C, [], [⟨15, 8, .wo, 0⟩, ⟨0, 0, .wo, 0⟩], .plain⟩
def Reg.GLB_RESET_CAUSE : Reg := ⟨0x110, [], [⟨2, 2, .rws, 0⟩, ⟨1, 0, .rws, 0⟩], .plain⟩
def Reg.GLB_BUSY : Reg := ⟨0x114, [], [⟨26, 3, .ro, 0⟩, ⟨2, 2, .ro, 0⟩, ⟨1, 1, .ro, 0⟩, ⟨0, 0, .ro, 0⟩], .plain⟩
def Reg.GLB_REFUSED : Reg := ⟨0x118, [], [⟨31, 0, .rw, 0⟩], .plain⟩
def Reg.GLB_REFUSED_INFO : Reg := ⟨0x11C, [], [⟨27, 24, .ro, 0⟩, ⟨23, 0, .ro, 0⟩], .plain⟩
def Reg.GLB_STOP_LINE_LO : Reg := ⟨0x120, [], [⟨31, 0, .ro, 0⟩], .plain⟩
def Reg.GLB_STOP_LINE_HI : Reg := ⟨0x124, [], [⟨7, 0, .ro, 0⟩], .plain⟩
def Reg.GLB_INT_STATUS : Reg := ⟨0x128, [], [⟨3, 3, .w1c, 0⟩, ⟨2, 2, .w1c, 0⟩, ⟨1, 1, .w1c, 0⟩, ⟨0, 0, .w1c, 0⟩], .plain⟩
def Reg.GLB_INT_EN : Reg := ⟨0x12C, [], [⟨3, 3, .rw, 1⟩, ⟨2, 2, .rw, 0⟩, ⟨1, 1, .rw, 0⟩, ⟨0, 0, .rw, 0⟩], .plain⟩
def Reg.LMP_CTRL : Reg := ⟨0x40000, [], [⟨31, 31, .rw, 1⟩, ⟨15, 0, .rw, 2000⟩], .plain⟩
def Reg.LMP_SCHED : Reg := ⟨0x40004, [], [⟨31, 16, .rw, 256⟩, ⟨15, 0, .rw, 60⟩], .plain⟩
def Reg.LMP_STATUS : Reg := ⟨0x40008, [], [⟨26, 22, .ro, 0⟩, ⟨10, 1, .ro, 0⟩], .plain⟩
def Reg.LMP_LAST_CONFLICT : Reg := ⟨0x4000C, [], [⟨15, 8, .ro, 0⟩, ⟨7, 0, .ro, 0⟩], .plain⟩
def Reg.LMP_DEFER_CNT : Reg := ⟨0x40010, [], [⟨31, 0, .rw, 0⟩], .plain⟩
def Reg.LMP_CONFLICT_CNT : Reg := ⟨0x40014, [], [⟨31, 0, .rw, 0⟩], .plain⟩
def Reg.LMP_SKIP_CNT : Reg := ⟨0x40018, [], [⟨31, 0, .rw, 0⟩], .plain⟩
def Reg.LMP_TIMEOUT_CNT : Reg := ⟨0x4001C, [], [⟨31, 0, .rw, 0⟩], .plain⟩
def Reg.DRM_CTRL : Reg := ⟨0x190000, [], [⟨15, 8, .rw, 4⟩, ⟨0, 0, .rw, 0⟩], .plain⟩
def Reg.DRM_SCHED : Reg := ⟨0x190004, [], [⟨31, 24, .rw, 48⟩, ⟨23, 16, .rw, 16⟩, ⟨15, 8, .rw, 40⟩, ⟨7, 0, .rw, 20⟩], .plain⟩
def Reg.DRM_RH : Reg := ⟨0x190008, [], [⟨23, 16, .rw, 32⟩, ⟨15, 0, .rw, 4096⟩], .plain⟩
def Reg.DRM_STATUS : Reg := ⟨0x19000C, [], [⟨9, 8, .ro, 0⟩, ⟨7, 7, .ro, 0⟩, ⟨5, 4, .ro, 0⟩, ⟨3, 0, .ro, 0⟩], .plain⟩
def Reg.DRM_CH_STATUS : Reg := ⟨0x191000, [(1024, 4)], [⟨31, 24, .ro, 0⟩, ⟨18, 16, .ro, 2⟩, ⟨15, 15, .ro, 0⟩, ⟨3, 0, .ro, 0⟩], .plain⟩
def Reg.DRM_TRAIN_CMD : Reg := ⟨0x191004, [(1024, 4)], [⟨15, 8, .rw, 0⟩, ⟨5, 4, .ro, 0⟩, ⟨3, 2, .rw, 0⟩, ⟨1, 1, .rw, 0⟩, ⟨0, 0, .w1s, 0⟩], .plain⟩
def Reg.DRM_TRAIN_ADDR : Reg := ⟨0x191008, [(1024, 4)], [⟨31, 26, .rw, 0⟩, ⟨25, 0, .rw, 0⟩], .plain⟩
def Reg.DRM_PAT_CTRL : Reg := ⟨0x19100C, [(1024, 4)], [⟨31, 24, .rw, 16⟩, ⟨17, 16, .rw, 0⟩, ⟨15, 0, .rw, 1⟩], .plain⟩
def Reg.DRM_TRAIN_RESULT : Reg := ⟨0x191010, [(1024, 4)], [⟨31, 0, .ro, 0⟩], .plain⟩
def Reg.DRM_MR : Reg := ⟨0x191014, [(1024, 4)], [⟨14, 8, .rw, 0⟩, ⟨7, 0, .rw, 0⟩], .plain⟩
def Reg.DRM_PAT_USER : Reg := ⟨0x191040, [(1024, 4), (4, 16)], [⟨31, 0, .rw, 0⟩], .plain⟩
def Reg.DRM_ERR : Reg := ⟨0x191080, [(1024, 4), (4, 8)], [⟨31, 0, .ro, 0⟩], .plain⟩
def Reg.DRM_DLY_RD : Reg := ⟨0x191100, [(1024, 4), (4, 16)], [⟨8, 0, .rw, 256⟩], .plain⟩
def Reg.DRM_DLY_WR : Reg := ⟨0x191140, [(1024, 4), (4, 16)], [⟨8, 0, .rw, 256⟩], .plain⟩
def Reg.DRM_DLY_CA : Reg := ⟨0x191190, [(1024, 4), (4, 8)], [⟨8, 0, .rw, 256⟩], .plain⟩
def Reg.DRM_DLY_BYTE : Reg := ⟨0x191180, [(1024, 4), (4, 2)], [⟨23, 16, .rw, 128⟩, ⟨8, 0, .rw, 256⟩], .plain⟩
def Reg.DRM_THROTTLE : Reg := ⟨0x1911C0, [(1024, 4)], [⟨31, 16, .ro, 0⟩, ⟨5, 0, .ro, 0⟩], .plain⟩
def Reg.DRM_THROTTLE_CNT : Reg := ⟨0x190040, [], [⟨31, 0, .rw, 0⟩], .plain⟩
def Reg.DRM_RFM_CNT : Reg := ⟨0x190044, [], [⟨31, 0, .rw, 0⟩], .plain⟩
def Reg.DRM_SR_CNT : Reg := ⟨0x190048, [], [⟨31, 0, .rw, 0⟩], .plain⟩
def Reg.DRM_RETRAIN_CNT : Reg := ⟨0x19004C, [], [⟨31, 0, .rw, 0⟩], .plain⟩
def Reg.DRM_FORCED_CNT : Reg := ⟨0x190050, [], [⟨31, 0, .rw, 0⟩], .plain⟩
def Reg.CLK_CTRL : Reg := ⟨0x10000, [], [⟨1, 0, .rw, 3⟩], .plain⟩
def Reg.CLK_STATUS : Reg := ⟨0x10004, [], [⟨31, 16, .ro, 0⟩, ⟨6, 6, .ro, 0⟩, ⟨5, 5, .ro, 0⟩, ⟨4, 4, .ro, 0⟩, ⟨3, 3, .ro, 0⟩, ⟨2, 2, .ro, 0⟩, ⟨1, 1, .ro, 0⟩, ⟨0, 0, .ro, 0⟩], .plain⟩
def Reg.CLK_PIX_CTRL : Reg := ⟨0x10008, [], [⟨31, 31, .rw, 0⟩, ⟨23, 16, .rw, 20⟩, ⟨5, 0, .rw, 30⟩], .plain⟩
def Reg.CLK_PIX_FRAC : Reg := ⟨0x1000C, [], [⟨19, 0, .rw, 0⟩], .plain⟩
def Reg.CLK_MARGIN : Reg := ⟨0x10010, [], [⟨31, 31, .rw, 0⟩, ⟨10, 8, .rw, 0⟩, ⟨2, 0, .ro, 4⟩], .plain⟩
def Reg.CLK_XING_LAST : Reg := ⟨0x10014, [], [⟨23, 16, .ro, 0⟩, ⟨15, 12, .ro, 0⟩, ⟨1, 0, .ro, 0⟩], .plain⟩
def Reg.CLK_XING_TIMEOUT_CNT : Reg := ⟨0x10040, [], [⟨31, 0, .rw, 0⟩], .plain⟩
def Reg.CLK_XING_FLUSH_CNT : Reg := ⟨0x10044, [], [⟨31, 0, .rw, 0⟩], .plain⟩
def Reg.CLK_XING_LOST_CNT : Reg := ⟨0x10048, [], [⟨31, 0, .rw, 0⟩], .plain⟩
def Reg.CLK_LOSS_CNT : Reg := ⟨0x1004C, [], [⟨31, 0, .rws, 0⟩], .plain⟩
def Reg.TIM_CTRL : Reg := ⟨0x1A0000, [], [⟨31, 31, .rw, 0⟩, ⟨29, 24, .rw, 0⟩, ⟨23, 23, .rw, 0⟩, ⟨22, 22, .rw, 0⟩, ⟨21, 21, .rw, 0⟩, ⟨1, 0, .rw, 0⟩], .plain⟩
def Reg.TIM_STATUS : Reg := ⟨0x1A0004, [], [⟨7, 3, .ro, 0⟩, ⟨2, 2, .ro, 0⟩, ⟨1, 1, .ro, 0⟩, ⟨0, 0, .ro, 0⟩], .plain⟩
def Reg.TIM_MONO : Reg := ⟨0x1A0008, [], [⟨31, 0, .ro, 0⟩], .plain⟩
def Reg.TIM_NET : Reg := ⟨0x1A000C, [], [⟨31, 0, .ro, 0⟩], .plain⟩
def Reg.TIM_SNAP_MONO : Reg := ⟨0x1A0024, [], [⟨31, 0, .ro, 0⟩], .plain⟩
def Reg.TIM_SNAP_NET : Reg := ⟨0x1A0028, [], [⟨31, 0, .ro, 0⟩], .plain⟩
def Reg.TIM_NET_LOAD : Reg := ⟨0x1A0010, [], [⟨31, 0, .wo, 0⟩], .plain⟩
def Reg.TIM_NET_STEP : Reg := ⟨0x1A0014, [], [⟨31, 0, .wo, 0⟩], .plain⟩
def Reg.TIM_NET_RATE : Reg := ⟨0x1A0018, [], [⟨31, 0, .rw, 0⟩], .plain⟩
def Reg.TIM_STEP_MAX : Reg := ⟨0x1A001C, [], [⟨19, 0, .rw, 1000⟩], .plain⟩
def Reg.TIM_SNAP_CMD : Reg := ⟨0x1A0020, [], [⟨0, 0, .w1s, 0⟩], .plain⟩
def Reg.TIM_SEC_BASE : Reg := ⟨0x1A0030, [], [⟨31, 0, .rw, 0⟩], .plain⟩
def Reg.TIM_SEC_LO : Reg := ⟨0x1A0034, [], [⟨31, 0, .rw, 0⟩], .plain⟩
def Reg.TIM_SEC_HI : Reg := ⟨0x1A0038, [], [⟨15, 0, .rw, 0⟩], .plain⟩
def Reg.TIM_NET_LAT : Reg := ⟨0x1A0040, [], [⟨31, 16, .rw, 0⟩, ⟨15, 0, .rw, 0⟩], .plain⟩
def Reg.TIM_NET_MAC_LO : Reg := ⟨0x1A0044, [], [⟨31, 0, .rw, 0⟩], .plain⟩
def Reg.TIM_NET_MAC_HI : Reg := ⟨0x1A0048, [], [⟨15, 0, .rw, 0⟩], .plain⟩
def Reg.TIM_TXTS_TAG : Reg := ⟨0x1A0050, [], [⟨16, 16, .ro, 0⟩, ⟨15, 0, .ro, 0⟩], .plain⟩
def Reg.TIM_TXTS_NET : Reg := ⟨0x1A0054, [], [⟨31, 0, .ro, 0⟩], .plain⟩
def Reg.TIM_INT_STATUS : Reg := ⟨0x1A0060, [], [⟨11, 11, .w1c, 0⟩, ⟨10, 10, .w1c, 0⟩, ⟨9, 9, .w1c, 0⟩, ⟨8, 8, .w1c, 0⟩, ⟨7, 0, .w1c, 0⟩], .plain⟩
def Reg.TIM_INT_EN : Reg := ⟨0x1A0064, [], [⟨11, 11, .rw, 0⟩, ⟨10, 10, .rw, 0⟩, ⟨9, 9, .rw, 0⟩, ⟨8, 8, .rw, 0⟩, ⟨7, 0, .rw, 0⟩], .plain⟩
def Reg.TIM_PULSE_CTRL : Reg := ⟨0x1A0100, [(16, 8)], [⟨31, 31, .rw, 0⟩, ⟨30, 30, .rw, 0⟩, ⟨29, 29, .rw, 0⟩, ⟨28, 28, .rw, 0⟩, ⟨27, 27, .w1c, 0⟩, ⟨26, 26, .w1c, 0⟩, ⟨19, 16, .rw, 0⟩, ⟨15, 0, .rw, 1⟩], .plain⟩
def Reg.TIM_PULSE_START : Reg := ⟨0x1A0104, [(16, 8)], [⟨31, 0, .rw, 0⟩], .plain⟩
def Reg.TIM_PULSE_PERIOD : Reg := ⟨0x1A0108, [(16, 8)], [⟨31, 0, .rw, 0⟩], .plain⟩
def Reg.TIM_STEP_REFUSED_CNT : Reg := ⟨0x1A0080, [], [⟨31, 0, .rw, 0⟩], .plain⟩
def Reg.TIM_TXQ_DROP_CNT : Reg := ⟨0x1A0084, [], [⟨31, 0, .rw, 0⟩], .plain⟩
def Reg.TIM_RX_DROP_CNT : Reg := ⟨0x1A0088, [], [⟨31, 0, .rw, 0⟩], .plain⟩
def Reg.TIM_RX_BAD_CNT : Reg := ⟨0x1A008C, [], [⟨31, 0, .rw, 0⟩], .plain⟩
def Reg.TIM_RX_BIG_CNT : Reg := ⟨0x1A0090, [], [⟨31, 0, .rw, 0⟩], .plain⟩
def Reg.TIM_PULSE_MISSED_CNT : Reg := ⟨0x1A0094, [], [⟨31, 0, .rw, 0⟩], .plain⟩
def Reg.EYE_CTRL : Reg := ⟨0x1B0000, [], [⟨31, 31, .rw, 0⟩, ⟨30, 30, .rw, 0⟩, ⟨7, 7, .rw, 0⟩, ⟨6, 6, .rw, 0⟩, ⟨5, 5, .rw, 1⟩, ⟨4, 4, .rw, 1⟩, ⟨2, 2, .rw, 0⟩, ⟨1, 0, .rw, 0⟩], .plain⟩
def Reg.EYE_HTIM : Reg := ⟨0x1B0004, [], [⟨31, 16, .rw, 2080⟩, ⟨15, 0, .rw, 1920⟩], .plain⟩
def Reg.EYE_HSYNC : Reg := ⟨0x1B0008, [], [⟨31, 16, .rw, 1968⟩, ⟨15, 0, .rw, 32⟩], .plain⟩
def Reg.EYE_VTIM : Reg := ⟨0x1B000C, [], [⟨31, 16, .rw, 1235⟩, ⟨15, 0, .rw, 1200⟩], .plain⟩
def Reg.EYE_VSYNC : Reg := ⟨0x1B0010, [], [⟨31, 16, .rw, 1203⟩, ⟨15, 0, .rw, 6⟩], .plain⟩
def Reg.EYE_FMT : Reg := ⟨0x1B0014, [], [⟨2, 2, .rw, 0⟩, ⟨1, 0, .rw, 2⟩], .plain⟩
def Reg.EYE_FB_ADDR : Reg := ⟨0x1B0018, [], [⟨31, 0, .rw, 0⟩], .plain⟩
def Reg.EYE_FB_STRIDE : Reg := ⟨0x1B001C, [], [⟨15, 0, .rw, 0⟩], .plain⟩
def Reg.EYE_COMMIT : Reg := ⟨0x1B0020, [], [⟨0, 0, .w1s, 0⟩], .plain⟩
def Reg.EYE_BORDER : Reg := ⟨0x1B0024, [], [⟨23, 0, .rw, 0⟩], .plain⟩
def Reg.EYE_LINE_MATCH : Reg := ⟨0x1B0028, [], [⟨11, 0, .rw, 0⟩], .plain⟩
def Reg.EYE_FREEZE : Reg := ⟨0x1B002C, [], [⟨7, 0, .rw, 60⟩], .plain⟩
def Reg.EYE_STATUS : Reg := ⟨0x1B0030, [], [⟨31, 31, .ro, 0⟩, ⟨30, 30, .ro, 0⟩, ⟨27, 16, .ro, 0⟩, ⟨15, 0, .ro, 0⟩], .plain⟩
def Reg.EYE_SIG : Reg := ⟨0x1B0034, [], [⟨31, 0, .ro, 0⟩], .plain⟩
def Reg.EYE_SCAN_ADDR : Reg := ⟨0x1B0038, [], [⟨31, 0, .ro, 0⟩], .plain⟩
def Reg.EYE_INT_STATUS : Reg := ⟨0x1B0040, [], [⟨4, 4, .w1c, 0⟩, ⟨3, 3, .w1c, 0⟩, ⟨2, 2, .w1c, 0⟩, ⟨1, 1, .w1c, 0⟩, ⟨0, 0, .w1c, 0⟩], .plain⟩
def Reg.EYE_INT_EN : Reg := ⟨0x1B0044, [], [⟨4, 4, .rw, 0⟩, ⟨3, 3, .rw, 0⟩, ⟨2, 2, .rw, 0⟩, ⟨1, 1, .rw, 0⟩, ⟨0, 0, .rw, 0⟩], .plain⟩
def Reg.EYE_UNDERRUN_CNT : Reg := ⟨0x1B0080, [], [⟨31, 0, .rw, 0⟩], .plain⟩
def Reg.EYE_SUPERSEDE_CNT : Reg := ⟨0x1B0084, [], [⟨31, 0, .rw, 0⟩], .plain⟩
def Reg.EYE_S2_SKIP_CNT : Reg := ⟨0x1B0088, [], [⟨31, 0, .rw, 0⟩], .plain⟩
def Reg.ALM_STATUS : Reg := ⟨0x1C0000, [], [⟨8, 8, .w1c, 0⟩, ⟨5, 4, .ro, 0⟩, ⟨1, 0, .ro, 0⟩], .plain⟩
def Reg.ALM_WR_ADDR_LO : Reg := ⟨0x1C0004, [], [⟨31, 0, .rw, 0⟩], .plain⟩
def Reg.ALM_WR_ADDR_HI : Reg := ⟨0x1C0008, [], [⟨31, 0, .rw, 0⟩], .plain⟩
def Reg.ALM_WR_LEN : Reg := ⟨0x1C000C, [], [⟨31, 0, .rw, 0⟩], .plain⟩
def Reg.ALM_WR_CMD : Reg := ⟨0x1C0010, [], [⟨0, 0, .w1s, 0⟩], .plain⟩
def Reg.ALM_RD_ADDR : Reg := ⟨0x1C0014, [], [⟨22, 2, .rw, 0⟩], .plain⟩
def Reg.ALM_RD_DATA : Reg := ⟨0x1C0018, [], [⟨31, 0, .ro, 0⟩], .plain⟩
def Reg.ALM_SLOTS : Reg := ⟨0x1C001C, [], [⟨31, 24, .ro, 0⟩, ⟨23, 16, .ro, 0⟩, ⟨7, 0, .ro, 0⟩], .plain⟩
def Reg.ALM_TEMP : Reg := ⟨0x1C0100, [], [⟨31, 16, .ro, 0⟩, ⟨15, 0, .ro, 0⟩], .plain⟩
def Reg.ALM_SENSE_STATUS : Reg := ⟨0x1C0104, [], [⟨10, 8, .ro, 4⟩, ⟨7, 7, .ro, 0⟩, ⟨6, 4, .ro, 0⟩, ⟨2, 0, .ro, 0⟩], .plain⟩
def Reg.ALM_NEIGH : Reg := ⟨0x1C0108, [(4, 3)], [⟨15, 0, .ro, 0⟩], .plain⟩
def Reg.ALM_TJ : Reg := ⟨0x1C0120, [], [⟨7, 0, .rw, 100⟩], .plain⟩
def Reg.ALM_BADREC_CNT : Reg := ⟨0x1C0040, [], [⟨31, 0, .rw, 0⟩], .plain⟩
def Reg.ALM_WRITE_CNT : Reg := ⟨0x1C0044, [], [⟨31, 0, .rw, 0⟩], .plain⟩
def Reg.ALM_SUSPECT_CNT : Reg := ⟨0x1C0140, [], [⟨31, 0, .rw, 0⟩], .plain⟩
def Reg.PWR_VIN : Reg := ⟨0x20000, [], [⟨15, 0, .ro, 0⟩], .plain⟩
def Reg.PWR_STAGE_TEMP : Reg := ⟨0x20004, [], [⟨15, 0, .ro, 0⟩], .plain⟩
def Reg.PWR_VIN_LOW : Reg := ⟨0x20008, [], [⟨15, 0, .rw, 2750⟩], .plain⟩
def Reg.PWR_VIN_LOW_CNT : Reg := ⟨0x20040, [], [⟨31, 0, .rw, 0⟩], .plain⟩
def Reg.GLB_ID : Reg := ⟨0x0, [], [⟨31, 16, .ro, 20044⟩, ⟨15, 0, .ro, 34852⟩], .plain⟩
def Reg.GLB_REV : Reg := ⟨0x4, [], [⟨23, 16, .ro, 2⟩, ⟨15, 8, .ro, 1⟩, ⟨7, 0, .ro, 17⟩], .plain⟩
def Reg.GLB_VERSIONS : Reg := ⟨0x8, [], [⟨8, 8, .ro, 1⟩, ⟨7, 6, .ro, 3⟩, ⟨5, 4, .ro, 3⟩, ⟨3, 2, .ro, 3⟩, ⟨1, 0, .ro, 3⟩], .plain⟩
def Reg.GLB_CAP0 : Reg := ⟨0x10, [], [⟨31, 28, .ro, 8⟩, ⟨27, 24, .ro, 8⟩, ⟨23, 16, .ro, 24⟩, ⟨15, 12, .ro, 4⟩, ⟨11, 8, .ro, 2⟩, ⟨7, 4, .ro, 1⟩, ⟨3, 0, .ro, 1⟩], .plain⟩
def Reg.GLB_CAP1 : Reg := ⟨0x14, [], [⟨31, 24, .ro, 64⟩, ⟨23, 20, .ro, 8⟩, ⟨19, 16, .ro, 4⟩, ⟨15, 12, .ro, 8⟩, ⟨11, 8, .ro, 8⟩, ⟨7, 4, .ro, 8⟩], .plain⟩
def Reg.GLB_CAP2 : Reg := ⟨0x18, [], [⟨31, 24, .ro, 16⟩, ⟨23, 16, .ro, 32⟩, ⟨12, 0, .ro, 4096⟩], .plain⟩
def Reg.GLB_SERIAL_LO : Reg := ⟨0x20, [], [⟨31, 0, .ro, 0⟩], .serialLo⟩
def Reg.GLB_SERIAL_HI : Reg := ⟨0x24, [], [⟨31, 0, .ro, 0⟩], .serialHi⟩
def Reg.GLB_SCRATCH : Reg := ⟨0x30, [], [⟨31, 0, .rw, 0⟩], .plain⟩
def Reg.HST_MSIX_TABLE : Reg := ⟨0x58000, [(16, 64), (4, 4)], [⟨31, 0, .rw, 0⟩], .msix⟩
def Reg.HST_MSIX_PBA : Reg := ⟨0x59000, [(4, 2)], [⟨31, 0, .ro, 0⟩], .plain⟩

def Reg.all0 : List Reg := [Reg.STO_CTRL, Reg.STO_REGION, Reg.STO_BARGRP, Reg.STO_PAGES, Reg.STO_SECTIONS, Reg.STO_SECT_SEL, Reg.STO_SECT_INFO, Reg.STO_PLACE_STATUS, Reg.STO_PLACE_REPEAT, Reg.STO_VERIFY_CNT, Reg.STO_BADSTREAM_CNT, Reg.STO_SEEK_CNT, Reg.TRN_CTRL, Reg.TRN_STATUS, Reg.TRN_GEOM, Reg.TRN_DELAY_USE, Reg.TRN_LINE_LO, Reg.TRN_LINE_HI, Reg.TRN_G1MAP, Reg.TRN_PEER_OUT, Reg.TRN_STRIPS, Reg.TRN_LATE_CNT, Reg.TRN_NOC_LOST_CNT, Reg.TRN_ROWSUB_CNT, Reg.TRN_TABLE_CRC_CNT, Reg.WCK_CTRL, Reg.WCK_STATUS, Reg.WCK_TMIN, Reg.WCK_LONGEST, Reg.WCK_OVS_FIRE_CNT, Reg.WCK_OVS_SKIP_CNT, Reg.WCK_LATE_BAND_CNT, Reg.WCK_NOTREADY_CNT, Reg.WCK_HOT_RECOVER_CNT, Reg.WCK_TABLE_CRC_CNT, Reg.WCK_HEAD, Reg.MER_CTRL, Reg.MER_ACC_LIMIT, Reg.MER_STATUS, Reg.MER_POS_LO]

def Reg.all1 : List Reg := [Reg.MER_POS_HI, Reg.MER_POS_SET_LO, Reg.MER_POS_SET_HI, Reg.MER_POS_CMD, Reg.MER_SPEED, Reg.MER_ACCEL, Reg.MER_ENC_CTRL, Reg.MER_ENC_SCALE, Reg.MER_ENC_COUNT, Reg.MER_ENC_REV, Reg.MER_SLIP_CTRL, Reg.MER_SSI_CTRL, Reg.MER_SSI_TIMING, Reg.MER_SSI_SCALE, Reg.MER_SSI_OFS_LO, Reg.MER_SSI_OFS_HI, Reg.MER_SSI_RAW_LO, Reg.MER_SSI_RAW_HI, Reg.MER_SSI_CMD, Reg.MER_LATCH_CTRL, Reg.MER_LATCH_POS_LO, Reg.MER_LATCH_POS_HI, Reg.MER_LATCH_TIME, Reg.MER_LATCH_STATUS, Reg.MER_CMP_POS, Reg.MER_CMP_POS_HI, Reg.MER_CMP_CTRL, Reg.MER_CMP_IVL, Reg.MER_STROBE, Reg.MER_CAMTRIG, Reg.MER_INT_STATUS, Reg.MER_INT_EN, Reg.MER_BAR_OFS, Reg.MER_PORT_OFS, Reg.MER_HEAD_ORG, Reg.MER_ROW_DLY, Reg.MER_GEOM_COMMIT, Reg.MER_GEOM_STATUS, Reg.MER_ENC_ILLEGAL_CNT, Reg.MER_ENC_INDEX_CNT]

def Reg.all2 : List Reg := [Reg.MER_SLIP_CNT, Reg.MER_SSI_FAIL_CNT, Reg.MER_CMP_MISSED_CNT, Reg.MER_STROBE_MERGE_CNT, Reg.GHL_CTRL, Reg.GHL_STATUS, Reg.GHL_CAP_FIRE, Reg.GHL_FIRE_EFF, Reg.GHL_CAP_ID, Reg.GHL_CAP_FW, Reg.GHL_CAP_SER_LO, Reg.GHL_CAP_SER_HI, Reg.GHL_CAP_GEOM, Reg.GHL_EPOCH, Reg.GHL_DELAY, Reg.GHL_EQ, Reg.GHL_NAK_CTRL, Reg.GHL_SEQ, Reg.GHL_ACK, Reg.GHL_CRC_CNT, Reg.GHL_NAK_CNT, Reg.GHL_LINE_NAK_CNT, Reg.GHL_VIOL_CNT, Reg.GHL_RETRAIN_CNT, Reg.GHL_SYNCHDR_CNT, Reg.GHL_SKIP_CNT, Reg.GHL_RESEND_CNT, Reg.GHL_EPOCH_DRIFT_CNT, Reg.GHL_FIRECLAMP_CNT, Reg.GHL_WAVE_RETRY_CNT, Reg.PHO_CTRL, Reg.PHO_SIZE, Reg.PHO_STATUS, Reg.PHO_MOSAIC_LO, Reg.PHO_MOSAIC_HI, Reg.PHO_BLACK, Reg.PHO_XTALK, Reg.PHO_CAM_POS, Reg.PHO_ROW_PITCH, Reg.PHO_COL_ORG]

def Reg.all3 : List Reg := [Reg.PHO_COL_PITCH, Reg.PHO_FS_LAT, Reg.PHO_I2C, Reg.PHO_EXP_LEN, Reg.PHO_EXP_COMMIT, Reg.PHO_EXP_STATE, Reg.PHO_BLACK_CTRL, Reg.PHO_SCTRL, Reg.PHO_SCROP0, Reg.PHO_SCROP1, Reg.PHO_SSCALE, Reg.PHO_SADDR0, Reg.PHO_SADDR1, Reg.PHO_EXP_ENTRY, Reg.PHO_LOOP_CTRL, Reg.PHO_LOOP_EXP, Reg.PHO_LOOP_LIMIT, Reg.PHO_LOOP_GAIN, Reg.PHO_LOOP_RESET, Reg.PHO_LOOP_EPOCH_LO, Reg.PHO_LOOP_EPOCH_HI, Reg.PHO_TONE_AIM, Reg.PHO_PLANE_W, Reg.PHO_TONE_DELTA, Reg.PHO_DISCARD_CNT, Reg.PHO_ECC_CNT, Reg.PHO_EXP_SUPERSEDE_CNT, Reg.PHO_I2C_NAK_CNT, Reg.PHO_S1_DROP_CNT, Reg.PHO_S3_DROP_CNT, Reg.PHO_CELL_SKIP_CNT, Reg.PHO_TABLE_CRC_CNT, Reg.PHO_LOOP_SKIP_CNT, Reg.PHO_LOOP_LIMIT_CNT, Reg.PHO_LOOP_DISCARD_CNT, Reg.TWN_CTRL, Reg.TWN_STATUS, Reg.TWN_CMD, Reg.TWN_TIMING, Reg.TWN_CKPT]

def Reg.all4 : List Reg := [Reg.TWN_POS_TOL, Reg.TWN_UNPROT, Reg.TWN_JOIN_LO, Reg.TWN_JOIN_HI, Reg.TWN_CKPT_LINE_LO, Reg.TWN_CKPT_LINE_HI, Reg.TWN_PARTNER_LO, Reg.TWN_PARTNER_HI, Reg.TWN_HB_MISS_CNT, Reg.TWN_ANN_MISS_CNT, Reg.TWN_ABORT_CNT, Reg.TWN_DISAGREE_CNT, Reg.TWN_CKPT_CNT, Reg.TWN_TAKEOVER_CNT, Reg.HST_CTRL, Reg.HST_STATUS, Reg.HST_DB_BASE_LO, Reg.HST_DB_BASE_HI, Reg.HST_SB_BASE_LO, Reg.HST_SB_BASE_HI, Reg.HST_EVT_ROUTE, Reg.HST_MSIX_SRC0, Reg.HST_MSIX_SRC1, Reg.HST_WIN_BASE_LO, Reg.HST_WIN_BASE_HI, Reg.HST_WIN_SIZE, Reg.HST_WIN_CTRL, Reg.HST_RING_BASE_LO, Reg.HST_RING_BASE_HI, Reg.HST_RING_CFG, Reg.HST_RING_IRQ, Reg.HST_RING_STATUS, Reg.HST_RING_DROP_CNT, Reg.HST_BADDESC_CNT, Reg.HST_DBRANGE_CNT, Reg.HST_WINDOW_CNT, Reg.HST_KICK_CNT, Reg.HST_EVT_NOROUTE_CNT, Reg.LTN_CTRL, Reg.LTN_STATUS]

def Reg.all5 : List Reg := [Reg.LTN_ACK, Reg.LTN_REC_CLR, Reg.LTN_QUIET, Reg.LTN_INT_STATUS, Reg.LTN_INT_EN, Reg.LTN_RECOVER, Reg.LTN_ESC_CNT, Reg.LTN_SRC_CNT, Reg.LTN_SRC_CFG, Reg.LTN_REC, Reg.GLB_STATE, Reg.GLB_CMD, Reg.GLB_CTRL, Reg.GLB_RESET, Reg.GLB_RESET_CAUSE, Reg.GLB_BUSY, Reg.GLB_REFUSED, Reg.GLB_REFUSED_INFO, Reg.GLB_STOP_LINE_LO, Reg.GLB_STOP_LINE_HI, Reg.GLB_INT_STATUS, Reg.GLB_INT_EN, Reg.LMP_CTRL, Reg.LMP_SCHED, Reg.LMP_STATUS, Reg.LMP_LAST_CONFLICT, Reg.LMP_DEFER_CNT, Reg.LMP_CONFLICT_CNT, Reg.LMP_SKIP_CNT, Reg.LMP_TIMEOUT_CNT, Reg.DRM_CTRL, Reg.DRM_SCHED, Reg.DRM_RH, Reg.DRM_STATUS, Reg.DRM_CH_STATUS, Reg.DRM_TRAIN_CMD, Reg.DRM_TRAIN_ADDR, Reg.DRM_PAT_CTRL, Reg.DRM_TRAIN_RESULT, Reg.DRM_MR]

def Reg.all6 : List Reg := [Reg.DRM_PAT_USER, Reg.DRM_ERR, Reg.DRM_DLY_RD, Reg.DRM_DLY_WR, Reg.DRM_DLY_CA, Reg.DRM_DLY_BYTE, Reg.DRM_THROTTLE, Reg.DRM_THROTTLE_CNT, Reg.DRM_RFM_CNT, Reg.DRM_SR_CNT, Reg.DRM_RETRAIN_CNT, Reg.DRM_FORCED_CNT, Reg.CLK_CTRL, Reg.CLK_STATUS, Reg.CLK_PIX_CTRL, Reg.CLK_PIX_FRAC, Reg.CLK_MARGIN, Reg.CLK_XING_LAST, Reg.CLK_XING_TIMEOUT_CNT, Reg.CLK_XING_FLUSH_CNT, Reg.CLK_XING_LOST_CNT, Reg.CLK_LOSS_CNT, Reg.TIM_CTRL, Reg.TIM_STATUS, Reg.TIM_MONO, Reg.TIM_NET, Reg.TIM_SNAP_MONO, Reg.TIM_SNAP_NET, Reg.TIM_NET_LOAD, Reg.TIM_NET_STEP, Reg.TIM_NET_RATE, Reg.TIM_STEP_MAX, Reg.TIM_SNAP_CMD, Reg.TIM_SEC_BASE, Reg.TIM_SEC_LO, Reg.TIM_SEC_HI, Reg.TIM_NET_LAT, Reg.TIM_NET_MAC_LO, Reg.TIM_NET_MAC_HI, Reg.TIM_TXTS_TAG]

def Reg.all7 : List Reg := [Reg.TIM_TXTS_NET, Reg.TIM_INT_STATUS, Reg.TIM_INT_EN, Reg.TIM_PULSE_CTRL, Reg.TIM_PULSE_START, Reg.TIM_PULSE_PERIOD, Reg.TIM_STEP_REFUSED_CNT, Reg.TIM_TXQ_DROP_CNT, Reg.TIM_RX_DROP_CNT, Reg.TIM_RX_BAD_CNT, Reg.TIM_RX_BIG_CNT, Reg.TIM_PULSE_MISSED_CNT, Reg.EYE_CTRL, Reg.EYE_HTIM, Reg.EYE_HSYNC, Reg.EYE_VTIM, Reg.EYE_VSYNC, Reg.EYE_FMT, Reg.EYE_FB_ADDR, Reg.EYE_FB_STRIDE, Reg.EYE_COMMIT, Reg.EYE_BORDER, Reg.EYE_LINE_MATCH, Reg.EYE_FREEZE, Reg.EYE_STATUS, Reg.EYE_SIG, Reg.EYE_SCAN_ADDR, Reg.EYE_INT_STATUS, Reg.EYE_INT_EN, Reg.EYE_UNDERRUN_CNT, Reg.EYE_SUPERSEDE_CNT, Reg.EYE_S2_SKIP_CNT, Reg.ALM_STATUS, Reg.ALM_WR_ADDR_LO, Reg.ALM_WR_ADDR_HI, Reg.ALM_WR_LEN, Reg.ALM_WR_CMD, Reg.ALM_RD_ADDR, Reg.ALM_RD_DATA, Reg.ALM_SLOTS]

def Reg.all8 : List Reg := [Reg.ALM_TEMP, Reg.ALM_SENSE_STATUS, Reg.ALM_NEIGH, Reg.ALM_TJ, Reg.ALM_BADREC_CNT, Reg.ALM_WRITE_CNT, Reg.ALM_SUSPECT_CNT, Reg.PWR_VIN, Reg.PWR_STAGE_TEMP, Reg.PWR_VIN_LOW, Reg.PWR_VIN_LOW_CNT, Reg.GLB_ID, Reg.GLB_REV, Reg.GLB_VERSIONS, Reg.GLB_CAP0, Reg.GLB_CAP1, Reg.GLB_CAP2, Reg.GLB_SERIAL_LO, Reg.GLB_SERIAL_HI, Reg.GLB_SCRATCH, Reg.HST_MSIX_TABLE, Reg.HST_MSIX_PBA]

/-- Every register, in the order of the spec's chapters. -/
def Reg.all : List Reg := Reg.all0 ++ Reg.all1 ++ Reg.all2 ++ Reg.all3 ++ Reg.all4 ++ Reg.all5 ++ Reg.all6 ++ Reg.all7 ++ Reg.all8

/-- A named field of a register. -/
structure Fld where
  reg : Reg
  hi : Nat
  lo : Nat
  deriving DecidableEq, Repr

def Fld.STO_CTRL_mirror_effort : Fld := ⟨.STO_CTRL, 10, 8⟩
def Fld.STO_CTRL_capture_effort : Fld := ⟨.STO_CTRL, 6, 4⟩
def Fld.STO_CTRL_effort_default : Fld := ⟨.STO_CTRL, 2, 0⟩
def Fld.STO_REGION_size_mb : Fld := ⟨.STO_REGION, 31, 16⟩
def Fld.STO_REGION_base_mb : Fld := ⟨.STO_REGION, 15, 0⟩
def Fld.STO_BARGRP_grp3 : Fld := ⟨.STO_BARGRP, 31, 24⟩
def Fld.STO_BARGRP_grp2 : Fld := ⟨.STO_BARGRP, 23, 16⟩
def Fld.STO_BARGRP_grp1 : Fld := ⟨.STO_BARGRP, 15, 8⟩
def Fld.STO_BARGRP_grp0 : Fld := ⟨.STO_BARGRP, 7, 0⟩
def Fld.STO_PAGES_free_pages : Fld := ⟨.STO_PAGES, 19, 0⟩
def Fld.STO_SECTIONS_sealed : Fld := ⟨.STO_SECTIONS, 28, 16⟩
def Fld.STO_SECTIONS_open : Fld := ⟨.STO_SECTIONS, 12, 0⟩
def Fld.STO_SECT_SEL_section : Fld := ⟨.STO_SECT_SEL, 11, 0⟩
def Fld.STO_SECT_INFO_pages : Fld := ⟨.STO_SECT_INFO, 31, 12⟩
def Fld.STO_SECT_INFO_refs : Fld := ⟨.STO_SECT_INFO, 10, 4⟩
def Fld.STO_SECT_INFO_state : Fld := ⟨.STO_SECT_INFO, 1, 0⟩
def Fld.STO_PLACE_STATUS_running : Fld := ⟨.STO_PLACE_STATUS, 24, 24⟩
def Fld.STO_PLACE_STATUS_queued : Fld := ⟨.STO_PLACE_STATUS, 20, 16⟩
def Fld.STO_PLACE_STATUS_handle : Fld := ⟨.STO_PLACE_STATUS, 15, 0⟩
def Fld.STO_PLACE_REPEAT_repeats : Fld := ⟨.STO_PLACE_REPEAT, 23, 0⟩
def Fld.STO_VERIFY_CNT : Fld := ⟨.STO_VERIFY_CNT, 31, 0⟩
def Fld.STO_BADSTREAM_CNT : Fld := ⟨.STO_BADSTREAM_CNT, 31, 0⟩
def Fld.STO_SEEK_CNT : Fld := ⟨.STO_SEEK_CNT, 31, 0⟩
def Fld.TRN_CTRL_force_zero : Fld := ⟨.TRN_CTRL, 0, 0⟩
def Fld.TRN_STATUS_pending : Fld := ⟨.TRN_STATUS, 13, 8⟩
def Fld.TRN_STATUS_priming : Fld := ⟨.TRN_STATUS, 2, 2⟩
def Fld.TRN_STATUS_running : Fld := ⟨.TRN_STATUS, 1, 1⟩
def Fld.TRN_GEOM_heads : Fld := ⟨.TRN_GEOM, 31, 28⟩
def Fld.TRN_GEOM_rows : Fld := ⟨.TRN_GEOM, 27, 24⟩
def Fld.TRN_GEOM_nozzles_per_head : Fld := ⟨.TRN_GEOM, 15, 0⟩
def Fld.TRN_DELAY_USE_entries : Fld := ⟨.TRN_DELAY_USE, 20, 0⟩
def Fld.TRN_LINE_LO_line_lo : Fld := ⟨.TRN_LINE_LO, 31, 0⟩
def Fld.TRN_LINE_HI_line_hi : Fld := ⟨.TRN_LINE_HI, 7, 0⟩
def Fld.TRN_G1MAP_map : Fld := ⟨.TRN_G1MAP, 15, 0⟩
def Fld.TRN_PEER_OUT_out : Fld := ⟨.TRN_PEER_OUT, 31, 0⟩
def Fld.TRN_STRIPS_over : Fld := ⟨.TRN_STRIPS, 31, 31⟩
def Fld.TRN_STRIPS_strips : Fld := ⟨.TRN_STRIPS, 7, 0⟩
def Fld.TRN_LATE_CNT : Fld := ⟨.TRN_LATE_CNT, 31, 0⟩
def Fld.TRN_NOC_LOST_CNT : Fld := ⟨.TRN_NOC_LOST_CNT, 31, 0⟩
def Fld.TRN_ROWSUB_CNT : Fld := ⟨.TRN_ROWSUB_CNT, 31, 0⟩
def Fld.TRN_TABLE_CRC_CNT : Fld := ⟨.TRN_TABLE_CRC_CNT, 31, 0⟩
def Fld.WCK_CTRL_temp_timeout : Fld := ⟨.WCK_CTRL, 15, 8⟩
def Fld.WCK_CTRL_band_lead : Fld := ⟨.WCK_CTRL, 5, 0⟩
def Fld.WCK_STATUS_ovs_u : Fld := ⟨.WCK_STATUS, 7, 7⟩
def Fld.WCK_STATUS_ovs : Fld := ⟨.WCK_STATUS, 6, 6⟩
def Fld.WCK_STATUS_pending : Fld := ⟨.WCK_STATUS, 2, 2⟩
def Fld.WCK_STATUS_bank : Fld := ⟨.WCK_STATUS, 1, 1⟩
def Fld.WCK_STATUS_ready : Fld := ⟨.WCK_STATUS, 0, 0⟩
def Fld.WCK_TMIN_t_min : Fld := ⟨.WCK_TMIN, 29, 0⟩
def Fld.WCK_LONGEST_duration : Fld := ⟨.WCK_LONGEST, 19, 0⟩
def Fld.WCK_OVS_FIRE_CNT : Fld := ⟨.WCK_OVS_FIRE_CNT, 31, 0⟩
def Fld.WCK_OVS_SKIP_CNT : Fld := ⟨.WCK_OVS_SKIP_CNT, 31, 0⟩
def Fld.WCK_LATE_BAND_CNT : Fld := ⟨.WCK_LATE_BAND_CNT, 31, 0⟩
def Fld.WCK_NOTREADY_CNT : Fld := ⟨.WCK_NOTREADY_CNT, 31, 0⟩
def Fld.WCK_HOT_RECOVER_CNT : Fld := ⟨.WCK_HOT_RECOVER_CNT, 31, 0⟩
def Fld.WCK_TABLE_CRC_CNT : Fld := ⟨.WCK_TABLE_CRC_CNT, 31, 0⟩
def Fld.WCK_HEAD_temp : Fld := ⟨.WCK_HEAD, 31, 16⟩
def Fld.WCK_HEAD_stale : Fld := ⟨.WCK_HEAD, 15, 15⟩
def Fld.WCK_HEAD_hot : Fld := ⟨.WCK_HEAD, 14, 14⟩
def Fld.WCK_HEAD_derate : Fld := ⟨.WCK_HEAD, 13, 13⟩
def Fld.WCK_HEAD_band : Fld := ⟨.WCK_HEAD, 10, 8⟩
def Fld.MER_CTRL_stop_ms : Fld := ⟨.MER_CTRL, 31, 24⟩
def Fld.MER_CTRL_order : Fld := ⟨.MER_CTRL, 20, 20⟩
def Fld.MER_CTRL_window : Fld := ⟨.MER_CTRL, 19, 16⟩
def Fld.MER_CTRL_lpi600 : Fld := ⟨.MER_CTRL, 7, 7⟩
def Fld.MER_CTRL_lookahead : Fld := ⟨.MER_CTRL, 6, 0⟩
def Fld.MER_ACC_LIMIT_a_max : Fld := ⟨.MER_ACC_LIMIT, 19, 0⟩
def Fld.MER_STATUS_geom_ok : Fld := ⟨.MER_STATUS, 5, 5⟩
def Fld.MER_STATUS_pos_loaded : Fld := ⟨.MER_STATUS, 4, 4⟩
def Fld.MER_STATUS_ssi_busy : Fld := ⟨.MER_STATUS, 3, 3⟩
def Fld.MER_STATUS_reverse : Fld := ⟨.MER_STATUS, 2, 2⟩
def Fld.MER_STATUS_stopped : Fld := ⟨.MER_STATUS, 1, 1⟩
def Fld.MER_STATUS_ready : Fld := ⟨.MER_STATUS, 0, 0⟩
def Fld.MER_POS_LO_pos_lo : Fld := ⟨.MER_POS_LO, 31, 0⟩
def Fld.MER_POS_HI_pos_hi : Fld := ⟨.MER_POS_HI, 15, 0⟩
def Fld.MER_POS_SET_LO_set_lo : Fld := ⟨.MER_POS_SET_LO, 31, 0⟩
def Fld.MER_POS_SET_HI_set_hi : Fld := ⟨.MER_POS_SET_HI, 15, 0⟩
def Fld.MER_POS_CMD_rebase : Fld := ⟨.MER_POS_CMD, 2, 2⟩
def Fld.MER_POS_CMD_load_ssi : Fld := ⟨.MER_POS_CMD, 1, 1⟩
def Fld.MER_POS_CMD_load_now : Fld := ⟨.MER_POS_CMD, 0, 0⟩
def Fld.MER_SPEED : Fld := ⟨.MER_SPEED, 31, 0⟩
def Fld.MER_ACCEL : Fld := ⟨.MER_ACCEL, 31, 0⟩
def Fld.MER_ENC_CTRL_en : Fld := ⟨.MER_ENC_CTRL, 31, 31⟩
def Fld.MER_ENC_CTRL_illegal_limit : Fld := ⟨.MER_ENC_CTRL, 23, 16⟩
def Fld.MER_ENC_CTRL_invert : Fld := ⟨.MER_ENC_CTRL, 8, 8⟩
def Fld.MER_ENC_CTRL_filt : Fld := ⟨.MER_ENC_CTRL, 7, 0⟩
def Fld.MER_ENC_SCALE_scale : Fld := ⟨.MER_ENC_SCALE, 31, 0⟩
def Fld.MER_ENC_COUNT : Fld := ⟨.MER_ENC_COUNT, 31, 0⟩
def Fld.MER_ENC_REV_counts : Fld := ⟨.MER_ENC_REV, 27, 0⟩
def Fld.MER_SLIP_CTRL_enc_chk : Fld := ⟨.MER_SLIP_CTRL, 31, 31⟩
def Fld.MER_SLIP_CTRL_ssi_chk : Fld := ⟨.MER_SLIP_CTRL, 30, 30⟩
def Fld.MER_SLIP_CTRL_tol : Fld := ⟨.MER_SLIP_CTRL, 29, 16⟩
def Fld.MER_SLIP_CTRL_window : Fld := ⟨.MER_SLIP_CTRL, 15, 0⟩
def Fld.MER_SSI_CTRL_en : Fld := ⟨.MER_SSI_CTRL, 31, 31⟩
def Fld.MER_SSI_CTRL_gray : Fld := ⟨.MER_SSI_CTRL, 30, 30⟩
def Fld.MER_SSI_CTRL_parity : Fld := ⟨.MER_SSI_CTRL, 29, 29⟩
def Fld.MER_SSI_CTRL_zero_chk : Fld := ⟨.MER_SSI_CTRL, 28, 28⟩
def Fld.MER_SSI_CTRL_bits : Fld := ⟨.MER_SSI_CTRL, 27, 22⟩
def Fld.MER_SSI_CTRL_div : Fld := ⟨.MER_SSI_CTRL, 21, 12⟩
def Fld.MER_SSI_TIMING_sample_dly : Fld := ⟨.MER_SSI_TIMING, 31, 24⟩
def Fld.MER_SSI_TIMING_tm : Fld := ⟨.MER_SSI_TIMING, 23, 16⟩
def Fld.MER_SSI_TIMING_period : Fld := ⟨.MER_SSI_TIMING, 15, 0⟩
def Fld.MER_SSI_SCALE_scale : Fld := ⟨.MER_SSI_SCALE, 31, 0⟩
def Fld.MER_SSI_OFS_LO_ofs_lo : Fld := ⟨.MER_SSI_OFS_LO, 31, 0⟩
def Fld.MER_SSI_OFS_HI_ofs_hi : Fld := ⟨.MER_SSI_OFS_HI, 15, 0⟩
def Fld.MER_SSI_RAW_LO_raw_lo : Fld := ⟨.MER_SSI_RAW_LO, 31, 0⟩
def Fld.MER_SSI_RAW_HI_raw_hi : Fld := ⟨.MER_SSI_RAW_HI, 7, 0⟩
def Fld.MER_SSI_CMD_request : Fld := ⟨.MER_SSI_CMD, 0, 0⟩
def Fld.MER_LATCH_CTRL_en : Fld := ⟨.MER_LATCH_CTRL, 31, 31⟩
def Fld.MER_LATCH_CTRL_soft : Fld := ⟨.MER_LATCH_CTRL, 30, 30⟩
def Fld.MER_LATCH_CTRL_edge : Fld := ⟨.MER_LATCH_CTRL, 29, 28⟩
def Fld.MER_LATCH_CTRL_filt : Fld := ⟨.MER_LATCH_CTRL, 27, 24⟩
def Fld.MER_LATCH_CTRL_event : Fld := ⟨.MER_LATCH_CTRL, 8, 8⟩
def Fld.MER_LATCH_CTRL_trig : Fld := ⟨.MER_LATCH_CTRL, 4, 0⟩
def Fld.MER_LATCH_POS_LO_pos_lo : Fld := ⟨.MER_LATCH_POS_LO, 31, 0⟩
def Fld.MER_LATCH_POS_HI_pos_hi : Fld := ⟨.MER_LATCH_POS_HI, 15, 0⟩
def Fld.MER_LATCH_TIME_mono : Fld := ⟨.MER_LATCH_TIME, 31, 0⟩
def Fld.MER_LATCH_STATUS_ovf : Fld := ⟨.MER_LATCH_STATUS, 15, 8⟩
def Fld.MER_LATCH_STATUS_entries : Fld := ⟨.MER_LATCH_STATUS, 2, 0⟩
def Fld.MER_CMP_POS_pos_lo : Fld := ⟨.MER_CMP_POS, 31, 0⟩
def Fld.MER_CMP_POS_HI_pos_hi : Fld := ⟨.MER_CMP_POS_HI, 15, 0⟩
def Fld.MER_CMP_CTRL_arm : Fld := ⟨.MER_CMP_CTRL, 31, 31⟩
def Fld.MER_CMP_CTRL_catchup : Fld := ⟨.MER_CMP_CTRL, 30, 30⟩
def Fld.MER_CMP_CTRL_missed : Fld := ⟨.MER_CMP_CTRL, 29, 29⟩
def Fld.MER_CMP_CTRL_fired : Fld := ⟨.MER_CMP_CTRL, 28, 28⟩
def Fld.MER_CMP_CTRL_mode : Fld := ⟨.MER_CMP_CTRL, 27, 26⟩
def Fld.MER_CMP_CTRL_group : Fld := ⟨.MER_CMP_CTRL, 25, 24⟩
def Fld.MER_CMP_CTRL_bar : Fld := ⟨.MER_CMP_CTRL, 23, 21⟩
def Fld.MER_CMP_CTRL_irq : Fld := ⟨.MER_CMP_CTRL, 20, 20⟩
def Fld.MER_CMP_CTRL_strobe : Fld := ⟨.MER_CMP_CTRL, 19, 16⟩
def Fld.MER_CMP_CTRL_camtrig : Fld := ⟨.MER_CMP_CTRL, 15, 12⟩
def Fld.MER_CMP_CTRL_tpulse : Fld := ⟨.MER_CMP_CTRL, 11, 4⟩
def Fld.MER_CMP_IVL_interval : Fld := ⟨.MER_CMP_IVL, 31, 0⟩
def Fld.MER_STROBE_pol : Fld := ⟨.MER_STROBE, 31, 31⟩
def Fld.MER_STROBE_width : Fld := ⟨.MER_STROBE, 19, 0⟩
def Fld.MER_CAMTRIG_pol : Fld := ⟨.MER_CAMTRIG, 31, 31⟩
def Fld.MER_CAMTRIG_width : Fld := ⟨.MER_CAMTRIG, 19, 0⟩
def Fld.MER_INT_STATUS_cmp : Fld := ⟨.MER_INT_STATUS, 15, 0⟩
def Fld.MER_INT_EN_cmp : Fld := ⟨.MER_INT_EN, 15, 0⟩
def Fld.MER_BAR_OFS_ofs : Fld := ⟨.MER_BAR_OFS, 31, 0⟩
def Fld.MER_PORT_OFS_ofs : Fld := ⟨.MER_PORT_OFS, 15, 0⟩
def Fld.MER_HEAD_ORG_org : Fld := ⟨.MER_HEAD_ORG, 17, 0⟩
def Fld.MER_ROW_DLY_d_hi : Fld := ⟨.MER_ROW_DLY, 25, 20⟩
def Fld.MER_ROW_DLY_s_hi : Fld := ⟨.MER_ROW_DLY, 19, 16⟩
def Fld.MER_ROW_DLY_d_lo : Fld := ⟨.MER_ROW_DLY, 9, 4⟩
def Fld.MER_ROW_DLY_s_lo : Fld := ⟨.MER_ROW_DLY, 3, 0⟩
def Fld.MER_GEOM_COMMIT_commit : Fld := ⟨.MER_GEOM_COMMIT, 0, 0⟩
def Fld.MER_GEOM_STATUS_dirty : Fld := ⟨.MER_GEOM_STATUS, 31, 31⟩
def Fld.MER_GEOM_STATUS_port : Fld := ⟨.MER_GEOM_STATUS, 12, 8⟩
def Fld.MER_GEOM_STATUS_fail : Fld := ⟨.MER_GEOM_STATUS, 2, 0⟩
def Fld.MER_ENC_ILLEGAL_CNT : Fld := ⟨.MER_ENC_ILLEGAL_CNT, 31, 0⟩
def Fld.MER_ENC_INDEX_CNT : Fld := ⟨.MER_ENC_INDEX_CNT, 31, 0⟩
def Fld.MER_SLIP_CNT : Fld := ⟨.MER_SLIP_CNT, 31, 0⟩
def Fld.MER_SSI_FAIL_CNT : Fld := ⟨.MER_SSI_FAIL_CNT, 31, 0⟩
def Fld.MER_CMP_MISSED_CNT : Fld := ⟨.MER_CMP_MISSED_CNT, 31, 0⟩
def Fld.MER_STROBE_MERGE_CNT : Fld := ⟨.MER_STROBE_MERGE_CNT, 31, 0⟩
def Fld.GHL_CTRL_en : Fld := ⟨.GHL_CTRL, 31, 31⟩
def Fld.GHL_CTRL_retrain : Fld := ⟨.GHL_CTRL, 30, 30⟩
def Fld.GHL_CTRL_max_ver : Fld := ⟨.GHL_CTRL, 27, 26⟩
def Fld.GHL_CTRL_preset : Fld := ⟨.GHL_CTRL, 23, 21⟩
def Fld.GHL_CTRL_stat_timeout : Fld := ⟨.GHL_CTRL, 15, 8⟩
def Fld.GHL_STATUS_busy : Fld := ⟨.GHL_STATUS, 31, 31⟩
def Fld.GHL_STATUS_la_short : Fld := ⟨.GHL_STATUS, 30, 30⟩
def Fld.GHL_STATUS_caps_bad : Fld := ⟨.GHL_STATUS, 29, 29⟩
def Fld.GHL_STATUS_dual_port : Fld := ⟨.GHL_STATUS, 28, 28⟩
def Fld.GHL_STATUS_down_reason : Fld := ⟨.GHL_STATUS, 23, 16⟩
def Fld.GHL_STATUS_version : Fld := ⟨.GHL_STATUS, 11, 10⟩
def Fld.GHL_STATUS_rate : Fld := ⟨.GHL_STATUS, 9, 9⟩
def Fld.GHL_STATUS_block_lock : Fld := ⟨.GHL_STATUS, 8, 8⟩
def Fld.GHL_STATUS_state : Fld := ⟨.GHL_STATUS, 2, 0⟩
def Fld.GHL_CAP_FIRE : Fld := ⟨.GHL_CAP_FIRE, 31, 0⟩
def Fld.GHL_FIRE_EFF : Fld := ⟨.GHL_FIRE_EFF, 31, 0⟩
def Fld.GHL_CAP_ID_vendor : Fld := ⟨.GHL_CAP_ID, 31, 16⟩
def Fld.GHL_CAP_ID_product : Fld := ⟨.GHL_CAP_ID, 15, 0⟩
def Fld.GHL_CAP_FW : Fld := ⟨.GHL_CAP_FW, 31, 0⟩
def Fld.GHL_CAP_SER_LO : Fld := ⟨.GHL_CAP_SER_LO, 31, 0⟩
def Fld.GHL_CAP_SER_HI : Fld := ⟨.GHL_CAP_SER_HI, 31, 0⟩
def Fld.GHL_CAP_GEOM_heads : Fld := ⟨.GHL_CAP_GEOM, 31, 28⟩
def Fld.GHL_CAP_GEOM_rows : Fld := ⟨.GHL_CAP_GEOM, 27, 24⟩
def Fld.GHL_CAP_GEOM_hdm_port : Fld := ⟨.GHL_CAP_GEOM, 21, 21⟩
def Fld.GHL_CAP_GEOM_dual : Fld := ⟨.GHL_CAP_GEOM, 20, 20⟩
def Fld.GHL_CAP_GEOM_nozzles : Fld := ⟨.GHL_CAP_GEOM, 16, 0⟩
def Fld.GHL_EPOCH_epoch : Fld := ⟨.GHL_EPOCH, 31, 0⟩
def Fld.GHL_DELAY_l_min : Fld := ⟨.GHL_DELAY, 31, 24⟩
def Fld.GHL_DELAY_delay : Fld := ⟨.GHL_DELAY, 15, 0⟩
def Fld.GHL_EQ_tx_preset : Fld := ⟨.GHL_EQ, 31, 29⟩
def Fld.GHL_EQ_partner_preset : Fld := ⟨.GHL_EQ, 28, 26⟩
def Fld.GHL_EQ_ctle : Fld := ⟨.GHL_EQ, 25, 21⟩
def Fld.GHL_EQ_eye_width : Fld := ⟨.GHL_EQ, 15, 8⟩
def Fld.GHL_EQ_eye_height : Fld := ⟨.GHL_EQ, 7, 0⟩
def Fld.GHL_NAK_CTRL_window : Fld := ⟨.GHL_NAK_CTRL, 31, 24⟩
def Fld.GHL_NAK_CTRL_viol_limit : Fld := ⟨.GHL_NAK_CTRL, 23, 16⟩
def Fld.GHL_NAK_CTRL_nak_limit : Fld := ⟨.GHL_NAK_CTRL, 15, 0⟩
def Fld.GHL_SEQ_seq : Fld := ⟨.GHL_SEQ, 31, 0⟩
def Fld.GHL_ACK_seq : Fld := ⟨.GHL_ACK, 31, 0⟩
def Fld.GHL_CRC_CNT : Fld := ⟨.GHL_CRC_CNT, 31, 0⟩
def Fld.GHL_NAK_CNT : Fld := ⟨.GHL_NAK_CNT, 31, 0⟩
def Fld.GHL_LINE_NAK_CNT : Fld := ⟨.GHL_LINE_NAK_CNT, 31, 0⟩
def Fld.GHL_VIOL_CNT : Fld := ⟨.GHL_VIOL_CNT, 31, 0⟩
def Fld.GHL_RETRAIN_CNT : Fld := ⟨.GHL_RETRAIN_CNT, 31, 0⟩
def Fld.GHL_SYNCHDR_CNT : Fld := ⟨.GHL_SYNCHDR_CNT, 31, 0⟩
def Fld.GHL_SKIP_CNT : Fld := ⟨.GHL_SKIP_CNT, 31, 0⟩
def Fld.GHL_RESEND_CNT : Fld := ⟨.GHL_RESEND_CNT, 31, 0⟩
def Fld.GHL_EPOCH_DRIFT_CNT : Fld := ⟨.GHL_EPOCH_DRIFT_CNT, 31, 0⟩
def Fld.GHL_FIRECLAMP_CNT : Fld := ⟨.GHL_FIRECLAMP_CNT, 31, 0⟩
def Fld.GHL_WAVE_RETRY_CNT : Fld := ⟨.GHL_WAVE_RETRY_CNT, 31, 0⟩
def Fld.PHO_CTRL_en : Fld := ⟨.PHO_CTRL, 31, 31⟩
def Fld.PHO_CTRL_lanes : Fld := ⟨.PHO_CTRL, 27, 26⟩
def Fld.PHO_CTRL_fmt : Fld := ⟨.PHO_CTRL, 25, 24⟩
def Fld.PHO_CTRL_pn_swap : Fld := ⟨.PHO_CTRL, 23, 20⟩
def Fld.PHO_CTRL_hs_settle : Fld := ⟨.PHO_CTRL, 15, 8⟩
def Fld.PHO_SIZE_height : Fld := ⟨.PHO_SIZE, 31, 16⟩
def Fld.PHO_SIZE_width : Fld := ⟨.PHO_SIZE, 15, 0⟩
def Fld.PHO_STATUS_frame : Fld := ⟨.PHO_STATUS, 31, 16⟩
def Fld.PHO_STATUS_exp_id : Fld := ⟨.PHO_STATUS, 15, 8⟩
def Fld.PHO_STATUS_receiving : Fld := ⟨.PHO_STATUS, 7, 7⟩
def Fld.PHO_STATUS_flags : Fld := ⟨.PHO_STATUS, 6, 0⟩
def Fld.PHO_MOSAIC_LO_sites : Fld := ⟨.PHO_MOSAIC_LO, 29, 0⟩
def Fld.PHO_MOSAIC_HI_sites : Fld := ⟨.PHO_MOSAIC_HI, 17, 0⟩
def Fld.PHO_BLACK_level : Fld := ⟨.PHO_BLACK, 15, 0⟩
def Fld.PHO_XTALK_coef : Fld := ⟨.PHO_XTALK, 15, 0⟩
def Fld.PHO_CAM_POS : Fld := ⟨.PHO_CAM_POS, 31, 0⟩
def Fld.PHO_ROW_PITCH : Fld := ⟨.PHO_ROW_PITCH, 31, 0⟩
def Fld.PHO_COL_ORG : Fld := ⟨.PHO_COL_ORG, 31, 0⟩
def Fld.PHO_COL_PITCH : Fld := ⟨.PHO_COL_PITCH, 31, 0⟩
def Fld.PHO_FS_LAT : Fld := ⟨.PHO_FS_LAT, 31, 0⟩
def Fld.PHO_I2C_dev : Fld := ⟨.PHO_I2C, 30, 24⟩
def Fld.PHO_I2C_addr16 : Fld := ⟨.PHO_I2C, 23, 23⟩
def Fld.PHO_I2C_data16 : Fld := ⟨.PHO_I2C, 22, 22⟩
def Fld.PHO_I2C_speed : Fld := ⟨.PHO_I2C, 21, 20⟩
def Fld.PHO_EXP_LEN_len : Fld := ⟨.PHO_EXP_LEN, 31, 0⟩
def Fld.PHO_EXP_COMMIT_id : Fld := ⟨.PHO_EXP_COMMIT, 15, 8⟩
def Fld.PHO_EXP_COMMIT_set : Fld := ⟨.PHO_EXP_COMMIT, 2, 0⟩
def Fld.PHO_EXP_STATE_id_active : Fld := ⟨.PHO_EXP_STATE, 31, 24⟩
def Fld.PHO_EXP_STATE_id_pending : Fld := ⟨.PHO_EXP_STATE, 23, 16⟩
def Fld.PHO_EXP_STATE_id_sending : Fld := ⟨.PHO_EXP_STATE, 15, 8⟩
def Fld.PHO_EXP_STATE_uncertain : Fld := ⟨.PHO_EXP_STATE, 2, 2⟩
def Fld.PHO_EXP_STATE_sending : Fld := ⟨.PHO_EXP_STATE, 1, 1⟩
def Fld.PHO_EXP_STATE_pending : Fld := ⟨.PHO_EXP_STATE, 0, 0⟩
def Fld.PHO_BLACK_CTRL_dark_set : Fld := ⟨.PHO_BLACK_CTRL, 2, 0⟩
def Fld.PHO_SCTRL_en : Fld := ⟨.PHO_SCTRL, 31, 31⟩
def Fld.PHO_SCTRL_fmt : Fld := ⟨.PHO_SCTRL, 27, 24⟩
def Fld.PHO_SCTRL_swap : Fld := ⟨.PHO_SCTRL, 23, 23⟩
def Fld.PHO_SCTRL_compress : Fld := ⟨.PHO_SCTRL, 22, 22⟩
def Fld.PHO_SCTRL_ring : Fld := ⟨.PHO_SCTRL, 13, 8⟩
def Fld.PHO_SCROP0_hi : Fld := ⟨.PHO_SCROP0, 31, 16⟩
def Fld.PHO_SCROP0_lo : Fld := ⟨.PHO_SCROP0, 15, 0⟩
def Fld.PHO_SCROP1_hi : Fld := ⟨.PHO_SCROP1, 31, 16⟩
def Fld.PHO_SCROP1_lo : Fld := ⟨.PHO_SCROP1, 15, 0⟩
def Fld.PHO_SSCALE_hi : Fld := ⟨.PHO_SSCALE, 31, 16⟩
def Fld.PHO_SSCALE_lo : Fld := ⟨.PHO_SSCALE, 15, 0⟩
def Fld.PHO_SADDR0_addr : Fld := ⟨.PHO_SADDR0, 31, 0⟩
def Fld.PHO_SADDR1_addr : Fld := ⟨.PHO_SADDR1, 31, 0⟩
def Fld.PHO_EXP_ENTRY_reg : Fld := ⟨.PHO_EXP_ENTRY, 31, 16⟩
def Fld.PHO_EXP_ENTRY_data : Fld := ⟨.PHO_EXP_ENTRY, 15, 0⟩
def Fld.PHO_LOOP_CTRL_gain_bars : Fld := ⟨.PHO_LOOP_CTRL, 31, 24⟩
def Fld.PHO_LOOP_CTRL_tone_bars : Fld := ⟨.PHO_LOOP_CTRL, 23, 16⟩
def Fld.PHO_LOOP_CTRL_freeze : Fld := ⟨.PHO_LOOP_CTRL, 15, 15⟩
def Fld.PHO_LOOP_CTRL_min_samples : Fld := ⟨.PHO_LOOP_CTRL, 11, 8⟩
def Fld.PHO_LOOP_CTRL_period : Fld := ⟨.PHO_LOOP_CTRL, 7, 0⟩
def Fld.PHO_LOOP_EXP_exp_id : Fld := ⟨.PHO_LOOP_EXP, 7, 0⟩
def Fld.PHO_LOOP_LIMIT_range_pct : Fld := ⟨.PHO_LOOP_LIMIT, 31, 24⟩
def Fld.PHO_LOOP_LIMIT_step : Fld := ⟨.PHO_LOOP_LIMIT, 23, 16⟩
def Fld.PHO_LOOP_LIMIT_delta_max : Fld := ⟨.PHO_LOOP_LIMIT, 15, 0⟩
def Fld.PHO_LOOP_GAIN_deadband : Fld := ⟨.PHO_LOOP_GAIN, 31, 16⟩
def Fld.PHO_LOOP_GAIN_ki : Fld := ⟨.PHO_LOOP_GAIN, 11, 0⟩
def Fld.PHO_LOOP_RESET_tone_reset : Fld := ⟨.PHO_LOOP_RESET, 15, 8⟩
def Fld.PHO_LOOP_RESET_gain_reset : Fld := ⟨.PHO_LOOP_RESET, 7, 0⟩
def Fld.PHO_LOOP_EPOCH_LO_lo : Fld := ⟨.PHO_LOOP_EPOCH_LO, 31, 0⟩
def Fld.PHO_LOOP_EPOCH_HI_hi : Fld := ⟨.PHO_LOOP_EPOCH_HI, 7, 0⟩
def Fld.PHO_TONE_AIM : Fld := ⟨.PHO_TONE_AIM, 15, 0⟩
def Fld.PHO_PLANE_W : Fld := ⟨.PHO_PLANE_W, 15, 0⟩
def Fld.PHO_TONE_DELTA : Fld := ⟨.PHO_TONE_DELTA, 15, 0⟩
def Fld.PHO_DISCARD_CNT : Fld := ⟨.PHO_DISCARD_CNT, 31, 0⟩
def Fld.PHO_ECC_CNT : Fld := ⟨.PHO_ECC_CNT, 31, 0⟩
def Fld.PHO_EXP_SUPERSEDE_CNT : Fld := ⟨.PHO_EXP_SUPERSEDE_CNT, 31, 0⟩
def Fld.PHO_I2C_NAK_CNT : Fld := ⟨.PHO_I2C_NAK_CNT, 31, 0⟩
def Fld.PHO_S1_DROP_CNT : Fld := ⟨.PHO_S1_DROP_CNT, 31, 0⟩
def Fld.PHO_S3_DROP_CNT : Fld := ⟨.PHO_S3_DROP_CNT, 31, 0⟩
def Fld.PHO_CELL_SKIP_CNT : Fld := ⟨.PHO_CELL_SKIP_CNT, 31, 0⟩
def Fld.PHO_TABLE_CRC_CNT : Fld := ⟨.PHO_TABLE_CRC_CNT, 31, 0⟩
def Fld.PHO_LOOP_SKIP_CNT : Fld := ⟨.PHO_LOOP_SKIP_CNT, 31, 0⟩
def Fld.PHO_LOOP_LIMIT_CNT : Fld := ⟨.PHO_LOOP_LIMIT_CNT, 31, 0⟩
def Fld.PHO_LOOP_DISCARD_CNT : Fld := ⟨.PHO_LOOP_DISCARD_CNT, 31, 0⟩
def Fld.TWN_CTRL_auto_rejoin : Fld := ⟨.TWN_CTRL, 7, 7⟩
def Fld.TWN_CTRL_role_req : Fld := ⟨.TWN_CTRL, 6, 6⟩
def Fld.TWN_CTRL_max_ver : Fld := ⟨.TWN_CTRL, 5, 4⟩
def Fld.TWN_CTRL_port_en : Fld := ⟨.TWN_CTRL, 3, 2⟩
def Fld.TWN_CTRL_mode : Fld := ⟨.TWN_CTRL, 1, 0⟩
def Fld.TWN_STATUS_fail_reason : Fld := ⟨.TWN_STATUS, 23, 20⟩
def Fld.TWN_STATUS_version : Fld := ⟨.TWN_STATUS, 17, 16⟩
def Fld.TWN_STATUS_alive_in : Fld := ⟨.TWN_STATUS, 12, 12⟩
def Fld.TWN_STATUS_link_up : Fld := ⟨.TWN_STATUS, 11, 10⟩
def Fld.TWN_STATUS_role : Fld := ⟨.TWN_STATUS, 9, 8⟩
def Fld.TWN_STATUS_pair_state : Fld := ⟨.TWN_STATUS, 1, 0⟩
def Fld.TWN_CMD_checkpoint : Fld := ⟨.TWN_CMD, 2, 2⟩
def Fld.TWN_CMD_unpair : Fld := ⟨.TWN_CMD, 1, 1⟩
def Fld.TWN_CMD_pair : Fld := ⟨.TWN_CMD, 0, 0⟩
def Fld.TWN_TIMING_decide_margin : Fld := ⟨.TWN_TIMING, 23, 16⟩
def Fld.TWN_TIMING_timeout : Fld := ⟨.TWN_TIMING, 8, 0⟩
def Fld.TWN_CKPT_journal_mb : Fld := ⟨.TWN_CKPT, 31, 16⟩
def Fld.TWN_CKPT_period : Fld := ⟨.TWN_CKPT, 15, 0⟩
def Fld.TWN_POS_TOL_tol : Fld := ⟨.TWN_POS_TOL, 15, 0⟩
def Fld.TWN_UNPROT_ports : Fld := ⟨.TWN_UNPROT, 23, 0⟩
def Fld.TWN_JOIN_LO_lo : Fld := ⟨.TWN_JOIN_LO, 31, 0⟩
def Fld.TWN_JOIN_HI_hi : Fld := ⟨.TWN_JOIN_HI, 7, 0⟩
def Fld.TWN_CKPT_LINE_LO_lo : Fld := ⟨.TWN_CKPT_LINE_LO, 31, 0⟩
def Fld.TWN_CKPT_LINE_HI_hi : Fld := ⟨.TWN_CKPT_LINE_HI, 7, 0⟩
def Fld.TWN_PARTNER_LO_serial : Fld := ⟨.TWN_PARTNER_LO, 31, 0⟩
def Fld.TWN_PARTNER_HI_serial : Fld := ⟨.TWN_PARTNER_HI, 31, 0⟩
def Fld.TWN_HB_MISS_CNT : Fld := ⟨.TWN_HB_MISS_CNT, 31, 0⟩
def Fld.TWN_ANN_MISS_CNT : Fld := ⟨.TWN_ANN_MISS_CNT, 31, 0⟩
def Fld.TWN_ABORT_CNT : Fld := ⟨.TWN_ABORT_CNT, 31, 0⟩
def Fld.TWN_DISAGREE_CNT : Fld := ⟨.TWN_DISAGREE_CNT, 31, 0⟩
def Fld.TWN_CKPT_CNT : Fld := ⟨.TWN_CKPT_CNT, 31, 0⟩
def Fld.TWN_TAKEOVER_CNT : Fld := ⟨.TWN_TAKEOVER_CNT, 31, 0⟩
def Fld.HST_CTRL_poll_us : Fld := ⟨.HST_CTRL, 7, 0⟩
def Fld.HST_STATUS_dl_up : Fld := ⟨.HST_STATUS, 31, 31⟩
def Fld.HST_STATUS_l1 : Fld := ⟨.HST_STATUS, 30, 30⟩
def Fld.HST_STATUS_d3hot : Fld := ⟨.HST_STATUS, 29, 29⟩
def Fld.HST_STATUS_width : Fld := ⟨.HST_STATUS, 23, 20⟩
def Fld.HST_STATUS_speed : Fld := ⟨.HST_STATUS, 19, 16⟩
def Fld.HST_DB_BASE_LO_addr_lo : Fld := ⟨.HST_DB_BASE_LO, 31, 6⟩
def Fld.HST_DB_BASE_HI_addr_hi : Fld := ⟨.HST_DB_BASE_HI, 31, 0⟩
def Fld.HST_SB_BASE_LO_addr_lo : Fld := ⟨.HST_SB_BASE_LO, 31, 6⟩
def Fld.HST_SB_BASE_HI_addr_hi : Fld := ⟨.HST_SB_BASE_HI, 31, 0⟩
def Fld.HST_EVT_ROUTE_tim_en : Fld := ⟨.HST_EVT_ROUTE, 23, 23⟩
def Fld.HST_EVT_ROUTE_tim_ring : Fld := ⟨.HST_EVT_ROUTE, 21, 16⟩
def Fld.HST_EVT_ROUTE_mer_en : Fld := ⟨.HST_EVT_ROUTE, 15, 15⟩
def Fld.HST_EVT_ROUTE_mer_ring : Fld := ⟨.HST_EVT_ROUTE, 13, 8⟩
def Fld.HST_EVT_ROUTE_ltn_en : Fld := ⟨.HST_EVT_ROUTE, 7, 7⟩
def Fld.HST_EVT_ROUTE_ltn_ring : Fld := ⟨.HST_EVT_ROUTE, 5, 0⟩
def Fld.HST_MSIX_SRC0_en3 : Fld := ⟨.HST_MSIX_SRC0, 31, 31⟩
def Fld.HST_MSIX_SRC0_vec3 : Fld := ⟨.HST_MSIX_SRC0, 29, 24⟩
def Fld.HST_MSIX_SRC0_en2 : Fld := ⟨.HST_MSIX_SRC0, 23, 23⟩
def Fld.HST_MSIX_SRC0_vec2 : Fld := ⟨.HST_MSIX_SRC0, 21, 16⟩
def Fld.HST_MSIX_SRC0_en1 : Fld := ⟨.HST_MSIX_SRC0, 15, 15⟩
def Fld.HST_MSIX_SRC0_vec1 : Fld := ⟨.HST_MSIX_SRC0, 13, 8⟩
def Fld.HST_MSIX_SRC0_en0 : Fld := ⟨.HST_MSIX_SRC0, 7, 7⟩
def Fld.HST_MSIX_SRC0_vec0 : Fld := ⟨.HST_MSIX_SRC0, 5, 0⟩
def Fld.HST_MSIX_SRC1_en1 : Fld := ⟨.HST_MSIX_SRC1, 15, 15⟩
def Fld.HST_MSIX_SRC1_vec1 : Fld := ⟨.HST_MSIX_SRC1, 13, 8⟩
def Fld.HST_MSIX_SRC1_en0 : Fld := ⟨.HST_MSIX_SRC1, 7, 7⟩
def Fld.HST_MSIX_SRC1_vec0 : Fld := ⟨.HST_MSIX_SRC1, 5, 0⟩
def Fld.HST_WIN_BASE_LO_base_lo : Fld := ⟨.HST_WIN_BASE_LO, 31, 12⟩
def Fld.HST_WIN_BASE_HI_base_hi : Fld := ⟨.HST_WIN_BASE_HI, 31, 0⟩
def Fld.HST_WIN_SIZE_pages : Fld := ⟨.HST_WIN_SIZE, 31, 0⟩
def Fld.HST_WIN_CTRL_wr : Fld := ⟨.HST_WIN_CTRL, 1, 1⟩
def Fld.HST_WIN_CTRL_rd : Fld := ⟨.HST_WIN_CTRL, 0, 0⟩
def Fld.HST_RING_BASE_LO_base_lo : Fld := ⟨.HST_RING_BASE_LO, 31, 12⟩
def Fld.HST_RING_BASE_HI_base_hi : Fld := ⟨.HST_RING_BASE_HI, 31, 0⟩
def Fld.HST_RING_CFG_en : Fld := ⟨.HST_RING_CFG, 31, 31⟩
def Fld.HST_RING_CFG_kind : Fld := ⟨.HST_RING_CFG, 27, 26⟩
def Fld.HST_RING_CFG_ver : Fld := ⟨.HST_RING_CFG, 25, 24⟩
def Fld.HST_RING_CFG_size_log2 : Fld := ⟨.HST_RING_CFG, 20, 16⟩
def Fld.HST_RING_CFG_cring : Fld := ⟨.HST_RING_CFG, 13, 8⟩
def Fld.HST_RING_IRQ_en : Fld := ⟨.HST_RING_IRQ, 31, 31⟩
def Fld.HST_RING_IRQ_time_us : Fld := ⟨.HST_RING_IRQ, 23, 16⟩
def Fld.HST_RING_IRQ_count : Fld := ⟨.HST_RING_IRQ, 15, 8⟩
def Fld.HST_RING_IRQ_vector : Fld := ⟨.HST_RING_IRQ, 5, 0⟩
def Fld.HST_RING_STATUS_state : Fld := ⟨.HST_RING_STATUS, 31, 30⟩
def Fld.HST_RING_STATUS_reason : Fld := ⟨.HST_RING_STATUS, 27, 24⟩
def Fld.HST_RING_STATUS_inflight : Fld := ⟨.HST_RING_STATUS, 8, 0⟩
def Fld.HST_RING_DROP_CNT : Fld := ⟨.HST_RING_DROP_CNT, 31, 0⟩
def Fld.HST_BADDESC_CNT : Fld := ⟨.HST_BADDESC_CNT, 31, 0⟩
def Fld.HST_DBRANGE_CNT : Fld := ⟨.HST_DBRANGE_CNT, 31, 0⟩
def Fld.HST_WINDOW_CNT : Fld := ⟨.HST_WINDOW_CNT, 31, 0⟩
def Fld.HST_KICK_CNT : Fld := ⟨.HST_KICK_CNT, 31, 0⟩
def Fld.HST_EVT_NOROUTE_CNT : Fld := ⟨.HST_EVT_NOROUTE_CNT, 31, 0⟩
def Fld.LTN_CTRL_ack_consume : Fld := ⟨.LTN_CTRL, 0, 0⟩
def Fld.LTN_STATUS_held : Fld := ⟨.LTN_STATUS, 5, 5⟩
def Fld.LTN_STATUS_fault_n : Fld := ⟨.LTN_STATUS, 4, 4⟩
def Fld.LTN_STATUS_f_hold : Fld := ⟨.LTN_STATUS, 3, 3⟩
def Fld.LTN_STATUS_raised_f : Fld := ⟨.LTN_STATUS, 2, 2⟩
def Fld.LTN_STATUS_raised_u : Fld := ⟨.LTN_STATUS, 1, 1⟩
def Fld.LTN_STATUS_raised_c : Fld := ⟨.LTN_STATUS, 0, 0⟩
def Fld.LTN_ACK_class : Fld := ⟨.LTN_ACK, 2, 0⟩
def Fld.LTN_REC_CLR_class : Fld := ⟨.LTN_REC_CLR, 2, 0⟩
def Fld.LTN_QUIET_ms : Fld := ⟨.LTN_QUIET, 15, 0⟩
def Fld.LTN_INT_STATUS_recover : Fld := ⟨.LTN_INT_STATUS, 4, 4⟩
def Fld.LTN_INT_STATUS_f_hold : Fld := ⟨.LTN_INT_STATUS, 3, 3⟩
def Fld.LTN_INT_STATUS_f : Fld := ⟨.LTN_INT_STATUS, 2, 2⟩
def Fld.LTN_INT_STATUS_u : Fld := ⟨.LTN_INT_STATUS, 1, 1⟩
def Fld.LTN_INT_STATUS_c : Fld := ⟨.LTN_INT_STATUS, 0, 0⟩
def Fld.LTN_INT_EN_recover : Fld := ⟨.LTN_INT_EN, 4, 4⟩
def Fld.LTN_INT_EN_f_hold : Fld := ⟨.LTN_INT_EN, 3, 3⟩
def Fld.LTN_INT_EN_f : Fld := ⟨.LTN_INT_EN, 2, 2⟩
def Fld.LTN_INT_EN_u : Fld := ⟨.LTN_INT_EN, 1, 1⟩
def Fld.LTN_INT_EN_c : Fld := ⟨.LTN_INT_EN, 0, 0⟩
def Fld.LTN_RECOVER : Fld := ⟨.LTN_RECOVER, 31, 0⟩
def Fld.LTN_ESC_CNT : Fld := ⟨.LTN_ESC_CNT, 31, 0⟩
def Fld.LTN_SRC_CNT : Fld := ⟨.LTN_SRC_CNT, 31, 0⟩
def Fld.LTN_SRC_CFG_force : Fld := ⟨.LTN_SRC_CFG, 31, 31⟩
def Fld.LTN_SRC_CFG_force_inst : Fld := ⟨.LTN_SRC_CFG, 23, 8⟩
def Fld.LTN_SRC_CFG_min_class : Fld := ⟨.LTN_SRC_CFG, 5, 4⟩
def Fld.LTN_SRC_CFG_fault_n : Fld := ⟨.LTN_SRC_CFG, 1, 1⟩
def Fld.LTN_SRC_CFG_irq_c : Fld := ⟨.LTN_SRC_CFG, 0, 0⟩
def Fld.LTN_REC_bytes : Fld := ⟨.LTN_REC, 31, 0⟩
def Fld.GLB_STATE_factory_step : Fld := ⟨.GLB_STATE, 23, 20⟩
def Fld.GLB_STATE_fl_step : Fld := ⟨.GLB_STATE, 19, 16⟩
def Fld.GLB_STATE_rdy_ghl : Fld := ⟨.GLB_STATE, 12, 12⟩
def Fld.GLB_STATE_rdy_wck : Fld := ⟨.GLB_STATE, 11, 11⟩
def Fld.GLB_STATE_rdy_mer : Fld := ⟨.GLB_STATE, 10, 10⟩
def Fld.GLB_STATE_rdy_trn : Fld := ⟨.GLB_STATE, 9, 9⟩
def Fld.GLB_STATE_rdy_sto : Fld := ⟨.GLB_STATE, 8, 8⟩
def Fld.GLB_STATE_locked : Fld := ⟨.GLB_STATE, 7, 7⟩
def Fld.GLB_STATE_factory_ok : Fld := ⟨.GLB_STATE, 6, 6⟩
def Fld.GLB_STATE_dram_ready : Fld := ⟨.GLB_STATE, 5, 5⟩
def Fld.GLB_STATE_state : Fld := ⟨.GLB_STATE, 2, 0⟩
def Fld.GLB_CMD_stop : Fld := ⟨.GLB_CMD, 2, 2⟩
def Fld.GLB_CMD_print : Fld := ⟨.GLB_CMD, 1, 1⟩
def Fld.GLB_CMD_finish : Fld := ⟨.GLB_CMD, 0, 0⟩
def Fld.GLB_CTRL_allow_nofactory : Fld := ⟨.GLB_CTRL, 0, 0⟩
def Fld.GLB_RESET_key : Fld := ⟨.GLB_RESET, 15, 8⟩
def Fld.GLB_RESET_warm : Fld := ⟨.GLB_RESET, 0, 0⟩
def Fld.GLB_RESET_CAUSE_f_hold : Fld := ⟨.GLB_RESET_CAUSE, 2, 2⟩
def Fld.GLB_RESET_CAUSE_cause : Fld := ⟨.GLB_RESET_CAUSE, 1, 0⟩
def Fld.GLB_BUSY_ghl : Fld := ⟨.GLB_BUSY, 26, 3⟩
def Fld.GLB_BUSY_trn : Fld := ⟨.GLB_BUSY, 2, 2⟩
def Fld.GLB_BUSY_alm : Fld := ⟨.GLB_BUSY, 1, 1⟩
def Fld.GLB_BUSY_drm : Fld := ⟨.GLB_BUSY, 0, 0⟩
def Fld.GLB_REFUSED : Fld := ⟨.GLB_REFUSED, 31, 0⟩
def Fld.GLB_REFUSED_INFO_reason : Fld := ⟨.GLB_REFUSED_INFO, 27, 24⟩
def Fld.GLB_REFUSED_INFO_offset : Fld := ⟨.GLB_REFUSED_INFO, 23, 0⟩
def Fld.GLB_STOP_LINE_LO_lo : Fld := ⟨.GLB_STOP_LINE_LO, 31, 0⟩
def Fld.GLB_STOP_LINE_HI_hi : Fld := ⟨.GLB_STOP_LINE_HI, 7, 0⟩
def Fld.GLB_INT_STATUS_held : Fld := ⟨.GLB_INT_STATUS, 3, 3⟩
def Fld.GLB_INT_STATUS_printing : Fld := ⟨.GLB_INT_STATUS, 2, 2⟩
def Fld.GLB_INT_STATUS_standby : Fld := ⟨.GLB_INT_STATUS, 1, 1⟩
def Fld.GLB_INT_STATUS_busy_done : Fld := ⟨.GLB_INT_STATUS, 0, 0⟩
def Fld.GLB_INT_EN_held : Fld := ⟨.GLB_INT_EN, 3, 3⟩
def Fld.GLB_INT_EN_printing : Fld := ⟨.GLB_INT_EN, 2, 2⟩
def Fld.GLB_INT_EN_standby : Fld := ⟨.GLB_INT_EN, 1, 1⟩
def Fld.GLB_INT_EN_busy_done : Fld := ⟨.GLB_INT_EN, 0, 0⟩
def Fld.LMP_CTRL_sched_en : Fld := ⟨.LMP_CTRL, 31, 31⟩
def Fld.LMP_CTRL_defer_ms : Fld := ⟨.LMP_CTRL, 15, 0⟩
def Fld.LMP_SCHED_zq_ms : Fld := ⟨.LMP_SCHED, 31, 16⟩
def Fld.LMP_SCHED_retrain_s : Fld := ⟨.LMP_SCHED, 15, 0⟩
def Fld.LMP_STATUS_queued : Fld := ⟨.LMP_STATUS, 26, 22⟩
def Fld.LMP_STATUS_running : Fld := ⟨.LMP_STATUS, 10, 1⟩
def Fld.LMP_LAST_CONFLICT_blocking : Fld := ⟨.LMP_LAST_CONFLICT, 15, 8⟩
def Fld.LMP_LAST_CONFLICT_refused : Fld := ⟨.LMP_LAST_CONFLICT, 7, 0⟩
def Fld.LMP_DEFER_CNT : Fld := ⟨.LMP_DEFER_CNT, 31, 0⟩
def Fld.LMP_CONFLICT_CNT : Fld := ⟨.LMP_CONFLICT_CNT, 31, 0⟩
def Fld.LMP_SKIP_CNT : Fld := ⟨.LMP_SKIP_CNT, 31, 0⟩
def Fld.LMP_TIMEOUT_CNT : Fld := ⟨.LMP_TIMEOUT_CNT, 31, 0⟩
def Fld.DRM_CTRL_temp_poll : Fld := ⟨.DRM_CTRL, 15, 8⟩
def Fld.DRM_CTRL_mode : Fld := ⟨.DRM_CTRL, 0, 0⟩
def Fld.DRM_SCHED_wr_hi : Fld := ⟨.DRM_SCHED, 31, 24⟩
def Fld.DRM_SCHED_wr_lo : Fld := ⟨.DRM_SCHED, 23, 16⟩
def Fld.DRM_SCHED_rt_age : Fld := ⟨.DRM_SCHED, 15, 8⟩
def Fld.DRM_SCHED_bulk_age : Fld := ⟨.DRM_SCHED, 7, 0⟩
def Fld.DRM_RH_window_ms : Fld := ⟨.DRM_RH, 23, 16⟩
def Fld.DRM_RH_act_thresh : Fld := ⟨.DRM_RH, 15, 0⟩
def Fld.DRM_STATUS_sr : Fld := ⟨.DRM_STATUS, 9, 8⟩
def Fld.DRM_STATUS_retraining : Fld := ⟨.DRM_STATUS, 7, 7⟩
def Fld.DRM_STATUS_rt_chan : Fld := ⟨.DRM_STATUS, 5, 4⟩
def Fld.DRM_STATUS_trained : Fld := ⟨.DRM_STATUS, 3, 0⟩
def Fld.DRM_CH_STATUS_temp : Fld := ⟨.DRM_CH_STATUS, 31, 24⟩
def Fld.DRM_CH_STATUS_band : Fld := ⟨.DRM_CH_STATUS, 18, 16⟩
def Fld.DRM_CH_STATUS_rfm_req : Fld := ⟨.DRM_CH_STATUS, 15, 15⟩
def Fld.DRM_CH_STATUS_max_postponed : Fld := ⟨.DRM_CH_STATUS, 3, 0⟩
def Fld.DRM_TRAIN_CMD_op : Fld := ⟨.DRM_TRAIN_CMD, 15, 8⟩
def Fld.DRM_TRAIN_CMD_status : Fld := ⟨.DRM_TRAIN_CMD, 5, 4⟩
def Fld.DRM_TRAIN_CMD_rank : Fld := ⟨.DRM_TRAIN_CMD, 3, 2⟩
def Fld.DRM_TRAIN_CMD_pat_src : Fld := ⟨.DRM_TRAIN_CMD, 1, 1⟩
def Fld.DRM_TRAIN_CMD_go : Fld := ⟨.DRM_TRAIN_CMD, 0, 0⟩
def Fld.DRM_TRAIN_ADDR_count : Fld := ⟨.DRM_TRAIN_ADDR, 31, 26⟩
def Fld.DRM_TRAIN_ADDR_addr : Fld := ⟨.DRM_TRAIN_ADDR, 25, 0⟩
def Fld.DRM_PAT_CTRL_margin : Fld := ⟨.DRM_PAT_CTRL, 31, 24⟩
def Fld.DRM_PAT_CTRL_kind : Fld := ⟨.DRM_PAT_CTRL, 17, 16⟩
def Fld.DRM_PAT_CTRL_seed : Fld := ⟨.DRM_PAT_CTRL, 15, 0⟩
def Fld.DRM_TRAIN_RESULT_result : Fld := ⟨.DRM_TRAIN_RESULT, 31, 0⟩
def Fld.DRM_MR_addr : Fld := ⟨.DRM_MR, 14, 8⟩
def Fld.DRM_MR_data : Fld := ⟨.DRM_MR, 7, 0⟩
def Fld.DRM_PAT_USER : Fld := ⟨.DRM_PAT_USER, 31, 0⟩
def Fld.DRM_ERR : Fld := ⟨.DRM_ERR, 31, 0⟩
def Fld.DRM_DLY_RD_step : Fld := ⟨.DRM_DLY_RD, 8, 0⟩
def Fld.DRM_DLY_WR_step : Fld := ⟨.DRM_DLY_WR, 8, 0⟩
def Fld.DRM_DLY_CA_step : Fld := ⟨.DRM_DLY_CA, 8, 0⟩
def Fld.DRM_DLY_BYTE_vref_rd : Fld := ⟨.DRM_DLY_BYTE, 23, 16⟩
def Fld.DRM_DLY_BYTE_wck : Fld := ⟨.DRM_DLY_BYTE, 8, 0⟩
def Fld.DRM_THROTTLE_banks : Fld := ⟨.DRM_THROTTLE, 31, 16⟩
def Fld.DRM_THROTTLE_source : Fld := ⟨.DRM_THROTTLE, 5, 0⟩
def Fld.DRM_THROTTLE_CNT : Fld := ⟨.DRM_THROTTLE_CNT, 31, 0⟩
def Fld.DRM_RFM_CNT : Fld := ⟨.DRM_RFM_CNT, 31, 0⟩
def Fld.DRM_SR_CNT : Fld := ⟨.DRM_SR_CNT, 31, 0⟩
def Fld.DRM_RETRAIN_CNT : Fld := ⟨.DRM_RETRAIN_CNT, 31, 0⟩
def Fld.DRM_FORCED_CNT : Fld := ⟨.DRM_FORCED_CNT, 31, 0⟩
def Fld.CLK_CTRL_refout_en : Fld := ⟨.CLK_CTRL, 1, 0⟩
def Fld.CLK_STATUS_ref_ppm : Fld := ⟨.CLK_STATUS, 31, 16⟩
def Fld.CLK_STATUS_ref_ok : Fld := ⟨.CLK_STATUS, 6, 6⟩
def Fld.CLK_STATUS_pix_lock : Fld := ⟨.CLK_STATUS, 5, 5⟩
def Fld.CLK_STATUS_pcie_lock : Fld := ⟨.CLK_STATUS, 4, 4⟩
def Fld.CLK_STATUS_link_lock : Fld := ⟨.CLK_STATUS, 3, 3⟩
def Fld.CLK_STATUS_mem_lock : Fld := ⟨.CLK_STATUS, 2, 2⟩
def Fld.CLK_STATUS_refout_lock : Fld := ⟨.CLK_STATUS, 1, 1⟩
def Fld.CLK_STATUS_root_lock : Fld := ⟨.CLK_STATUS, 0, 0⟩
def Fld.CLK_PIX_CTRL_en : Fld := ⟨.CLK_PIX_CTRL, 31, 31⟩
def Fld.CLK_PIX_CTRL_div : Fld := ⟨.CLK_PIX_CTRL, 23, 16⟩
def Fld.CLK_PIX_CTRL_n : Fld := ⟨.CLK_PIX_CTRL, 5, 0⟩
def Fld.CLK_PIX_FRAC_frac : Fld := ⟨.CLK_PIX_FRAC, 19, 0⟩
def Fld.CLK_MARGIN_force_en : Fld := ⟨.CLK_MARGIN, 31, 31⟩
def Fld.CLK_MARGIN_force_preset : Fld := ⟨.CLK_MARGIN, 10, 8⟩
def Fld.CLK_MARGIN_preset : Fld := ⟨.CLK_MARGIN, 2, 0⟩
def Fld.CLK_XING_LAST_crossing : Fld := ⟨.CLK_XING_LAST, 23, 16⟩
def Fld.CLK_XING_LAST_domain : Fld := ⟨.CLK_XING_LAST, 15, 12⟩
def Fld.CLK_XING_LAST_event : Fld := ⟨.CLK_XING_LAST, 1, 0⟩
def Fld.CLK_XING_TIMEOUT_CNT : Fld := ⟨.CLK_XING_TIMEOUT_CNT, 31, 0⟩
def Fld.CLK_XING_FLUSH_CNT : Fld := ⟨.CLK_XING_FLUSH_CNT, 31, 0⟩
def Fld.CLK_XING_LOST_CNT : Fld := ⟨.CLK_XING_LOST_CNT, 31, 0⟩
def Fld.CLK_LOSS_CNT : Fld := ⟨.CLK_LOSS_CNT, 31, 0⟩
def Fld.TIM_CTRL_override : Fld := ⟨.TIM_CTRL, 31, 31⟩
def Fld.TIM_CTRL_rx_ring : Fld := ⟨.TIM_CTRL, 29, 24⟩
def Fld.TIM_CTRL_rx_en : Fld := ⟨.TIM_CTRL, 23, 23⟩
def Fld.TIM_CTRL_tx_en : Fld := ⟨.TIM_CTRL, 22, 22⟩
def Fld.TIM_CTRL_promisc : Fld := ⟨.TIM_CTRL, 21, 21⟩
def Fld.TIM_CTRL_mode : Fld := ⟨.TIM_CTRL, 1, 0⟩
def Fld.TIM_STATUS_txq : Fld := ⟨.TIM_STATUS, 7, 3⟩
def Fld.TIM_STATUS_link : Fld := ⟨.TIM_STATUS, 2, 2⟩
def Fld.TIM_STATUS_sec_valid : Fld := ⟨.TIM_STATUS, 1, 1⟩
def Fld.TIM_STATUS_net_valid : Fld := ⟨.TIM_STATUS, 0, 0⟩
def Fld.TIM_MONO_ns : Fld := ⟨.TIM_MONO, 31, 0⟩
def Fld.TIM_NET_ns : Fld := ⟨.TIM_NET, 31, 0⟩
def Fld.TIM_SNAP_MONO_ns : Fld := ⟨.TIM_SNAP_MONO, 31, 0⟩
def Fld.TIM_SNAP_NET_ns : Fld := ⟨.TIM_SNAP_NET, 31, 0⟩
def Fld.TIM_NET_LOAD : Fld := ⟨.TIM_NET_LOAD, 31, 0⟩
def Fld.TIM_NET_STEP : Fld := ⟨.TIM_NET_STEP, 31, 0⟩
def Fld.TIM_NET_RATE_rate : Fld := ⟨.TIM_NET_RATE, 31, 0⟩
def Fld.TIM_STEP_MAX_max_ns : Fld := ⟨.TIM_STEP_MAX, 19, 0⟩
def Fld.TIM_SNAP_CMD_snap : Fld := ⟨.TIM_SNAP_CMD, 0, 0⟩
def Fld.TIM_SEC_BASE_base : Fld := ⟨.TIM_SEC_BASE, 31, 0⟩
def Fld.TIM_SEC_LO_sec_lo : Fld := ⟨.TIM_SEC_LO, 31, 0⟩
def Fld.TIM_SEC_HI_sec_hi : Fld := ⟨.TIM_SEC_HI, 15, 0⟩
def Fld.TIM_NET_LAT_tx_lat : Fld := ⟨.TIM_NET_LAT, 31, 16⟩
def Fld.TIM_NET_LAT_rx_lat : Fld := ⟨.TIM_NET_LAT, 15, 0⟩
def Fld.TIM_NET_MAC_LO_mac_lo : Fld := ⟨.TIM_NET_MAC_LO, 31, 0⟩
def Fld.TIM_NET_MAC_HI_mac_hi : Fld := ⟨.TIM_NET_MAC_HI, 15, 0⟩
def Fld.TIM_TXTS_TAG_valid : Fld := ⟨.TIM_TXTS_TAG, 16, 16⟩
def Fld.TIM_TXTS_TAG_tag : Fld := ⟨.TIM_TXTS_TAG, 15, 0⟩
def Fld.TIM_TXTS_NET_ts : Fld := ⟨.TIM_TXTS_NET, 31, 0⟩
def Fld.TIM_INT_STATUS_link : Fld := ⟨.TIM_INT_STATUS, 11, 11⟩
def Fld.TIM_INT_STATUS_txq : Fld := ⟨.TIM_INT_STATUS, 10, 10⟩
def Fld.TIM_INT_STATUS_wrap : Fld := ⟨.TIM_INT_STATUS, 9, 9⟩
def Fld.TIM_INT_STATUS_step : Fld := ⟨.TIM_INT_STATUS, 8, 8⟩
def Fld.TIM_INT_STATUS_pulse : Fld := ⟨.TIM_INT_STATUS, 7, 0⟩
def Fld.TIM_INT_EN_link : Fld := ⟨.TIM_INT_EN, 11, 11⟩
def Fld.TIM_INT_EN_txq : Fld := ⟨.TIM_INT_EN, 10, 10⟩
def Fld.TIM_INT_EN_wrap : Fld := ⟨.TIM_INT_EN, 9, 9⟩
def Fld.TIM_INT_EN_step : Fld := ⟨.TIM_INT_EN, 8, 8⟩
def Fld.TIM_INT_EN_pulse : Fld := ⟨.TIM_INT_EN, 7, 0⟩
def Fld.TIM_PULSE_CTRL_arm : Fld := ⟨.TIM_PULSE_CTRL, 31, 31⟩
def Fld.TIM_PULSE_CTRL_mode : Fld := ⟨.TIM_PULSE_CTRL, 30, 30⟩
def Fld.TIM_PULSE_CTRL_pol : Fld := ⟨.TIM_PULSE_CTRL, 29, 29⟩
def Fld.TIM_PULSE_CTRL_event : Fld := ⟨.TIM_PULSE_CTRL, 28, 28⟩
def Fld.TIM_PULSE_CTRL_missed : Fld := ⟨.TIM_PULSE_CTRL, 27, 27⟩
def Fld.TIM_PULSE_CTRL_stepped : Fld := ⟨.TIM_PULSE_CTRL, 26, 26⟩
def Fld.TIM_PULSE_CTRL_camtrig : Fld := ⟨.TIM_PULSE_CTRL, 19, 16⟩
def Fld.TIM_PULSE_CTRL_width : Fld := ⟨.TIM_PULSE_CTRL, 15, 0⟩
def Fld.TIM_PULSE_START : Fld := ⟨.TIM_PULSE_START, 31, 0⟩
def Fld.TIM_PULSE_PERIOD : Fld := ⟨.TIM_PULSE_PERIOD, 31, 0⟩
def Fld.TIM_STEP_REFUSED_CNT : Fld := ⟨.TIM_STEP_REFUSED_CNT, 31, 0⟩
def Fld.TIM_TXQ_DROP_CNT : Fld := ⟨.TIM_TXQ_DROP_CNT, 31, 0⟩
def Fld.TIM_RX_DROP_CNT : Fld := ⟨.TIM_RX_DROP_CNT, 31, 0⟩
def Fld.TIM_RX_BAD_CNT : Fld := ⟨.TIM_RX_BAD_CNT, 31, 0⟩
def Fld.TIM_RX_BIG_CNT : Fld := ⟨.TIM_RX_BIG_CNT, 31, 0⟩
def Fld.TIM_PULSE_MISSED_CNT : Fld := ⟨.TIM_PULSE_MISSED_CNT, 31, 0⟩
def Fld.EYE_CTRL_en : Fld := ⟨.EYE_CTRL, 31, 31⟩
def Fld.EYE_CTRL_live : Fld := ⟨.EYE_CTRL, 30, 30⟩
def Fld.EYE_CTRL_pclk_edge : Fld := ⟨.EYE_CTRL, 7, 7⟩
def Fld.EYE_CTRL_de_pol : Fld := ⟨.EYE_CTRL, 6, 6⟩
def Fld.EYE_CTRL_vs_pol : Fld := ⟨.EYE_CTRL, 5, 5⟩
def Fld.EYE_CTRL_hs_pol : Fld := ⟨.EYE_CTRL, 4, 4⟩
def Fld.EYE_CTRL_src : Fld := ⟨.EYE_CTRL, 2, 2⟩
def Fld.EYE_CTRL_cam : Fld := ⟨.EYE_CTRL, 1, 0⟩
def Fld.EYE_HTIM_hi : Fld := ⟨.EYE_HTIM, 31, 16⟩
def Fld.EYE_HTIM_lo : Fld := ⟨.EYE_HTIM, 15, 0⟩
def Fld.EYE_HSYNC_hi : Fld := ⟨.EYE_HSYNC, 31, 16⟩
def Fld.EYE_HSYNC_lo : Fld := ⟨.EYE_HSYNC, 15, 0⟩
def Fld.EYE_VTIM_hi : Fld := ⟨.EYE_VTIM, 31, 16⟩
def Fld.EYE_VTIM_lo : Fld := ⟨.EYE_VTIM, 15, 0⟩
def Fld.EYE_VSYNC_hi : Fld := ⟨.EYE_VSYNC, 31, 16⟩
def Fld.EYE_VSYNC_lo : Fld := ⟨.EYE_VSYNC, 15, 0⟩
def Fld.EYE_FMT_swap : Fld := ⟨.EYE_FMT, 2, 2⟩
def Fld.EYE_FMT_fmt : Fld := ⟨.EYE_FMT, 1, 0⟩
def Fld.EYE_FB_ADDR : Fld := ⟨.EYE_FB_ADDR, 31, 0⟩
def Fld.EYE_FB_STRIDE : Fld := ⟨.EYE_FB_STRIDE, 15, 0⟩
def Fld.EYE_COMMIT_commit : Fld := ⟨.EYE_COMMIT, 0, 0⟩
def Fld.EYE_BORDER : Fld := ⟨.EYE_BORDER, 23, 0⟩
def Fld.EYE_LINE_MATCH : Fld := ⟨.EYE_LINE_MATCH, 11, 0⟩
def Fld.EYE_FREEZE : Fld := ⟨.EYE_FREEZE, 7, 0⟩
def Fld.EYE_STATUS_pending : Fld := ⟨.EYE_STATUS, 31, 31⟩
def Fld.EYE_STATUS_scanning : Fld := ⟨.EYE_STATUS, 30, 30⟩
def Fld.EYE_STATUS_line : Fld := ⟨.EYE_STATUS, 27, 16⟩
def Fld.EYE_STATUS_frame : Fld := ⟨.EYE_STATUS, 15, 0⟩
def Fld.EYE_SIG : Fld := ⟨.EYE_SIG, 31, 0⟩
def Fld.EYE_SCAN_ADDR : Fld := ⟨.EYE_SCAN_ADDR, 31, 0⟩
def Fld.EYE_INT_STATUS_underrun : Fld := ⟨.EYE_INT_STATUS, 4, 4⟩
def Fld.EYE_INT_STATUS_commit : Fld := ⟨.EYE_INT_STATUS, 3, 3⟩
def Fld.EYE_INT_STATUS_done : Fld := ⟨.EYE_INT_STATUS, 2, 2⟩
def Fld.EYE_INT_STATUS_line : Fld := ⟨.EYE_INT_STATUS, 1, 1⟩
def Fld.EYE_INT_STATUS_vblank : Fld := ⟨.EYE_INT_STATUS, 0, 0⟩
def Fld.EYE_INT_EN_underrun : Fld := ⟨.EYE_INT_EN, 4, 4⟩
def Fld.EYE_INT_EN_commit : Fld := ⟨.EYE_INT_EN, 3, 3⟩
def Fld.EYE_INT_EN_done : Fld := ⟨.EYE_INT_EN, 2, 2⟩
def Fld.EYE_INT_EN_line : Fld := ⟨.EYE_INT_EN, 1, 1⟩
def Fld.EYE_INT_EN_vblank : Fld := ⟨.EYE_INT_EN, 0, 0⟩
def Fld.EYE_UNDERRUN_CNT : Fld := ⟨.EYE_UNDERRUN_CNT, 31, 0⟩
def Fld.EYE_SUPERSEDE_CNT : Fld := ⟨.EYE_SUPERSEDE_CNT, 31, 0⟩
def Fld.EYE_S2_SKIP_CNT : Fld := ⟨.EYE_S2_SKIP_CNT, 31, 0⟩
def Fld.ALM_STATUS_rd_void : Fld := ⟨.ALM_STATUS, 8, 8⟩
def Fld.ALM_STATUS_last_err : Fld := ⟨.ALM_STATUS, 5, 4⟩
def Fld.ALM_STATUS_last_result : Fld := ⟨.ALM_STATUS, 1, 0⟩
def Fld.ALM_WR_ADDR_LO : Fld := ⟨.ALM_WR_ADDR_LO, 31, 0⟩
def Fld.ALM_WR_ADDR_HI : Fld := ⟨.ALM_WR_ADDR_HI, 31, 0⟩
def Fld.ALM_WR_LEN : Fld := ⟨.ALM_WR_LEN, 31, 0⟩
def Fld.ALM_WR_CMD_go : Fld := ⟨.ALM_WR_CMD, 0, 0⟩
def Fld.ALM_RD_ADDR : Fld := ⟨.ALM_RD_ADDR, 22, 2⟩
def Fld.ALM_RD_DATA : Fld := ⟨.ALM_RD_DATA, 31, 0⟩
def Fld.ALM_SLOTS_ckpt_free : Fld := ⟨.ALM_SLOTS, 31, 24⟩
def Fld.ALM_SLOTS_reclaim : Fld := ⟨.ALM_SLOTS, 23, 16⟩
def Fld.ALM_SLOTS_erased : Fld := ⟨.ALM_SLOTS, 7, 0⟩
def Fld.ALM_TEMP_t : Fld := ⟨.ALM_TEMP, 31, 16⟩
def Fld.ALM_TEMP_d : Fld := ⟨.ALM_TEMP, 15, 0⟩
def Fld.ALM_SENSE_STATUS_band : Fld := ⟨.ALM_SENSE_STATUS, 10, 8⟩
def Fld.ALM_SENSE_STATUS_suspect : Fld := ⟨.ALM_SENSE_STATUS, 7, 7⟩
def Fld.ALM_SENSE_STATUS_src : Fld := ⟨.ALM_SENSE_STATUS, 6, 4⟩
def Fld.ALM_SENSE_STATUS_valid : Fld := ⟨.ALM_SENSE_STATUS, 2, 0⟩
def Fld.ALM_NEIGH_temp : Fld := ⟨.ALM_NEIGH, 15, 0⟩
def Fld.ALM_TJ_high : Fld := ⟨.ALM_TJ, 7, 0⟩
def Fld.ALM_BADREC_CNT : Fld := ⟨.ALM_BADREC_CNT, 31, 0⟩
def Fld.ALM_WRITE_CNT : Fld := ⟨.ALM_WRITE_CNT, 31, 0⟩
def Fld.ALM_SUSPECT_CNT : Fld := ⟨.ALM_SUSPECT_CNT, 31, 0⟩
def Fld.PWR_VIN : Fld := ⟨.PWR_VIN, 15, 0⟩
def Fld.PWR_STAGE_TEMP : Fld := ⟨.PWR_STAGE_TEMP, 15, 0⟩
def Fld.PWR_VIN_LOW_limit : Fld := ⟨.PWR_VIN_LOW, 15, 0⟩
def Fld.PWR_VIN_LOW_CNT : Fld := ⟨.PWR_VIN_LOW_CNT, 31, 0⟩
def Fld.GLB_ID_family : Fld := ⟨.GLB_ID, 31, 16⟩
def Fld.GLB_ID_part : Fld := ⟨.GLB_ID, 15, 0⟩
def Fld.GLB_REV_map : Fld := ⟨.GLB_REV, 23, 16⟩
def Fld.GLB_REV_module : Fld := ⟨.GLB_REV, 15, 8⟩
def Fld.GLB_REV_stepping : Fld := ⟨.GLB_REV, 7, 0⟩
def Fld.GLB_VERSIONS_drm_compat : Fld := ⟨.GLB_VERSIONS, 8, 8⟩
def Fld.GLB_VERSIONS_twin : Fld := ⟨.GLB_VERSIONS, 7, 6⟩
def Fld.GLB_VERSIONS_desc : Fld := ⟨.GLB_VERSIONS, 5, 4⟩
def Fld.GLB_VERSIONS_gahild : Fld := ⟨.GLB_VERSIONS, 3, 2⟩
def Fld.GLB_VERSIONS_ibrik : Fld := ⟨.GLB_VERSIONS, 1, 0⟩
def Fld.GLB_CAP0_pcie_lanes : Fld := ⟨.GLB_CAP0, 31, 28⟩
def Fld.GLB_CAP0_bars : Fld := ⟨.GLB_CAP0, 27, 24⟩
def Fld.GLB_CAP0_ports : Fld := ⟨.GLB_CAP0, 23, 16⟩
def Fld.GLB_CAP0_cameras : Fld := ⟨.GLB_CAP0, 15, 12⟩
def Fld.GLB_CAP0_twin_ports : Fld := ⟨.GLB_CAP0, 11, 8⟩
def Fld.GLB_CAP0_net_ports : Fld := ⟨.GLB_CAP0, 7, 4⟩
def Fld.GLB_CAP0_displays : Fld := ⟨.GLB_CAP0, 3, 0⟩
def Fld.GLB_CAP1_rings : Fld := ⟨.GLB_CAP1, 31, 24⟩
def Fld.GLB_CAP1_windows : Fld := ⟨.GLB_CAP1, 23, 20⟩
def Fld.GLB_CAP1_groups : Fld := ⟨.GLB_CAP1, 19, 16⟩
def Fld.GLB_CAP1_latches : Fld := ⟨.GLB_CAP1, 15, 12⟩
def Fld.GLB_CAP1_pulses : Fld := ⟨.GLB_CAP1, 11, 8⟩
def Fld.GLB_CAP1_comp_lanes : Fld := ⟨.GLB_CAP1, 7, 4⟩
def Fld.GLB_CAP2_compares : Fld := ⟨.GLB_CAP2, 31, 24⟩
def Fld.GLB_CAP2_dram_gb : Fld := ⟨.GLB_CAP2, 23, 16⟩
def Fld.GLB_CAP2_sections : Fld := ⟨.GLB_CAP2, 12, 0⟩
def Fld.GLB_SERIAL_LO_serial : Fld := ⟨.GLB_SERIAL_LO, 31, 0⟩
def Fld.GLB_SERIAL_HI_serial : Fld := ⟨.GLB_SERIAL_HI, 31, 0⟩
def Fld.GLB_SCRATCH : Fld := ⟨.GLB_SCRATCH, 31, 0⟩
def Fld.HST_MSIX_TABLE_word : Fld := ⟨.HST_MSIX_TABLE, 31, 0⟩
def Fld.HST_MSIX_PBA_pend : Fld := ⟨.HST_MSIX_PBA, 31, 0⟩

/-- Sources whose LTN_SRC_CFG.fault_n resets to 1: those of default class U and MER.QUAD_ILLEGAL (R415, LTN_SRC_CFG). -/
def faultNReset : List Nat :=
  [0, 1, 2, 3, 4, 6, 7, 9, 12, 13, 17, 18, 20, 25, 26, 30, 34, 35, 39, 40, 41, 43]

/-- Value of instance (i, j) of a register after cold reset (R15). -/
def Reg.reset (r : Reg) (i j : Nat) : BitVec 32 :=
  match r.rule with
  | .plain => BitVec.ofNat 32 (r.fields.foldl (fun a f => a + f.reset <<< f.lo) 0)
  | .quiet => if i = 0 then 100 else if i = 1 then 1000 else 0
  | .srcCfg => if 45 ≤ i then 0 else if faultNReset.contains i then 0x00FFFF02 else 0x00FFFF00
  | .xtalk => if j = 0 ∨ j = 5 ∨ j = 10 then 0x1000 else 0
  | .planeW => if j = 1 then 0x4000 else 0
  | .msix => if j = 3 then 1 else 0
  | .serialLo => Config.serial.extractLsb' 0 32
  | .serialHi => Config.serial.extractLsb' 32 32

/-- Offset in BAR0 of instance (i, j, k) of a register (R588). -/
def Reg.addr (r : Reg) (i j k : Nat) : Nat :=
  match r.dims with
  | [] => r.base
  | [(a, _)] => r.base + a * i
  | [(a, _), (b, _)] => r.base + a * i + b * j
  | (a, _) :: (b, _) :: (c, _) :: _ => r.base + a * i + b * j + c * k

/-- The instance indices that an offset `d` above a register's base spells, if it spells any. -/
def splitIdx : List (Nat × Nat) → Nat → Option (List Nat)
  | [], d => if d = 0 then some [] else none
  | (a, n) :: t, d => if d / a < n then (splitIdx t (d % a)).map (d / a :: ·) else none

/-- The register and instance that a BAR0 offset names; none for a reserved offset (R591). -/
def Reg.ofOffset (off : Nat) : Option (Reg × List Nat) :=
  Reg.all.findSome? fun r =>
    if off < r.base then none
    else (splitIdx r.dims (off - r.base)).map fun l => (r, l)

end Sys2Proof.Machine
end

