-- ==== Sys2Proof/Machine/Ops.lean ====
section
/-! DEFINITION. The named operations over the state: registers, counters, refused writes, interrupts, fault
raises, host memory, rings, completions and EVENT records, device-state changes. -/

namespace Sys2Proof.Machine

/-- The outcome of a command. -/
abbrev Out := Host.Outcome State Fault Refusal

/-! ### Registers -/

/-- The stored word of instance (i, j, k) of a register. -/
def State.rd (s : State) (r : Reg) (i : Nat := 0) (j : Nat := 0) (k : Nat := 0) : Word :=
  s.regs.get (r.reset i j) (r.addr i j k)

/-- The state with instance (i, j, k) of a register holding `v`. -/
def State.wr (s : State) (r : Reg) (v : Word) (i : Nat := 0) (j : Nat := 0) (k : Nat := 0) : State :=
  { s with regs := s.regs.put (r.reset i j) (r.addr i j k) v }

/-- Bits `hi` to `lo` of a word. -/
def field (w : Word) (hi lo : Nat) : Nat := nbits w.toNat hi lo

/-- A word with bits `hi` to `lo` replaced. -/
def putField (w : Word) (hi lo v : Nat) : Word :=
  BitVec.ofNat 32 (w.toNat - field w hi lo <<< lo + (v % 2 ^ (hi + 1 - lo)) <<< lo)

/-- A field of a register. -/
def State.get (s : State) (f : Fld) (i : Nat := 0) (j : Nat := 0) (k : Nat := 0) : Nat :=
  field (s.rd f.reg i j k) f.hi f.lo

/-- A field of a register that holds a non-zero value. -/
def State.on (s : State) (f : Fld) (i : Nat := 0) (j : Nat := 0) (k : Nat := 0) : Bool :=
  s.get f i j k != 0

/-- The state with a field of a register holding `v`. -/
def State.set (s : State) (f : Fld) (v : Nat) (i : Nat := 0) (j : Nat := 0) (k : Nat := 0) : State :=
  s.wr f.reg (putField (s.rd f.reg i j k) f.hi f.lo v) i j k

/-- A counter one higher, saturating at its field's greatest value. -/
def State.count (s : State) (f : Fld) (i : Nat := 0) (j : Nat := 0) (k : Nat := 0) (n : Nat := 1) : State :=
  s.set f (min (s.get f i j k + n) (2 ^ (f.hi + 1 - f.lo) - 1)) i j k

/-- A field of a value `v` that is about to be written to its register. -/
def Fld.of (f : Fld) (v : Word) : Nat := field v f.hi f.lo

/-! ### Time, free values and outputs -/

/-- MONO (R497). -/
def State.mono (s : State) : Time := s.tim.mono

/-- NET: the integer nanoseconds (R497, R498). -/
def State.net (s : State) : Time := s.tim.net.extractLsb' 40 32

/-- MONO with its wraps counted. -/
def State.clock (s : State) : Instant := s.tim.laps * 2 ^ 32 + s.mono.toNat

/-- At least `ns` have passed on MONO since an instant. -/
def State.elapsed (s : State) (t : Instant) (ns : Nat) : Bool := decide (t + ns ≤ s.clock)

/-- A free value: a word that nothing constrains (log 4). -/
def State.fresh (s : State) : BitVec 64 × State :=
  (Config.freeWord s.free, { s with free := s.free + 1 })

/-- Something leaves the block. -/
def State.emit (s : State) (o : Output) : State := { s with out := s.out ++ [o] }

/-! ### Fault sources (R415) -/

/-- The fault sources of the catalogue, in source order (R415). -/
inductive Src where
  | trnLate | trnTableCrc | stoVerify | stoBadStream | stoFull | wckHeadDerate
  | wckHeadHot | wckTempStale | wckTooLong | merQuadIllegal | merCmpMissed | merOverspeed
  | merSlip | merSsiFail | merIndex | ghlCrc | ghlRetrain | ghlPartner
  | ghlDown | ghlEpoch | phoOverflow | phoShort | phoLong | phoLoopLimit
  | phoI2c | twnHeartbeat | twnDisagree | twnTakeover | hstBaddesc | hstDoorbellRange
  | hstWindow | hstLinkDown | drmThrottle | drmTrainFail | drmTempHigh | cdcTimeout
  | timJumpRefused | timTxqOverflow | eyeUnderrun | eyeFreeze | senseDiodeSuspect | senseTjHigh
  | senseTjFatal | pwrVinLow | lmpConflict
  deriving DecidableEq, Repr

/-- Default class (1 C, 2 U, 3 F) and action code by source number (R411, R415). -/
def srcDefaults : List (Nat × Nat) :=
  [(2, 1), (2, 9), (2, 11), (2, 10), (2, 9), (1, 3), (2, 2), (2, 2), (1, 9), (1, 0), (1, 12), (1, 4),
   (2, 13), (2, 12), (1, 0), (1, 12), (1, 7), (2, 7), (2, 8), (1, 0), (2, 5), (1, 6), (1, 6), (1, 0),
   (1, 12), (2, 0), (2, 14), (1, 0), (1, 9), (1, 12), (2, 9), (3, 21), (1, 16), (3, 21), (2, 17), (2, 19),
   (1, 9), (1, 12), (1, 20), (2, 0), (2, 18), (2, 0), (3, 21), (2, 0), (1, 9)]

/-- A source's number (R415). -/
def Src.num (x : Src) : Nat := x.ctorIdx

/-- A raise takes its place in Lantern's queue: behind those that reached it before, and in ascending order of
source number among those of the same instant (R390, R391). -/
def insertRaise (x : Raise) : List Raise → List Raise
  | [] => [x]
  | y :: t => if y.at' = x.at' ∧ x.src < y.src then x :: y :: t else y :: insertRaise x t

/-- A raise reaches Lantern, which handles raises one at a time (R390); class and action are the catalogue's
where the raising rule gives none (R416). -/
def State.raise (s : State) (x : Src) (detail : Word) (inst0 : Nat := 0xFF) (inst1 : Nat := 0xFF)
    (cls : Option Nat := none) (action : Option Nat := none) : State :=
  let dflt := srcDefaults.getD x.num (0, 0)
  let r : Raise := ⟨x.num, cls.getD dflt.1, inst0, inst1, action.getD dflt.2, detail, false, s.clock⟩
  { s with ltn := { s.ltn with raises := insertRaise r s.ltn.raises } }

/-- Folds a state operation over a list. -/
def State.each {α : Type} (s : State) (l : List α) (f : State → α → State) : State := l.foldl f s

/-! ### Interrupts (R386 to R388) -/

/-- The link carries something: it is in L0, and no longer idle (R348). -/
def State.traffic (s : State) : State := { s with hst := { s.hst with l1 := false, busyAt := s.clock } }

/-- The message of an MSI-X vector: sent, or marked pending while the vector or the function is masked; nothing
while MSI-X is disabled or the link is down (R386; PCI Express MSI-X, log 15). `cause` is the source that it signals, none for a ring. -/
def State.msix (s : State) (vec : Nat) (cause : Option IrqSrc) : State :=
  if !s.hst.cfg.msixEn || !s.hst.dlUp || s.hst.d3hot then s
  else if s.hst.cfg.msixMask || (s.rd .HST_MSIX_TABLE vec 3).getLsbD 0 then
    { s with hst := { s.hst with pend := (s.hst.pend.erase (vec, cause)) ++ [(vec, cause)] } }.wr .HST_MSIX_PBA
      ((s.rd .HST_MSIX_PBA (vec / 32)) ||| (1 <<< (vec % 32))) (vec / 32)
  else
    s.traffic.emit
      (.msix (s.rd .HST_MSIX_TABLE vec 1 ++ s.rd .HST_MSIX_TABLE vec 0) (s.rd .HST_MSIX_TABLE vec 2))

/-- Status and enable register of a source (R388). -/
def IrqSrc.regs : IrqSrc → Reg × Reg
  | .lantern => (.LTN_INT_STATUS, .LTN_INT_EN)
  | .meridian => (.MER_INT_STATUS, .MER_INT_EN)
  | .eyepiece => (.EYE_INT_STATUS, .EYE_INT_EN)
  | .time => (.TIM_INT_STATUS, .TIM_INT_EN)
  | .device => (.GLB_INT_STATUS, .GLB_INT_EN)

/-- Route of a source: enable and vector field (HST_MSIX_SRC0, HST_MSIX_SRC1). -/
def IrqSrc.route : IrqSrc → Fld × Fld
  | .lantern => (.HST_MSIX_SRC0_en0, .HST_MSIX_SRC0_vec0)
  | .meridian => (.HST_MSIX_SRC0_en1, .HST_MSIX_SRC0_vec1)
  | .eyepiece => (.HST_MSIX_SRC0_en2, .HST_MSIX_SRC0_vec2)
  | .time => (.HST_MSIX_SRC0_en3, .HST_MSIX_SRC0_vec3)
  | .device => (.HST_MSIX_SRC1_en1, .HST_MSIX_SRC1_vec1)

/-- A bit of a source's status register is set; a change from 0 to 1 with the bit enabled and the source routed
signals its vector (R388). -/
def State.irq (s : State) (x : IrqSrc) (bit : Nat) : State :=
  let was := (s.rd x.regs.1).getLsbD bit
  let s := s.wr x.regs.1 (s.rd x.regs.1 ||| (1 <<< bit))
  if !was && (s.rd x.regs.2).getLsbD bit && s.on x.route.1 then s.msix (s.get x.route.2) (some x) else s

/-- A pending vector is done: it is sent now, or what it was to signal is gone. -/
def State.clearPending (s : State) (vec : Nat) : State :=
  { s with hst := { s.hst with pend := s.hst.pend.filter fun e => e.1 != vec } }.wr .HST_MSIX_PBA
    ((s.rd .HST_MSIX_PBA (vec / 32)) &&& ~~~((1 : Word) <<< (vec % 32))) (vec / 32)

/-- A source has no enabled bit of its status register set any more. -/
def State.irqGone (s : State) (x : IrqSrc) : Bool := s.rd x.regs.1 &&& s.rd x.regs.2 == 0

/-- The host has met every interrupt that a pending vector was to signal: it is pending no more (R386; PCI Express MSI-X, log 15). -/
def State.settlePending (s : State) : State :=
  let keep (e : Nat × Option IrqSrc) : Bool := match e.2 with
    | some x => !s.irqGone x
    | none => true
  let old := s.hst.pend
  let l := old.filter keep
  let s := { s with hst := { s.hst with pend := l } }
  s.each ((old.map (·.1)).filter fun v => !(l.any fun e => e.1 == v)) State.clearPending

/-! ### Refused register writes (R428) -/

/-- A register write at a BAR0 offset is refused and counted; GLB_REFUSED_INFO names it (R428). -/
def State.refuse (s : State) (off reason : Nat) : State :=
  ((s.count .GLB_REFUSED).set .GLB_REFUSED_INFO_reason reason).set .GLB_REFUSED_INFO_offset off

/-- A host write reaches the registers: not while the device is DARK, without power or in a warm reset (R432, R594). -/
def State.bar0 (s : State) (act : State → State) : State := if s.dev.dev = .dark then s else act s.traffic

/-! ### Register writes and their crossings (R13, R482 to R484) -/

/-- The bits of a register whose field has one of the access codes named. -/
def Reg.maskOf (r : Reg) (codes : List Access) : Word :=
  r.fields.foldl (fun m f => if codes.contains f.acc then m ||| BitVec.ofNat 32 ((2 ^ (f.hi + 1 - f.lo) - 1) * 2 ^ f.lo) else m) 0

/-- The stored word of a register after a write of `v`: RW, RWS and RWL fields take it, 1s clear W1C bits, and every other
bit stays (R13, R592). -/
def Reg.stored (r : Reg) (old v : Word) : Word :=
  let rw := r.maskOf [.rw, .rws, .rwl]
  let w1c := r.maskOf [.w1c]
  (v &&& rw) ||| (old &&& ~~~(v &&& w1c) &&& ~~~rw)

/-- A write of `v` reaches a register. -/
def State.store (s : State) (r : Reg) (v : Word) (i : Nat := 0) (j : Nat := 0) (k : Nat := 0) : State :=
  s.wr r (r.stored (s.rd r i j k) v) i j k

/-- The crossing by which a register is written, for the blocks outside FAB (R476, R489); Eyepiece registers are held in
FAB while the PIX domain is in reset (R482). -/
def State.xingOf (s : State) (off : Nat) : Option Nat :=
  if 0x120000 ≤ off ∧ off < 0x140000 then some 36
  else if 0x140000 ≤ off ∧ off < 0x158000 then some ((off - 0x140000) / 4096)
  else if 0x191000 ≤ off ∧ off < 0x192000 then some (26 + (off - 0x191000) / 1024)
  else if 0x1A0000 ≤ off ∧ off < 0x1B0000 then some 35
  else if 0x1B0000 ≤ off ∧ off < 0x1C0000 ∧ s.clk.pixLock then some 34
  else none

/-- A crossing. -/
def State.xing (s : State) (x : Nat) : Crossing := s.clk.xings.getD x ⟨[], 0, .running, false⟩

/-- A change of one crossing. -/
def State.updXing (s : State) (x : Nat) (f : Crossing → Crossing) : State :=
  { s with clk := { s.clk with xings := upd x f s.clk.xings } }

/-- A register of commands alone: its write crosses as an event, and one that arrives while one is pending merges into it (R483). -/
def Reg.strobe (r : Reg) : Bool := r.maskOf [.w1s] != 0 && r.maskOf [.rw, .rws, .rwl, .w1c, .wo] == 0

/-- The register at an offset is one of commands alone. -/
def strobeAt (off : Nat) : Bool := ((Reg.ofOffset off).map (·.1.strobe)).getD false

/-- The values that a crossing holds: what it has pending but events (R484). -/
def Crossing.values (x : Crossing) : List PendWrite := x.writes.filter fun w => !strobeAt w.off

/-- A write is refused by its crossing: one to the same register is pending there, or 16 are (R484); an event merges (R483). -/
def State.xingBlocked (s : State) (off : Nat) : Bool :=
  match s.xingOf off with
  | some x => !strobeAt off && (decide (16 ≤ (s.xing x).values.length) || (s.xing x).values.any fun w => w.off == off)
  | none => false

/-- A write waits in its crossing, behind those before it; an event merges into one of its register (R483, R484). -/
def State.enqueue (s : State) (x off : Nat) (v : Word) : State :=
  s.updXing x fun q =>
    if strobeAt off && q.writes.any (fun w => w.off == off) then
      { q with writes := q.writes.map fun (w : PendWrite) => if w.off = off then { w with value := w.value ||| v } else w }
    else { q with writes := q.writes ++ [⟨off, v, s.clock⟩] }

/-- A write of MER_ENC_CTRL[e] arrives: an encoder that it enables begins a window of illegal transitions (R181). -/
def State.storeEncCtrl (s : State) (e : Nat) (v : Word) : State :=
  let t := s.store .MER_ENC_CTRL v e
  if v.msb && !s.on .MER_ENC_CTRL_en e then
    { t with mer := { t.mer with encs := upd e (fun (x : Encoder) => { x with window := s.clock, illegal := 0 }) t.mer.encs } }
  else t

/-- A write of MER_SLIP_CTRL arrives: the check that it starts begins its window (R188). -/
def State.storeSlipCtrl (s : State) (v : Word) : State :=
  let t := s.store .MER_SLIP_CTRL v
  if v.msb && !s.on .MER_SLIP_CTRL_enc_chk then { t with mer := { t.mer with slipStart := s.mer.pos, slipAux := s.mer.aux } } else t

/-- A write of MER_SSI_TIMING arrives: a new period counts from there (R185). -/
def State.storeSsiTiming (s : State) (v : Word) : State :=
  let t := s.store .MER_SSI_TIMING v
  if t.get .MER_SSI_TIMING_period = s.get .MER_SSI_TIMING_period then t
  else { t with mer := { t.mer with ssi := { t.mer.ssi with periodAt := s.clock } } }

/-- A write reaches a register in its domain, with what it starts there. -/
def State.land (s : State) (r : Reg) (v : Word) (i j k : Nat) : State :=
  if r.base = Reg.MER_ENC_CTRL.base then s.storeEncCtrl i v
  else if r.base = Reg.MER_SLIP_CTRL.base then s.storeSlipCtrl v
  else if r.base = Reg.MER_SSI_TIMING.base then s.storeSsiTiming v
  else s.store r v i j k

/-- A pending write is applied in its destination: every field of the register at once (R484). -/
def State.applyPend (s : State) (w : PendWrite) : State :=
  match Reg.ofOffset w.off with
  | some (r, l) => (s.land r w.value (l.getD 0 0) (l.getD 1 0) (l.getD 2 0)).settlePending
  | none => s

/-- Registers outside FAB that have rows of their own in the command table: what a write of one does is that row's effect. -/
def commandRegs : List Reg :=
  [.MER_POS_CMD, .MER_SSI_CMD, .MER_GEOM_COMMIT, .MER_LATCH_CTRL, .MER_CMP_CTRL, .GHL_CTRL, .DRM_TRAIN_CMD, .TIM_NET_LOAD, .TIM_NET_STEP,
   .TIM_SNAP_CMD, .TIM_SEC_LO, .TIM_PULSE_CTRL, .EYE_CTRL, .EYE_COMMIT]

/-- A pending write is of a register with a row of its own. -/
def PendWrite.ofCommand (w : PendWrite) : Bool :=
  ((Reg.ofOffset w.off).map fun e => commandRegs.any fun r => r.base == e.1.base).getD false

/-- The registers as the writes that their crossing holds will leave them. -/
def State.ahead (s : State) (off : Nat) : State :=
  match s.xingOf off with
  | some x => (s.xing x).writes.foldl State.applyPend (s.updXing x fun _ => ⟨[], 0, .running, false⟩)
  | none => s

/-- The writes that a crossing holds are applied in the order in which they reached FAB, so that what comes behind them finds
them applied (R484); not while one of them is a command of its own, which arrives by itself. -/
def State.drain (s : State) (off : Nat) : State :=
  match s.xingOf off with
  | some x =>
    if (s.xing x).sync = .running && !(s.xing x).writes.any PendWrite.ofCommand then
      (s.xing x).writes.foldl State.applyPend (s.updXing x fun k => { k with writes := [] })
    else s
  | none => s

/-- One side of a crossing is reset: it discards what it holds and carries nothing until it has resynchronised (R490). -/
def State.resetXing (s : State) (x : Nat) : State := s.updXing x fun _ => ⟨[], 0, .waiting, false⟩

/-- A write of `v` at an offset, refused with the lowest of the reasons that apply (R428); `checks` pairs each reason with whether it does. One
that passes acts at once where its crossing carries traffic and holds no command of its own, behind the writes there; else it waits in the
crossing (R484, R490; log 50). -/
def State.gate (s : State) (off : Nat) (v : Word) (checks : List (Nat × Bool)) (act : State → State) : State :=
  s.bar0 fun s =>
    match (((4, s.xingBlocked off) :: checks).filter (·.2)).map (·.1) with
    | [] =>
      let d := s.drain off
      match s.xingOf off with
      | some x => if (d.xing x).sync = .running && (d.xing x).writes.isEmpty then act d else s.enqueue x off v
      | none => act d
    | r :: t => s.refuse off (t.foldl min r)

/-! ### Host memory (R352, R353) -/

/-- The whole access lies inside one open window that grants its direction (R353). -/
def State.windowOk (s : State) (write : Bool) (addr len : Nat) : Bool :=
  (List.range 8).any fun w =>
    let base := (s.rd .HST_WIN_BASE_LO w).toNat + (s.rd .HST_WIN_BASE_HI w).toNat * 2 ^ 32
    let size := (s.rd .HST_WIN_SIZE w).toNat * 4096
    decide (0 < size) && s.on (if write then .HST_WIN_CTRL_wr else .HST_WIN_CTRL_rd) w
      && decide (base ≤ addr) && decide (addr + len ≤ base + size)

/-- An access outside the windows raises HST.WINDOW and is counted (R353); `ring` is 0xFF where none. -/
def State.windowFault (s : State) (ring addr : Nat) (action : Nat := 9) : State :=
  (s.count .HST_WINDOW_CNT).raise .hstWindow (BitVec.ofNat 32 (nbits addr 43 12)) ring 0xFF none (some action)

/-- Bytes are written to host memory; buffer data carry Relaxed Ordering where the host has enabled it (R355). -/
def State.hostWrite (s : State) (addr : Nat) (bytes : Bytes) (data : Bool := false) : State :=
  s.traffic.emit (.hostWrite addr bytes (data && s.hst.cfg.relaxed))

/-! ### Rings (R357 to R369) -/

/-- A ring's typed state. -/
def State.ring (s : State) (r : Nat) : Ring := s.hst.rings.getD r Ring.reset

/-- A change of one ring. -/
def State.updRing (s : State) (r : Nat) (f : Ring → Ring) : State :=
  { s with hst := { s.hst with rings := upd r f s.hst.rings } }

/-- 2^n, the entries of a ring (R357). -/
def State.ringSize (s : State) (r : Nat) : Nat := 2 ^ s.get .HST_RING_CFG_size_log2 r

/-- Host address of a ring's first entry. -/
def State.ringBase (s : State) (r : Nat) : Nat :=
  (s.rd .HST_RING_BASE_LO r).toNat + (s.rd .HST_RING_BASE_HI r).toNat * 2 ^ 32

/-- A ring's kind: 0 SUBMIT, 1 COMPLETE, 2 CAPTURE, 3 EVENT (R357). -/
def State.ringKind (s : State) (r : Nat) : Nat := s.get .HST_RING_CFG_kind r

/-- The COMPLETE ring that a SUBMIT or CAPTURE ring names (R358). -/
def State.cring (s : State) (r : Nat) : Nat := s.get .HST_RING_CFG_cring r

/-- Bytes of an entry (R357). -/
def State.entrySize (s : State) (r : Nat) : Nat := if s.ringKind r = 1 then 16 else 32

/-- A ring is RUNNING (R359). -/
def State.running (s : State) (r : Nat) : Bool := decide (r < 64) && (s.ring r).st == .running

/-- A COMPLETE or EVENT ring has no room: the next entry would reach the consumer index (R362). -/
def State.ringFull (s : State) (r : Nat) : Bool :=
  (s.ring r).dev + 1 == (s.ring r).acc || ((s.ring r).dev + 1 == s.ringSize r && (s.ring r).acc == 0)

/-- A SUBMIT or CAPTURE ring holds a pending entry (R362). -/
def State.hasEntry (s : State) (r : Nat) : Bool := (s.ring r).dev != (s.ring r).acc

/-- Code of a ring's state in the status block and in HST_RING_STATUS (R369). -/
def RingState.code : RingState → Nat
  | .disabled => 0
  | .running => 1
  | .stopped => 2

/-- Address of the status block (R369). -/
def State.sbBase (s : State) : Nat := (s.rd .HST_SB_BASE_LO).toNat + (s.rd .HST_SB_BASE_HI).toNat * 2 ^ 32

/-- Address of the doorbell block (R365). -/
def State.dbBase (s : State) : Nat := (s.rd .HST_DB_BASE_LO).toNat + (s.rd .HST_DB_BASE_HI).toNat * 2 ^ 32

/-- The status-block entry of a ring is written (R369), or not where it lies outside the windows (R353). A ring
stopped by loss of the link gets no entry (R349). -/
def State.writeStatus (s : State) (r : Nat) : State :=
  let g := s.ring r
  let s := s.updRing r fun g => { g with dirty := false }
  let a := s.sbBase + 8 * r
  if g.st == .stopped && g.reason == 6 then s
  else if s.windowOk true a 8 then
    s.hostWrite a (toLe 2 g.dev ++ [BitVec.ofNat 8 g.st.code, 0] ++ toLe 4 g.kick.toNat)
  else s.windowFault r a 9

/-- A ring's interrupt is signalled after the status-block entry that covers what it signals (R355, R387). -/
def State.signalRing (s : State) (r : Nat) : State :=
  let s := if (s.ring r).dirty then s.writeStatus r else s
  (s.updRing r fun g => { g with unsignalled := 0 }).msix (s.get .HST_RING_IRQ_vector r) none

/-- The count condition of a ring's interrupt holds: that many entries have been written since the last signal (R387). -/
def State.countMet (s : State) (r : Nat) : Bool :=
  let n := s.get .HST_RING_IRQ_count r
  n != 0 && decide (n ≤ (s.ring r).unsignalled)

/-- A ring that has an interrupt of its own: one of kind COMPLETE or EVENT, with en set (R387). -/
def State.ringSignals (s : State) (r : Nat) : Bool :=
  (s.ringKind r == 1 || s.ringKind r == 3) && s.on .HST_RING_IRQ_en r

/-- An entry of 16 or 32 bytes is written at a COMPLETE or EVENT ring's device index, which advances; the phase
turns at the end of each pass (R381); the interrupt's count condition and the irq flag are served (R387). -/
def State.pushEntry (s : State) (r : Nat) (entry : Bytes) (irq : Bool) : State :=
  let g := s.ring r
  let s := s.hostWrite (s.ringBase r + s.entrySize r * g.dev) entry
  let wrap := g.dev + 1 == s.ringSize r
  let s := s.updRing r fun g =>
    { g with dev := if wrap then 0 else g.dev + 1, phase := if wrap then !g.phase else g.phase,
             written := g.written + 1, unsigAt := if g.unsignalled = 0 then s.clock else g.unsigAt,
             unsignalled := g.unsignalled + 1, dirty := true }
  if s.on .HST_RING_IRQ_en r && (irq || s.countMet r) then s.signalRing r else s

/-! ### Completions (R363, R380 to R383) -/

/-- Completion status codes (R383). -/
inductive Status where
  | ok | baddesc | state | range | order | full | badStream | incomplete | inUse | queueFull
  | epochPast | tableCrc | tooLong | link | role | conflict | fail | window | tooSmall | aborted
  deriving DecidableEq, Repr

/-- The code of a status (R383). -/
def Status.code (x : Status) : Nat := x.ctorIdx

/-- A descriptor completes: the completion waits for its COMPLETE ring (R363); the result is 0 unless the status
is OK (R380). A descriptor abandoned by loss of the link gets no completion (R349). -/
def State.complete (s : State) (c : Ctx) (st : Status) (result : Nat := 0) : State :=
  if c.gen ≠ s.hst.gen then s
  else s.updRing (s.cring c.ring) fun g =>
    { g with waiting := g.waiting ++ [⟨c, st.code, if st = .ok then BitVec.ofNat 56 result else 0⟩] }

/-- A descriptor completes, where there is one (an activity or a load of the 8824's own has none). -/
def State.completeOpt (s : State) (c : Option Ctx) (st : Status) (result : Nat := 0) : State :=
  match c with
  | some c => s.complete c st result
  | none => s

/-- Descriptors taken from a ring and not begun complete with ABORTED (R360). -/
def State.abortNotBegun (s : State) (r : Nat) : State :=
  let mine (c : Option Ctx) : Bool := match c with
    | some c => c.ring == r
    | none => false
  let ofAct (a : Activity) : Option Ctx := match a.src with
    | .maint c => some c
    | _ => none
  let dropped := (s.waits.filterMap (·.ctx)) ++ (s.lmp.queue.filterMap ofAct) ++ (s.tim.tx.drop 1).map (·.ctx)
  let s := { s with waits := s.waits.filter fun w => !mine w.ctx, lmp := { s.lmp with queue := s.lmp.queue.filter fun a => !mine (ofAct a) },
                    tim := { s.tim with tx := s.tim.tx.take 1 ++ (s.tim.tx.drop 1).filter fun (x : TxFrame) => x.ctx.ring != r } }
  s.each (dropped.filter fun c => c.ring == r) fun s c => s.complete c .aborted

/-- Ring memory lies outside the windows: the ring is STOPPED with reason 1, and behaves as DISABLED (R353, R360). -/
def State.stopRing (s : State) (r addr : Nat) : State :=
  ((s.updRing r fun g => { g with st := .stopped, reason := 1, bufs := [], dirty := true }).windowFault r addr 15).abortNotBegun r

/-! ### EVENT records (R364, R384) -/

/-- The 32 bytes of an EVENT record with its flags, lost count and crc (R384). -/
def eventBytes (kind : Nat) (lost : Nat) (phase : Bool) (body : Bytes) : Bytes :=
  withCrc ([BitVec.ofNat 8 kind, (if lost = 0 then 0 else 1) ||| (if phase then 0x80 else 0)]
    ++ toLe 2 (min lost 65535) ++ body)

/-- What became of an EVENT record: not routed, dropped, or written to a ring as its n-th entry since enable. -/
inductive Posted where
  | noRoute | dropped | at' (ring ordinal : Nat)
  deriving DecidableEq, Repr

/-- An EVENT record is written to its routed ring, or dropped and counted (R364, R384). Answers the record as
written (R413), and what became of it. -/
def State.postEvent (s : State) (en ringF : Fld) (kind : Nat) (body : Bytes) : State × Bytes × Posted :=
  let r := s.get ringF
  let bare := eventBytes kind 0 false body
  if !s.on en || s.ringKind r != 3 then (s.count .HST_EVT_NOROUTE_CNT, bare, .noRoute)
  else if !s.running r || s.ringFull r then
    ((s.count .HST_RING_DROP_CNT r).updRing r fun g => { g with lost := g.lost + 1 }, bare, .dropped)
  else
    let g := s.ring r
    let a := s.ringBase r + 32 * g.dev
    if s.windowOk true a 32 then
      let rec' := eventBytes kind g.lost g.phase body
      ((s.updRing r fun g => { g with lost := 0 }).pushEntry r rec' false, rec', .at' r g.written)
    else (((s.count .HST_RING_DROP_CNT r).updRing r fun g => { g with lost := g.lost + 1 }).stopRing r a, bare, .dropped)

/-! ### Device states (R418, R423) -/

/-- A change of the device state; each change sets its bit of GLB_INT_STATUS (R423). A link in L1 returns to L0 for PRINTING
(R348). -/
def State.enter (s : State) (d : DevState) : State :=
  if s.dev.dev = d then s
  else
    let s := { s with dev := { s.dev with dev := d } }
    match d with
    | .standby => s.irq .device 1
    | .printing => { s with hst := { s.hst with l1 := false } }.irq .device 2
    | .held => s.irq .device 3
    | _ => s

/-- A step of First Light is reached (GLB_STATE.fl_step, R424). -/
def State.reachStep (s : State) (n : Nat) : State := { s with dev := { s.dev with flStep := max n s.dev.flStep } }

/-- The device is PRINTING. -/
def State.printing (s : State) : Bool := s.dev.dev == .printing

/-- The device is in one of the states named. -/
def State.devIn (s : State) (l : List DevState) : Bool := l.contains s.dev.dev

/-- An RT source is active: the Eyepiece scans out, or a pipeline runs (R469). -/
def State.rtActive (s : State) : Bool :=
  (s.on .EYE_CTRL_en && s.clk.pixLock && s.dev.dev != .dark) || s.pipes.any (·.running) || s.printing

/-- An RT source may have become active: it ends self-refresh (R470). -/
def State.wakeDram (s : State) : State :=
  if s.drm.sr = .inside && s.rtActive then { s with drm := { s.drm with sr := .exiting } } else s

/-- A long operation of R427 ended: GLB_INT_STATUS.busy_done. -/
def State.busyDone (s : State) : State := s.irq .device 0

/-! ### Lines and positions (R9, R175) -/

/-- `a` lies at or below `b` (R175). -/
def lineLe {n : Nat} (a b : BitVec n) : Bool := decide (0 ≤ sdiff b a)

/-- `a` lies below `b` (R175). -/
def lineLt {n : Nat} (a b : BitVec n) : Bool := decide (0 < sdiff b a)

/-- The later of two line indices. -/
def lineMax {n : Nat} (a b : BitVec n) : BitVec n := if lineLe a b then b else a

/-- The bar that a port serves (R9). -/
def barOf (p : Nat) : Nat := p / 3

/-- A pipeline. -/
def State.pipe (s : State) (p : Nat) : Pipe := s.pipes.getD p Pipe.reset

/-- A change of one pipeline. -/
def State.updPipe (s : State) (p : Nat) (f : Pipe → Pipe) : State := { s with pipes := upd p f s.pipes }

/-- A link. -/
def State.link (s : State) (p : Nat) : Link := s.links.getD p Link.reset

/-- A change of one link. -/
def State.updLink (s : State) (p : Nat) (f : Link → Link) : State := { s with links := upd p f s.links }

/-- A head port is ACTIVE (R225). -/
def State.active (s : State) (p : Nat) : Bool := decide (p < 24) && (s.link p).st == .active

/-- The head ports that are ACTIVE. -/
def State.activePorts (s : State) : List Nat := (List.range 24).filter s.active

/-- A port's Wick state. -/
def State.wick (s : State) (p : Nat) : WickPort := s.wck.getD p WickPort.reset

/-- A change of one port's Wick state. -/
def State.updWick (s : State) (p : Nat) (f : WickPort → WickPort) : State := { s with wck := upd p f s.wck }

/-- The web position: the integer units of the counter (R176). -/
def State.pos (s : State) : Pos := s.mer.pos.extractLsb' 16 48

/-- The line index at a position (R175). -/
def lineOf (p : Pos) : Line := p.extractLsb' 8 40

/-- A twin port is ACTIVE (R318). -/
def State.twinActive (s : State) (t : Nat) : Bool := decide (t < 2) && (s.link (24 + t)).st == .active


end Sys2Proof.Machine
end

