-- ==== Sys2Proof/Machine/Maintenance.lean ====
section
/-! DEFINITION. Lamplighter's compatibility matrix, its defer queue, and the end of an activity (R435 to R438). -/

namespace Sys2Proof.Machine

/-- Outcome of the compatibility matrix, strictest first (R437). -/
inductive Verdict where
  | refuse | defer | run
  deriving DecidableEq, Repr

/-- The strictest of two outcomes (R437: X before D before R). -/
def Verdict.strict : Verdict → Verdict → Verdict
  | .refuse, _ => .refuse
  | _, .refuse => .refuse
  | .defer, _ => .defer
  | _, .defer => .defer
  | .run, .run => .run

/-- The matrix entry of two codes with equal targets and with unequal ones; the lower code comes first (R438). -/
def matrixEntry (a b : Nat) : Verdict × Verdict :=
  match a, b with
  | 1, 1 => (.refuse, .defer)
  | 1, 2 => (.defer, .run)
  | 1, 3 => (.refuse, .refuse)
  | 1, 7 => (.defer, .defer)
  | 2, 2 => (.refuse, .run)
  | 2, 3 => (.defer, .defer)
  | 3, 3 => (.refuse, .refuse)
  | 3, 7 => (.defer, .defer)
  | 3, 8 => (.defer, .defer)
  | 3, 9 => (.refuse, .refuse)
  | 3, 10 => (.refuse, .refuse)
  | 4, 4 => (.refuse, .run)
  | 4, 5 => (.defer, .run)
  | 5, 5 => (.refuse, .run)
  | 6, 6 => (.defer, .defer)
  | 7, 7 => (.refuse, .refuse)
  | 8, 8 => (.refuse, .run)
  | 8, 10 => (.defer, .defer)
  | 9, 9 => (.defer, .defer)
  | 9, 10 => (.defer, .defer)
  | 10, 10 => (.defer, .defer)
  | _, _ => (.run, .run)

/-- Two targets are equal (R436): channels also where either is 0xFF, bar masks where they share a bar. -/
def sameTarget (code a b : Nat) : Bool :=
  if code ≤ 2 then a == b || a == 0xFF || b == 0xFF
  else if 9 ≤ code then a &&& b != 0
  else a == b

/-- The outcome of a start beside one running activity (R437, R438). -/
def verdictOf (code target : Nat) (r : Activity) : Verdict :=
  let e := matrixEntry (min code r.code) (max code r.code)
  if sameTarget (min code r.code) target r.target then e.1 else e.2

/-- The strictest outcome over every running activity, and the code of the first activity that gives it. -/
def State.verdict (s : State) (code target : Nat) : Verdict × Nat :=
  let v := s.lmp.running.foldl (fun v r => v.strict (verdictOf code target r)) .run
  (v, ((s.lmp.running.find? fun r => verdictOf code target r == v).map (·.code)).getD 0)

/-- An activity runs from its start until its completion (R436). -/
def State.actRun (s : State) (a : Activity) : State :=
  { s with lmp := { s.lmp with running := s.lmp.running ++ [a] } }

/-- Bits 47:8 of a MAINT result carry the epoch line; bits 31:0 of it only on a version 1 ring (R382). -/
def lineBits (v1 : Bool) (l : Line) : Nat := if v1 then l.toNat % 2 ^ 32 else l.toNat

/-- The result of a MAINT (R382). -/
def Activity.result (a : Activity) (v1 : Bool) : Nat :=
  (if a.deferred then 1 else 0) + 256 * ((a.line.map (lineBits v1)).getD 0)

/-- An activity completes towards whoever asked for it. -/
def State.actReport (s : State) (a : Activity) (st : Status) : State :=
  match a.src with
  | .maint c => s.complete c st (a.result c.v1)
  | _ => s

/-- A running activity of a code and target. -/
def State.actFind (s : State) (code target : Nat) : Option Activity :=
  s.lmp.running.find? fun a => a.code == code && a.target == target

/-- An activity ends: it no longer runs, and completes with a status. -/
def State.actEnd (s : State) (code target : Nat) (st : Status) : State :=
  match s.actFind code target with
  | none => s
  | some a =>
    { s with lmp := { s.lmp with running := s.lmp.running.erase a } }.actReport a st

/-- A start is refused by the matrix: LMP_CONFLICT_CNT, LMP_LAST_CONFLICT, and for a MAINT the fault (R437). -/
def State.actConflict (s : State) (a : Activity) (blocking : Nat) : State :=
  let s := ((s.count .LMP_CONFLICT_CNT).set .LMP_LAST_CONFLICT_blocking blocking).set .LMP_LAST_CONFLICT_refused a.code
  match a.src with
  | .maint c =>
    (s.raise .lmpConflict (BitVec.ofNat 32 (a.code + 256 * blocking)) a.code).complete c .conflict
  | _ => s

/-- A register-started activity: refused with reason 7 where the matrix refuses or would defer it (R428, R437). -/
def State.registerStart (s : State) (off : Nat) (a : Activity) (act : State → State) : State :=
  let (v, blocking) := s.verdict a.code a.target
  if v == .run then act s else (s.actConflict a blocking).refuse off 7

/-- An activity arrives: the matrix runs it, defers it or refuses it (R437, R438). `start` is what its start does. -/
def State.actArrive (s : State) (a : Activity) (start : State → Activity → State) : State :=
  let (v, blocking) := s.verdict a.code a.target
  match v with
  | .run => start (s.actRun a) a
  | .defer =>
    if s.lmp.queue.length < 16 then
      { s.count .LMP_DEFER_CNT with lmp := { s.lmp with queue := s.lmp.queue ++ [{ a with deferred := true }] } }
    else match a.src with
      | .schedule => s.count .LMP_SKIP_CNT
      | _ => s.actConflict a blocking
  | .refuse =>
    match a.src with
    | .schedule => s.count .LMP_SKIP_CNT
    | _ => s.actConflict a blocking

end Sys2Proof.Machine
end

