-- ==== Sys2Proof/Machine/Estimator.lean ====
section
/-! DEFINITION. Meridian's arithmetic: the speed estimate, the fire time and the row delay unit (R191 to R197). -/

namespace Sys2Proof.Machine

/-- Rounding to the nearest integer, half up. -/
def roundHalfUp (x : Rat) : Int := (x + 1 / 2).floor

/-- A value under the fixed-point evaluation of R191, whose relative error lies below 2^-40 and is otherwise
free (log 9). -/
def estimated (n : Nat) (x : Rat) : Rat := x * (1 + mkRat ((Config.estError n).tmod (2 ^ 24)) (2 ^ 64))

/-- A difference of two positions with 16 fractional bits, in position units (R175, R176). -/
def units (a b : BitVec 64) : Rat := mkRat (sdiff a b) 65536

/-- MER_ACC_LIMIT in position units per ns²: units of 1,000 lines/s², 256 position units to a line (R191). -/
def accLimit (aMax : Nat) : Rat := mkRat (aMax * 256000) (10 ^ 18)

/-- The oldest point no more than `w` ns before the newest; points are newest first (R191). -/
def oldestWithin (t0 : Time) (w : Nat) (l : List (Time × BitVec 64)) (dflt : Time × BitVec 64) : Time × BitVec 64 :=
  (l.filter fun q => decide (sdiff t0 q.1 ≤ w)).getLastD dflt

/-- Twice the distance of a point's age from half the age of p2. -/
def midDistance (t0 t2 : Time) (q : Time × BitVec 64) : Nat :=
  (2 * ((t0 - q.1).toNat : Int) - ((t0 - t2).toNat : Int)).natAbs

/-- The point nearest the middle of the window, the older on a tie; points are newest first (R191). -/
def middlePoint (t0 t2 : Time) (l : List (Time × BitVec 64)) (dflt : Time × BitVec 64) : Time × BitVec 64 :=
  l.foldl (fun b q => if midDistance t0 t2 q ≤ midDistance t0 t2 b then q else b) dflt

/-- The speed estimate of R191 from the points kept, newest first. -/
def estimateOf (now : Time) (points : List (Time × BitVec 64)) (stopNs windowNs aMax : Nat) (order2 : Bool)
    (free : Nat) : Estimate :=
  match points with
  | [] => ⟨true, now, 0, 0, 0⟩
  | p0 :: older =>
    let t0 := p0.1
    let x0 := p0.2
    let age (q : Time × BitVec 64) : Rat := (((t0 - q.1).toNat : Int) : Rat)
    if (stopNs : Int) < sdiff now t0 then ⟨true, t0, x0, 0, 0⟩
    else
      let p2 := oldestWithin t0 windowNs (p0 :: older) p0
      let p1 := middlePoint t0 p2.1 (p0 :: older) p0
      if p2 = p0 then ⟨false, t0, x0, 0, 0⟩
      else if !order2 || p1 = p0 || p1 = p2 then
        ⟨false, t0, x0, estimated free (units x0 p2.2 / age p2), 0⟩
      else
        let d1 := units x0 p1.2 / age p1
        let d2 := units p1.2 p2.2 / (age p2 - age p1)
        let lim := accLimit aMax
        let a := max (-lim) (min lim (estimated (free + 1) (2 * (d1 - d2) / age p2)))
        ⟨false, t0, x0, estimated free (d1 + a * age p1 / 2), a⟩

/-- Whether the web has passed `n - 1/2` ns of τ before it reaches the position: n does not exceed τ rounded half
up, where τ = 2Δ / (v + √(v² + 2aΔ)) (R196). -/
def reachedBy (v disc delta : Rat) (n : Nat) : Bool :=
  if n = 0 then true
  else
    let q := 2 * delta / ((n : Rat) - 1 / 2) - v
    decide (0 ≤ q) && decide (disc ≤ q * q)

/-- The greatest n below 2^k more than `n` for which `reachedBy` holds, found bit by bit. -/
def searchTau (v disc delta : Rat) : Nat → Nat → Nat
  | 0, n => n
  | k + 1, n => searchTau v disc delta k (if reachedBy v disc delta (n + 2 ^ k) then n + 2 ^ k else n)

/-- Bits that τ needs: it does not exceed 2Δ / v. -/
def tauBits (v delta : Rat) : Nat := Nat.log2 ((2 * delta / v).floor.toNat + 1) + 1

/-- The fire time of a position from the estimate in force (R196): none where the estimate does not bring the web
there. -/
def fireTime (e : Estimate) (x : Pos) : Option Time :=
  if e.stopped || decide (e.v ≤ 0) then none
  else
    let delta := units (x.setWidth 64 <<< 16) e.x0
    if delta ≤ 0 then some (BitVec.ofInt 32 (roundHalfUp ((e.t0.toNat : Rat) + delta / e.v)))
    else
      let disc := e.v * e.v + 2 * e.a * delta
      if disc < 0 then none
      else some (BitVec.ofNat 32 (e.t0.toNat + searchTau e.v disc delta (tauBits e.v delta) 0))

/-- The row delay unit at a fire time (R197). -/
def rowDelayUnit (e : Estimate) (f : Time) : Nat :=
  let v := e.v + e.a * ((sdiff f e.t0 : Int) : Rat)
  if v ≤ 0 then 65535 else (max 1 (min 65535 (roundHalfUp (16 / v)))).toNat

end Sys2Proof.Machine
end

