-- ==== Sys2Proof/Machine/Geometry.lean ====
section
/-! DEFINITION. Head and bar geometry, fire positions, the highest line begun and the epoch lines that the 8824
chooses itself (R9, R33, R34, R98 to R101, R123, R193 to R200, R598). -/

namespace Sys2Proof.Machine

/-- The head geometry of a port: that of its last capability exchange, else the reference geometry (R598). -/
def State.heads (s : State) (p : Nat) : HeadGeom := (s.link p).geom.getD ⟨8, 4, 4096⟩

/-- N, the nozzles of a port (R98). -/
def State.nozzles (s : State) (p : Nat) : Nat := (s.heads p).heads * (s.heads p).nozzles

/-- Head column origin in a geometry (R98). -/
def Geometry.origin (g : Geometry) (p j : Nat) : Int := (g.origins.getD p []).getD j 0

/-- Row delay D and sixteenths s of a row in a geometry (R193). -/
def Geometry.row (g : Geometry) (p j r : Nat) : Nat × Nat := ((g.rows.getD p []).getD j []).getD r (0, 0)

/-- The heads of a bar along the web's width: port, head, origin and nozzles, in the order of ports and heads. -/
def State.barHeads (s : State) (g : Geometry) (b : Nat) : List (Nat × Nat × Int × Nat) :=
  (List.range 3).flatMap fun t =>
    let p := 3 * b + t
    (List.range (s.heads p).heads).map fun j => (p, j, g.origin p j, (s.heads p).nozzles)

/-- Along a bar the origins rise strictly and adjacent heads overlap by at most 128 columns (R101); answers the
port of the first head that breaks this against the head before it. -/
def headOrderFault : List (Nat × Nat × Int × Nat) → Option Nat
  | (_, _, o, n) :: (p', j', o', n') :: t =>
    if o' ≤ o ∨ 128 < o + n - o' then some p' else headOrderFault ((p', j', o', n') :: t)
  | _ => none

/-- Nozzles of a head in row r (R98). -/
def nozzlesInRow (n rows r : Nat) : Nat := (n + rows - 1 - r) / rows

/-- The sum over a port's nozzles of D + 1 (R123). -/
def State.delayUse (s : State) (g : Geometry) (p : Nat) : Nat :=
  let h := s.heads p
  ((List.range h.heads).map fun j =>
    ((List.range h.rows).map fun r => nozzlesInRow h.nozzles h.rows r * ((g.row p j r).1 + 1)).sum).sum

/-- Some row of the port's heads has an odd whole-line delay (R200). -/
def State.oddDelay (s : State) (g : Geometry) (p : Nat) : Bool :=
  let h := s.heads p
  (List.range h.heads).any fun j => (List.range h.rows).any fun r => (g.row p j r).1 % 2 == 1

/-- Dmax: the largest row delay on the port (R124). -/
def State.maxDelay (s : State) (p : Nat) : Nat :=
  let h := s.heads p
  ((List.range h.heads).map fun j =>
    ((List.range h.rows).map fun r => (s.mer.geom.row p j r).1).foldl max 0).foldl max 0

/-- The device prints at 600 lpi (R200). -/
def State.lpi600 (s : State) : Bool := s.on .MER_CTRL_lpi600

/-- The first failing check of a bar geometry and its port: 1 bar offsets, 2 head order or overlap, 3 delay
memory, 4 odd row delay at 600 lpi (R193, R200). -/
def State.geomFault (s : State) (g : Geometry) : Option (Nat × Nat) :=
  let c1 := (List.range 7).findSome? fun b =>
    if g.bars.getD (b + 1) 0 < g.bars.getD b 0 then some (1, 3 * (b + 1)) else none
  let c2 := (List.range 8).findSome? fun b => (headOrderFault (s.barHeads g b)).map fun p => (2, p)
  let c3 := (List.range 24).findSome? fun p => if 1048576 < s.delayUse g p then some (3, p) else none
  let c4 := if s.lpi600 then (List.range 24).findSome? fun p => if s.oddDelay g p then some (4, p) else none else none
  c1.orElse fun _ => c2.orElse fun _ => c3.orElse fun _ => c4

/-- A bar's active geometry passes the checks of R193 (R194). -/
def State.barGeomOk (s : State) (b : Nat) : Bool :=
  let g := s.mer.geom
  (b == 0 || decide (g.bars.getD (b - 1) 0 ≤ g.bars.getD b 0))
    && (headOrderFault (s.barHeads g b)).isNone
    && ((List.range 3).all fun t => decide (s.delayUse g (3 * b + t) ≤ 1048576))
    && !(s.lpi600 && (List.range 3).any fun t => s.oddDelay g (3 * b + t))

/-- The 32-byte payload of CTRL GEOM: the s values of the port's rows (R249, R250). -/
def State.geomPayload (s : State) (p : Nat) : Bytes :=
  (List.range 32).map fun i =>
    let j := i / 4
    let r := 2 * (i % 4)
    BitVec.ofNat 8 ((s.mer.geom.row p j r).2 + 16 * (s.mer.geom.row p j (r + 1)).2)

/-- The fire position of line L on port p (R195). -/
def State.firePos (s : State) (p : Nat) (l : Line) : Pos :=
  (l.setWidth 48 <<< 8) + BitVec.ofNat 48 (s.mer.geom.bars.getD (barOf p) 0)
    + BitVec.ofInt 48 (s.mer.geom.ports.getD p 0)

/-- A line rounded up to an even one where the device prints at 600 lpi (R200). -/
def State.evenUp (s : State) (l : Line) : Line := if s.lpi600 && l.getLsbD 0 then l + 1 else l

/-- L0: the smallest line whose fire position on the port lies above the present web position (R34, R199). -/
def State.firstLine (s : State) (p : Nat) : Line :=
  let d := s.pos - s.firePos p 0
  s.evenUp (lineOf d + 1)

/-- The line after `l` (R199, R200). -/
def State.after (s : State) (l : Line) : Line := if s.lpi600 then l + 2 else l + 1

/-- The highest line index begun by a pipeline (R34). -/
def State.highestBegun (s : State) (p : Nat) : Line :=
  let l0 := s.firstLine p - 1
  match (s.pipe p).highest with
  | some h => lineMax h l0
  | none => l0

/-- The highest line index begun by any of the pipelines named. -/
def State.highestOf (s : State) (ports : List Nat) : Line :=
  match ports.map s.highestBegun with
  | [] => 0
  | h :: t => t.foldl lineMax h

/-- The highest line index begun by any pipeline of the device (R34). -/
def State.highestAll (s : State) : Line := s.highestOf (List.range 24)

/-- The smallest multiple of 64 at or above a line. -/
def upTo64 (l : Line) : Line := ((l + 63) >>> 6) <<< 6

/-- The epoch line that the 8824 chooses itself (R33). -/
def State.epochLine (s : State) : Line := upTo64 (s.highestAll + 256)

/-- Mask of the bars of a bar group (R62). -/
def State.groupMask (s : State) (g : Nat) : Nat := nbits (s.rd .STO_BARGRP).toNat (8 * g + 7) (8 * g)

/-- The bar group of a bar, if it is in one (R62). -/
def State.groupOf (s : State) (b : Nat) : Option Nat :=
  (List.range 4).find? fun g => (s.groupMask g).testBit b

/-- The ports of a bar group. -/
def State.groupPorts (s : State) (g : Nat) : List Nat :=
  (List.range 24).filter fun p => (s.groupMask g).testBit (barOf p)

/-- G: the begun line of a group; of the device for a group that holds no bar (R72). -/
def State.groupBegun (s : State) (g : Nat) : Line :=
  match s.groupPorts g with
  | [] => s.highestAll
  | l => s.highestOf l

/-- The lookahead in ns (R26). -/
def State.lookahead (s : State) : Nat := s.get .MER_CTRL_lookahead * 1000

/-- The predicted fire time of a line on a port (R196). -/
def State.fireTimeOf (s : State) (p : Nat) (l : Line) : Option Time := fireTime s.mer.est (s.firePos p l)

/-- The full LINE payload length of a port: Gahild 2 or, on a Gahild 1 link, 2-bit codes (R126, R127). -/
def linePayload (version n : Nat) : Nat := if version = 1 then (2 * n + 63) / 64 * 8 else (3 * n + 63) / 64 * 8

/-- B: blocks of a full LINE link frame (R235). -/
def lineBlocks (version n : Nat) : Nat := (32 + linePayload version n + 15) / 16

/-- The link bound in lines/s (R235): lane rate 16 Gbit/s at rate 1, 8 Gbit/s at rate 0. -/
def linkBound (rate version n : Nat) : Nat :=
  (if rate = 1 then 16000000000 else 8000000000) / (130 * (lineBlocks version n + 9))

/-- P: the practical line rate of a port (R6); 134,000 before its first capability exchange (R152). -/
def State.practicalRate (s : State) (p : Nat) : Nat :=
  let f := (s.link p).fireEff
  if f = 0 then 134000 else min 134000 f

/-- T_min in ns (R152). -/
def State.tMin (s : State) (p : Nat) : Nat := (1000000000 + s.practicalRate p - 1) / s.practicalRate p

end Sys2Proof.Machine
end

