-- ==== Sys2Proof/Machine/Wave.lean ====
section
/-! DEFINITION. Wave table bodies: pulse words, entries, the band block and their checks (R141 to R153, R600). -/

namespace Sys2Proof.Machine

/-- A pulse word (R144). -/
structure Pulse where
  rise : Nat
  fall : Nat
  hold : Nat
  gap : Nat
  last : Bool
  level : Nat
  deriving DecidableEq, Repr

/-- Decodes a little-endian pulse word (R144). -/
def pulseOf (b : Bytes) : Pulse :=
  let w := le b
  ⟨nbits w 63 52, nbits w 51 40, nbits w 39 24, nbits w 23 8, w.testBit 7, nbits w 6 0⟩

/-- The 32 bytes of entry i of a wave table body, behind the 64-byte band block (R149). -/
def waveEntry (body : Bytes) (i : Nat) : Bytes := (body.drop (64 + 32 * i)).take 32

/-- An entry all of zeros is empty (R145). -/
def entryEmpty (e : Bytes) : Bool := e.all (· == 0)

/-- The four pulses of an entry. -/
def entryPulses (e : Bytes) : List Pulse := (List.range 4).map fun i => pulseOf ((e.drop (8 * i)).take 8)

/-- Index m of the first pulse with last = 1 (R145). -/
def lastPulse (e : Bytes) : Option Nat := (entryPulses e).findIdx? (·.last)

/-- An entry is empty, or meets every condition of R145. -/
def entryOk (e : Bytes) : Bool :=
  entryEmpty e ||
    match lastPulse e with
    | none => false
    | some m =>
      ((e.drop (8 * (m + 1))).all (· == 0))
        && ((entryPulses e).getD m ⟨0, 0, 0, 0, false, 0⟩).gap == 0
        && (entryPulses e).all fun q => decide (q.level ≤ 100)

/-- The duration of an entry in ns (R146). -/
def entryDuration (e : Bytes) : Nat :=
  if entryEmpty e then 0
  else
    let m := (lastPulse e).getD 3
    (((entryPulses e).take (m + 1)).map fun q => q.rise + q.hold + q.fall).sum
      + (((entryPulses e).take m).map (·.gap)).sum

/-- The longest entry of a wave table body (WCK_LONGEST). -/
def longestEntry (body : Bytes) : Nat :=
  ((List.range 64).map fun i => entryDuration (waveEntry body i)).foldl max 0

/-- Bands in use (R150). -/
def bandCount (body : Bytes) : Nat := byteAt body 0

/-- Lower edge of band b in units of 0.5 °C (R150). -/
def bandEdge (body : Bytes) (b : Nat) : Nat := byteAt body (8 + b)

/-- A band block meets R150 and R151. -/
def bandBlockOk (body : Bytes) : Bool :=
  let n := bandCount body
  let td := byteAt body 2
  let th := byteAt body 3
  let tr := byteAt body 4
  decide (1 ≤ n) && decide (n ≤ 8) && decide (byteAt body 1 < n) && decide (1 ≤ leAt body 6 2)
    && ((List.range (n - 2)).all fun i => decide (bandEdge body (i + 1) + 2 ≤ bandEdge body (i + 2)))
    && decide (tr + 2 ≤ td) && decide (td + 2 ≤ th)
    && ((List.range 8).all fun b =>
        if b < n then leAt body (16 + 2 * b) 2 != 0
        else bandEdge body b == 0 && leAt body (16 + 2 * b) 2 == 0
          && (List.range 8).all fun c => entryEmpty (waveEntry body (8 * b + c)))
    && byteAt body 5 / 2 == 0 && byteAt body 8 == 0 && ((body.drop 32).take 32).all (· == 0)

/-- On a Gahild 1 link the entries of codes 4 to 7 are empty (R148). -/
def gahild1Ok (body : Bytes) : Bool :=
  (List.range 64).all fun i => decide (i % 8 < 4) || entryEmpty (waveEntry body i)

/-- A wave table body passes the checks that give RANGE (R145, R148, R149, R151). -/
def waveOk (body : Bytes) (version : Nat) : Bool :=
  body.length == 2112 && bandBlockOk body && ((List.range 64).all fun i => entryOk (waveEntry body i))
    && (version != 1 || gahild1Ok body)

/-- The reset table (R600). -/
def resetWave : Bytes :=
  [1, 0, 253, 255, 251, 0, 1, 0] ++ List.replicate 8 0 ++ [1, 0] ++ List.replicate 2094 0

end Sys2Proof.Machine
end

