-- ==== Sys2Proof/Machine/Tables.lean ====
section
/-! DEFINITION. Tables in force, pending and waiting (R31 to R34, R102 to R111, R120, R121, R131 to R139, R291,
R308). -/

namespace Sys2Proof.Machine

/-- Table kinds: 1 TONE, 2 CORR, 3 THRESH, 4 LEVEL_MAP, 5 STITCH, 6 RULES (R131), 8 WAVE (R149), 9 STRIP (R291),
10 display curve (R308). A kind is known. -/
def kindKnown (k : Nat) : Bool := [1, 2, 3, 4, 5, 6, 8, 9, 10].contains k

/-- Instances of a kind: bars, ports or camera ports (R131, R149, R291, R308). -/
def kindTargets (k : Nat) : Nat := if k = 2 ∨ k = 8 then 24 else if k = 9 ∨ k = 10 then 4 else 8

/-- The body of a kind until one is loaded (R106, R111, R113, R120, R121, R308, R600); CORR has none. -/
def defaultBody (k : Nat) : Bytes :=
  match k with
  | 1 => (List.range 256).flatMap fun e => toLe 2 ((e * 4095 + 127) / 255)
  | 3 => List.replicate 16 0 ++ ((List.range 7).flatMap fun i => toLe 2 (512 * (i + 1) - 1)) ++ [0, 0]
  | 4 => (List.range 8).map fun i => BitVec.ofNat 8 i
  | 5 => ((List.range 2048).map fun i => if i % 8 < 4 then 0xFF else 0) ++ List.replicate 32 0
  | 6 => [0, 2, 4, 0, 0, 0, 0, 0]
  | 8 => resetWave
  | 10 => (List.range 1024).map fun e => BitVec.ofNat 8 (e / 4)
  | _ => []

/-- The value of a kind until one is loaded; a correction word reads 0x8000 (R107). -/
def defaultTab (k : Nat) : TabVal := if k = 2 then .corr [] else .body (defaultBody k)

/-- The table of a kind and target. -/
def State.tab (s : State) (k t : Nat) : Tab :=
  (s.tabs.find? fun x => x.kind == k && x.target == t).getD ⟨k, t, defaultTab k, 0, none⟩

/-- A table recorded; one entry to a kind and target. -/
def State.setTab (s : State) (x : Tab) : State :=
  { s with tabs := s.tabs.filter (fun y => !(y.kind == x.kind && y.target == x.target)) ++ [x] }

/-- The table in force for a raster line (R31, R104). -/
def State.tabAt (s : State) (k t : Nat) (l : Line) : TabVal :=
  let x := s.tab k t
  match x.pend with
  | some (e, v) => if lineLe e l then v else x.cur
  | none => x.cur

/-- The bytes of a table's body. -/
def TabVal.bytes : TabVal → Bytes
  | .body b => b
  | .corr _ => []

/-- The words of a correction table. -/
def TabVal.words : TabVal → SMap (BitVec 16)
  | .body _ => []
  | .corr m => m

/-- A correction word; 0x8000 where none is listed (R107). -/
def corrWord (m : SMap (BitVec 16)) (i : Nat) : BitVec 16 := m.get 0x8000 i

/-- Correction words with a run of new ones from index `first` (R132). -/
def corrLoad (m : SMap (BitVec 16)) (first : Nat) : Bytes → SMap (BitVec 16)
  | a :: b :: t => corrLoad (m.put 0x8000 first (b ++ a)) (first + 1) t
  | _ => m

/-- OUT flag of a correction word (R107). -/
def isOut (w : BitVec 16) : Bool := w.getLsbD 1

/-- WEAK flag of a correction word; a word with both flags acts as OUT (R107). -/
def isWeak (w : BitVec 16) : Bool := w.getLsbD 0 && !w.getLsbD 1

/-- The columns of the overlap between the last head of port p and the first head of port p + 1 of the same bar;
0 where they lie in different bars or do not overlap (R101, R102). -/
def State.portOverlap (s : State) (p : Nat) : Nat :=
  if p % 3 = 2 then 0
  else
    let h := s.heads p
    (s.mer.geom.origin p (h.heads - 1) + h.nozzles - s.mer.geom.origin (p + 1) 0).toNat

/-- Port nozzle indices of port p in the overlap with port p + 1, lowest column first. -/
def State.upperOverlapNozzles (s : State) (p : Nat) : List Nat :=
  let o := s.portOverlap p
  (List.range o).map fun i => s.nozzles p - o + i

/-- OUT flags of the nozzles of port `q` in the overlap it shares with port `p` (R102, TRN_PEER_OUT). -/
def State.sharedOut (s : State) (m : SMap (BitVec 16)) (q p : Nat) : List Bool :=
  if q + 1 = p then (s.upperOverlapNozzles q).map fun i => isOut (corrWord m i)
  else if q = p + 1 then (List.range (s.portOverlap p)).map fun i => isOut (corrWord m i)
  else []

/-- The pipelines that a change affects (R139); a change of CORR reaches a neighbour whose shared OUT flags it
alters. -/
def State.affected (s : State) (k t : Nat) (old new : TabVal) : List Nat :=
  if k = 2 then
    t :: ([t - 1, t + 1].filter fun p =>
      p != t && barOf p == barOf t && s.sharedOut old.words t p != s.sharedOut new.words t p)
  else if k = 8 then [t]
  else if k ≤ 6 then [3 * t, 3 * t + 1, 3 * t + 2]
  else []

/-- Every pipeline named has begun line E. -/
def State.allBegun (s : State) (ports : List Nat) (e : Line) : Bool :=
  ports.all fun p => lineLe e (s.highestBegun p)

/-- Some pipeline named has begun line E (R32). -/
def State.anyBegun (s : State) (ports : List Nat) (e : Line) : Bool :=
  ports.any fun p => lineLe e (s.highestBegun p)

/-- The table of a kind and target as it stands: a pending change that every affected pipeline has reached is in force, from
its own epoch line (R135). -/
def State.tabNow (s : State) (k t : Nat) : Tab :=
  let x := s.tab k t
  match x.pend with
  | none => x
  | some (e, v) => if s.allBegun (s.affected k t x.cur v) e then { x with cur := v, since := e, pend := none } else x

/-- The table of a kind and target recorded as it stands. -/
def State.settleTab (s : State) (k t : Nat) : State :=
  if s.tabNow k t = s.tab k t then s else s.setTab (s.tabNow k t)

/-- A change of the kind and target is pending (R136). -/
def State.tabPending (s : State) (k t : Nat) : Bool := (s.tabNow k t).pend.isSome

/-- The smallest line that none of the pipelines has begun (R137). -/
def State.firstUnbegun (s : State) (ports : List Nat) : Line := s.highestOf ports + 1

/-- Every pending change of a Transit table takes effect at once, recorded from its own epoch line (R138). -/
def State.flushTabs (s : State) : State :=
  { s with tabs := s.tabs.map fun x =>
      if x.kind ≤ 6 then
        match x.pend with
        | some (e, v) => { x with cur := v, since := e, pend := none }
        | none => x
      else x }

/-- The value that a load of a kind makes of the table before it: CORR replaces its words, any other kind the
whole (R132). -/
def loadValue (k : Nat) (old : TabVal) (first : Nat) (body : Bytes) : TabVal :=
  if k = 2 then .corr (corrLoad old.words first body) else .body body

/-! ### Image checks (R109, R131 to R133, R149, R291, R292, R308) -/

/-- The header fields and lengths of an image are those of its kind (R131, R132, R149, R291, R308). -/
def headerOk (h : Bytes) (imageLength : Nat) : Bool :=
  let k := byteAt h 0
  let t := byteAt h 1
  let first := leAt h 2 2
  let count := leAt h 4 4
  let len := leAt h 8 4
  kindKnown k && decide (t < kindTargets k) && imageLength == 16 + len && (k == 2 || first == 0) &&
    match k with
    | 1 => count == 256 && len == 512
    | 2 => decide (1 ≤ count) && decide (first + count ≤ 32768) && len == 2 * count
    | 3 => decide (1 ≤ count) && decide (count ≤ 65536) && len == 16 + 16 * count
    | 4 => count == 8 && len == 8
    | 5 => count == 16384 && len == 2080
    | 6 => count == 3 && len == 8
    | 8 => count == 64 && len == 2112
    | 9 => decide (1 ≤ count) && decide (count ≤ 64) && len == 32 * count
    | _ => count == 1024 && len == 1024

/-- Threshold i (0 to 6) of cell `j` of a THRESH body (R133). -/
def threshold (body : Bytes) (j i : Nat) : Nat := leAt body (16 + 16 * j + 2 * i) 2

/-- A THRESH body meets R109, R132 and R133. -/
def threshOk (body : Bytes) (count : Nat) : Bool :=
  decide (byteAt body 0 ≤ 8) && decide (byteAt body 1 ≤ 8) && count == 2 ^ (byteAt body 0 + byteAt body 1)
    && ((body.drop 8).take 8).all (· == 0)
    && (List.range count).all fun j =>
      leAt body (16 + 16 * j + 14) 2 == 0
        && ((List.range 7).all fun i => decide (threshold body j i < 4096))
        && (List.range 6).all fun i => decide (threshold body j i ≤ threshold body j (i + 1))

/-- A cell of a STRIP table lies in the ranges of R291. -/
def cellOk (c : Bytes) : Bool :=
  let kind := byteAt c 0
  let q := byteAt c 3
  let o0 := leAt c 8 4
  let o1 := leAt c 12 4
  let c0 := leAt c 16 4
  let c1 := leAt c 20 4
  decide (byteAt c 1 < 8) && decide (byteAt c 2 < 4) && leAt c 6 2 == 0 && leAt c 24 4 == 0 && leAt c 28 4 == 0
    && (if kind = 1 then decide (q < 8) && byteAt c 4 == 0 && decide (1 ≤ byteAt c 5)
        else kind == 2 && decide (2 ≤ q) && decide (q ≤ 16) && decide (byteAt c 4 < q) && byteAt c 5 == 0)
    && decide (o0 + 8 ≤ o1) && decide (o1 ≤ o0 + 65536) && decide (c0 + 8 ≤ c1) && decide (c1 ≤ 96768)

/-- The 32-byte cells of a STRIP table. -/
def stripCells (body : Bytes) : List Bytes :=
  (List.range (body.length / 32)).map fun i => (body.drop (32 * i)).take 32

/-- A STRIP body meets R291 and R292. -/
def stripOk (body : Bytes) : Bool :=
  let l := stripCells body
  l.all cellOk && l.all fun a => l.all fun b =>
    !(byteAt a 0 == 1 && byteAt b 0 == 1 && byteAt a 1 == byteAt b 1 && byteAt a 3 == byteAt b 3)
      || byteAt a 5 == byteAt b 5

/-- The body fields of an image lie in their ranges (step 5 of R599); WAVE is checked in Machine/Wave.lean. -/
def bodyOk (k count : Nat) (body : Bytes) (version : Nat) : Bool :=
  match k with
  | 1 => (List.range 256).all fun i => decide (leAt body (2 * i) 2 < 4096)
  | 2 => true
  | 3 => threshOk body count
  | 4 => body.all fun b => decide (b.toNat < 8)
  | 5 => ((body.drop 2048).take 23).all (fun b => decide (-32 ≤ b.toInt) && decide (b.toInt ≤ 32))
          && (body.drop 2071).all (· == 0)
  | 6 => decide (byteAt body 0 ≤ 1) && decide (byteAt body 1 ≤ 2) && decide (byteAt body 2 ≤ 7)
          && (body.drop 3).all (· == 0)
  | 8 => waveOk body version
  | 9 => stripOk body
  | _ => true

/-- The image of a table: header with both CRCs, then the body (R131, R134). -/
def imageOf (k t first count : Nat) (body : Bytes) : Bytes :=
  withCrc ([BitVec.ofNat 8 k, BitVec.ofNat 8 t] ++ toLe 2 first ++ toLe 4 count ++ toLe 4 body.length
    ++ toLe 2 (crc16 body).toNat) ++ body

end Sys2Proof.Machine
end

