-- ==== Sys2Proof/Machine/Placement.lean ====
section
/-! DEFINITION. Sections and placements: pages, references, which placement a line prints, the order in which the
placements of a group start and end (R42 to R75). -/

namespace Sys2Proof.Machine

/-- Resolution code of a plane byte: 0, 1, 2 for 300, 600, 1200 (R45). -/
def resOf (code : Nat) : Nat := if code = 0 then 300 else if code = 1 then 600 else 1200

/-- Sample depth of a plane (R77). -/
def Plane.depth (q : Plane) : Nat := if q.contone then 8 else 3

/-- Source width of a plane (R44). -/
def Section'.planeWidth (x : Section') (q : Plane) : Nat := x.width * q.xres / 1200

/-- Source height of a plane (R44). -/
def Section'.planeHeight (x : Section') (q : Plane) : Nat := x.height * q.yres / 1200

/-- Bytes rounded up to a 256-byte boundary (R52). -/
def align256 (n : Nat) : Nat := (n + 255) / 256 * 256

/-- Bytes rounded up to a boundary of a page of 64 KB (R51). -/
def pageUp (n : Nat) : Nat := (n + 65535) / 65536 * 65536

/-- Runs of bytes one behind the other from an address on, each from a 256-byte boundary. -/
def spotsFrom : Nat → List Bytes → List (Nat × Bytes)
  | _, [] => []
  | a, b :: t => (a, b) :: spotsFrom (a + align256 b.length) t

/-- Bytes that runs take from 256-byte boundaries. -/
def spotsSize (l : List Bytes) : Nat := (l.map fun b => align256 b.length).sum

/-- The strip streams of a section, in the order of planes and strips. -/
def Section'.streams (x : Section') : List Bytes := x.data.flatMap fun q => q.strips.map (·.stream)

/-- The anchor table of a strip with its control CRC: offset and first line of each anchor block (R94; its layout: log 133). -/
def anchorTable (t : Strip) : Bytes :=
  withCrc ((t.blocks.zipIdx.filter fun e => e.2 % 16 == 0).flatMap fun e => toLe 8 e.1.off ++ toLe 4 e.1.firstLine)

/-- The saved codec state of a plane with its control CRC; nothing where none is saved (R58, R60; its layout: log 133). -/
def savedState (q : PlaneData) : Bytes :=
  let line (l : List Nat) : Bytes := l.map (BitVec.ofNat 8)
  if q.codec.isEmpty then []
  else withCrc ((q.codec.zip q.strips).flatMap fun (c, t) =>
    toLe 8 t.stream.length ++ line c.lastLine ++ toLe 4 (c.adapt.getD (0, 0)).1 ++ toLe 4 (c.adapt.getD (0, 0)).2
      ++ c.held.flatMap line ++ t.blocks.flatMap fun b => toLe 8 (b.sig.getD 0).toNat)

/-- The strip directory of each plane with its control CRC, the first strip at address `a` of the section's own address space: address
and length of each strip (R51; its layout: log 133). -/
def directories : Nat → List PlaneData → List Bytes
  | _, [] => []
  | a, q :: t =>
    let streams := q.strips.map (·.stream)
    withCrc ((spotsFrom a streams).flatMap fun e => toLe 8 e.1 ++ toLe 8 e.2.length) :: directories (a + spotsSize streams) t

/-- The tables that a section holds beside its streams: the anchor tables of each plane's strips and its saved state, and behind those
of every plane the strip directories. -/
def Section'.tables (x : Section') : List Bytes :=
  (x.data.flatMap fun q => q.strips.map anchorTable ++ [savedState q]) ++ directories 0 x.data

/-- What a section holds, each run at its address in the section's own address space: the streams from 0 on, the tables from
the next page on (R51, R52). -/
def Section'.spots (x : Section') : List (Nat × Bytes) :=
  spotsFrom 0 x.streams ++ spotsFrom (pageUp (spotsSize x.streams)) x.tables

/-- Pages that a section needs: for its streams, for its tables, and what its directories may take beyond them (R51, log 7). -/
def Section'.need (x : Section') : Nat :=
  (pageUp (spotsSize x.streams) + pageUp (spotsSize x.tables)) / 65536
    + (Config.dirPages (x.data.map fun q => q.strips.length).sum).toNat

/-- Pages that a section holds (STO_SECT_INFO). -/
def Section'.pages (x : Section') : Nat := x.table.length

/-- Address of the region in device DRAM (R51, R96). -/
def State.regionBase (s : State) : Nat := s.get .STO_REGION_base_mb * 2 ^ 20

/-- The DRAM address of a byte of a section's own address space (R52). -/
def Section'.physical (x : Section') (base v : Nat) : Nat := base + x.table.getD (v / 65536) 0 * 65536 + v % 65536

/-- Bytes of a section as the device DRAM holds them now. -/
def State.sectionBytes (s : State) (x : Section') (v n : Nat) : Bytes :=
  (List.range n).map fun i => s.drm.mem.read Memory.dramFill (x.physical s.regionBase (v + i))

/-- A memory after a run of bytes is written through a page table. -/
def Memory.writeThrough (f : Nat → Nat) (m : Memory) (v : Nat) : Bytes → Memory
  | [] => m
  | b :: t => Memory.writeThrough f (m.write Memory.dramFill (f v) b) (v + 1) t

/-- The data of planes with what the device DRAM holds in place of what was stored: the streams, and whether the anchor tables
and the saved states pass their CRCs (R58, R94). -/
def refill : List PlaneData → List Bytes → List Bytes → List PlaneData
  | [], _, _ => []
  | q :: l, st, tb =>
    let n := q.strips.length
    let strips := q.strips.zipIdx.map fun (t, i) =>
      { t with stream := st.getD i t.stream, anchorsOk := t.anchorsOk && crcOk (tb.getD i []) }
    { q with strips := strips, codecOk := q.codecOk && (q.codec.isEmpty || crcOk (tb.getD n [])) }
      :: refill l (st.drop n) (tb.drop (n + 1))

/-- A section with its data as the device DRAM holds them now. -/
def State.fromDram (s : State) (x : Section') : Section' :=
  let read := x.spots.map fun e => s.sectionBytes x e.1 e.2.length
  { x with data := refill x.data (read.take x.streams.length) (read.drop x.streams.length) }

/-- A restore of a plane's saved state has failed, and no ingest with restart has come since (R58). -/
def State.restoreFailed (s : State) (n plane : Nat) : Bool :=
  match s.sto.sections.find? n with
  | some x => !(x.data.getD plane ⟨0, [], [], true⟩).codecOk
  | none => false

/-- A section recorded; its pages and their bytes stay as they are. -/
def State.putSection (s : State) (n : Nat) (x : Section') : State :=
  { s with sto := { s.sto with sections := s.sto.sections.ins n x } }

/-- A restore of a plane's saved state fails: the plane takes only an ingest with restart from now on (R58). -/
def State.failRestore (s : State) (n plane : Nat) : State :=
  match s.sto.sections.find? n with
  | some x =>
    s.putSection n { x with data := upd plane (fun (q : PlaneData) => { q with codecOk := false }) x.data }
  | none => s

/-- A section that is not FREE (R47), with its data as the device DRAM holds them. -/
def State.section (s : State) (n : Nat) : Option Section' := (s.sto.sections.find? n).map s.fromDram

/-- Pages of the region (STO_PAGES). -/
def State.regionPages (s : State) : Nat := s.get .STO_REGION_size_mb * 16

/-- Pages that all sections hold. -/
def State.usedPages (s : State) : Nat := (s.sto.sections.map fun e => e.2.pages).sum

/-- The first page from `k` on that no section holds; `fuel` bounds the pages held. -/
def nextFree (used : List Nat) : Nat → Nat → Nat
  | 0, k => k
  | fuel + 1, k => if used.contains k then nextFree used fuel (k + 1) else k

/-- `n` free pages, the lowest first (log 134). -/
def takePages (used : List Nat) : Nat → Nat → List Nat
  | 0, _ => []
  | n + 1, k =>
    let q := nextFree used used.length k
    q :: takePages used n (q + 1)

/-- The page table of a section of number `n` with as many pages as it needs: it keeps those it holds, from the first on, and
takes free ones behind them (R51, R52). -/
def State.pageTable (s : State) (n need : Nat) (held : List Nat) : List Nat :=
  let used := s.sto.sections.flatMap fun e => if e.1 = n then held else e.2.table
  held.take need ++ takePages used (need - held.length) 0

/-- A section takes the pages that it needs, and its streams and tables are written into them (R51, R52, R58). -/
def State.setSection (s : State) (n : Nat) (x : Section') : State :=
  let held := ((s.sto.sections.find? n).map (·.table)).getD []
  let x := { x with table := s.pageTable n x.need held }
  let mem := x.spots.foldl (fun m e => Memory.writeThrough (x.physical s.regionBase) m e.1 e.2) s.drm.mem
  { s.putSection n x with drm := { s.drm with mem := mem } }

/-- No page is free for what a section of number `n` needs beyond the pages that it holds (R53). -/
def State.storeFull (s : State) (n : Nat) (x : Section') : Bool :=
  let held := ((s.sto.sections.find? n).map (·.pages)).getD 0
  decide (held < x.need) && decide (s.regionPages < s.usedPages - held + x.need)

/-- A bar group's typed state. -/
def State.group (s : State) (g : Nat) : Group := s.sto.groups.getD g ⟨[], false, [], []⟩

/-- A change of one group. -/
def State.updGroup (s : State) (g : Nat) (f : Group → Group) : State :=
  { s with sto := { s.sto with groups := upd g f s.sto.groups } }

/-- The placements of a group that refer to their sections (R50). -/
def Group.all (g : Group) : List Placement := g.old ++ g.queue

/-- The section of a STRIP parameter (R440). -/
def stripSection (param : Bytes) : Nat := leAt param 0 2 % 4096

/-- Sections that running strip activities refer to (R440). -/
def State.stripRefs (s : State) (n : Nat) : Nat :=
  (s.lmp.running.filter fun a => a.code == 10 && stripSection a.param == n).length

/-- Placements that refer to a section (R50). -/
def State.refs (s : State) (n : Nat) : Nat :=
  ((s.sto.groups.flatMap Group.all).filter fun p => p.sec == n).length

/-- A placement or a running strip activity refers to a section (R50, R440). -/
def State.inUse (s : State) (n : Nat) : Bool := decide (0 < s.refs n + s.stripRefs n)

/-- The placement whose lines a group prints at line L: the latest started at or below it, unless it has ended
(R67, R73, R74). -/
def State.placementAt (s : State) (g : Nat) (l : Line) : Option Placement :=
  let started := (s.group g).all.filter fun p =>
    match p.start with
    | some a => lineLe a l
    | none => false
  match started.foldl (fun b p => match b with
      | none => some p
      | some q => if lineLe (q.start.getD 0) (p.start.getD 0) then some p else some q) none with
  | some p =>
    match p.fin with
    | some e => if lineLe e l then none else some p
    | none => some p
  | none => none

/-- Repetition and line within it of line L under a placement (R67). -/
def Placement.offset (p : Placement) (l : Line) : Nat × Nat :=
  let d := (l - p.start.getD 0).toNat
  (d / p.pitch, d % p.pitch)

/-- Plane of a bar in a plane map; none prints nothing (R64). -/
def planeOf (map : BitVec 32) (b : Nat) : Option Nat :=
  let v := nbits map.toNat (4 * b + 3) (4 * b)
  if v = 15 then none else some v

/-- The height of the section of a placement. -/
def State.heightOf (s : State) (sec : Nat) : Nat := ((s.section sec).map (·.height)).getD 0

/-- Line L is a gap line of a group: its running placement leaves it blank because o ≥ H (R438). -/
def State.gapLine (s : State) (g : Nat) (l : Line) : Bool :=
  match s.placementAt g l with
  | some p =>
    let (i, o) := p.offset l
    (p.repeats == 0 || decide (i < p.repeats)) && decide (s.heightOf p.sec ≤ o)
  | none => false

/-- Gap lines of a group from `e` up to but not including `l`; at 600 lpi only even lines are printed. -/
def State.gapsBetween (s : State) (g : Nat) (e l : Line) : Nat :=
  ((List.range (l - e).toNat).filter fun i =>
    let x := e + BitVec.ofNat 40 i
    s.gapLine g x && !(s.lpi600 && x.getLsbD 0)).length

/-- The spit activity that prints on line L of a bar, if one does (R439). -/
def State.spitAt (s : State) (b : Nat) (l : Line) : Option Activity :=
  s.lmp.running.find? fun a =>
    a.code == 9 && a.target.testBit b && s.gapLine (byteAt a.param 4) l &&
      a.line.isSome && lineLe a.base l && decide (s.gapsBetween (byteAt a.param 4) a.base l < a.left)

/-- First repetition of a placement whose line `o` lies at or above line e (R440). -/
def Placement.firstRepetition (p : Placement) (o : Nat) (e : Line) : Nat :=
  let d := sdiff e (p.start.getD 0 + BitVec.ofNat 40 o)
  if d ≤ 0 then 0 else (d.toNat + p.pitch - 1) / p.pitch

/-- The strip activity that prints on line L of a bar, and the line within its section (R440). -/
def State.stripAt (s : State) (b : Nat) (l : Line) : Option (Activity × Nat) :=
  s.lmp.running.findSome? fun a =>
    if a.code == 10 && a.target.testBit b then
      match s.placementAt (byteAt a.param 2) l, a.line with
      | some p, some e =>
        let (i, o) := p.offset l
        let os := leAt a.param 4 4
        let i0 := p.firstRepetition os e
        if p.handle = a.left ∧ s.groupOf b = some (byteAt a.param 2) ∧ (p.repeats = 0 ∨ i < p.repeats) ∧ os ≤ o ∧ o < os + s.heightOf (stripSection a.param) ∧ i0 ≤ i ∧ i < i0 + byteAt a.param 3 then some (a, o - os)
        else none
      | _, _ => none
    else none

/-- Line a of the two at which something ends first. -/
def earlier (a : Option Line) (b : Line) : Line :=
  match a with
  | some x => if lineLe x b then x else b
  | none => b

/-- A boundary of a placement may still lie ahead of the web at some bar under some ITEM offset: its end line stands at most
2^33 position units behind the web, more than the greatest bar offset and the greatest offset together (R193, R210). -/
def State.maybeAhead (s : State) (q : Placement) : Bool :=
  match q.fin with
  | some e => decide (sdiff s.pos (e.setWidth 48 <<< 8) ≤ 2 ^ 33)
  | none => true

/-- Placements of a group whose end line every pipeline of the group has begun no longer refer to their section
(R50); their boundaries stay known while an ITEM compare can look for them (R210). -/
def State.releaseOld (s : State) (g : Nat) : State :=
  let ports := s.groupPorts g
  let passed (q : Placement) : Bool :=
    (q.fin.map fun e => if ports.isEmpty then lineLe e (s.groupBegun g) else s.allBegun ports e).getD false
  s.updGroup g fun x =>
    { x with old := x.old.filter fun q => !passed q, past := (x.past ++ x.old.filter passed).filter s.maybeAhead }

/-- A group's queue after the placements whose start line has been begun have started, and the running one has
ended where its end line has been begun (R70, R73, R74); `fuel` bounds the starts. -/
def Group.advance (begun : Line) : Nat → Group → Group
  | 0, g => g
  | fuel + 1, g =>
    match g.running, g.queue with
    | true, r :: n :: t =>
      match n.start with
      | some a =>
        if lineLe a begun then
          Group.advance begun fuel { g with queue := n :: t, old := g.old ++ [{ r with fin := some (earlier r.fin a) }] }
        else if (r.fin.map fun e => lineLe e begun).getD false then
          { g with running := false, queue := n :: t, old := g.old ++ [r] }
        else g
      | none =>
        if (r.fin.map fun e => lineLe e begun).getD false then
          { g with running := false, queue := n :: t, old := g.old ++ [r] }
        else g
    | true, [r] =>
      if (r.fin.map fun e => lineLe e begun).getD false then { g with running := false, queue := [], old := g.old ++ [r] }
      else g
    | false, n :: t =>
      match n.start with
      | some a => if lineLe a begun then Group.advance begun fuel { g with running := true, queue := n :: t } else g
      | none => g
    | _, [] => { g with running := false }

/-- A group advanced to its begun line, with its ended placements released (R50, R72, R73). -/
def State.settleGroup (s : State) (g : Nat) : State :=
  let b := s.groupBegun g
  (s.updGroup g fun x => x.advance b (x.queue.length + 1)).releaseOld g

/-- Every group advanced to its begun line. -/
def State.settleGroups (s : State) : State := (List.range 4).foldl (fun s g => s.settleGroup g) s

/-- Repetitions of the running placement that have begun (STO_PLACE_REPEAT). -/
def State.placeRepeat (s : State) (g : Nat) : Nat :=
  let x := s.group g
  match x.running, x.queue with
  | true, p :: _ =>
    let bar := (List.range 8).find? fun b => (s.groupMask g).testBit b
    let l := match bar with
      | some b => s.highestOf [3 * b, 3 * b + 1, 3 * b + 2]
      | none => s.groupBegun g
    if lineLe (p.start.getD 0) l then
      let i := (p.offset l).1 + 1
      if p.repeats = 0 then i % 2 ^ 24 else min i p.repeats
    else 0
  | _, _ => 0

/-- The smallest repeat boundary of a placement at or above a line (R69). -/
def Placement.boundaryAt (p : Placement) (l : Line) : Line :=
  let a := p.start.getD 0
  let d := sdiff l a
  let i := if d ≤ 0 then 1 else max 1 ((d.toNat + p.pitch - 1) / p.pitch)
  a + BitVec.ofNat 40 (i * p.pitch)

/-- The start line of a NEXT placement behind the placement ahead of it (R72). -/
def nextStart (ahead : Option Placement) (g : Line) : Line :=
  let least := g + 256
  let dflt := upTo64 least
  match ahead with
  | some r =>
    match r.fin with
    | some lc => if lineLe least lc then lc else dflt
    | none =>
      if r.repeats = 0 then r.boundaryAt least
      else
        let last := r.start.getD 0 + BitVec.ofNat 40 (r.repeats * r.pitch)
        if lineLe least last then last else dflt
  | none => dflt

end Sys2Proof.Machine
end

