-- ==== Sys2Proof/Machine/Screen.lean ====
section
/-! DEFINITION. The screening stages of a Transit pipeline, from the stored plane to drop codes, and the packing of
a LINE payload (R98 to R127, R439, R440). -/

namespace Sys2Proof.Machine

/-- One head as a pipeline sees it: port, origin, nozzles, rows, correction words of its port, index of its first
nozzle in the port, and its place along the bar. -/
structure HeadView where
  port : Nat
  origin : Int
  nozzles : Nat
  rows : Nat
  corr : SMap (BitVec 16)
  base : Nat
  order : Nat
  deriving DecidableEq, Repr

/-- The heads of a bar with the correction tables in force for raster line k (R98, R104). -/
def State.headViews (s : State) (b : Nat) (k : Line) : List HeadView :=
  (s.barHeads s.mer.geom b).zipIdx.map fun ((p, j, o, n), i) =>
    ⟨p, o, n, (s.heads p).rows, (s.tabAt 2 p k).words, j * n, i⟩

/-- Correction word of nozzle n of a head. -/
def HeadView.word (h : HeadView) (n : Nat) : BitVec 16 := corrWord h.corr (h.base + n)

/-- A column lies outside the printable width (R100). -/
def outside (c : Int) : Bool := decide (c < 0) || decide (96767 < c)

/-- The nozzle of a head that prints a column. -/
def HeadView.nozzleAt (h : HeadView) (c : Int) : Option Nat :=
  if h.origin ≤ c ∧ c < h.origin + h.nozzles then some (c - h.origin).toNat else none

/-- Columns by which a head overlaps the next one of its bar (R101, R117). -/
def overlapOf (a b : HeadView) : Nat := (a.origin + a.nozzles - b.origin).toNat

/-- The heads beside a head along the bar. -/
def neighbours (l : List HeadView) (h : HeadView) : Option HeadView × Option HeadView :=
  ((if h.order = 0 then none else l[h.order - 1]?), l[h.order + 1]?)

/-- The partner nozzle in the same overlap column is not OUT (R115). -/
def partnerGood (l : List HeadView) (h : HeadView) (n : Nat) : Bool :=
  let c := h.origin + n
  let good (o : Option HeadView) : Bool :=
    match o with
    | some q => match q.nozzleAt c with
      | some m => !isOut (q.word m)
      | none => false
    | none => false
  good (neighbours l h).1 || good (neighbours l h).2

/-- Column c of the overlap between heads A and B goes to A on line k (R117, R118). `body` is the STITCH table. -/
def stitchToA (body : Bytes) (a b : HeadView) (k : Line) (c : Int) : Bool :=
  let outA := match a.nozzleAt c with
    | some n => isOut (a.word n)
    | none => true
  let outB := match b.nozzleAt c with
    | some n => isOut (b.word n)
    | none => true
  if outA != outB then outB
  else
    let x := 64 * (c - b.origin) / (overlapOf a b : Int)
    let xs := x - (body.getD (2048 + a.order) 0).toInt
    if xs < 0 then true
    else if 63 < xs then false
    else
      let j := 64 * (k.toNat % 256) + xs.toNat
      (body.getD (j / 8) 0).getLsbD (j % 8)

/-- A head's nozzle is the one its overlap column goes to, or lies in no overlap (R117 to R119). -/
def selected (body : Bytes) (l : List HeadView) (h : HeadView) (k : Line) (n : Nat) : Bool :=
  let c := h.origin + n
  let low := match (neighbours l h).1 with
    | some a => if (a.nozzleAt c).isSome then !stitchToA body a h k c else true
    | none => true
  let high := match (neighbours l h).2 with
    | some b => if (b.nozzleAt c).isSome then stitchToA body h b k c else true
    | none => true
  low && high

/-! ### Stages 2 to 5 -/

/-- Stage 2: the upsampled value of section column u; none where a sample it takes is blank (R105). `get` reads a
source sample of the row; `width` is the plane's source width. -/
def upsample (get : Nat → Option Nat) (width xres : Nat) (linear : Bool) (u : Nat) : Option Nat :=
  let q := 1200 / xres
  let si := u / q
  let f := u % q
  if !linear || f == 0 then get si
  else
    match get si, get (if si + 1 < width then si + 1 else si) with
    | some a, some b => some ((a * (q - f) + b * f + q / 2) / q)
    | _, _ => none

/-- Stage 4: the corrected value (R108). -/
def correct (t : Nat) (w : BitVec 16) : Nat :=
  if t = 0 then 0
  else
    let g := (w.extractLsb' 8 8).toNat
    let o := (w.extractLsb' 2 6).toInt
    (max 0 (min 4095 ((((t * (128 + g) + 128) / 256 : Nat) : Int) + 8 * o))).toNat

/-- Stage 5: the level of a corrected value at column c of line k under a THRESH body (R110). -/
def level (body : Bytes) (c : Int) (k : Line) (v : Nat) : Nat :=
  let wm : Nat := 2 ^ byteAt body 0
  let hm : Nat := 2 ^ byteAt body 1
  let sh := leAtInt body 6 2
  let x := ((c + leAt body 2 2 + sh * k.toNat / 256) % wm).toNat
  let y := (k.toNat + leAt body 4 2) % hm
  ((List.range 7).filter fun i => decide (threshold body (y * wm + x) i < v)).length

/-! ### Stage 6: nozzle-out compensation (R113 to R116) -/

/-- What compensation needs of one head: OUT, WEAK and whether a nozzle may receive level (not blank, not outside,
not OUT). -/
structure CompView where
  out : List Bool
  weak : List Bool
  takes : List Bool
  good : List Bool
  rows : Nat
  weakMax : Nat
  mode : Nat
  odd : Bool
  deriving DecidableEq, Repr

/-- Level handed to a nozzle: what it could not take, and the levels after (R114). -/
def give (v : CompView) (m : Int) (x : Nat) (lam : List Nat) : Nat × List Nat :=
  if m < 0 ∨ (lam.length : Int) ≤ m ∨ !v.takes.getD m.toNat false then (x, lam)
  else
    let cap := if v.weak.getD m.toNat false then v.weakMax else 7
    let t := min x (cap - lam.getD m.toNat 0)
    (x - t, upd m.toNat (· + t) lam)

/-- Level e of nozzle n handed to the nozzles at distance `step`, the lower share first (R114). -/
def share (v : CompView) (n : Nat) (step : Nat) (e : Nat) (lam : List Nat) : Nat × List Nat :=
  let lo := if v.odd then e / 2 else e - e / 2
  let a := give v ((n : Int) - step) lo lam
  let b := give v ((n : Int) + step) (e - lo + a.1) a.2
  give v ((n : Int) - step) b.1 b.2

/-- One nozzle of the compensation: the levels and the level lost so far (R114). -/
def compensateOne (v : CompView) (acc : List Nat × Nat) (n : Nat) : List Nat × Nat :=
  let lam := acc.1
  let here := lam.getD n 0
  if v.out.getD n false && v.good.getD n false then (upd n (fun _ => 0) lam, acc.2)
  else
    let e := if v.out.getD n false then here
      else if v.weak.getD n false then here - v.weakMax else 0
    let lam := upd n (fun x => x - e) lam
    if e = 0 ∨ v.mode = 0 then (lam, acc.2)
    else
      let a := share v n 1 e lam
      let b := if v.mode = 2 then share v n v.rows a.1 a.2 else a
      (b.2, acc.2 + b.1)

/-- Compensation of one head in ascending n (R114). -/
def compensate (v : CompView) (lam : List Nat) : List Nat × Nat :=
  (List.range lam.length).foldl (compensateOne v) (lam, 0)

/-! ### One raster line of one port -/

/-- What a line prints from: a section, its plane, the row, the column origin, the placement or strip activity and its
repetition; or a spit. -/
inductive LineSource where
  | nothing
  | image (sec plane row origin owner rep : Nat)
  | spit (code step : Nat)
  deriving DecidableEq, Repr

/-- The source row of line o of a section plane (R67). -/
def imageSource (x : Section') (sec plane o origin owner rep : Nat) : LineSource :=
  match x.planes[plane]? with
  | some q => .image sec plane (o * q.yres / 1200) origin owner rep
  | none => .nothing

/-- What line k of a bar prints from (R67, R68, R439, R440). -/
def State.lineSource (s : State) (b : Nat) (k : Line) : LineSource :=
  match s.stripAt b k with
  | some (a, o) =>
    match s.section (stripSection a.param), planeOf (BitVec.ofNat 32 (leAt a.param 8 4)) b with
    | some x, some pl =>
      let rep := ((s.placementAt (byteAt a.param 2) k).map fun q => (q.offset k).1).getD 0
      imageSource x (stripSection a.param) pl o (nbits (leAt a.param 12 4) 16 0) (65536 + a.left) rep
    | _, _ => .nothing
  | none =>
    match s.spitAt b k with
    | some a => .spit (byteAt a.param 2) (byteAt a.param 3)
    | none =>
      match (s.groupOf b).bind fun g => s.placementAt g k with
      | none => .nothing
      | some p =>
        let (i, o) := p.offset k
        if p.repeats ≠ 0 ∧ p.repeats ≤ i then .nothing
        else
          match s.section p.sec, planeOf p.map b with
          | some x, some pl => if x.height ≤ o then .nothing else imageSource x p.sec pl o p.origin p.handle i
          | _, _ => .nothing

/-- The result of stages 1 to 8: a drop code for each port nozzle, the level lost, the strips in which a malformed block was
found (section, plane, strip; one entry for each block), and where the decompressor then stands. -/
structure Screened where
  codes : List (BitVec 3)
  lost : Nat
  bad : List (Nat × Nat × Nat)
  dec : Option Decoder
  deriving DecidableEq, Repr

/-- Codes of one head, from the value or level of each nozzle; none where the nozzle's column is blank or outside
(R103 stages 3 to 8). -/
def State.headCodes (s : State) (b : Nat) (k : Line) (l : List HeadView) (h : HeadView) (contone : Bool)
    (vals : List (Option Nat)) : List (BitVec 3) × Nat :=
  let tone := (s.tabAt 1 b k).bytes
  let thresh := (s.tabAt 3 b k).bytes
  let map := (s.tabAt 4 b k).bytes
  let stitch := (s.tabAt 5 b k).bytes
  let rules := (s.tabAt 6 b k).bytes
  let idx := List.range h.nozzles
  let words := idx.map h.word
  let lam := vals.zipIdx.map fun (v, n) =>
    match v with
    | none => 0
    | some v =>
      if contone then level thresh (h.origin + n) k (correct (leAt tone (2 * v) 2) (h.word n)) else v
  let comp : CompView :=
    { out := words.map isOut, weak := words.map isWeak, takes := (words.zip vals).map fun (w, v) => !isOut w && v.isSome,
      good := idx.map (partnerGood l h), rows := h.rows, weakMax := byteAt rules 2, mode := byteAt rules 1,
      odd := k.getLsbD 0 }
  let done := compensate comp lam
  let codes := (done.1.zip vals).zipIdx.map fun ((x, v), n) =>
    match v with
    | none => 0
    | some _ =>
      let x := if selected stitch l h k n then x else 0
      BitVec.ofNat 3 (if contone then byteAt map x else x)
  (codes, done.2)

/-- The decompressor of a pipeline as it comes to a repetition: where it stands in it, or at the repetition's source row 0
(R92). -/
def decoderAt (dec : Option Decoder) (owner rep sec plane : Nat) : Decoder :=
  match dec with
  | some d => if d.owner = owner ∧ d.rep = rep ∧ d.sec = sec ∧ d.plane = plane then d else ⟨owner, rep, sec, plane, 0, 0⟩
  | none => ⟨owner, rep, sec, plane, 0, 0⟩

/-- The decompressor of a pipeline that begins with raster line k: it seeks where the line needs another source row than 0
(R93). -/
def State.seekAt (s : State) (b : Nat) (k : Line) : Option Decoder :=
  match s.lineSource b k with
  | .image sec plane row _ owner rep => if row = 0 then none else some ⟨owner, rep, sec, plane, row, 0⟩
  | _ => none

/-- Stages 1 to 8 of raster line k on port p, whose decompressor stands at `dec` (R92 to R94, R103 to R121). -/
def State.screen (s : State) (p : Nat) (k : Line) (dec : Option Decoder) : Screened :=
  let b := barOf p
  let l := s.headViews b k
  let mine := l.filter fun h => h.port == p
  match s.lineSource b k with
  | .nothing => ⟨List.replicate (s.nozzles p) 0, 0, [], dec⟩
  | .spit code step =>
    ⟨mine.flatMap fun h => (List.range h.nozzles).map fun (n : Nat) =>
      let c : Int := h.origin + n
      if outside c || isOut (h.word n) || (c + k.toNat) % (step : Int) != 0 then 0 else BitVec.ofNat 3 code, 0, [], dec⟩
  | .image sec plane row origin owner rep =>
    match s.section sec with
    | none => ⟨List.replicate (s.nozzles p) 0, 0, [], dec⟩
    | some x =>
      let q := x.planes.getD plane ⟨true, 1200, 1200⟩
      let width := x.planeWidth q
      let strips := (x.data.getD plane ⟨0, [], [], true⟩).strips
      let at' := decoderAt dec owner rep sec plane
      let lines := strips.zipIdx.map fun (t, i) => stripLines q.depth (stripWidth width i) (x.planeHeight q) t at'.seek
      let rows := lines.map fun t => (t.1.getD row none)
      let get (i : Nat) : Option Nat := ((rows.getD (i / 256) none).bind fun r => r[i % 256]?)
      let linear := byteAt (s.tabAt 6 b k).bytes 0 == 1
      let valOf (c : Int) : Option Nat :=
        if outside c || decide (c < origin) || decide ((origin + x.width : Int) ≤ c) then none
        else
          let u := (c - origin).toNat
          if q.contone then upsample get width q.xres linear u else get u
      let outs := mine.map fun h => s.headCodes b k l h q.contone ((List.range h.nozzles).map fun n => valOf (h.origin + n))
      let met := (mine.flatMap fun h => (List.range h.nozzles).flatMap fun (n : Nat) =>
        let c : Int := h.origin + n
        if c < origin ∨ (origin + x.width : Int) ≤ c then []
        else
          let si := (c - origin).toNat * q.xres / 1200
          if si + 1 < width then [si / 256, (si + 1) / 256] else [si / 256]).eraseDups
      let failed (i : Nat) : List Nat := (lines.getD i ([], [])).2.filter fun r => decide (at'.row ≤ r) && decide (r ≤ row)
      ⟨outs.flatMap (·.1), (outs.map (·.2)).sum, met.flatMap fun i => (failed i).map fun _ => (sec, plane, i),
        some { at' with row := max at'.row (row + 1) }⟩

/-! ### Stages 9 and 10 -/

/-- The code that a nozzle of a row with delay D carries in the frame of line L, and whether it is a substitute; the
row holds its D + 1 newest screened lines, newest first (R122). -/
def delayed (mem : List (Line × List (BitVec 3))) (l : Line) (d i : Nat) : BitVec 3 × Bool :=
  let held := mem.take (d + 1)
  let want := l - BitVec.ofNat 40 d
  match held.find? fun e => e.1 == want with
  | some e => (e.2.getD i 0, false)
  | none =>
    match held.find? fun e => lineLt e.1 want with
    | some e => (e.2.getD i 0, true)
    | none => (0, true)

/-- Stage 9: the codes of line L on port p drawn from the delay memory, and the substituted slots (R122). -/
def State.rowDelayed (s : State) (p : Nat) (mem : List (Line × List (BitVec 3))) (l : Line) : List (BitVec 3) × Nat :=
  let h := s.heads p
  let slots := (List.range h.heads).flatMap fun j => (List.range h.nozzles).map fun (n : Nat) =>
    delayed mem l (s.mer.geom.row p j (n % h.rows)).1 (j * h.nozzles + n)
  (slots.map (·.1), (slots.filter (·.2)).length)

/-- Bits packed from the least significant bit of each byte up, padded to whole 8-byte words (R126). -/
def packLsb (bits : List Bool) : Bytes :=
  (List.range ((bits.length + 63) / 64 * 8)).map fun i =>
    BitVec.ofNat 8 ((((bits.drop (8 * i)).take 8).zipIdx.map fun (b, j) => b.toNat * 2 ^ j).sum)

/-- The LINE payload of drop codes: 3-bit slots, or 2-bit slots through TRN_G1MAP on a Gahild 1 port (R126,
R127). -/
def packLine (version g1map : Nat) (codes : List (BitVec 3)) : Bytes :=
  if version = 1 then
    packLsb (codes.flatMap fun c => [g1map.testBit (2 * c.toNat), g1map.testBit (2 * c.toNat + 1)])
  else packLsb (codes.flatMap fun c => [c.getLsbD 0, c.getLsbD 1, c.getLsbD 2])

/-- A delay memory with a screened line in front; it holds the 64 newest (R122, R123). -/
def remember (mem : List (Line × List (BitVec 3))) (l : Line) (codes : List (BitVec 3)) : List (Line × List (BitVec 3)) :=
  ((l, codes) :: mem).take 64

end Sys2Proof.Machine
end

