-- ==== Sys2Proof/Machine/Frames.lean ====
section
/-! DEFINITION. Link frames and blocks, control sequence numbers, and the sending of frames on a Gahild link (R219 to
R224, R243 to R256). -/

namespace Sys2Proof.Machine

/-- Bytes `o` onwards of a structure replaced. -/
def splice (l : Bytes) (o : Nat) (v : Bytes) : Bytes := l.take o ++ v ++ l.drop (o + v.length)

/-- A link frame before its sequence number and CRCs: type, flags, length, bytes 8 to 27, payload (R243). -/
def rawFrame (type flags : Nat) (mid payload : Bytes) : Bytes :=
  [BitVec.ofNat 8 type, BitVec.ofNat 8 flags] ++ toLe 2 payload.length ++ toLe 4 0
    ++ (mid ++ List.replicate 20 0).take 20 ++ List.replicate 4 0 ++ payload

/-- A frame with its sequence number and both CRCs, padded with zero bytes to whole blocks (R223, R243); a LINE and a DATA payload
carry none (R4, R319). -/
def finishFrame (raw : Bytes) (seq : BitVec 32) : Bytes :=
  let payload := raw.drop 32
  let h := splice (raw.take 28) 4 (toLe 4 seq.toNat)
  let pay := if byteAt raw 0 = 1 ∨ byteAt raw 0 = 0x17 ∨ payload.isEmpty then 0 else (crc16 payload).toNat
  let f := withCrc (h ++ toLe 2 pay) ++ payload
  f ++ List.replicate ((16 - f.length % 16) % 16) 0

/-- A SYNC REQ (R251). -/
def isSyncReq (raw : Bytes) : Bool := byteAt raw 0 == 4 && byteAt raw 8 == 1

/-- A CTRL GEOM (R249). -/
def isGeom (raw : Bytes) : Bool := byteAt raw 0 == 3 && byteAt raw 8 == 3

/-- One step of the scrambler x^23 + x^21 + x^16 + x^8 + x^5 + x^2 + 1 and the bit it gives (R220, log 17). -/
def lfsrStep (r : BitVec 23) : Bool × BitVec 23 :=
  if r.msb then (true, (r <<< 1) ^^^ 0x210125) else (false, r <<< 1)

/-- The scrambler advanced by a number of bits (R220). -/
def lfsrAdvance : Nat → BitVec 23 → BitVec 23
  | 0, r => r
  | n + 1, r => lfsrAdvance n (lfsrStep r).2

/-- The next bits of the scrambler sequence. -/
def lfsrBits : Nat → BitVec 23 → List Bool
  | 0, _ => []
  | n + 1, r => (lfsrStep r).1 :: lfsrBits n (lfsrStep r).2

/-- Bits in the order in which they are sent, as bytes: each byte least significant bit first (R219). -/
def bitsToBytes (n : Nat) (l : List Bool) : Bytes :=
  (List.range n).map fun i => BitVec.ofNat 8 ((((l.drop (8 * i)).take 8).zipIdx.map fun (b, j) => b.toNat * 2 ^ j).sum)

/-- A block on the lane, bit 0 sent first: the sync header, 1 then 0 for data and 0 then 1 for control, and its 16 bytes (R219). -/
def laneBlock (data : Bool) (bytes : Bytes) : BitVec 130 :=
  BitVec.ofNat 130 ((if data then 1 else 2) + 4 * leAt bytes 0 16)

/-- Sixteen bytes scrambled with the sequence from a scrambler state on (R220). -/
def scramble (r : BitVec 23) (bytes : Bytes) : Bytes :=
  (bytes.zip (bitsToBytes 16 (lfsrBits 128 r))).map fun (a, b) => a ^^^ b

/-- The data blocks of a link frame of `n` blocks, scrambled (R219, R220, R223). -/
def dataBlocks : Nat → BitVec 23 → Bytes → List (BitVec 130)
  | 0, _, _ => []
  | n + 1, r, b => laneBlock true (scramble r (b.take 16)) :: dataBlocks n (lfsrAdvance 128 r) (b.drop 16)

/-- The sender state of an IDLE block: 1 firing, 2 quiesced once CTRL QUIESCE has left for a fatal fault, else 0 (R221, R260,
R405). -/
def State.senderState (s : State) (p : Nat) : Nat :=
  match s.dev.dev with
  | .printing => 1
  | .held => if (s.link p).quiesced then 2 else (s.ltn.fatalAt.isSome && s.ltn.fatalPrinting).toNat
  | _ => 0

/-- An IDLE block leaves a link (R221). -/
def State.sendIdle (s : State) (p : Nat) : State :=
  let l := s.link p
  let block := [0x4B, BitVec.ofNat 8 (s.senderState p)] ++ toLe 4 l.lastSeq.toNat ++ bitsToBytes 10 (lfsrBits 80 l.lfsr)
  (s.updLink p fun l => { l with lfsr := lfsrAdvance 80 l.lfsr }).emit (.idle p block (laneBlock false block))

/-- A link frame leaves a link, followed by an IDLE block (R223). -/
def State.sendFrame (s : State) (p : Nat) (frame : Bytes) : State :=
  let r := (s.link p).lfsr
  let n := frame.length / 16
  ((s.updLink p fun l => { l with lfsr := lfsrAdvance (128 * n) r }).emit (.linkFrame p frame (dataBlocks n r frame))).sendIdle p

/-- A training block leaves a link: a control block, not scrambled (R220, R221). -/
def State.sendTrain (s : State) (p : Nat) (block : Bytes) : State := s.emit (.trainBlock p block (laneBlock false block))

/-- A CTRL QUIESCE that says that firing has stopped (R249, R260). -/
def isQuiesce (raw : Bytes) : Bool := byteAt raw 0 == 3 && byteAt raw 8 == 5 && byteAt raw 9 == 1

/-- An ACTIVE port that sends only IDLE while the device prints, its minimum lookahead being too long (R236). -/
def State.muted (s : State) (p : Nat) : Bool := s.printing && s.active p && (s.link p).laShort

/-- A control frame leaves with a sequence number; a SYNC REQ carries the MONO time at which it starts (R237), the last frame of
a bank write is noted (R157), and so is a QUIESCE (R260). -/
def State.transmitCtl (s : State) (p : Nat) (raw : Bytes) (seq : BitVec 32) : State :=
  if isSyncReq raw then
    (s.sendFrame p (finishFrame (splice raw 12 (toLe 4 s.mono.toNat)) seq)).updLink p fun l =>
      { l with syncWait := some (byteAt raw 9, s.mono, false) }
  else
    let s := if isQuiesce raw then s.updLink p fun l => { l with quiesced := true } else s
    let s := s.sendFrame p (finishFrame raw seq)
    if byteAt raw 0 = 2 ∧ byteAt raw 9 = 21 then
      s.updWick p fun w => { w with write := w.write.map fun x => { x with lastAt := some s.clock } }
    else s

/-- A control frame is sent with the next control sequence number, or waits while four are unacknowledged (R255) or the port may
send only IDLE (R236). -/
def State.sendCtl (s : State) (p : Nat) (raw : Bytes) : State :=
  let l := s.link p
  if l.unacked.length < 4 && l.queued.isEmpty && !s.muted p then
    (s.transmitCtl p raw l.ctlNext).updLink p fun l =>
      { l with ctlNext := l.ctlNext + 1, unacked := l.unacked ++ [⟨l.ctlNext, raw, s.clock, 0⟩] }
  else s.updLink p fun l => { l with queued := l.queued ++ [raw] }

/-- Frames that wait are sent while fewer than four are unacknowledged (R255); `fuel` bounds them. -/
def State.drainCtl (s : State) (p : Nat) : Nat → State
  | 0 => s
  | fuel + 1 =>
    let l := s.link p
    match l.queued with
    | raw :: t =>
      if l.unacked.length < 4 && !s.muted p then
        ((s.transmitCtl p raw l.ctlNext).updLink p fun l =>
          { l with queued := t, ctlNext := l.ctlNext + 1, unacked := l.unacked ++ [⟨l.ctlNext, raw, s.clock, 0⟩] }).drainCtl p fuel
      else s
    | [] => s

/-- A ctl_ack acknowledges every frame up to it, and frames that wait follow (R255). -/
def State.ackCtl (s : State) (p : Nat) (ack : BitVec 32) : State :=
  let s := s.updLink p fun l => { l with ctlAck := some ack, unacked := l.unacked.filter fun f => !lineLe f.seq ack }
  s.drainCtl p 4

/-- An unacknowledged frame is sent again and counted (R254, R255). Which of its transmissions the echo of a SYNC REQ answers
cannot be told, so it does not measure the epoch (log 138). -/
def State.resend (s : State) (p : Nat) (f : CtlFrame) : State :=
  let s := s.transmitCtl p f.frame f.seq
  (if p < 24 then s.count .GHL_RESEND_CNT p else s).updLink p fun l =>
    { l with
      unacked := l.unacked.map fun g => if g.seq = f.seq then { g with sentAt := s.clock, resends := g.resends + 1 } else g
      syncWait := if isSyncReq f.frame then l.syncWait.map fun w => (w.1, w.2.1, true) else l.syncWait }

/-- CTRL with an operation and arguments from byte 9 on (R249). -/
def ctrlFrame (op : Nat) (args payload : Bytes) : Bytes := rawFrame 3 0 (BitVec.ofNat 8 op :: args) payload

/-- CTRL RESEND of a status sequence number (R249). -/
def resendFrame (seq : BitVec 32) : Bytes := ctrlFrame 4 ([0, 0, 0] ++ toLe 4 seq.toNat) []

/-- CTRL QUIESCE with byte 9 (R249, R260). -/
def quiesceFrame (stopped : Bool) : Bytes := ctrlFrame 5 [if stopped then 1 else 0] []

/-- CTRL RESYNC with the next line sequence number (R249). -/
def resyncFrame (seq : BitVec 32) : Bytes := ctrlFrame 6 ([0, 0, 0] ++ toLe 4 seq.toNat) []

/-- SYNC REQ (kind 1) or SET (kind 2) with its epoch identifier and value (R251). -/
def syncFrame (kind id : Nat) (v : Word) : Bytes :=
  rawFrame 4 0 ([BitVec.ofNat 8 kind, BitVec.ofNat 8 id, 0, 0] ++ toLe 4 v.toNat) []

/-- A SYNC REQ is sent, under an epoch identifier of its own, so that its echo is told from an earlier one (R251; log 138). -/
def State.sendSyncReq (s : State) (p : Nat) : State :=
  let id := ((s.link p).epochId + 1) % 256
  (s.updLink p fun l => { l with epochId := id }).sendCtl p (syncFrame 1 id 0)

/-- The WAVE frame of one chunk of a bank (R246). -/
def waveFrame (bank : Bool) (body : Bytes) (chunk : Nat) : Bytes :=
  rawFrame 2 0 [if bank then 1 else 0, BitVec.ofNat 8 chunk] ((body.drop (96 * chunk)).take 96)

/-- CTRL GEOM is sent on a port (R250). -/
def State.sendGeom (s : State) (p : Nat) : State :=
  (s.updLink p fun l => { l with geomSent := true }).sendCtl p (ctrlFrame 3 [] (s.geomPayload p))

/-- The HDM has acknowledged the port's latest GEOM (R250). -/
def State.geomAcked (s : State) (p : Nat) : Bool :=
  let l := s.link p
  l.geomSent && !(l.unacked.any fun f => isGeom f.frame) && !(l.queued.any isGeom)

/-- A received frame has a good header (R243). -/
def headerGood (f : Bytes) : Bool := decide (32 ≤ f.length) && crcOk (f.take 32)

/-- The payload of a received frame, without its padding. -/
def framePayload (f : Bytes) : Bytes := (f.drop 32).take (leAt f 2 2)

/-- A received frame has a good payload CRC; 0 for an empty payload (R243). -/
def payloadGood (f : Bytes) : Bool :=
  if leAt f 2 2 = 0 then leAt f 28 2 == 0
  else (framePayload f).length == leAt f 2 2 && leAt f 28 2 == (crc16 (framePayload f)).toNat

end Sys2Proof.Machine
end

