-- ==== Sys2Proof/Machine/TwinFrames.lean ====
section
/-! DEFINITION. The twin link frames, the records of checkpoints and changes, and their bytes (R243, R318 to R320, R332 to R334).
Where a rule names the fields of a payload or a body and not their places, the layout is the model's (DESIGN CHOICE, log 140). -/

namespace Sys2Proof.Machine

/-- A signed number as `n` little-endian bytes, two's complement. -/
def toLeInt (n : Nat) (v : Int) : Bytes := toLe n (v % (2 ^ (8 * n) : Nat)).toNat

/-- Consecutive runs of `k` bytes, `n` of them. -/
def slices (n k : Nat) (b : Bytes) : List Bytes := (List.range n).map fun i => (b.drop (k * i)).take k

/-- A line index as 5 bytes. -/
def lineBytes (l : Line) : Bytes := toLe 5 l.toNat

/-- The line index in 5 bytes. -/
def lineAt (b : Bytes) (o : Nat) : Line := BitVec.ofNat 40 (leAt b o 5)

/-! ### Changes (R333; log 140) -/

/-- What a list of planes says of its strips: for each plane the number of strips, then their fields of 8 bytes: where the data sent
begin, and the length of the stream. -/
def extentBytes (l : List (List (Nat × Nat))) : Bytes :=
  l.flatMap fun q => toLe 2 q.length ++ q.flatMap fun e => toLe 4 e.1 ++ toLe 4 e.2

/-- The extents of `n` planes and the bytes behind them; none where they run past the end. -/
def readExtents : Nat → Bytes → Option (List (List (Nat × Nat)))
  | 0, b => if b.isEmpty then some [] else none
  | n + 1, b =>
    let k := leAt b 0 2
    if b.length < 2 + 8 * k then none
    else (readExtents n (b.drop (2 + 8 * k))).map fun t =>
      ((slices k 8 (b.drop 2)).map fun e => (leAt e 0 4, leAt e 4 4)) :: t

/-- A change as bytes, its kind first. -/
def ChangeBody.bytes : ChangeBody → Bytes
  | .table image loop delta =>
    [1, if loop then 1 else 0, BitVec.ofNat 8 delta.length, 0] ++ delta.flatMap (toLeInt 2) ++ image
  | .place g sec handle start rep pitch origin map =>
    [2, BitVec.ofNat 8 g] ++ toLe 2 sec ++ toLe 2 handle ++ lineBytes start ++ toLe 4 rep ++ toLe 4 pitch ++ toLe 4 origin ++ toLe 4 map.toNat
  | .cancelPlacement g handle => [3, BitVec.ofNat 8 g] ++ toLe 2 handle
  | .seal sec => [4, 0] ++ toLe 2 sec
  | .cancelSection sec => [5, 0] ++ toLe 2 sec
  | .ingest sec header next strips =>
    [6, BitVec.ofNat 8 next.length] ++ toLe 2 sec ++ header ++ next.flatMap (toLe 4) ++ extentBytes strips
  | .print => [7]
  | .stop => [8]
  | .spit mask param => [9, mask] ++ param
  | .strip mask param => [10, mask] ++ param

/-- Bytes of a PLACEMENT entry. -/
def placeLength : Nat := 27

/-- The placement that bytes spell. -/
def readPlace (b : Bytes) : ChangeBody :=
  .place (byteAt b 1) (leAt b 2 2) (leAt b 4 2) (lineAt b 6) (leAt b 11 4) (leAt b 15 4) (leAt b 19 4) (BitVec.ofNat 32 (leAt b 23 4))

/-- The change that bytes spell; none where they spell none. -/
def readChange (b : Bytes) : Option ChangeBody :=
  match byteAt b 0 with
  | 1 =>
    let n := byteAt b 2
    if b.length < 4 + 2 * n then none
    else some (.table (b.drop (4 + 2 * n)) (byteAt b 1 == 1) ((slices n 2 (b.drop 4)).map fun e => leAtInt e 0 2))
  | 2 => if b.length = placeLength then some (readPlace b) else none
  | 3 => if b.length = 4 then some (.cancelPlacement (byteAt b 1) (leAt b 2 2)) else none
  | 4 => if b.length = 4 then some (.seal (leAt b 2 2)) else none
  | 5 => if b.length = 4 then some (.cancelSection (leAt b 2 2)) else none
  | 6 =>
    let n := byteAt b 1
    if b.length < 68 + 4 * n then none
    else (readExtents n (b.drop (68 + 4 * n))).map fun x =>
      .ingest (leAt b 2 2) ((b.drop 4).take 64) ((slices n 4 (b.drop 68)).map fun e => leAt e 0 4) x
  | 7 => if b.length = 1 then some .print else none
  | 8 => if b.length = 1 then some .stop else none
  | 9 => if 2 ≤ b.length then some (.spit (BitVec.ofNat 8 (byteAt b 1)) (b.drop 2)) else none
  | 10 => if 2 ≤ b.length then some (.strip (BitVec.ofNat 8 (byteAt b 1)) (b.drop 2)) else none
  | _ => none

/-- The body of a CHANGE record: identifier, whether there is an epoch line, the line, and the change (R333). -/
def changeBody (id : Nat) (line : Option Line) (body : ChangeBody) : Bytes :=
  toLe 4 id ++ [if line.isSome then 1 else 0] ++ lineBytes (line.getD 0) ++ ChangeBody.bytes body

/-- The identifier, epoch line and change of a CHANGE record's body. -/
def readChangeBody (b : Bytes) : Option (Nat × Option Line × ChangeBody) :=
  (readChange (b.drop 10)).map fun x => (leAt b 0 4, if byteAt b 4 = 1 then some (lineAt b 5) else none, x)

/-! ### Records (R333, R334) -/

/-- The coding of a body as 8-bit samples in one strip of width 256, its last line filled up with zeros (R334). -/
def recordCoding (effort : Nat) (body : Bytes) : Coding :=
  let lines := (body.length + 255) / 256
  let rows := (slices lines 256 body).map fun r => ((r ++ List.replicate (256 - r.length) 0).map BitVec.toNat)
  (codeLines 8 256 effort true rows ⟨⟨[], [], true⟩, zeroLine 256, none, []⟩).1

/-- A body Ibrik-coded (R334). -/
def codeRecord (effort : Nat) (body : Bytes) : Bytes := (recordCoding effort body).strip.stream

/-- The first `n` bytes that a coded body decodes to; none where it is malformed (R83, R334). -/
def decodeRecord (n : Nat) (stream : Bytes) : Option Bytes :=
  let lines := (n + 255) / 256
  let fuel := stream.length / 4 + 2
  match layoutStrip 8 256 lines 2 stream fuel 0 0 (zeroLine 256) [] with
  | none => none
  | some blocks =>
    let rows := (decodeStrip 8 256 lines ⟨stream, blocks, true⟩ fuel 0 0 0 (zeroLine 256)).1
    some ((rows.flatMap fun r => (r.getD []).map (BitVec.ofNat 8)).take n)

/-- A record: its 16-byte header and its body, Ibrik-coded at an effort level where that is not 0 (R333, R334). -/
def recordOf (type effort : Nat) (body : Bytes) : Bytes :=
  let stored := if effort = 0 then body else codeRecord effort body
  withCrc (toLe 2 type ++ toLe 2 (if effort = 0 then 0 else 1) ++ toLe 4 stored.length ++ toLe 4 body.length
    ++ toLe 2 (crc16 body).toNat) ++ stored

/-- The first record of a run of bytes: its type, its decoded body, and the bytes behind it; none where a CRC is wrong or the
record runs past the end (R333, R334). -/
def readRecord (b : Bytes) : Option (Nat × Bytes × Bytes) :=
  let stored := leAt b 4 4
  if b.length < 16 + stored ∨ !crcOk (b.take 16) then none
  else
    let raw := (b.drop 16).take stored
    let n := leAt b 8 4
    let body := if (byteAt b 2).testBit 0 then decodeRecord n raw else if n = stored then some raw else none
    match body with
    | none => none
    | some x => if leAt b 12 2 = (crc16 x).toNat then some (leAt b 0 2, x, b.drop (16 + stored)) else none

/-- The records of a run of bytes, up to its end; `fuel` bounds them. -/
def readRecords : Nat → Bytes → Option (List (Nat × Bytes))
  | 0, b => if b.isEmpty then some [] else none
  | fuel + 1, b =>
    if b.isEmpty then some []
    else
      match readRecord b with
      | none => none
      | some (t, x, rest) => (readRecords fuel rest).map fun l => (t, x) :: l

/-- A CHANGE record (R333). -/
def changeRecord (id : Nat) (line : Option Line) (body : ChangeBody) : Bytes := recordOf 9 0 (changeBody id line body)

/-- The change of a CHANGE record that stands alone. -/
def readChangeRecord (b : Bytes) : Option (Nat × Option Line × ChangeBody) :=
  match readRecord b with
  | some (9, x, []) => readChangeBody x
  | _ => none

/-! ### Checkpoints (R332 to R334) -/

/-- The body of a SECTION record: the header record of R45, then the state (SEALED or not, the next expected line of each plane) and
the strip lengths. -/
def SectionRec.bytes (x : SectionRec) : Bytes :=
  x.header ++ [if x.sealed' then 1 else 0, BitVec.ofNat 8 x.next.length] ++ x.next.flatMap (toLe 4) ++ extentBytes x.strips

/-- The section that a SECTION body spells. -/
def readSection (b : Bytes) : Option SectionRec :=
  let n := byteAt b 65
  if b.length < 66 + 4 * n then none
  else (readExtents n (b.drop (66 + 4 * n))).map fun x =>
    ⟨b.take 64, byteAt b 64 == 1, (slices n 4 (b.drop 66)).map fun e => leAt e 0 4, x⟩

/-- The body of a LOOP record: for each port the number of nozzles and their g_ref, then δ of every bar and patch. -/
def loopBody (gref : List Bytes) (deltas : List Int) : Bytes :=
  (gref.flatMap fun p => toLe 4 p.length ++ p) ++ deltas.flatMap (toLeInt 2)

/-- The g_ref of `n` ports and the bytes behind them. -/
def readGrefs : Nat → Bytes → Option (List Bytes × Bytes)
  | 0, b => some ([], b)
  | n + 1, b =>
    let k := leAt b 0 4
    if b.length < 4 + k then none
    else (readGrefs n (b.drop (4 + k))).map fun r => ((b.drop 4).take k :: r.1, r.2)

/-- The records of a checkpoint as types and bodies (R333). -/
def CkptBody.items (b : CkptBody) : List (Nat × Bytes) :=
  [(1, b.settings.flatMap fun e => toLe 4 e.1 ++ toLe 4 e.2.toNat), (2, b.geom.flatMap (toLeInt 8))]
    ++ (b.tables.map fun t => (3, t))
    ++ (b.changes.map fun c => (9, changeBody c.1 c.2.1 c.2.2))
    ++ (b.sections.map fun x => (4, SectionRec.bytes x))
    ++ ((List.range 4).map fun g => (5, (b.placements.filter fun q => match q with
        | .place g' _ _ _ _ _ _ _ => g' == g
        | _ => false).flatMap ChangeBody.bytes))
    ++ [(6, loopBody b.gref b.deltas), (7, b.seqs.flatMap fun e => toLe 4 e.1.toNat ++ lineBytes e.2), (8, [])]

/-- The bytes of a checkpoint: the 64-byte header and the records, TABLE and LOOP bodies Ibrik-coded at the effort level given where
that is not 0 (R332 to R334). -/
def CkptBody.bytes (b : CkptBody) (effort : Nat) : Bytes :=
  let records := (CkptBody.items b).flatMap fun e => recordOf e.1 (if e.1 = 3 ∨ e.1 = 6 then effort else 0) e.2
  withCrc ([0x4E, 0x54, 0x43, 0x4B, 2, 0] ++ toLe 2 (CkptBody.items b).length ++ toLe 8 (64 + records.length) ++ lineBytes b.line ++ [0, 0, 0]
    ++ toLe 4 b.number.toNat ++ toLe 8 b.serial.toNat ++ List.replicate 26 0) ++ records

/-- Blocks of a checkpoint's TABLE and LOOP bodies that the lanes stored RAW after a mismatch (R89, R334). -/
def CkptBody.mismatches (b : CkptBody) (effort : Nat) : Nat :=
  ((CkptBody.items b).map fun e => if effort ≠ 0 ∧ (e.1 = 3 ∨ e.1 = 6) then (recordCoding effort e.2).mismatches.length else 0).sum

/-- A record added to the checkpoint that those before it spell; none where its body spells nothing (R333). -/
def CkptBody.add (b : CkptBody) : Nat × Bytes → Option CkptBody
  | (1, x) => some { b with settings := (slices (x.length / 8) 8 x).map fun e => (leAt e 0 4, BitVec.ofNat 32 (leAt e 4 4)) }
  | (2, x) => some { b with geom := (slices (x.length / 8) 8 x).map fun e => leAtInt e 0 8 }
  | (3, x) => some { b with tables := b.tables ++ [x] }
  | (4, x) => (readSection x).map fun y => { b with sections := b.sections ++ [y] }
  | (5, x) => some { b with placements := b.placements ++ (slices (x.length / placeLength) placeLength x).map readPlace }
  | (6, x) => (readGrefs 24 x).map fun r =>
      { b with gref := r.1, deltas := (slices 64 2 r.2).map fun e => leAtInt e 0 2 }
  | (7, x) => some { b with seqs := (slices (x.length / 9) 9 x).map fun e => (BitVec.ofNat 32 (leAt e 0 4), lineAt e 4) }
  | (8, _) => some b
  | (9, x) => (readChangeBody x).map fun c => { b with changes := b.changes ++ [c] }
  | _ => none

/-- The checkpoint that bytes spell; none where its header or a record fails a CRC or is none of R333, or where the END record does not
close it (R332 to R334). -/
def readCkpt (b : Bytes) : Option CkptBody :=
  if b.length < 64 ∨ !crcOk (b.take 64) ∨ b.take 5 ≠ [0x4E, 0x54, 0x43, 0x4B, 2] ∨ leAt b 8 8 ≠ b.length then none
  else
    match readRecords (leAt b 6 2) (b.drop 64) with
    | none => none
    | some l =>
      if l.length ≠ leAt b 6 2 ∨ (l.getLast?.map (·.1)) ≠ some 8 then none
      else
        l.foldl (fun (a : Option CkptBody) e => a.bind fun x => CkptBody.add x e)
          (some ⟨lineAt b 16, BitVec.ofNat 32 (leAt b 24 4), BitVec.ofNat 64 (leAt b 28 8), [], [], [], [], [], [], [], [], []⟩)

/-! ### Frames (R318, R319) -/

/-- A frame of a type with header bytes from 8 on and a payload, before its sequence number and CRCs. -/
def twinRaw (type : Nat) (mid payload : Bytes) : Bytes := rawFrame type 0 mid payload

/-- The chunks of a record that is too long for one frame: header bytes 8 to 23 give what it belongs to, the byte offset, the
whole length, and of a checkpoint the newest change that it holds (R318; log 140). -/
def chunkFrames (type id through : Nat) (b : Bytes) : List Bytes :=
  (List.range ((b.length + 4095) / 4096)).map fun i =>
    twinRaw type (toLe 4 id ++ toLe 4 (4096 * i) ++ toLe 4 b.length ++ toLe 4 through) ((b.drop (4096 * i)).take 4096)

/-- An entry of an ANNOUNCE (R318). -/
def AnnEntry.bytes (e : AnnEntry) : Bytes :=
  [BitVec.ofNat 8 e.port, if e.ovs then 1 else 0] ++ toLe 4 e.seq.toNat ++ lineBytes e.line ++ [0]

/-- The payload of a CHECK (R318, R326). -/
def CheckBody.bytes : CheckBody → Bytes
  | .pos p => [1, 0, 0, 0] ++ toLe 6 p.toNat ++ List.replicate 22 0
  | .fire port seq f u => [2, BitVec.ofNat 8 port, 0, 0] ++ toLe 4 seq.toNat ++ toLe 4 f.toNat ++ toLe 4 u ++ List.replicate 16 0
  | .hdm port serial hp v => [3, BitVec.ofNat 8 port, BitVec.ofNat 8 hp, BitVec.ofNat 8 v] ++ toLe 8 serial.toNat ++ List.replicate 20 0

/-- The frames of a message, before their sequence numbers and CRCs (R318). -/
def TwMsg.frames (m : TwMsg) (effort : Nat) : List Bytes :=
  match m with
  | .hello h =>
    [twinRaw 0x11 [] ([BitVec.ofNat 8 h.versions, BitVec.ofNat 8 h.mode, BitVec.ofNat 8 (h.printing.toNat + 2 * h.roleReq.toNat), 0]
      ++ toLe 8 h.serial.toNat ++ toLe 2 h.digest.toNat ++ List.replicate 50 0)]
  | .hb h =>
    [twinRaw 0x12 ([0, 0, 0, 0] ++ toLe 4 h.ack.toNat)
      ([BitVec.ofNat 8 h.state, BitVec.ofNat 8 h.role, BitVec.ofNat 8 (h.held.toNat + 2 * h.ready.toNat + 4 * h.detached.toNat)]
        ++ lineBytes h.line ++ toLe 2 h.digest.toNat ++ List.replicate 6 0)]
  | .announce l => [twinRaw 0x13 [] (l.flatMap AnnEntry.bytes)]
  | .change id line body => chunkFrames 0x14 id 0 (changeRecord id line body)
  | .vote id yes why => [twinRaw 0x15 [] (toLe 4 id ++ [if yes then 1 else 0, BitVec.ofNat 8 why, 0, 0])]
  | .decide id commit => [twinRaw 0x16 [] (toLe 4 id ++ [if commit then 1 else 0, 0, 0, 0])]
  | .data sec plane strip offset payload => [twinRaw 0x17 (toLe 2 sec ++ toLe 2 plane ++ toLe 4 strip ++ toLe 4 offset) payload]
  | .ckpt b through => chunkFrames 0x18 b.number.toNat through (CkptBody.bytes b effort)
  | .check c => [twinRaw 0x19 [] (CheckBody.bytes c)]
  | .give reason => [twinRaw 0x1A [] ([BitVec.ofNat 8 reason] ++ List.replicate 7 0)]
  | .join line => [twinRaw 0x1B [] (lineBytes line ++ [0, 0, 0])]

/-! ### What a received frame says -/

/-- The HELLO that a payload spells. -/
def readHello (b : Bytes) : Hello :=
  ⟨byteAt b 0, byteAt b 1, (byteAt b 2).testBit 0, (byteAt b 2).testBit 1, BitVec.ofNat 64 (leAt b 4 8), BitVec.ofNat 16 (leAt b 12 2)⟩

/-- The heartbeat that a frame carries. -/
def readHb (f : Bytes) : HbInfo :=
  let b := framePayload f
  ⟨byteAt b 0, byteAt b 1, (byteAt b 2).testBit 0, lineAt b 3, BitVec.ofNat 16 (leAt b 8 2), BitVec.ofNat 32 (leAt f 12 4),
    (byteAt b 2).testBit 1, (byteAt b 2).testBit 2⟩

/-- The announcements that a payload of 1 to 8 entries spells. -/
def readAnnounce (b : Bytes) : List AnnEntry :=
  (slices (b.length / 12) 12 b).map fun e =>
    ⟨byteAt e 0, (byteAt e 1).testBit 0, BitVec.ofNat 32 (leAt e 2 4), lineAt e 6⟩

/-- The CHECK that a payload spells; none of an unknown kind. -/
def readCheck (b : Bytes) : Option CheckBody :=
  match byteAt b 0 with
  | 1 => some (.pos (BitVec.ofNat 48 (leAt b 4 6)))
  | 2 => some (.fire (byteAt b 1) (BitVec.ofNat 32 (leAt b 4 4)) (BitVec.ofNat 32 (leAt b 8 4)) (leAt b 12 4))
  | 3 => some (.hdm (byteAt b 1) (BitVec.ofNat 64 (leAt b 4 8)) (byteAt b 2) (byteAt b 3))
  | _ => none

/-- Payload bytes that a type has: exactly, or at most where it varies (R318). -/
def twinLengthOk (type n : Nat) : Bool :=
  match type with
  | 0x11 => n == 64
  | 0x12 => n == 16
  | 0x13 => n % 12 == 0 && decide (12 ≤ n) && decide (n ≤ 96)
  | 0x15 => n == 8
  | 0x16 => n == 8
  | 0x19 => n == 32
  | 0x1A => n == 8
  | 0x1B => n == 8
  | _ => decide (1 ≤ n) && decide (n ≤ 4096)

/-- A received frame is a good frame of a twin type: its header, its length, and its payload, which DATA does not cover (R319). -/
def twinFrameOk (type : Nat) (f : Bytes) : Bool :=
  headerGood f && byteAt f 0 == type && twinLengthOk type (leAt f 2 2) && (framePayload f).length == leAt f 2 2
    && (if type = 0x17 then leAt f 28 2 == 0 else payloadGood f)

/-! ### Sending (R255, R320, R321) -/

/-- HB and DATA are no control frames (R320). -/
def isTwinControl (raw : Bytes) : Bool := byteAt raw 0 != 0x12 && byteAt raw 0 != 0x17

/-- ANNOUNCE, VOTE, DECIDE and GIVE go ahead of the other frames that wait (R321). -/
def isPrompt (raw : Bytes) : Bool := [0x13, 0x15, 0x16, 0x1A].contains (byteAt raw 0)

/-- HB, ANNOUNCE, VOTE, DECIDE and GIVE are sent on both twin ports (R320). -/
def onBothPorts (raw : Bytes) : Bool := byteAt raw 0 == 0x12 || isPrompt raw

/-- A frame joins those that wait on a port; entries of an ANNOUNCE join the last that waits while that has fewer than 8 (R318). -/
def enqueueTwin (l : List Bytes) (raw : Bytes) : List Bytes :=
  let prompt := l.takeWhile isPrompt
  let rest := l.dropWhile isPrompt
  if !isPrompt raw then l ++ [raw]
  else
    match prompt.getLast? with
    | some a =>
      if byteAt a 0 = 0x13 ∧ byteAt raw 0 = 0x13 ∧ leAt a 2 2 + leAt raw 2 2 ≤ 96 then
        prompt.dropLast ++ twinRaw 0x13 [] (framePayload a ++ framePayload raw) :: rest
      else prompt ++ raw :: rest
    | none => prompt ++ raw :: rest

/-- A frame leaves one twin port: HB and DATA at once, any other as a control frame, at most four of which are unacknowledged (R255,
R320). -/
def State.sendTwinPort (s : State) (t : Nat) (raw : Bytes) : State :=
  let p := 24 + t
  let l := s.link p
  if !isTwinControl raw then s.sendFrame p (finishFrame raw 0)
  else if l.unacked.length < 4 && l.queued.isEmpty then s.sendCtl p raw
  else s.updLink p fun l => { l with queued := enqueueTwin l.queued raw }

/-- One frame is sent: on both twin ports where R320 says so, otherwise on the ACTIVE ports in turn (R320, log 31). With none ACTIVE it
waits, unless it is of no use later (R338; log 141). -/
def State.sendTwinFrame (s : State) (raw : Bytes) : State :=
  match s.twinActive 0, s.twinActive 1 with
  | false, false =>
    if [0x12, 0x13, 0x19].contains (byteAt raw 0) then s
    else { s with twn := { s.twn with waiting := s.twn.waiting ++ [raw] } }
  | true, false => s.sendTwinPort 0 raw
  | false, true => s.sendTwinPort 1 raw
  | true, true =>
    if onBothPorts raw then (s.sendTwinPort 0 raw).sendTwinPort 1 raw
    else { s with twn := { s.twn with turn := 1 - s.twn.turn } }.sendTwinPort s.twn.turn raw

/-- A message is sent to the partner (R318, R320). -/
def State.sendTwin (s : State) (m : TwMsg) : State :=
  s.each (m.frames (s.get .STO_CTRL_mirror_effort)) State.sendTwinFrame

/-- The frames that have waited for a twin port to be ACTIVE are sent (R338). -/
def State.sendWaiting (s : State) : State :=
  let l := s.twn.waiting
  { s with twn := { s.twn with waiting := [] } }.each l State.sendTwinFrame

/-- A twin port leaves ACTIVE: what it has not had acknowledged goes to the other port, or waits (R320, R338; log 141). -/
def State.twinPortLost (s : State) (p : Nat) : State :=
  let l := s.link p
  if p < 24 ∨ l.st ≠ .active then s
  else
    let again := (l.unacked.map (·.frame) ++ l.queued).filter fun f => byteAt f 0 != 0x13
    let s := s.updLink p fun k => { k with st := .detect, unacked := [], queued := [] }
    let s := { s with twn := { s.twn with greeting := if s.twinActive (25 - p) then s.twn.greeting else none } }
    s.each (again.filter fun f => !(onBothPorts f && s.twinActive (25 - p))) State.sendTwinFrame

/-- Frames of a type that the partner has not acknowledged on one twin port. -/
def State.openOn (s : State) (t type : Nat) : Bool :=
  let l := s.link (24 + t)
  (l.unacked.any fun f => byteAt f.frame 0 == type) || l.queued.any fun f => byteAt f 0 == type

/-- Frames of a type that the partner has not acknowledged, or that still wait. -/
def State.openTwin (s : State) (type : Nat) : Bool :=
  s.openOn 0 type || s.openOn 1 type || s.twn.waiting.any fun f => byteAt f 0 == type

/-! ### Receiving (R4, R255, R319, R320) -/

/-- A frame received on a twin port: one that fails a check does nothing; a control frame is taken only in order, and a repeat is
acknowledged without acting on it again (R255, R320). -/
def State.takeTwin (s : State) (t type : Nat) (f : Bytes) (act : State → State) : State :=
  if !s.twinActive t || !twinFrameOk type f then s
  else if !isTwinControl f then act s
  else if BitVec.ofNat 32 (leAt f 4 4) = (s.link (24 + t)).ctlExpected then
    act (s.updLink (24 + t) fun l => { l with ctlExpected := l.ctlExpected + 1 })
  else s

end Sys2Proof.Machine
end

