-- ==== Sys2Proof/Machine/Flags.lean ====
section
/-! DEFINITION. What the block's conditions add up to: readiness, BUSY blocks, FAULT_N, twin modes and roles. -/

namespace Sys2Proof.Machine

/-! ### Twin (R310 to R313) -/

/-- TWN_CTRL.mode: 0 OFF, 1 COLD, 2 MIRROR, 3 DUAL (R310). -/
def State.twinMode (s : State) : Nat := s.get .TWN_CTRL_mode

/-- The module is PAIRED (R323). -/
def State.paired (s : State) : Bool := s.twn.pair == .paired

/-- PAIRED in MIRROR or DUAL (R328, R422). -/
def State.pairedAgree (s : State) : Bool := s.paired && decide (2 ≤ s.twinMode)

/-- The module is a standby or secondary (R313). -/
def State.follower (s : State) : Bool := s.twn.role == .standby || s.twn.role == .secondary

/-- The primary of a pair that agrees its changes (R328). -/
def State.agreeing (s : State) : Bool := s.pairedAgree && s.twn.role == .primary

/-- A follower that takes its lines from announcements (R171, R331). -/
def State.announced (s : State) : Bool := s.pairedAgree && s.follower

/-- The port is not protected (R317). -/
def State.unprotected (s : State) (p : Nat) : Bool := (s.rd .TWN_UNPROT).getLsbD p

/-- The module sends LINE link frames on the port (R310, R312, R317). -/
def State.sendsLines (s : State) (p : Nat) : Bool :=
  match s.twn.role with
  | .standby => false
  | .secondary => !s.unprotected p
  | _ => s.twn.tookOver.isNone || !s.unprotected p

/-! ### Wick (R160) -/

/-- The wave table in force on a port. -/
def State.wave (s : State) (p : Nat) : Bytes := (s.tab 8 p).cur.bytes

/-- A wave table passes R148 and R152 on a port. -/
def State.wavePasses (s : State) (p : Nat) (body : Bytes) : Bool :=
  decide (longestEntry body ≤ s.tMin p) && ((s.link p).version != 1 || gahild1Ok body)

/-- The port is Wick-ready (R160). -/
def State.wickReady (s : State) (p : Nat) : Bool :=
  let w := s.wick p
  w.loaded && s.wavePasses p (s.wave p) && w.bankAcked
    && (w.heads.take (s.heads p).heads).all (·.valid)

/-! ### Readiness (R41, R420) -/

/-- The port's minimum lookahead exceeds the lookahead: as found at the entry to PRINTING while the device prints or is HELD, and as
it would be found now outside them (R236). -/
def State.tooShort (s : State) (p : Nat) : Bool :=
  if s.devIn [.printing, .held] then (s.link p).laShort else decide (s.get .MER_CTRL_lookahead < (s.link p).lmin)

/-- The port counts as ACTIVE for lines and readiness: not where its minimum lookahead is too long (R236). -/
def State.lineActive (s : State) (p : Nat) : Bool := s.active p && !s.tooShort p

/-- Raster store ready. -/
def State.rdySto (s : State) : Bool := s.drm.ready && s.dev.locked && s.dev.stoReady

/-- Transit ready: some ACTIVE port meets R99 and R123. -/
def State.rdyTrn (s : State) : Bool :=
  !s.dev.factoryLoading && (List.range 24).any fun p =>
    s.lineActive p && (s.link p).geom.isSome && decide (s.nozzles p ≤ 32768) && decide ((s.heads p).heads ≤ 8)
      && decide ((s.heads p).rows ≤ 8) && decide (s.delayUse s.mer.geom p ≤ 1048576)

/-- The active geometry passes R193 and R194 for every bar. -/
def State.geomOk (s : State) : Bool := (List.range 8).all s.barGeomOk

/-- Meridian ready (R183, R193). -/
def State.rdyMer (s : State) : Bool := s.on .MER_ENC_CTRL_en 0 && s.geomOk

/-- Wick ready. -/
def State.rdyWck (s : State) : Bool := (List.range 24).any fun p => s.lineActive p && s.wickReady p

/-- Gahild ready: some port is ACTIVE, and every ACTIVE port has acknowledged its latest GEOM (R250). -/
def State.rdyGhl (s : State) : Bool :=
  ((List.range 24).any s.lineActive) && (List.range 24).all fun p => !s.lineActive p || s.geomAcked p

/-- The readiness of R41. -/
def State.ready (s : State) : Bool := s.rdySto && s.rdyTrn && s.rdyMer && s.rdyWck && s.rdyGhl

/-! ### BUSY (R427, R429) -/

/-- The DRM block is BUSY with a training step. -/
def State.drmBusy (s : State) : Bool := s.drm.chans.any fun c => c.running.isSome

/-- The ALM block is BUSY with a flash write or the factory load. -/
def State.almBusy (s : State) : Bool := s.alm.busy || s.dev.factoryLoading

/-! ### Reference outputs (R473) -/

/-- REFOUTi is driven: from the lock of the root PLL on, outside DARK, while CLK_CTRL enables it. -/
def State.refout (s : State) (i : Nat) : Bool :=
  decide (i < 2) && s.clk.rootLock && s.dev.dev != .dark && (s.rd .CLK_CTRL).getLsbD i

/-! ### FAULT_N (R403) -/

/-- A class is RAISED; c is 1 C, 2 U, 3 F (R394). -/
def State.classRaised (s : State) (c : Nat) : Bool := (s.ltn.classes.getD (c - 1) ClassState.reset).raised

/-- The module is powered: VIN lies above the undervoltage threshold (R403, R561, R563). -/
def State.powered (s : State) : Bool := s.pwr.vinUp

/-- FAULT_N is driven low. -/
def State.faultN (s : State) : Bool :=
  s.powered && (s.dev.dev == .firstLight || s.dev.dev == .dark || s.dev.dev == .held
    || (s.classRaised 2 && s.ltn.uFaultN))

end Sys2Proof.Machine
end

