-- ==== Sys2Proof/Machine/AlmOps.lean ====
section
/-! DEFINITION. The Almanac: records, slots, layering and the factory load (R426, R539 to R547). -/

namespace Sys2Proof.Machine

/-! ### Records (R540 to R542) -/

/-- Fields of a record header (R540). -/
def recKind (r : Bytes) : Nat := byteAt r 0
def recInstance (r : Bytes) : Nat := leAt r 2 2
def recLength (r : Bytes) : Nat := leAt r 4 4
def recSeq (r : Bytes) : Nat := leAt r 8 4
/-- The value of a record. -/
def recValue (r : Bytes) : Bytes := (r.take (recLength r)).drop 16

/-- Both CRCs of a record match (R540). -/
def recCrcOk (r : Bytes) : Bool :=
  leAt r 14 2 == (crc16 (r.take 14)).toNat
    && leAt r 12 2 == (if recLength r = 16 then 0 else (crc16 (recValue r)).toNat)

/-- A user value of kind STITCH or CORR has the layout of its kind (R542; log 147). -/
def userLayoutOk (k inst : Nat) (v : Bytes) : Bool :=
  match k with
  | 4 => v.length == 24 && decide (inst < 8)
  | 5 =>
    let n := leAt v 2 2
    decide (1 ≤ n) && decide (n ≤ 16379) && decide (leAt v 0 2 + n ≤ 32768) && v.length == 4 + 4 * n && decide (inst % 256 < 24)
  | _ => true

/-- A factory value of kind STITCH or CORR has the layout of its kind (R542; log 147). -/
def factoryLayoutOk (k inst : Nat) (v : Bytes) : Bool :=
  match k with
  | 4 => decide (inst < 8)
  | 5 =>
    let n := leAt v 2 2
    decide (1 ≤ n) && decide (n ≤ 32758) && decide (leAt v 0 2 + n ≤ 32768) && v.length == 4 + 2 * n && decide (inst % 256 < 24)
  | _ => true

/-- A record is valid for the user region, or for the checkpoint region where `ckpt` says so (R541, R542). -/
def recValid (ckpt : Bool) (r : Bytes) : Bool :=
  let k := recKind r
  byteAt r 1 == 1 && (if ckpt then k == 9 else [2, 4, 5, 7, 8].contains k)
    && decide (16 ≤ recLength r) && decide (recLength r ≤ 65536) && decide (recLength r ≤ r.length) && recCrcOk r
    && (recLength r == 16 || userLayoutOk k (recInstance r) (recValue r))

/-- Address of slot i of a region (R539). -/
def slotAddr (ckpt : Bool) (i : Nat) : Nat := (if ckpt then 0x700000 else 0x100000) + 0x10000 * i

/-- Slots of a region. -/
def slotCount (ckpt : Bool) : Nat := if ckpt then 16 else 96

/-- The bytes of the record at a slot's first byte, as far as its length field reaches. -/
def State.slotBytes (s : State) (ckpt : Bool) (i : Nat) : Bytes :=
  let a := slotAddr ckpt i
  let h := Memory.reads Memory.flashFill s.alm.flash a 16
  Memory.reads Memory.flashFill s.alm.flash a (max 16 (min 65536 (recLength h)))

/-- A slot is erased: none of its bytes differs from 0xFF (R539). -/
def State.slotErased (s : State) (ckpt : Bool) (i : Nat) : Bool :=
  !s.alm.flash.any fun e => decide (slotAddr ckpt i ≤ e.1) && decide (e.1 < slotAddr ckpt i + 0x10000)

/-- The valid records of a region, with their slots. -/
def State.validRecords (s : State) (ckpt : Bool) : List (Nat × Bytes) :=
  (List.range (slotCount ckpt)).filterMap fun i =>
    if s.slotErased ckpt i then none
    else let r := s.slotBytes ckpt i
      if recValid ckpt r then some (i, r) else none

/-- Two records have one key (R541). -/
def sameKey (a b : Bytes) : Bool := recKind a == recKind b && recInstance a == recInstance b

/-- A record is the newest of its key among those of its region (R541). -/
def newestOf (l : List (Nat × Bytes)) (i : Nat) (r : Bytes) : Bool :=
  l.all fun e => !sameKey e.2 r || decide (recSeq e.2 < recSeq r) || e.1 == i

/-- A slot is reclaimable: not erased, and its record is not the newest of its key, or is a deletion of a key of which no
older record remains (R539, R541). -/
def State.slotReclaimable (s : State) (ckpt : Bool) (i : Nat) : Bool :=
  let l := s.validRecords ckpt
  !s.slotErased ckpt i && match l.find? fun e => e.1 == i with
    | none => true
    | some (_, r) =>
      !newestOf l i r || (recLength r == 16 && !l.any fun e => e.1 != i && sameKey e.2 r)

/-- The user values in force: the newest valid record of each key, deletions left out (R541). -/
def State.userRecords (s : State) : List Bytes :=
  let l := s.validRecords false
  (l.filter fun e => newestOf l e.1 e.2 && recLength e.2 != 16).map (·.2)

/-! ### The factory region (R426, R539) -/

/-- The factory records from an address on, and the kind of the first that fails; a header that fails ends the walk. -/
def State.factoryFrom (s : State) : Nat → Nat → List Bytes × Nat
  | 0, _ => ([], 0)
  | fuel + 1, a =>
    let h := Memory.reads Memory.flashFill s.alm.flash a 16
    if 0x100000 < a + 16 ∨ recKind h = 0xFF then ([], 0)
    else
      let bad := if recKind h % 16 = 0 then 1 else recKind h % 16
      if leAt h 14 2 ≠ (crc16 (h.take 14)).toNat ∨ recLength h < 16 ∨ 65536 < recLength h ∨ 0x100000 < a + recLength h then ([], bad)
      else
        let r := Memory.reads Memory.flashFill s.alm.flash a (recLength h)
        let (l, k) := s.factoryFrom fuel (a + (recLength h + 15) / 16 * 16)
        if byteAt r 1 == 1 && decide (1 ≤ recKind r) && decide (recKind r ≤ 6) && recCrcOk r
            && factoryLayoutOk (recKind r) (recInstance r) (recValue r) then (r :: l, k)
        else (l, bad)

/-- The factory records that are valid, and the kind of the first that fails, 0 where none does. -/
def State.factoryRecords (s : State) : List Bytes × Nat := s.factoryFrom 65536 0

/-! ### Layering (R542 to R544) -/

/-- A number clamped to a range. -/
def clampInt (x lo hi : Int) : Int := max lo (min hi x)

/-- The value of a kind and instance among records, if one has it. -/
def valueOf (l : List Bytes) (k inst : Nat) : Option Bytes :=
  (l.find? fun r => recKind r == k && recInstance r == inst).map recValue

/-- SENSE: the diode trim of the factory, the neighbour offsets of both layers (R542). -/
def State.loadSense (s : State) (fac usr : List Bytes) : State :=
  let f := (valueOf fac 2 0).getD [0, 0, 0, 0x80, 0, 0, 0, 0, 0, 0]
  let u := (valueOf usr 2 0).getD [0, 0, 0, 0, 0, 0]
  { s with alm := { s.alm with
      diodeTrim := (leAtInt f 0 2, leAt f 2 2),
      ofs := (List.range 3).map fun i => clampInt (leAtInt f (4 + 2 * i) 2 + leAtInt u (2 * i) 2) (-4096) 4096 } }

/-- MARGIN and VIN: factory only (R542). -/
def State.loadTrims (s : State) (fac : List Bytes) : State :=
  let v := (valueOf fac 6 0).getD [0, 0x80, 0, 0]
  { s with alm := { s.alm with margin := (valueOf fac 3 0).getD [], vinTrim := (leAtInt v 2 2, leAt v 0 2) } }

/-- STITCH of a bar: the factory mask, the shifts of both layers (R542). -/
def State.loadStitch (s : State) (fac usr : List Bytes) (b : Nat) : State :=
  match valueOf fac 4 b, valueOf usr 4 b with
  | none, none => s
  | f, u =>
    let body := (f.getD (defaultBody 5)).take 2080
    let add (i : Nat) : Byte :=
      BitVec.ofInt 8 (clampInt ((body.getD (2048 + i) 0).toInt + (((u.getD []).getD i 0 : Byte)).toInt) (-32) 32)
    let v := body.take 2048 ++ ((List.range 23).map add) ++ List.replicate 9 0
    s.setTab ⟨5, b, .body v, 0, none⟩

/-- The factory correction word of a nozzle (R543). -/
def factoryWord (fac : List Bytes) (p i : Nat) : BitVec 16 :=
  match fac.find? fun r => recKind r == 5 && recInstance r % 256 == p
      && decide (leAt (recValue r) 0 2 ≤ i) && decide (i < leAt (recValue r) 0 2 + leAt (recValue r) 2 2) with
  | some r => BitVec.ofNat 16 (leAt (recValue r) (4 + 2 * (i - leAt (recValue r) 0 2)) 2)
  | none => 0x8000

/-- The user entry of a nozzle: m, u_o and flags in the newest record that covers it (R543). -/
def userEntry (usr : List Bytes) (p i : Nat) : Option (Nat × Int × Nat) :=
  let l := usr.filter fun r => recKind r == 5 && recInstance r % 256 == p
    && decide (leAt (recValue r) 0 2 ≤ i) && decide (i < leAt (recValue r) 0 2 + leAt (recValue r) 2 2)
  (l.foldl (fun (m : Option Bytes) r => match m with
    | none => some r
    | some q => if recSeq q < recSeq r then some r else some q) none).map fun r =>
      let v := recValue r
      let o := 4 + 4 * (i - leAt v 0 2)
      (leAt v o 2, leAtInt v (o + 2) 1, byteAt v (o + 3))

/-- The layered correction word of a nozzle (R543). -/
def layeredWord (f : BitVec 16) : Option (Nat × Int × Nat) → BitVec 16
  | none => f
  | some (m, uo, flags) =>
    let gf : Int := (f.extractLsb' 8 8).toNat
    let g := clampInt (((128 + gf) * m + 16384) / 32768 - 128) 0 255
    let o := clampInt ((f.extractLsb' 2 6).toInt + uo) (-32) 31
    BitVec.ofInt 8 g ++ BitVec.ofInt 6 o ++ (f.extractLsb' 0 2 ||| BitVec.ofNat 2 flags)

/-- CORR of a port: words in force, and the g_ref of each nozzle (R299, R543). -/
def State.loadCorr (s : State) (fac usr : List Bytes) (p : Nat) : State :=
  if !((fac ++ usr).any fun r => recKind r == 5 && recInstance r % 256 == p) then s
  else
    let words := (List.range 32768).map fun i => layeredWord (factoryWord fac p i) (userEntry usr p i)
    let m := words.zipIdx.foldl (fun (m : SMap (BitVec 16)) (w, i) => m.put 0x8000 i w) []
    let g := words.zipIdx.foldl (fun (m : SMap (BitVec 8)) (w, i) => m.put 0x80 i (w.extractLsb' 8 8)) []
    let s := s.setTab ⟨2, p, .corr m, 0, none⟩
    { s with pho := { s.pho with loop := { s.pho.loop with gref := upd p (fun _ => g) s.pho.loop.gref } } }

/-- User records that are invalid (R544). -/
def State.badUserRecords (s : State) : Nat :=
  ((List.range 96).filter fun i => !s.slotErased false i && !recValid false (s.slotBytes false i)).length

/-- The factory load: the kinds of R542 in kind order, and its result (R426, R544). -/
def State.factoryLoad (s : State) : State :=
  let (fac, bad) := s.factoryRecords
  let usr := s.userRecords
  let s := s.count .ALM_BADREC_CNT 0 0 0 s.badUserRecords
  let s := s.loadSense fac usr
  let s := s.each (List.range 8) fun s b => s.loadStitch fac usr b
  let s := s.each (List.range 24) fun s p => s.loadCorr fac usr p
  let s := s.loadTrims fac
  { s with dev := { s.dev with factoryLoading := false, factoryLoaded := true, factoryOk := bad == 0, factoryStep := bad } }

/-! ### Writing (R545, R546) -/

/-- A record passes the checks of R546 before it is written; seq is ignored. -/
def writeCheck (r : Bytes) : Bool := recValid (recKind r == 9) r

/-- The slot that a write takes: the lowest erased one, else the lowest reclaimable one (R546). -/
def State.pickSlot (s : State) (ckpt : Bool) : Option Nat :=
  let l := List.range (slotCount ckpt)
  (l.find? fun i => s.slotErased ckpt i).orElse fun _ => l.find? fun i => s.slotReclaimable ckpt i

/-- A record with its sequence number and header CRC set (R546). -/
def State.stamped (s : State) (r : Bytes) : Bytes :=
  let ckpt := recKind r == 9
  let seq := ((s.validRecords ckpt).map fun e => recSeq e.2).foldl max 0 + 1
  let h := r.take 8 ++ toLe 4 seq ++ (r.drop 12).take 2
  h ++ toLe 2 (crc16 h).toNat ++ recValue r

/-- The result of a write shown in ALM_STATUS: 1 OK, 2 RANGE, 3 FAIL; and the error (R546). -/
def State.almResult (s : State) (res err : Nat) : State :=
  (s.set .ALM_STATUS_last_result res).set .ALM_STATUS_last_err err

/-- The write in progress ends (R427, R435). -/
def State.almEnd (s : State) (st : Status) : State :=
  let was := s.alm.busy
  let s := ({ s with alm := { s.alm with busy := false, job := none } }).actEnd 6 0 st
  if was then s.busyDone else s

/-- An ALM_WRITE starts: a region without a free slot makes it fail (R546). -/
def State.almBegin (s : State) (a : Activity) : State :=
  let ckpt := recKind a.param == 9
  match s.pickSlot ckpt with
  | none => (s.almResult 3 1).almEnd .fail
  | some i => { s with alm := { s.alm with job := some (s.stamped a.param, slotAddr ckpt i) } }

end Sys2Proof.Machine
end

