-- ==== Sys2Proof/Machine/Compares.lean ====
section
/-! DEFINITION. Meridian's web position, latch units and compare units
(R175 to R177, R203 to R210). -/

namespace Sys2Proof.Machine

/-! ### States (the rules that open the MER registers) -/

/-- A register that is written only in STANDBY (the rule that opens the MER registers). -/
def State.notStandby (s : State) : Bool := s.dev.dev != .standby

/-- A MER register that may also be written in PRINTING. -/
def State.notStandbyPrinting (s : State) : Bool := !s.devIn [.standby, .printing]

/-! ### Web position (R176, R177) -/

/-- The web position is set; what is counted from ENC0 (the slip window, a reading under way) stays counted from it. The
estimator history is cleared and the slip reference is taken afresh (R177, R189). A load to a lower position is no backward move of
the web: it holds up no line under R22 (DESIGN CHOICE, log 150). -/
def State.loadPos (s : State) (x : BitVec 64) : State :=
  let d := x - s.mer.pos
  { s with mer := { s.mer with
      pos := x, loaded := true, points := [], tickPoint := none, est := ⟨true, s.mono, x, 0, 0⟩,
      slipStart := s.mer.slipStart + d,
      ssi := { s.mer.ssi with startPos := s.mer.ssi.startPos + d, dref := none } } }

/-! ### Latch units (R203 to R205) -/

/-- Camera port c is enabled (R205). -/
def State.cameraOn (s : State) (c : Nat) : Bool := decide (c < 4) && s.on .PHO_CTRL_en c

/-- The trigger of an enabled latch unit; unit 4 + c serves camera port c while that is enabled (R203, R205). -/
def State.latchTrig (s : State) (n : Nat) : Option Nat :=
  if 4 ≤ n ∧ s.cameraOn (n - 4) then some (21 + (n - 4))
  else if s.on .MER_LATCH_CTRL_en n then some (s.get .MER_LATCH_CTRL_trig n)
  else none

/-- A trigger inside the block reaches every latch unit that selects it (R203). -/
def State.triggerLatches (s : State) (trig : Nat) (pos : Pos) (mono : Time) : State :=
  let take (n : Nat) (q : List LatchResult) : List LatchResult :=
    if s.latchTrig n = some trig then q ++ [⟨trig, pos, mono⟩] else q
  { s with mer := { s.mer with latchDue := s.mer.latchDue.zipIdx.map fun q => take q.2 q.1 } }

/-- The body of a LATCH record (R385). -/
def latchBody (n : Nat) (x : LatchResult) : Bytes :=
  [BitVec.ofNat 8 n, BitVec.ofNat 8 x.trig] ++ toLe 6 x.pos.toNat ++ toLe 4 x.mono.toNat ++ List.replicate 14 0

/-- A latch unit takes a result: into its queue of four, or dropped and counted; with event set it is also posted (R204,
R385). -/
def State.latchResult (s : State) (n : Nat) (x : LatchResult) : State :=
  let s := if (s.mer.latches.getD n []).length < 4 then
      { s with mer := { s.mer with latches := upd n (fun q => q ++ [x]) s.mer.latches } }
    else s.count .MER_LATCH_STATUS_ovf n
  if s.on .MER_LATCH_CTRL_event n then (s.postEvent .HST_EVT_ROUTE_mer_en .HST_EVT_ROUTE_mer_ring 2 (latchBody n x)).1 else s

/-! ### Compare units (R206 to R210) -/

/-- A compare unit. -/
def State.cmp (s : State) (n : Nat) : Compare := s.mer.cmps.getD n ⟨none, none, 0, false⟩

/-- A change of one compare unit. -/
def State.updCmp (s : State) (n : Nat) (f : Compare → Compare) : State :=
  { s with mer := { s.mer with cmps := upd n f s.mer.cmps } }

/-- A compare unit is armed. -/
def State.armed (s : State) (n : Nat) : Bool := decide (n < 16) && s.on .MER_CMP_CTRL_arm n

/-- The smaller of two optional positions. -/
def minPos (a b : Option Pos) : Option Pos :=
  match a, b with
  | some x, some y => some (if lineLe x y then x else y)
  | some x, none => some x
  | none, y => y

/-- The first target of one placement above a position: its start line, or a repeat boundary up to the end line of the
placement (R69, R210). -/
def Placement.itemTarget (p : Placement) (ends : Option Line) (base : Pos) (above : Option Pos) : Option Pos :=
  match p.start with
  | none => none
  | some a =>
    let first := (a.setWidth 48 <<< 8) + base
    let i := match above with
      | none => 0
      | some x => let d := sdiff x first
        if d < 0 then 0 else d.toNat / (256 * p.pitch) + 1
    let r := a + BitVec.ofNat 40 (i * p.pitch)
    let ended : Bool := match ends with
      | some e => !lineLe r e
      | none => false
    if (p.repeats ≠ 0 ∧ p.repeats < i) ∨ ended then none else some (first + BitVec.ofNat 48 (i * 256 * p.pitch))

/-- The line at which a placement of a queue ends, as far as it is fixed: its own end line, or the start line of the
placement behind it (R73, R74). -/
def queueEnds : List Placement → List (Placement × Option Line)
  | [] => []
  | p :: t =>
    let e := match t.head?.bind (·.start), p.fin with
      | some a, some b => some (if lineLe a b then a else b)
      | some a, none => some a
      | none, b => b
    (p, e) :: queueEnds t

/-- The smallest ITEM target of a compare above a position (R210). -/
def State.itemTarget (s : State) (n : Nat) (above : Option Pos) : Option Pos :=
  let base := BitVec.ofNat 48 (s.mer.geom.bars.getD (s.get .MER_CMP_CTRL_bar n) 0) + (s.cmp n).offset.signExtend 48
  let g := s.group (s.get .MER_CMP_CTRL_group n)
  (((g.past ++ g.old).map fun p => (p, p.fin)) ++ queueEnds g.queue).foldl (fun b (p, e) => minPos b (p.itemTarget e base above)) none

/-- Disarms a compare. -/
def State.disarm (s : State) (n : Nat) : State := (s.set .MER_CMP_CTRL_arm 0 n).updCmp n fun c => { c with due := false }

/-- The first target above the present position that a compare moves on to (R208). From then on an ITEM compare looks above the position
of the miss, so that a target missed once is not missed again (DESIGN CHOICE, log 80). -/
def State.moveOn (s : State) (n : Nat) (t : Pos) : State :=
  match s.get .MER_CMP_CTRL_mode n with
  | 0 => s.disarm n
  | 1 =>
    let ivl := (s.rd .MER_CMP_IVL n).toNat
    let k := (sdiff s.pos t).toNat / ivl + 1
    s.updCmp n fun c => { c with target := some (t + BitVec.ofNat 48 (k * ivl)) }
  | _ => s.updCmp n fun c => { c with target := s.itemTarget n (some s.pos), above := some s.pos }

/-- A compare is armed at a target: one that is behind fires at the next sample with catchup set, and is otherwise missed
(R208). -/
def State.aim (s : State) (n : Nat) (target : Option Pos) : State :=
  let s := s.updCmp n fun c => { c with target := target, due := false }
  match target with
  | none => s
  | some t =>
    if lineLe t s.pos then
      if s.on .MER_CMP_CTRL_catchup n then s.updCmp n fun c => { c with due := true }
      else (((s.set .MER_CMP_CTRL_missed 1 n).count .MER_CMP_MISSED_CNT).raise .merCmpMissed (t.setWidth 32) n).moveOn n t
    else s

/-- Armed ITEM compares of a group re-arm when one of its placements is resolved (R210). -/
def State.rearmItems (s : State) (g : Nat) : State :=
  s.each (List.range 16) fun s n =>
    if s.armed n && s.get .MER_CMP_CTRL_mode n == 2 && s.get .MER_CMP_CTRL_group n == g && !(s.cmp n).due then
      s.aim n (s.itemTarget n (s.cmp n).above)
    else s

/-- The web has moved from one position to another in the direction of travel: every armed compare whose target it reached
fires in this sample (R206). -/
def State.crossTargets (s : State) (before after : Pos) : State :=
  let reach (c : Compare) : Compare :=
    match c.target with
    | some t => if lineLt before t && lineLe t after then { c with due := true } else c
    | none => c
  { s with mer := { s.mer with cmps := s.mer.cmps.map reach } }

end Sys2Proof.Machine
end

