-- ==== Sys2Proof/Machine/DramOps.lean ====
section
/-! DEFINITION. The DRAM controller: addresses, queues, scheduling, open rows, refresh management and row disturbance (R442
to R461). -/

namespace Sys2Proof.Machine

/-! ### Addresses (R443, R446) -/

/-- Channel of a device address. -/
def dChannel (a : Nat) : Nat := nbits a 9 8

/-- Channel-local address of a device address. -/
def dLocal (a : Nat) : Nat := (a >>> 10) <<< 8 + a % 256

/-- Bank, row and rank of a channel-local address. -/
def dBank (l : Nat) : Nat := nbits l 14 11 ^^^ nbits l 18 15
def dRow (l : Nat) : Nat := nbits l 31 15
def dRank (l : Nat) : Nat := nbits l 32 32

/-- The device address of a channel-local address on a channel. -/
def dAddress (c l : Nat) : Nat := (l >>> 8) <<< 10 + c <<< 8 + l % 256

/-- Classes of a source (R446): 0 RT, 1 CTL, 2 BULK. -/
def srcClass (src : Nat) : Nat := if src ≤ 24 then 0 else if src = 40 ∨ src = 41 then 1 else 2

/-- A channel. -/
def State.chan (s : State) (c : Nat) : Channel := s.drm.chans.getD c Channel.reset

/-- A change of one channel. -/
def State.updChan (s : State) (c : Nat) (f : Channel → Channel) : State :=
  { s with drm := { s.drm with chans := upd c f s.drm.chans } }

/-- Place of a request's bank among a channel's 32. -/
def DramReq.bank (x : DramReq) : Nat := 16 * dRank (dLocal x.addr) + dBank (dLocal x.addr)

/-- Row of a request. -/
def DramReq.row (x : DramReq) : Nat := dRow (dLocal x.addr)

/-- A bank of a channel. -/
def Channel.bank (x : Channel) (b : Nat) : Bank := x.banks.getD b Bank.reset

/-- A request hits an open row. -/
def Channel.hits (x : Channel) (q : DramReq) : Bool := (x.bank q.bank).openRow == some q.row

/-- An RT request to a bank, and one that hits its open row. -/
def Channel.rtQueued (x : Channel) (b : Nat) : Bool := (x.reads ++ x.writes).any fun q => srcClass q.src == 0 && q.bank == b
def Channel.rtHit (x : Channel) (b : Nat) : Bool := (x.reads ++ x.writes).any fun q => srcClass q.src == 0 && q.bank == b && x.hits q

/-! ### Picking a request (R448 to R450, R461) -/

/-- Age of a request in ns. -/
def State.age (s : State) (q : DramReq) : Nat := s.clock - q.since

/-- A bank pair has been refreshed 208 ns ago or more, and is available again (R455). -/
def State.rested (s : State) (x : Channel) (i : Nat) : Bool := (x.refreshedAt.getD i none).all fun t => s.elapsed t 208

/-- An earlier request of the same source waits still, on whatever channel (R448). -/
def State.heldBack (s : State) (q : DramReq) : Bool :=
  s.drm.chans.any fun x => (x.reads ++ x.writes).any fun o => o.src == q.src && decide (o.tag < q.tag)

/-- The request may be served now: its bank pair is available, no earlier request of its source waits, and a throttled source's activate lies
2 µs after its last (R448, R455, R461). -/
def State.eligible (s : State) (x : Channel) (q : DramReq) : Bool :=
  s.rested x (8 * (q.bank / 16) + q.bank % 8) && !s.heldBack q
    && (x.hits q || (x.bank q.bank).throttled.all fun t => t.1 != q.src || decide (t.2 + 2000 ≤ s.clock))

/-- The better of two requests: the older, at equal age RT before CTL before BULK (R449). -/
def State.older (s : State) (a b : DramReq) : DramReq :=
  if s.age a < s.age b then b
  else if s.age b < s.age a then a
  else if srcClass b.src < srcClass a.src then b
  else if srcClass a.src < srcClass b.src then a
  else if b.tag < a.tag then b else a

/-- The oldest of a list of requests. -/
def State.oldest (s : State) (l : List DramReq) : Option DramReq :=
  l.foldl (fun m q => match m with
    | none => some q
    | some b => some (s.older b q)) none

/-- Native mode (R449). -/
def State.pickNative (s : State) (x : Channel) : Option DramReq :=
  let l := (x.reads ++ x.writes).filter (s.eligible x)
  let rt := s.get .DRM_SCHED_rt_age * 10
  let bulk := s.get .DRM_SCHED_bulk_age * 1000
  (s.oldest (l.filter fun q => srcClass q.src == 0 && decide (rt < s.age q))).orElse fun _ =>
    (s.oldest (l.filter fun q => srcClass q.src != 0 && decide (bulk < s.age q))).orElse fun _ =>
      (s.oldest (l.filter x.hits)).orElse fun _ => s.oldest l

/-- Whether a channel drains its writes in a command slot in compatibility mode (R450). A read that its own source's earlier write holds back
(R448) counts as not there, since nothing but a drain could ever serve it (DESIGN CHOICE, log 157). -/
def State.drains (s : State) (x : Channel) : Bool :=
  (x.draining && decide (s.get .DRM_SCHED_wr_lo < x.writes.length)) || decide (s.get .DRM_SCHED_wr_hi ≤ x.writes.length)
    || (x.reads.all s.heldBack && !x.writes.isEmpty)

/-- Compatibility mode (R450): reads before writes, RT before CTL before BULK, oldest first; writes only in a slot that drains. -/
def State.pickCompat (s : State) (x : Channel) : Option DramReq :=
  let r := x.reads.filter (s.eligible x)
  let cls (k : Nat) : Option DramReq := s.oldest (r.filter fun q => srcClass q.src == k)
  let read := (cls 0).orElse fun _ => (cls 1).orElse fun _ => cls 2
  if x.draining then (s.oldest (x.writes.filter (s.eligible x))).orElse fun _ => read else read

/-! ### Rows, trackers and refresh management (R454, R459 to R461) -/

/-- A bank's row is closed by a refresh, an RFM, a ZQ latch or a slice; the predictor stays (R454). -/
def Bank.close (b : Bank) : Bank := { b with openRow := none, lastRow := b.openRow.orElse fun _ => b.lastRow, settled := true }

/-- The predictor after an access to a row (R454). -/
def Bank.predict (b : Bank) (row : Nat) : Nat :=
  match b.openRow with
  | some r => if !b.settled then b.pred else if r = row then min 3 (b.pred + 1) else b.pred - 1
  | none => if b.lastRow = some row then min 3 (b.pred + 1) else b.pred - 1

/-- The entry that a full tracker gives up: the lowest count, the lowest row on a tie (R460). -/
def lowestEntry : List (Nat × Nat) → Option (Nat × Nat)
  | [] => none
  | e :: t => match lowestEntry t with
    | none => some e
    | some m => if e.2 < m.2 ∨ (e.2 = m.2 ∧ e.1 < m.1) then some e else some m

/-- A tracker after an activate of a row (R460). -/
def trackRow (l : List (Nat × Nat)) (row : Nat) : List (Nat × Nat) :=
  if l.any fun e => e.1 == row then l.map fun (e : Nat × Nat) => if e.1 = row then (row, e.2 + 1) else e
  else if l.length < 16 then l ++ [(row, 1)]
  else match lowestEntry l with
    | some m => (l.filter fun e => e.1 != m.1) ++ [(row, m.2 + 1)]
    | none => l

/-- The count of a row in a tracker. -/
def rowCount (l : List (Nat × Nat)) (row : Nat) : Nat := ((l.find? fun e => e.1 == row).map (·.2)).getD 0

/-- A change of one bank. -/
def State.updBank (s : State) (c b : Nat) (f : Bank → Bank) : State :=
  s.updChan c fun x => { x with banks := upd b f x.banks }

/-- A source whose activate brings a row's count from `before` to the threshold is throttled on the bank: raised once per source, bank
and window (R461). -/
def State.throttle (s : State) (c b src row before : Nat) : State :=
  let x := (s.chan c).bank b
  let limit := s.get .DRM_RH_act_thresh
  if limit ≤ before ∨ rowCount x.tracker row < limit ∨ x.throttled.any (fun t => t.1 == src) then s
  else
    let s := s.updBank c b fun x => { x with throttled := x.throttled ++ [(src, s.clock)] }
    let s := (s.set .DRM_THROTTLE_banks (s.get .DRM_THROTTLE_banks c ||| 1 <<< (b % 16)) c).set .DRM_THROTTLE_source src c
    (s.count .DRM_THROTTLE_CNT).raise .drmThrottle (BitVec.ofNat 32 row) c (b % 16)

/-- A per-bank RFM (R459). -/
def State.issueRfm (s : State) (c b : Nat) : State :=
  (s.updBank c b fun x => { x.close with acts := x.acts - Config.rfmCount }).count .DRM_RFM_CNT

/-- Refresh management after an activate or a served request (R459). -/
def State.manageRefresh (s : State) (c b : Nat) : State :=
  let x := s.chan c
  let n := (x.bank b).acts
  if s.on .DRM_CH_STATUS_rfm_req c && decide (Config.rfmCount ≤ n) && (!x.rtQueued b || decide (Config.rfmMax ≤ n)) && decide (0 < n) then
    s.issueRfm c b
  else s

/-- A row is activated for a request (R459 to R461). -/
def State.activate (s : State) (c : Nat) (q : DramReq) : State :=
  let before := rowCount ((s.chan c).bank q.bank).tracker q.row
  let s := s.updBank c q.bank fun b =>
    { b with openRow := some q.row, lastRow := b.openRow.orElse fun _ => b.lastRow, settled := false, acts := b.acts + 1,
             tracker := trackRow b.tracker q.row,
             throttled := b.throttled.map fun (t : Nat × Instant) => if t.1 = q.src then (t.1, s.clock) else t }
  s.throttle c q.bank q.src q.row before

/-! ### Refresh (R455 to R458) -/

/-- The refresh interval of a band in ns (R456). -/
def refreshInterval (band : Nat) : Nat := [15600, 7800, 3900, 1950, 977].getD band 977

/-- The bank pairs of which a refresh has fallen due in the interval that runs: a new one begins after the sixteenth (R455). -/
def Channel.roundNow (x : Channel) : List Nat := if x.round.length = 16 then [] else x.round

/-- A refresh of bank pair `i` falls due now: a sixteenth of the interval of the channel's band has passed since the last, the ranks take
turns, and each pair has one to an interval (R455, R456). In what order a rank's pairs come is open (log 158). -/
def State.refreshFalls (s : State) (c i : Nat) : Bool :=
  let x := s.chan c
  (x.dueAt.all fun t => s.elapsed t (refreshInterval (s.get .DRM_CH_STATUS_band c) / 16)) && !x.roundNow.contains i
    && (x.round.getLast?.all fun j => j / 8 != i / 8)

/-- A refresh of bank pair `i` has fallen due (R455). -/
def State.fallDue (s : State) (c i : Nat) : State :=
  s.updChan c fun x => { x with dueAt := some s.clock, round := x.roundNow ++ [i] }

/-- A higher band that waits takes effect at a refresh command; DRM.TEMP_HIGH is raised on entry to band 5 (R456, R457). -/
def State.applyBand (s : State) (c : Nat) : State :=
  match (s.chan c).bandUp with
  | none => s
  | some b =>
    let s := (s.set .DRM_CH_STATUS_band b c).updChan c fun x => { x with bandUp := none, hotLeft := if b = 5 then 250 else x.hotLeft }
    if b = 5 then s.raise .drmTempHigh 5 c else s

/-- The banks of pair i, 8 to a rank: those whose numbers differ in bit 3 (log 44). -/
def pairBanks (i : Nat) : List Nat := [16 * (i / 8) + i % 8, 16 * (i / 8) + i % 8 + 8]

/-- One per-bank refresh of a bank pair. -/
def State.refreshPair (s : State) (c i : Nat) : State :=
  let s := (s.applyBand c).updChan c fun x => { x with refreshedAt := upd i (fun _ => some s.clock) x.refreshedAt }
  s.each (pairBanks i) fun s b => s.updBank c b fun x => { x.close with acts := x.acts - Config.rfmRefresh }

/-- The postponed refreshes of a bank pair; the highest count is kept for the host (R458). -/
def State.postpone (s : State) (c i n : Nat) : State :=
  let s := s.updChan c fun x => { x with postponed := upd i (fun _ => n) x.postponed }
  s.set .DRM_CH_STATUS_max_postponed (max n (s.get .DRM_CH_STATUS_max_postponed c)) c

/-- One postponed refresh of a bank pair is made up (R458). -/
def State.madeUp (s : State) (c i : Nat) : State :=
  s.updChan c fun x => { x with postponed := upd i (fun (n : Nat) => n - 1) x.postponed }

/-- Postponed refreshes are made up, one per per-bank refresh time, of the pairs to which no RT request is queued (R458). -/
def State.makeUp (s : State) (c : Nat) : State :=
  s.each (List.range 16) fun s i =>
    let x := s.chan c
    if x.postponed.getD i 0 != 0 && !(pairBanks i).any x.rtQueued && s.rested x i then (s.refreshPair c i).madeUp c i else s

/-! ### Service -/

/-- The reads of a source that have been served return in the order in which they were issued (R448). -/
def State.returnReads (s : State) (src : Nat) : List DramReturn → State
  | [] => s
  | r :: t =>
    if r.src ≠ src then s.returnReads src t
    else if !r.served then s
    else ({ s with drm := { s.drm with returns := s.drm.returns.filter fun x => x.tag != r.tag } }.emit
      (.dramRead src r.bytes)).returnReads src t

/-- A request is served: its row opens where it is not open, the predictor is updated, and the row stays open or closes once
no request to it is left (R448, R454). -/
def State.serve (s : State) (c : Nat) (q : DramReq) : State :=
  let x := s.chan c
  let s := s.updBank c q.bank fun b => { b with pred := b.predict q.row, settled := b.settled && !(b.openRow == some q.row) }
  let s := if x.hits q then s else s.activate c q
  let drop (l : List DramReq) : List DramReq := l.filter fun o => o.tag != q.tag
  let s := s.updChan c fun x => { x with reads := drop x.reads, writes := drop x.writes }
  let s := if ((s.chan c).reads ++ (s.chan c).writes).any (fun o => o.bank == q.bank && (s.chan c).hits o) then s
    else s.updBank c q.bank fun b => if 2 ≤ b.pred then { b with settled := true } else b.close
  let s := s.manageRefresh c q.bank
  if q.write then s
  else
    let s := { s with drm := { s.drm with returns := s.drm.returns.map fun (r : DramReturn) =>
      if r.tag = q.tag then { r with served := true } else r } }
    s.returnReads q.src s.drm.returns

/-- One command slot of a channel (R449, R450, R469, R471). -/
def State.commandSlot (s : State) (c : Nat) : State :=
  if s.drm.sr != .active && s.drm.sr != .entering then s
  else
    let s := (s.makeUp c).updChan c fun x => { x with draining := s.drains x }
    let x := s.chan c
    let pick := if s.on .DRM_CTRL_mode then s.pickCompat x else s.pickNative x
    match pick with
    | some q => s.serve c q
    | none => s

/-- Every queue is empty (R469). -/
def State.queuesEmpty (s : State) : Bool := s.drm.chans.all fun x => x.reads.isEmpty && x.writes.isEmpty

end Sys2Proof.Machine
end

