-- ==== Sys2Proof/Machine/Operands.lean ====
section
/-! DEFINITION. Descriptors: where each field lies, which bits are reserved, and how the 8824 takes one from a ring
(R362, R363, R371 to R379). -/

namespace Sys2Proof.Machine

/-- Opcode of a descriptor (R371). -/
def dOpcode (d : Bytes) : Nat := byteAt d 0

/-- The irq flag. -/
def dIrq (d : Bytes) : Bool := (byteAt d 1).testBit 0

/-- The fence flag. -/
def dFence (d : Bytes) : Bool := (byteAt d 1).testBit 1

/-- The bytes of a descriptor whose every bit is reserved, and the masks of the others' reserved bits, by opcode
(R371, R376); a version 1 descriptor also reserves byte 3 and the fifth byte of a line index (R379). -/
def reservedMask (op : Nat) (d : Bytes) (v1 : Bool) : List (Nat × Nat) :=
  let rest (l : List (Nat × Nat)) (used : Nat → Bool) : List (Nat × Nat) :=
    l ++ ((List.range 26).filterMap fun i => if used (i + 4) then none else some (i + 4, 0xFF))
  let r := if v1 then [(12, 0xFF)] else []
  let head := (1, 0xFC) :: if v1 then [(3, 0xFF)] else []
  head ++ match op with
  | 0x01 => rest [(5, 0xF0), (6, 0x80), (7, 0xF0), (22, 0xC0), (25, 0x80)] fun i => decide (i < 29)
  | 0x02 => rest [(5, 0xF0)] fun i => decide (i < 6)
  | 0x03 => rest ([(5, 0xF0), (6, 0xF8), (21, 0xFE)] ++ r) fun i =>
      i == 4 || i == 5 || i == 6 || decide (8 ≤ i ∧ i < 26)
  | 0x04 => rest (if byteAt d 4 = 1 then [(5, 0xFC)] else [(5, 0xFF), (7, 0xF0)]) fun i => decide (i < 8)
  | 0x05 => rest ([(4, 0xFE)] ++ r) fun i => i == 4 || decide (8 ≤ i ∧ i < 13) || decide (16 ≤ i ∧ i < 28)
  | 0x06 => rest [] fun i => decide (i < 24)
  | 0x07 => rest [] fun i => decide (8 ≤ i ∧ i < 20)
  | 0x08 => rest [] fun i => i == 4 || i == 5 || decide (8 ≤ i ∧ i < 20)
  | 0x09 => rest [] fun i => decide (8 ≤ i ∧ i < 20)
  | 0x0A => rest [(4, 0xFC)] fun i => i == 4 || i == 6 || i == 7 || decide (8 ≤ i ∧ i < 18)
  | 0x0B => rest [] fun i => decide (8 ≤ i ∧ i < 18)
  | _ => rest [] fun _ => false

/-- A reserved bit of the descriptor is not zero (R374). -/
def reservedSet (d : Bytes) (v1 : Bool) : Bool :=
  (reservedMask (dOpcode d) d v1).any fun (i, m) => byteAt d i &&& m != 0

/-- The ring's kind and version accept an opcode (R357, R372, R379). -/
def opcodeOk (kind : Nat) (v1 : Bool) (op : Nat) : Bool :=
  if kind = 0 then [0, 1, 2, 3, 4, 5, 6, 8].contains op || (!v1 && (op == 7 || op == 10))
  else if kind = 2 then op == 0 || op == 9 || (!v1 && op == 11)
  else false

/-- A 32-bit line index extended to 40 bits as the value nearest to a reference (R252, R379). -/
def extendLine (ref : Line) (low : BitVec 32) : Line :=
  ref + (BitVec.ofInt 40 (low - ref.setWidth 32).toInt)

/-- The line index at byte `o` of a descriptor (R376, R379). -/
def State.dLine (s : State) (v1 : Bool) (d : Bytes) (o : Nat) : Line :=
  if v1 then extendLine s.highestAll (BitVec.ofNat 32 (leAt d o 4)) else BitVec.ofNat 40 (leAt d o 5)

/-- A COMPLETE ring is RUNNING and has room for the rings that name it (R363). -/
def State.cringTakes (s : State) (r : Nat) : Bool :=
  let c := s.cring r
  s.running c && s.ringKind c == 1 && !s.ringFull c

/-- A ring has work: it is a RUNNING SUBMIT ring that holds an entry, and its limit of 256 and its COMPLETE ring let the 8824 take it
(R362, R363). -/
def State.hasWork (s : State) (r : Nat) : Bool :=
  s.running r && s.hasEntry r && s.ringKind r == 0 && decide ((s.ring r).inflight < 256) && s.cringTakes r

/-- It is a SUBMIT ring's turn: no ring with work comes before it in ascending ring number from the ring served last (R373). -/
def State.inTurn (s : State) (r : Nat) : Bool :=
  let place (q : Nat) : Nat := (q + 63 - s.hst.turn) % 64
  (List.range 64).all fun q => !decide (place q < place r) || !s.hasWork q

/-- A descriptor with fence set waits for every earlier one of its ring (R373). -/
def State.fenceWaits (s : State) (r : Nat) (d : Bytes) : Bool := dFence d && crcOk d && (s.ring r).inflight != 0

/-- The 8824 takes the next entry of a SUBMIT ring now (R362, R363, R373): the ring has work, it is its turn, and no fence holds the entry
back. -/
def State.takes (s : State) (r : Nat) (d : Bytes) : Bool := s.hasWork r && s.inTurn r && !s.fenceWaits r d

/-- A ring's turn is over. -/
def State.served (s : State) (r : Nat) : State := { s with hst := { s.hst with turn := r } }

/-- The context of a descriptor's completion (R380). -/
def State.ctxOf (s : State) (r : Nat) (d : Bytes) : Ctx :=
  let v1 := s.get .HST_RING_CFG_ver r == 1
  ⟨r, (s.ring r).dev, dOpcode d, if v1 then byteAt d 2 else leAt d 2 2, dIrq d, v1, s.hst.gen⟩

/-- The entry at the device index is taken: the index advances, the descriptor is in flight, and the turn of a SUBMIT ring is over (R362,
R363, R373). -/
def State.take (s : State) (r : Nat) : State :=
  let n := s.ringSize r
  let s := if s.ringKind r = 0 then s.served r else s
  s.traffic.updRing r fun g => { g with dev := (g.dev + 1) % n, inflight := g.inflight + 1, dirty := true }

/-- The body of a descriptor lies outside the windows: HST.WINDOW and status WINDOW (R353). -/
def State.windowStatus (s : State) (c : Ctx) (addr : Nat) : State :=
  (s.windowFault c.ring addr).complete c .window

/-- A descriptor whose read of host memory passes the windows; a length of 0 reads nothing. -/
def State.withRead (s : State) (c : Ctx) (addr len : Nat) (act : State → State) : State :=
  if len = 0 ∨ s.windowOk false addr len then act s else s.windowStatus c addr

/-- The bytes of a data read as they were received. Fewer than asked for are those of a failed read, with what it has not delivered open;
more stand for a read that was poisoned, its bytes taken as they came. Both are reported through AER (R4, R356; log 143). -/
def State.received (s : State) (len : Nat) (b : Bytes) : Bytes × State :=
  if b.length = len then (b, s)
  else
    (b.take len ++ (List.range (len - b.length)).map (fun i => (Config.freeWord (s.free + i)).setWidth 8),
      { s with free := s.free + len }.emit .aer)

/-- A descriptor whose write of host memory passes the windows. -/
def State.withWrite (s : State) (c : Ctx) (addr len : Nat) (act : State → State) : State :=
  if s.windowOk true addr len then act s else s.windowStatus c addr

/-! ### Doorbells (R365, R367) -/

/-- The doorbell entry of one ring (R367). -/
def State.doorbell (s : State) (block : Bytes) (r : Nat) : State :=
  let g := s.ring r
  let e := (block.drop (8 * r)).take 8
  let i := leAt e 0 2
  let k := BitVec.ofNat 32 (leAt e 4 4)
  if g.st ≠ .running ∨ (i = g.acc ∧ k = g.kick) then s
  else
    let bad := crc16 (e.take 2 ++ e.drop 4) != BitVec.ofNat 16 (leAt e 2 2)
    if bad || decide (s.ringSize r ≤ i) then
      if g.badKick = some k then s
      else ((s.updRing r fun g => { g with badKick := some k }).count .HST_DBRANGE_CNT).raise .hstDoorbellRange
        (BitVec.ofNat 32 (i + (if bad then 2 ^ 31 else 0))) r
    else s.updRing r fun g => { g with acc := i, kick := k, dirty := true }

/-- A doorbell block is acted on, ring by ring (R367). -/
def State.doorbells (s : State) (block : Bytes) : State := s.each (List.range 64) fun s r => s.doorbell block r

end Sys2Proof.Machine
end

