-- ==== Sys2Proof/Machine/Captures.lean ====
section
/-! DEFINITION. How the consumers of CAPTURE rings take their buffers, and the next entry of any ring (R363, R374, R378). -/

namespace Sys2Proof.Machine

/-- Entries of a CAPTURE ring that the host has given and that no consumer has taken (R362). -/
def State.pendingEntries (s : State) (r : Nat) : Nat :=
  let g := s.ring r
  (g.acc + s.ringSize r - g.dev) % s.ringSize r

/-- The next entry of a CAPTURE ring is read: it waits until a consumer takes it (R378). -/
def State.supply (s : State) (r : Nat) (d : Bytes) : State :=
  if s.running r ∧ s.ringKind r = 2 ∧ (s.ring r).bufs.length < s.pendingEntries r then
    s.traffic.updRing r fun g => { g with bufs := g.bufs ++ [d] }
  else s

/-- Length of the buffer that a CAPBUF or NET_RXBUF gives (R376). -/
def bufferLen (d : Bytes) : Nat := if dOpcode d = 9 then leAt d 16 4 else leAt d 16 2

/-- A buffer that its consumer does not use stays the next of its ring (R516). -/
def State.giveBack (s : State) (r : Nat) (d : Bytes) : State :=
  let n := s.ringSize r
  s.updRing r fun g => { g with dev := (g.dev + n - 1) % n, inflight := g.inflight - 1, bufs := d :: g.bufs }

/-- A consumer takes the next buffer of its opcode from a ring: NOPs complete with OK, entries that fail R374 or are of the
other consumer's opcode with their status, as do those whose own fields break `ok` and a buffer that lies outside the windows (R353, R374, R378); `fuel` bounds the
entries. -/
def State.takeBufferFrom (s : State) (r op : Nat) (ok : Bytes → Bool) : Nat → State × Option (Ctx × Bytes)
  | 0 => (s, none)
  | fuel + 1 =>
    match s.running r && s.hasEntry r && s.ringKind r == 2, (s.ring r).bufs with
    | true, d :: rest =>
      let c := s.ctxOf r d
      let a := s.ringBase r + 32 * (s.ring r).dev
      if !s.windowOk false a 32 then (s.stopRing r a, none)
      else
        let t := (s.take r).updRing r fun g => { g with bufs := rest }
        if d.length ≠ 32 ∨ !crcOk d then
          (((t.count .HST_BADDESC_CNT).raise .hstBaddesc (BitVec.ofNat 32 c.index) r).complete c .baddesc).takeBufferFrom r op ok fuel
        else if !opcodeOk 2 c.v1 (dOpcode d) then (t.complete c .range).takeBufferFrom r op ok fuel
        else if reservedSet d c.v1 then (t.complete c .range).takeBufferFrom r op ok fuel
        else if dOpcode d = 0 then (t.complete c .ok).takeBufferFrom r op ok fuel
        else if dOpcode d ≠ op then (t.complete c .range).takeBufferFrom r op ok fuel
        else if !ok d then (t.complete c .range).takeBufferFrom r op ok fuel
        else if !s.windowOk true (leAt d 8 8) (bufferLen d) then (t.windowStatus c (leAt d 8 8)).takeBufferFrom r op ok fuel
        else (t, some (c, d))
    | _, _ => (s, none)

/-- A consumer takes the next buffer of its opcode from a ring (R378). -/
def State.takeBuffer (s : State) (r op : Nat) (ok : Bytes → Bool) : State × Option (Ctx × Bytes) :=
  s.takeBufferFrom r op ok ((s.ring r).bufs.length + 1)

/-! ### Received network frames (R382, R516) -/

/-- A change of the time block. -/
def State.updTim (s : State) (f : TimeBlock → TimeBlock) : State := { s with tim := f s.tim }

/-- A NET_RXBUF gives a buffer of 64 to 9,216 bytes (R376). -/
def rxbufOk (d : Bytes) : Bool := decide (64 ≤ leAt d 16 2) && decide (leAt d 16 2 ≤ 9216)

/-- The result of a NET_RXBUF (R382). -/
def rxResult (len : Nat) (ts : Time) (valid : Bool) : Nat := ts.toNat + len * 2 ^ 32 + valid.toNat * 2 ^ 46

/-- Frames that wait are written to the buffers of the ring, in order; one longer than its buffer is discarded and counted,
and the buffer kept (R516). -/
def State.deliver (s : State) : List (Bytes × Time × Bool) → State
  | [] => s.updTim fun t => { t with rxWait := [] }
  | (f, ts, valid) :: rest =>
    let r := s.get .TIM_CTRL_rx_ring
    let (t, b) := s.takeBuffer r 0x0B rxbufOk
    match b with
    | none => t.updTim fun k => { k with rxWait := (f, ts, valid) :: rest }
    | some (c, d) =>
      if bufferLen d < f.length then ((t.giveBack r d).count .TIM_RX_BIG_CNT).deliver rest
      else ((t.hostWrite (leAt d 8 8) f true).complete c .ok (rxResult f.length ts valid)).deliver rest

/-- A CAPTURE entry is supplied, and network frames that wait for a buffer take it where it is of their ring (R378, R516). -/
def State.supplied (s : State) (ring : Nat) (d : Bytes) : State :=
  let s := s.supply ring d
  if s.tim.rxWait.isEmpty then s else s.deliver s.tim.rxWait

/-! ### The next entry of any ring (R362, R374, R378) -/

/-- A descriptor that a command spells. On a CAPTURE ring it waits for a consumer, whatever it is (R378). On a SUBMIT ring it is taken and
checked under R374; `mine` says whether the row is this command's and `act` is what the row does with it. Nothing happens where the 8824
would not take it now, but that a ring whose entry a fence holds back has had its turn; or where the descriptor passes the checks and is of
another row. A descriptor of other than 32 bytes is one whose read failed (R356; log 143). -/
def State.descriptor (s : State) (r : Nat) (d : Bytes) (op : Nat) (mine : Bytes → Bool)
    (act : State → Ctx → State) : State :=
  if r < 64 ∧ s.ringKind r = 2 then s.supplied r d
  else if !s.takes r d then
    if s.hasWork r && s.inTurn r then s.served r else s
  else
    let c := s.ctxOf r d
    let a := s.ringBase r + 32 * (s.ring r).dev
    if !s.windowOk false a 32 then s.stopRing r a
    else if d.length ≠ 32 ∨ !crcOk d then
      let t := (s.take r).count .HST_BADDESC_CNT
      (t.raise .hstBaddesc (BitVec.ofNat 32 c.index) r).complete c .baddesc
    else if !opcodeOk (s.ringKind r) c.v1 (dOpcode d) then (s.take r).complete c .range
    else if dOpcode d ≠ op ∨ !mine d then s
    else if reservedSet d c.v1 then (s.take r).complete c .range
    else act (s.take r) c

end Sys2Proof.Machine
end

