-- ==== Sys2Proof/Machine/Maint.lean ====
section
/-! DEFINITION. How a MAINT descriptor is taken for one activity (R375, R434, R435). -/

namespace Sys2Proof.Machine

/-- A MAINT of an activity code: HELD and states that the activity does not allow give STATE, a target or a parameter
length out of range gives RANGE. `target` and `len` say which are in range, `states` where the activity may start. -/
def State.maint (s : State) (ring : Nat) (d : Bytes) (code : Nat) (target len : Nat → Bool) (states : List DevState)
    (act : State → Ctx → State) : State :=
  s.descriptor ring d 8 (fun d => byteAt d 4 == code) fun s c =>
    if s.dev.dev == .held then s.complete c .state
    else if !target (byteAt d 5) || !len (leAt d 16 4) then s.complete c .range
    else if !states.contains s.dev.dev then s.complete c .state
    else act s c

/-- The activity that a MAINT asks for. -/
def State.maintAct (s : State) (c : Ctx) (d param : Bytes) : Activity :=
  ⟨byteAt d 4, byteAt d 5, .maint c, s.clock, false, none, param, 0, 0⟩

/-- A MAINT without a parameter. -/
def noParam (n : Nat) : Bool := n == 0

end Sys2Proof.Machine
end

