-- ==== Sys2Proof/Machine/Almanac.lean ====
section
/-! DEFINITION. The commands of the Almanac and of the sensors (R493, R494, R545 to R553). -/

namespace Sys2Proof.Machine

/-! ### Flash -/

/-- ALM_WRITE (R434, R435, R545, R546). -/
def execAlmWrite (ring : Nat) (d record : Bytes) (s : State) : Out :=
  .next (s.maint ring d 6 (· == 0) (fun n => decide (16 ≤ n) && decide (n ≤ 65536)) [.standby, .printing] fun s c =>
    s.withRead c (leAt d 8 8) (leAt d 16 4) fun s =>
      let r := record.take (leAt d 16 4)
      if !writeCheck r || recLength r != leAt d 16 4 then (s.almResult 2 0).complete c .range
      else s.actArrive (s.maintAct c d r) State.almBegin)

/-- ALM_WR_GO (R427, R434, R545, R546): a write of 1 to ALM_WR_CMD.go; in FIRST_LIGHT and HELD Lamplighter starts no such activity. -/
def execAlmWrGo (record : Bytes) (s : State) : Out :=
  let off := Reg.ALM_WR_CMD.addr 0 0 0
  let len := (s.rd .ALM_WR_LEN).toNat
  let a := (s.rd .ALM_WR_ADDR_LO).toNat + (s.rd .ALM_WR_ADDR_HI).toNat * 2 ^ 32
  let r := record.take len
  let lenOk := decide (16 ≤ len) && decide (len ≤ 65536)
  let readOk := lenOk && s.windowOk false a len
  .next (s.bar0 fun s =>
    let s := if lenOk && !readOk && !s.almBusy then s.windowFault 0xFF a else s
    let s := if readOk && !writeCheck r && !s.almBusy then s.almResult 2 0 else s
    s.gate off 1 [(1, s.almBusy), (2, !s.devIn [.standby, .printing]), (3, !readOk || !writeCheck r)] fun s =>
      let act : Activity := ⟨6, 0, .register, s.clock, false, none, r, 0, 0⟩
      s.registerStart off act fun s =>
        ({ s.actRun act with alm := { s.alm with busy := true } } : State).almBegin act)

/-- ALM_WRITE_DONE (R546): the slot is erased and programmed, and the record read back. Where the flash does not answer, or
the read-back differs, the slot holds no valid record. -/
def execAlmWriteDone (programmed readBackOk : Bool) (s : State) : Out :=
  match s.alm.job with
  | none => .next s
  | some (r, a) =>
    let erased := s.alm.flash.filter fun e => !(decide (a ≤ e.1) && decide (e.1 < a + 0x10000))
    let bytes := if readBackOk then r else r.take 1 ++ [0] ++ r.drop 2
    let flash := if programmed then Memory.writes Memory.flashFill erased a bytes else erased
    let s := { s with alm := { s.alm with flash := flash } }
    if !programmed then .next ((s.almResult 3 3).almEnd .fail)
    else if !readBackOk then .next ((s.almResult 3 2).almEnd .fail)
    else .next (((s.almResult 1 0).count .ALM_WRITE_CNT).almEnd .ok)

/-- ALM_READ_DATA (R547): the side effect of a read of ALM_RD_DATA. -/
def execAlmReadData (s : State) : Out :=
  .next (s.bar0 fun s =>
    if s.almBusy then s.set .ALM_STATUS_rd_void 1
    else s.wr .ALM_RD_ADDR (BitVec.ofNat 32 (((s.rd .ALM_RD_ADDR).toNat + 4) % 2 ^ 23)))

/-! ### Die temperature (R548 to R552) -/

/-- A quantity in 1/256 °C rounded to 0.25 °C, half up. -/
def quarter (x : Int) : Int := (2 * x + 64) / 128

/-- D of a raw diode code under the trim, in 0.25 °C (R548). -/
def State.diode (s : State) (raw : Int) : Int := quarter (raw * s.alm.diodeTrim.2 / 32768 + s.alm.diodeTrim.1)

/-- The higher temperature of a package's two channels, in °C (R548). -/
def State.packageTemp (s : State) (k : Nat) : Int :=
  let t (c : Nat) : Int := (BitVec.ofNat 8 (s.get .DRM_CH_STATUS_temp c)).toInt
  max (t (2 * k)) (t (2 * k + 1))

/-- The corrected neighbours in 0.25 °C, and whether each is valid (R548). -/
def State.neighboursOf (s : State) (x : DieSample) : List (Int × Bool) :=
  let limit := 3000000 * s.get .DRM_CTRL_temp_poll
  let fresh (c : Nat) : Bool := match (s.chan c).polledAt with
    | some t => decide (s.clock ≤ t + limit)
    | none => false
  let ok (k : Nat) : Bool := (s.chan (2 * k)).trained && (s.chan (2 * k + 1)).trained && (fresh (2 * k) || fresh (2 * k + 1))
  [(quarter (s.packageTemp 0 * 256 + s.alm.ofs.getD 0 0), ok 0),
   (quarter (s.packageTemp 1 * 256 + s.alm.ofs.getD 1 0), ok 1),
   (quarter (x.stage * 64 + s.alm.ofs.getD 2 0), decide (x.stageAge ≤ 5))]

/-- Twice the median of the valid neighbours (R549). -/
def median2 : List Int → Option Int
  | [] => none
  | [a] => some (2 * a)
  | [a, b] => some (a + b)
  | a :: b :: c :: _ => some (2 * max (min a b) (min (max a b) c))

/-- T and its source (R550); a suspect diode with no credible neighbour leaves D with band 4 forced (log 47). -/
def inForce (suspect : Bool) (d : Int) (nb : List (Int × Bool)) (m2 : Option Int) : Int × Nat :=
  if !suspect then (d, 0)
  else
    let l := nb.zipIdx.filterMap fun ((v, ok), i) =>
      if ok && decide ((2 * v - m2.getD 0).natAbs ≤ 96) then some (v, i + 1) else none
    match l with
    | [] => (d, 4)
    | e :: t => t.foldl (fun m x => if m.1 < x.1 then x else m) e

/-- Edges of the die bands in 0.25 °C: the temperature at which each is entered, and below which it is left (R552). -/
def bandEdges : List (Int × Int) := [(0, -12), (140, 128), (260, 248), (360, 348)]

/-- The die band after a sample (R552). -/
def nextBand (band : Nat) (t : Int) : Nat :=
  let up := (bandEdges.filter fun e => decide (e.1 ≤ t)).length
  if band < up then up
  else match bandEdges[band - 1]? with
    | some e => if 0 < band ∧ t < e.2 then band - 1 else band
    | none => band

/-- The preset in force follows the die band, or a forced preset that is not below it (R493, R494). -/
def State.setPreset (s : State) : State :=
  let b := s.get .ALM_SENSE_STATUS_band
  let f := s.get .CLK_MARGIN_force_preset
  s.set .CLK_MARGIN_preset (if s.on .CLK_MARGIN_force_en && decide (b ≤ f) then f else b)

/-- Suspicion of the diode after a sample whose disagreement is Δ2 / 2 (R549). -/
def State.suspectDiode (s : State) (delta2 : Nat) : State :=
  let bad := if 96 < delta2 then s.alm.badRun + 1 else 0
  let good := if delta2 ≤ 80 then s.alm.goodRun + 1 else 0
  let start := !s.alm.suspect && decide (1000 ≤ bad)
  let stop := s.alm.suspect && decide (1000 ≤ good)
  let s := { s with alm := { s.alm with badRun := min 1000 bad, goodRun := min 1000 good,
                                        suspect := (s.alm.suspect || start) && !stop } }
  if start then (s.count .ALM_SUSPECT_CNT).raise .senseDiodeSuspect (BitVec.ofNat 32 (delta2 / 2)) else s

/-- The checks of T (R551). -/
def State.checkTj (s : State) (t : Int) : State :=
  let h : Int := 4 * s.get .ALM_TJ_high
  let detail := BitVec.ofInt 32 t
  let s := if h ≤ t then
      if s.alm.high then s
      else ({ s with alm := { s.alm with high := true } } : State).raise .senseTjHigh detail
    else if t < h - 20 then { s with alm := { s.alm with high := false } } else s
  let run := if 460 ≤ t then s.alm.fatalRun + 1 else 0
  let s := { s with alm := { s.alm with fatalRun := min 3 run } }
  if run = 2 then s.raise .senseTjFatal detail else s

/-- DIE_TEMP_SAMPLE (R548 to R552): 1 ms after the last, outside DARK. -/
def execDieTempSample (x : DieSample) (s : State) : Out :=
  if s.dev.dev = .dark || !s.alm.sampledAt.all (s.elapsed · 1000000) then .next s else
  let s := { s with alm := { s.alm with sampledAt := some s.clock } }.wr .PWR_STAGE_TEMP ((BitVec.ofInt 16 x.stage).setWidth 32)
  let d := s.diode x.raw
  let nb := s.neighboursOf x
  let m2 := median2 ((nb.filter (·.2)).map (·.1))
  let s := s.suspectDiode (match m2 with
    | some m => (2 * d - m).natAbs
    | none => 0)
  let (t, src) := inForce s.alm.suspect d nb m2
  let band := if src = 4 then 4 else nextBand (s.get .ALM_SENSE_STATUS_band) t
  let s := s.wr .ALM_TEMP ((BitVec.ofInt 16 t) ++ (BitVec.ofInt 16 d))
  let s := s.each nb.zipIdx fun s (n, i) => s.wr .ALM_NEIGH ((BitVec.ofInt 16 n.1).setWidth 32) i
  let s := ((s.set .ALM_SENSE_STATUS_band band).set .ALM_SENSE_STATUS_suspect s.alm.suspect.toNat).set .ALM_SENSE_STATUS_src src
  let s := s.set .ALM_SENSE_STATUS_valid ((nb.zipIdx.map fun (n, i) => n.2.toNat * 2 ^ i).sum)
  .next ((s.setPreset).checkTj t)

/-! ### Supply monitor (R553) -/

/-- VIN in mV under the trim, to 5 mV (R553). -/
def State.vinOf (s : State) (raw : Int) : Nat :=
  let v := raw * s.alm.vinTrim.2 / 32768 + s.alm.vinTrim.1
  ((max 0 (min 65535 v)).toNat + 2) / 5 * 5

/-- VIN_SAMPLE (R553): 1 ms after the last, outside DARK. -/
def execVinSample (raw : Int) (s : State) : Out :=
  if s.dev.dev = .dark || !s.pwr.vinAt.all (s.elapsed · 1000000) then .next s else
  let v := s.vinOf raw
  let limit := s.get .PWR_VIN_LOW_limit
  let low := decide (v < limit)
  let lowRun := if low then s.pwr.vinLowRun + 1 else 0
  let okRun := if limit + 100 ≤ v then s.pwr.vinOkRun + 1 else 0
  let fire := decide (4 ≤ lowRun) && !s.pwr.vinLowRaised
  let s := s.wr .PWR_VIN (BitVec.ofNat 32 (min 65535 v))
  let s := if low then s.count .PWR_VIN_LOW_CNT else s
  let s := { s with pwr := { s.pwr with vinAt := some s.clock, vinLowRun := min 4 lowRun, vinOkRun := min 100 okRun,
                                        vinLowRaised := fire || (s.pwr.vinLowRaised && decide (okRun < 100)) } }
  .next (if fire then s.raise .pwrVinLow (BitVec.ofNat 32 v) else s)

end Sys2Proof.Machine
end

