-- ==== Sys2Proof/Machine/LoopTables.lean ====
section
/-! DEFINITION. The tables that the colour loop loads: correction words with stepped gains, and tone curves under offsets (R298 to
R301, R304). -/

namespace Sys2Proof.Machine

/-! ### Gains (R298, R299, R304) -/

/-- The gain of a correction word. -/
def gainOf (w : BitVec 16) : Nat := (w.extractLsb' 8 8).toNat

/-- A correction word with another gain. -/
def withGain (w : BitVec 16) (g : Nat) : BitVec 16 := BitVec.ofNat 8 g ++ w.extractLsb' 0 8

/-- The gain that First Light loaded for a nozzle from Almanac; 0x80 where it loaded none (R107, R299). -/
def State.gref (s : State) (p i : Nat) : Nat := ((s.pho.loop.gref.getD p []).get 0x80 i).toNat

/-- The bounds of a nozzle's gain (R299). -/
def State.gainBounds (s : State) (p i : Nat) : Int × Int :=
  let g := s.gref p i
  let r := s.get .PHO_LOOP_LIMIT_range_pct
  (max 0 ((((128 + g) * (100 - r) + 99) / 100 : Nat) - 128 : Int), min 255 ((((128 + g) * (100 + r)) / 100 : Nat) - 128 : Int))

/-- A step of a gain lies within the bounds, or moves a gain outside them towards them (R299). -/
def stepAllowed (b : Int × Int) (g g' : Int) : Bool :=
  decide (0 ≤ g') && decide (g' ≤ 255) &&
    (if g < b.1 then decide (g < g') else if b.2 < g then decide (g' < g) else decide (b.1 ≤ g' ∧ g' ≤ b.2))

/-- The words in force of a port with their gains stepped: only the gain field changes, never that of a word with OUT set (R298,
R299). -/
def State.gainWords (s : State) (p : Nat) (steps : List (Nat × Int)) : List (Nat × BitVec 16) :=
  let m := (s.tabNow 2 p).cur.words
  steps.filterMap fun (i, d) =>
    let w := corrWord m i
    let g : Int := gainOf w
    if isOut w || !stepAllowed (s.gainBounds p i) g (g + d) then none else some (i, withGain w (g + d).toNat)

/-- First index and body of the CORR load over the changed index range; none where no word changes (R302). -/
def State.gainLoad (s : State) (p : Nat) (steps : List (Nat × Int)) : Option (Nat × Bytes) :=
  match s.gainWords p steps with
  | [] => none
  | (i, w) :: t =>
    let words := (i, w) :: t
    let lo := t.foldl (fun a (e : Nat × BitVec 16) => min a e.1) i
    let hi := t.foldl (fun a (e : Nat × BitVec 16) => max a e.1) i
    let m := (s.tabNow 2 p).cur.words
    some (lo, (List.range (hi + 1 - lo)).flatMap fun j =>
      toLe 2 (((words.find? fun e => e.1 == lo + j).map (·.2)).getD (corrWord m (lo + j))).toNat)

/-! ### Tone (R300, R301) -/

/-- The loop's base curve of a bar: the host's newest, else the default (R301). -/
def State.baseCurve (s : State) (b : Nat) : Bytes := (s.pho.loop.base.getD b none).getD (defaultBody 1)

/-- The offsets δ of a bar. -/
def State.deltaOf (s : State) (b : Nat) : List Int := s.pho.loop.delta.getD b (List.replicate 8 0)

/-- The patches of a bar that have a cell in the STRIP tables: nominal value and patch number, by rising value (R301). -/
def State.patches (s : State) (b : Nat) : List (Nat × Nat) :=
  let cells := (List.range 4).flatMap fun c => stripCells (s.tab 9 c).cur.bytes
  let l := (cells.filter fun x => byteAt x 0 == 1 && byteAt x 1 == b).map fun x => (byteAt x 5, byteAt x 3)
  (List.range 256).flatMap fun v => (l.filter fun e => e.1 == v).eraseDups

/-- δ(v) through the points (v_k, δ_k), by rising v_k (R301). -/
def deltaAt (v : Nat) : Option (Nat × Int) → List (Nat × Int) → Int
  | none, [] => 0
  | some (_, d), [] => d
  | none, (w, d) :: t => if v ≤ w then (d * v).tdiv w else deltaAt v (some (w, d)) t
  | some (u, c), (w, d) :: t =>
    if v ≤ w then c + ((d - c) * ((v : Int) - u)).tdiv ((w : Int) - u) else deltaAt v (some (w, d)) t

/-- A curve with δ(v) added where it is not 0, or with it taken away again (R301). -/
def State.shiftCurve (s : State) (b : Nat) (curve : Bytes) (delta : List Int) (sign : Int) : Bytes :=
  let pts := (s.patches b).map fun (v, k) => (v, delta.getD k 0)
  (List.range 256).flatMap fun v =>
    let x := leAt curve (2 * v) 2
    toLe 2 (if x = 0 then 0 else (max 0 (min 4095 ((x : Int) + sign * deltaAt v none pts))).toNat)

/-- The loop's tone curve of a bar under offsets δ (R301). -/
def State.toneCurve (s : State) (b : Nat) (delta : List Int) : Bytes := s.shiftCurve b (s.baseCurve b) delta 1

/-- The offsets of a bar after the steps of a loop load (R300, R304). -/
def State.deltaAfter (s : State) (b : Nat) (l : LoopSteps) : List Int :=
  let dmax : Int := s.get .PHO_LOOP_LIMIT_delta_max
  if l.reset then List.replicate 8 0
  else (s.deltaOf b).zipIdx.map fun (d, k) =>
    match l.steps.find? fun e => e.1 == k with
    | some (_, u) => max (-dmax) (min dmax (d + u))
    | none => d

end Sys2Proof.Machine
end

