-- ==== Sys2Proof/Machine/Lantern.lean ====
section
/-! DEFINITION. Lantern: the handling of raises, escalation, records, FAULT_N, acknowledgement, recovery, forced
raises and the stop for a fatal fault (R390 to R417, R260, R337). -/

namespace Sys2Proof.Machine

/-- A change of one class's state; c is 1 C, 2 U, 3 F. -/
def State.updClass (s : State) (c : Nat) (f : ClassState → ClassState) : State :=
  { s with ltn := { s.ltn with classes := upd (c - 1) f s.ltn.classes } }

/-- The base class of a raise: the higher of its class and the source's min_class (R392). -/
def State.baseClass (s : State) (x : Raise) : Nat :=
  let m := s.get .LTN_SRC_CFG_min_class x.src
  max x.cls (if m = 1 then 2 else if m = 2 then 3 else x.cls)

/-- The handled class, and whether the raise escalated (R392, R397, R398). -/
def State.handledClass (s : State) (x : Raise) : Nat × Bool :=
  let b := s.baseClass x
  if s.classRaised b then (min 3 (b + 1), true) else (b, false)

/-- Class and instance of a raise equal those of its source's previous record, within 10 µs of it (R410). -/
def State.merges (s : State) (x : Raise) (cls : Nat) : Option PrevRec :=
  s.ltn.prev.find? fun q =>
    q.src == x.src && q.inst0 == x.inst0 && q.inst1 == x.inst1 && q.cls == cls
      && decide (s.clock ≤ q.at' + 10000)

/-- The class byte of a FAULT record (R409). -/
def classByte (handled raised : Nat) (escalated forced fHold : Bool) : Byte :=
  BitVec.ofNat 8 (handled + 4 * raised + 16 * escalated.toNat + 32 * forced.toNat + 64 * fHold.toNat)

/-- The 26-byte body of a FAULT record (R409). -/
def State.faultBody (s : State) (x : Raise) (cls : Byte) (merged : Nat) : Bytes :=
  [BitVec.ofNat 8 x.src, cls, BitVec.ofNat 8 x.inst0, BitVec.ofNat 8 x.inst1] ++ toLe 4 s.mono.toNat
    ++ toLe 4 s.net.toNat ++ toLe 5 s.highestAll.toNat ++ [BitVec.ofNat 8 x.action] ++ toLe 2 (min merged 65535)
    ++ toLe 4 x.detail.toNat ++ toLe 2 s.ltn.seq.toNat

/-- A record copied into slot k of a class in LTN_REC (R413). -/
def State.copyRecord (s : State) (c k : Nat) (record : Bytes) : State :=
  s.each (List.range 8) fun s w => s.wr .LTN_REC (BitVec.ofNat 32 (leAt record (4 * w) 4)) (c - 1) k w

/-- The FAULT record of a raise: written, copied to LTN_REC, and remembered for merging and acknowledgement (R395,
R409, R410, R413). -/
def State.recordFault (s : State) (x : Raise) (handled : Nat) (cls : Byte) : State :=
  let merged := ((s.ltn.prev.find? fun q => q.src == x.src).map (·.merged)).getD 0
  let (t, record, posted) := s.postEvent .HST_EVT_ROUTE_ltn_en .HST_EVT_ROUTE_ltn_ring 1 (s.faultBody x cls merged)
  let t := if field (t.rd .LTN_REC (handled - 1) 0 0) 7 0 = 0 then t.copyRecord handled 0 record else t
  let t := t.copyRecord handled 1 record
  let t := t.updClass handled fun c => match posted with
    | .at' r n => { c with newest := some (r, n) }
    | .dropped => { c with dropped := true }
    | .noRoute => { c with newest := none }
  { t with ltn := { t.ltn with seq := t.ltn.seq + 1,
                               prev := (t.ltn.prev.filter fun q => q.src != x.src)
                                 ++ [⟨x.src, x.inst0, x.inst1, handled, s.clock, 0⟩] } }

/-- GIVE is sent on both twin ports and TWIN_ALIVE_OUT held low (R337, R405). -/
def State.give (s : State) (reason : Nat) : State :=
  let s := if s.paired then s.sendTwin (.give reason) else s
  let s := if s.twn.aliveOut then s.emit (.twinAlive false) else s
  { s with twn := { s.twn with aliveOut := false } }

/-- Steps 1 and 2 of the stop for a raise handled as F (R405). -/
def State.fatalStop (s : State) : State :=
  if s.devIn [.held, .dark] then s
  else
    let was := s.printing
    let s := (s.enter .held).give 1
    { s with ltn := { s.ltn with fatalAt := some s.clock, fatalPrinting := was } }

/-- One raise handled: class, escalation, record, interrupt, FAULT_N and the fatal stop (R390 to R413). -/
def State.handleRaise (s : State) (x : Raise) : State :=
  let base := s.baseClass x
  let (cls, esc) := s.handledClass x
  let hold := esc && base == 3
  let s := s.count .LTN_SRC_CNT x.src
  let s := if esc then s.count .LTN_ESC_CNT (base - 1) else s
  let entering := hold && !s.ltn.fHold
  let s := { s with ltn := { s.ltn with fHold := s.ltn.fHold || hold } }
  let s := s.each [x.cls, base, cls] fun s c => s.updClass c fun q => { q with since := s.clock }
  let fn := s.on .LTN_SRC_CFG_fault_n x.src
  let was := s.classRaised cls
  let s := if cls = 2 then { s with ltn := { s.ltn with uFaultN := fn || (was && s.ltn.uFaultN) } } else s
  let s := s.updClass cls fun q => { q with raised := true, dropped := was && q.dropped }
  let s := if cls = 3 then s.fatalStop else s
  let s := match s.merges x cls with
    | some _ => { s with ltn := { s.ltn with prev := s.ltn.prev.map fun (q : PrevRec) =>
        if q.src = x.src then { q with merged := q.merged + 1 } else q } }
    | none => s.recordFault x cls (classByte cls x.cls esc x.forced s.ltn.fHold)
  let s := if x.action = 13 ∧ !x.forced then
      { s with pho := { s.pho with loop := { s.pho.loop with holds :=
          (s.pho.loop.holds.filter fun (h : Nat × Instant) => h.1 != x.src) ++ [(x.src, x.at')] } } } else s
  let s := if entering then s.irq .lantern 3 else s
  if cls = 3 then s.irq .lantern 2
  else if cls = 2 then s.irq .lantern 1
  else if s.on .LTN_SRC_CFG_irq_c x.src then s.irq .lantern 0 else s

/-- FATAL_QUIESCE: step 5 of the stop: each ACTIVE port sends CTRL QUIESCE, then IDLE (R260, R405); one lookahead
and 1 µs after the raise was handled where the device was PRINTING in OFF or COLD, else at once. -/
def execFatalQuiesce (s : State) : Out :=
  match s.dev.dev, s.ltn.fatalAt with
  | .held, some t =>
    if !s.ltn.fatalPrinting || decide (2 ≤ s.twinMode) || s.elapsed t (s.lookahead + 1000) then
      let s := { s with ltn := { s.ltn with fatalAt := none } }
      .next (s.each s.activePorts fun s p => (s.sendCtl p (quiesceFrame true)).sendIdle p)
    else .next s
  | _, _ => .next s

/-- A class returns to CLEAR; class F not in F-HOLD (R394, R399). -/
def State.clearClass (s : State) (c : Nat) : State :=
  if c = 3 ∧ s.ltn.fHold then s
  else
    let s := s.updClass c fun q => { q with raised := false, dropped := false }
    if c = 2 then { s with ltn := { s.ltn with uFaultN := false } } else s

/-- A class is acknowledged (R394, R395); with LTN_QUIET[1] 0 the loop holds end with class U (R412). -/
def State.ackClass (s : State) (c : Nat) : State :=
  let s := s.clearClass c
  if c = 2 ∧ s.get .LTN_QUIET_ms 1 = 0 then
    { s with pho := { s.pho with loop := { s.pho.loop with holds := [] } } }
  else s

/-- The classes acknowledged at this instant already, ahead of a raise (R396). -/
def State.ackedEarly (s : State) : Word :=
  match s.ltn.early with
  | some (t, m) => if t = s.clock then m else 0
  | none => 0

/-- The classes whose bits are 1 are acknowledged, but for those that have been at this instant (R395, R396). -/
def State.acknowledge (s : State) (v : Word) : State :=
  s.each [1, 2, 3] fun s c => if (v &&& ~~~s.ackedEarly).getLsbD (c - 1) then s.ackClass c else s

/-- A write of LTN_ACK acknowledges the classes whose bits are 1 (R395). -/
def State.writeAck (s : State) (v : Word) : State := s.bar0 fun s => s.acknowledge v

/-- FAULT_ACK (R395). -/
def execFaultAck (v : Word) (s : State) : Out := .next (s.writeAck v)

/-- The newest FAULT record of a class has been passed by its ring's consumer index (R395). -/
def State.recordConsumed (s : State) (c : Nat) : Bool :=
  let q := s.ltn.classes.getD (c - 1) ClassState.reset
  match q.newest with
  | some (r, n) =>
    let g := s.ring r
    let size := s.ringSize r
    q.raised && !q.dropped && decide (n + (g.dev + size - g.acc) % size < g.written)
  | none => false

/-- With ack_consume set, the classes whose records the host has consumed, as bits (R395). -/
def State.consumed (s : State) : Word :=
  if s.on .LTN_CTRL_ack_consume then
    BitVec.ofNat 32 (([1, 2, 3].filter s.recordConsumed).map fun c => 2 ^ (c - 1)).sum
  else 0

/-- Classes whose records the host has consumed are acknowledged (R395). -/
def State.ackConsumed (s : State) : State := s.acknowledge s.consumed

/-- The classes that a command acknowledges (R395). -/
def State.acksOf (s : State) : Instr → Word
  | .faultAck v => v
  | .registerWrite off v enables =>
    if off / 4 * 4 = Reg.LTN_ACK.addr 0 0 0 ∧ enables.setWidth 4 = 0xF#4 then v.setWidth 32
    else if off / 4 * 4 + 4 = Reg.LTN_ACK.addr 0 0 0 ∧ enables.extractLsb' 4 4 = 0xF#4 then v.extractLsb' 32 32
    else 0
  | .doorbellRead (some b) => if s.hst.reading && b.length == 512 then (s.doorbells b).consumed else 0
  | _ => 0

/-- The acknowledgements that wait behind a raise of the same instant take effect ahead of it (R396): what waits in the queue is of the
instant of the command before it (log 144). -/
def State.ackFirst (s : State) : State :=
  let m := s.pending.foldl (fun (m : Word) i => m ||| s.acksOf i) 0
  if s.dev.dev = .dark ∨ m &&& ~~~s.ackedEarly = 0 then s
  else
    let t := s.acknowledge m
    { t with ltn := { t.ltn with early := some (s.clock, s.ackedEarly ||| m) } }

/-- FAULT_HANDLE: Lantern handles the raise that reached it first, behind the acknowledgements of its instant (R390, R396). -/
def execFaultHandle (s : State) : Out :=
  match s.ltn.raises with
  | [] => .next s
  | x :: t => .next ({ s.ackFirst with ltn := { s.ackFirst.ltn with raises := t } }.handleRaise x)

/-- QUIET_RECOVERY: a RAISED class whose quiet period has passed returns to CLEAR; c is 0 C, 1 U, 2 F (R400 to
R402). -/
def execQuietRecovery (c : Nat) (s : State) : Out :=
  let q := s.ltn.classes.getD c ClassState.reset
  let ms := s.get .LTN_QUIET_ms c
  if c < 3 ∧ q.raised ∧ ms ≠ 0 ∧ s.elapsed q.since (ms * 1000000) ∧ !(c == 2 && s.ltn.fHold) then
    .next (((s.clearClass (c + 1)).count .LTN_RECOVER c).irq .lantern 4)
  else .next s

/-- A write of LTN_REC_CLR empties both record slots of the classes whose bits are 1 (R413). -/
def State.writeRecClr (s : State) (v : Word) : State :=
  s.bar0 fun s => s.each [0, 1, 2] fun s c =>
    if v.getLsbD c then s.each (List.range 16) fun s i => s.wr .LTN_REC 0 c (i / 8) (i % 8) else s

/-- RECORD_CLEAR (R413). -/
def execRecordClear (v : Word) (s : State) : Out := .next (s.writeRecClr v)

/-- A write of LTN_SRC_CFG[s] (R414, R417): min_class 3 is refused; force raises the source with its default class,
no containment of its own and detail 0. Source numbers 45 to 63 ignore writes. -/
def State.writeSrcCfg (s : State) (x : Nat) (v : Word) : State :=
  if 45 ≤ x then s
  else
    s.gate (Reg.LTN_SRC_CFG.addr x 0 0) v [(3, Fld.LTN_SRC_CFG_min_class.of v == 3)] fun s =>
      let s := s.wr .LTN_SRC_CFG (v &&& 0x00FFFF33) x
      if v.msb then
        let d := srcDefaults.getD x (0, 0)
        let r : Raise := ⟨x, d.1, field v 15 8, field v 23 16, d.2, 0, true, s.clock⟩
        { s with ltn := { s.ltn with raises := insertRaise r s.ltn.raises } }
      else s

/-- FAULT_FORCE: a write of 1 to LTN_SRC_CFG[s].force (R414). -/
def execFaultForce (src : Nat) (v : Word) (s : State) : Out :=
  if v.msb && decide (src < 64) then .next (s.writeSrcCfg src v) else .next s

end Sys2Proof.Machine
end

