-- ==== Sys2Proof/Machine/WickOps.lean ====
section
/-! DEFINITION. Wick's shared operations: head temperature evaluation, results tied to lines, bank writes and what a
port's leaving or entering ACTIVE does to them (R153 to R166). -/

namespace Sys2Proof.Machine

/-- A change of one head. -/
def State.updHead (s : State) (p h : Nat) (f : Head → Head) : State :=
  s.updWick p fun w => { w with heads := upd h f w.heads }

/-- A head. -/
def State.head (s : State) (p h : Nat) : Head := (s.wick p).heads.getD h Head.reset

/-- What the evaluation of a report raises or counts (R162). -/
structure HeadEvents where
  staleRaise : Bool
  hotRaise : Bool
  derateRaise : Bool
  recovered : Bool
  deriving DecidableEq, Repr

/-- The band of a temperature: the highest whose lower edge it reaches (R162). -/
def bandUp (body : Bytes) (t : Int) : Nat :=
  (List.range (bandCount body)).foldl (fun up b => if b ≠ 0 ∧ 8 * (bandEdge body b : Int) ≤ t then b else up) 0

/-- A band falling while the temperature lies 1.0 °C below its lower edge (R162). -/
def bandDown (body : Bytes) (t : Int) : Nat → Nat
  | 0 => 0
  | b + 1 => if t < 8 * (bandEdge body (b + 1) : Int) - 16 then bandDown body t b else b + 1

/-- Derate and band of a head that is not HOT (R162). -/
def settleBand (body : Bytes) (t : Int) (fresh : Bool) (h : Head) : Head × Bool :=
  let td : Int := 8 * byteAt body 2
  let raise := decide (td ≤ t) && !h.derate
  let off := !decide (td ≤ t) && h.derate && decide (t < td - 16)
  let derate := if td ≤ t then true else h.derate && !off
  let fresh := fresh || off
  let up := bandUp body t
  let band := if derate then h.band else if fresh || decide (h.band < up) then up else bandDown body t h.band
  ({ h with derate := derate, band := band }, raise)

/-- The evaluation of one report of one head under a band block (R162). -/
def evalHead (body : Bytes) (h : Head) (temp : BitVec 16) : Head × HeadEvents :=
  if temp = 0x8000 then
    ({ h with temp := temp, stale := true, quiet := 0 }, ⟨!h.stale, false, false, false⟩)
  else
    let t := temp.toInt
    let th : Int := 8 * byteAt body 3
    let tr : Int := 8 * byteAt body 4
    let fresh := h.stale
    let h := { h with temp := temp, stale := false, valid := true }
    if th ≤ t then ({ h with hot := true, quiet := 0 }, ⟨false, !h.hot, false, false⟩)
    else
      let quiet := if h.hot then (if t < tr then h.quiet + 1 else 0) else h.quiet
      let ended := h.hot && decide (leAt body 6 2 ≤ quiet)
      let h := { h with hot := h.hot && !ended, quiet := if ended then 0 else quiet }
      if h.hot then (h, ⟨false, false, false, false⟩)
      else
        let (h, raise) := settleBand body t (fresh || ended) h
        (h, ⟨false, false, raise, ended⟩)

/-- A head re-evaluated under a new band block from its newest report: its hot flag and quiet count stay as they are, and its
derate and band are those of a fresh report (R158). -/
def reevalHead (body : Bytes) (h : Head) : Head × HeadEvents :=
  if h.stale ∨ h.temp = 0x8000 ∨ h.hot then (h, ⟨false, false, false, false⟩)
  else
    let (h, raise) := settleBand body h.temp.toInt true h
    (h, ⟨false, false, raise, false⟩)

/-- Head-blank bit and band of a head's state (R163). -/
def headResult (body : Bytes) (h : Head) : Bool × Nat := (h.hot || h.stale, if h.derate then byteAt body 1 else h.band)

/-- The faults and counts of an evaluation (R162). -/
def State.headRaises (s : State) (p h : Nat) (temp : BitVec 16) (e : HeadEvents) (staleDetail : Word) : State :=
  let d : Word := temp.signExtend 32
  let s := if e.staleRaise then s.raise .wckTempStale staleDetail p h else s
  let s := if e.hotRaise then s.raise .wckHeadHot d p h else s
  let s := if e.derateRaise then s.raise .wckHeadDerate d p h else s
  if e.recovered then s.count .WCK_HOT_RECOVER_CNT p else s

/-- A result that applies from the first line whose send decision has not yet passed. -/
def State.applyNow (s : State) (p h : Nat) (r : Bool × Nat) : State :=
  s.updHead p h fun x => { x with blank := r.1, useBand := r.2, results := [] }

/-- The lead of R165. -/
def State.bandLead (s : State) : Nat :=
  let n := s.get .WCK_CTRL_band_lead
  if s.paired && s.twinMode == 3 then max n 16 else n

/-- A result tied to its line: from L_r + lead, or at once and counted where that line's send decision has passed
(R165, R200). -/
def State.applyResult (s : State) (p h : Nat) (lr : Line) (r : Bool × Nat) : State :=
  let n := s.bandLead
  if n = 0 then s.applyNow p h r
  else
    let l := s.evenUp (lr + BitVec.ofNat 40 n)
    match (s.pipe p).passed with
    | some q =>
      if lineLe l q then (s.count .WCK_LATE_BAND_CNT p).applyNow p h r
      else s.updHead p h fun x => { x with results := x.results ++ [(l, r)] }
    | none => s.updHead p h fun x => { x with results := x.results ++ [(l, r)] }

/-- The results that apply at line L taken over (R165). -/
def Head.reach (l : Line) (h : Head) : Head :=
  match (h.results.filter fun r => lineLe r.1 l).getLast? with
  | some r => { h with blank := r.2.1, useBand := r.2.2, results := h.results.filter fun r => !lineLe r.1 l }
  | none => h

/-- Every head of a port re-evaluated under a new band block, the results applying from now (R158). -/
def State.reevalHeads (s : State) (p : Nat) (body : Bytes) : State :=
  s.each (List.range (s.heads p).heads) fun s h =>
    let (x, e) := reevalHead body (s.head p h)
    ((s.updHead p h fun _ => x).headRaises p h x.temp e 0).applyNow p h (headResult body x)

/-- A wave table takes effect on a port at once, from a recorded line (R137, R154, R156, R158); `loaded` says that a load has been
committed (R160). -/
def State.waveInForce (s : State) (p : Nat) (body : Bytes) (since : Line) (loaded : Bool := true) : State :=
  let s := s.setTab { s.tab 8 p with cur := .body body, since := since, pend := none }
  (s.updWick p fun w => { w with loaded := loaded }).reevalHeads p body

/-- The bank that a pending switch names comes into use. -/
def State.takeBank (s : State) (p : Nat) (b : Bool) : State :=
  s.updWick p fun w => { w with bank := b, bankFrom := none, bankAcked := true, spare := none }

/-- What a send decision of line L on port p brings about in the port's wave table: a pending change or bank switch
whose line it reaches, with the heads re-evaluated where the band block changes (R155, R158, R159). -/
def State.reachBank (s : State) (p : Nat) (l : Line) : State :=
  let s := match (s.tab 8 p).pend with
    | some (e, v) =>
      if lineLe e l then (s.updWick p fun w => { w with bankAcked := false }).waveInForce p v.bytes e else s
    | none => s
  match (s.wick p).bankFrom with
  | some (e, b) => if lineLe e l then s.takeBank p b else s
  | none => s

/-- A pending wave change takes effect at once, recorded from its own epoch line (R138, R154). -/
def State.flushWave (s : State) (p : Nat) : State :=
  let s := match (s.tab 8 p).pend with
    | some (e, v) => (s.updWick p fun w => { w with bankAcked := false }).waveInForce p v.bytes e
    | none => s
  match (s.wick p).bankFrom with
  | some (_, b) => s.takeBank p b
  | none => s

/-- A write of a bank is to be made: the bank not in use for a load or reload, bank 0 after an exchange (R154, R155,
R159). -/
def State.startBank (s : State) (p : Nat) (body : Bytes) (purpose : WavePurpose) : State :=
  s.updWick p fun w =>
    { w with spare := none, write := some ⟨if purpose = .afterCaps then false else !w.bank, body, purpose, false, none⟩ }

/-- The 22 chunks of the bank write leave the port (R246). -/
def State.sendBank (s : State) (p : Nat) (w : WaveWrite) : State :=
  let s := s.updWick p fun x => { x with write := some { w with sent := true, lastAt := none } }
  s.each (List.range 22) fun s i => s.sendCtl p (waveFrame w.bank w.body i)

/-- The bank write is given up: a load or a reload completes with LINK, and nothing is committed (R157, R159). The write behind a
capability exchange is not begun again before the next exchange or load, and the port stays not Wick-ready (R154, R160; DESIGN
CHOICE, log 155). -/
def State.dropBank (s : State) (p : Nat) : State :=
  match (s.wick p).write with
  | none => s
  | some w =>
    let s := s.updWick p fun x => { x with write := none }
    match w.purpose with
    | .load _ c => s.completeOpt c .link
    | .afterCaps => s
    | .reload _ => s.actEnd 5 p .link

/-- What leaving ACTIVE does to a port's banks; a reload that waits for the bank not in use ends too (R157, R159, R160). -/
def State.wickLeave (s : State) (p : Nat) : State :=
  (((s.dropBank p).actEnd 5 p .link).updWick p fun w => { w with bankAcked := false })

/-- The bank not in use is free for a reload: no bank write runs and no switch to it is pending (R159, log 48). -/
def State.reloadFree (s : State) (p : Nat) : Bool := (s.wick p).write.isNone && (s.wick p).bankFrom.isNone

/-- A wave-table reload starts: the table in force is to be written into the bank not in use, as soon as it is free
(R159); a port that is not ACTIVE ends it with LINK (R157). -/
def State.reloadBegin (s : State) (p : Nat) : State :=
  if !s.active p then s.actEnd 5 p .link
  else if s.reloadFree p then s.startBank p (s.wave p) (.reload none)
  else s

/-- What an accepted capability exchange does on Wick's side: a pending change takes effect, the heads start afresh,
and the table in force is checked against the new T_min (R153, R154, R162). -/
def State.wickCaps (s : State) (p : Nat) : State :=
  let s := s.flushWave p
  let s := s.updWick p fun w =>
    { w with heads := List.replicate 8 Head.reset, bank := false, bankAcked := false, bankFrom := none, spare := none }
  if s.wavePasses p (s.wave p) then s
  else s.raise .wckTooLong (BitVec.ofNat 32 (longestEntry (s.wave p))) p

/-- What entry to ACTIVE does on Wick's side: the table in force is to be written into bank 0 (R154), and the time
without a report starts (R166). -/
def State.wickActive (s : State) (p : Nat) : State :=
  let s := s.updWick p fun w => { w with heads := w.heads.map fun h => { h with reportAt := s.clock } }
  s.startBank p (s.wave p) .afterCaps

end Sys2Proof.Machine
end

