-- ==== Sys2Proof/Machine/Changes.lean ====
section
/-! DEFINITION. Entry to PRINTING and to STANDBY, and the changes that a pair agrees: how each is proposed, committed,
aborted and applied (R39, R75, R124, R138, R326 to R335, R419 to R422, R441). -/

namespace Sys2Proof.Machine

/-! ### Lines of a pipeline -/

/-- The line after `l` on a port (R199, R200). -/
def State.nextAfter (s : State) (l : Line) : Line := s.evenUp (l + 1)

/-- The line that a pipeline takes first of those it has not passed (R21, R22, R199). -/
def State.startLine (s : State) (p : Nat) : Line :=
  let f := (s.pipe p).first.getD (s.firstLine p)
  match (s.pipe p).passed with
  | some l => lineMax f (s.nextAfter l)
  | none => f

/-- The smallest line that the port has not sent (R156). -/
def State.unsentLine (s : State) (p : Nat) : Line :=
  let f := s.firstLine p
  match (s.pipe p).passed with
  | some l => lineMax f (s.nextAfter l)
  | none => f

/-- Every malformed strip found is counted and raised (R94). -/
def State.badStrips (s : State) (p : Nat) (l : List (Nat × Nat × Nat)) : State :=
  s.each l fun s b =>
    (s.count .STO_BADSTREAM_CNT).raise .stoBadStream (BitVec.ofNat 32 (b.1 + b.2.1 * 2 ^ 12 + b.2.2 * 2 ^ 16)) p 0xFF none
      (some 10)

/-- A raster line screened on a port: what it loses and the malformed strips that it finds are counted, its decompressor moves on
(R92, R94, R116). -/
def State.screened (s : State) (p : Nat) (m : Screened) : State :=
  ((s.badStrips p m.bad).count .TRN_NOC_LOST_CNT p 0 0 m.lost).updPipe p fun q => { q with dec := m.dec }

/-- The delay memory is primed: the Dmax raster lines below the first line are screened, with the tables in force at the entry
(R104, R116, R124). -/
def State.prime (s : State) (p : Nat) (f : Line) : State :=
  let lines := ((List.range (s.maxDelay p)).map fun i => f - BitVec.ofNat 40 (s.maxDelay p - i)).filter fun l =>
    !(s.lpi600 && l.getLsbD 0)
  s.each lines fun s l =>
    let m := s.screen p l (s.pipe p).dec
    (s.screened p m).updPipe p fun q => { q with delay := remember q.delay l m.codes }

/-- One pipeline enters PRINTING: its first line, its seek, its priming, and the check of its minimum lookahead (R93,
R124, R199, R236). -/
def State.startPipe (s : State) (e : Option Line) (p : Nat) : State :=
  let f := match e with
    | some l => s.evenUp l
    | none => s.firstLine p
  let f := match (s.pipe p).passed with
    | some l => lineMax f (s.nextAfter l)
    | none => f
  let tm := BitVec.ofNat 32 (s.tMin p)
  let dec := s.seekAt (barOf p) (s.evenUp (f - BitVec.ofNat 40 (s.maxDelay p)))
  let s := if dec.isSome then s.count .STO_SEEK_CNT else s
  let s := s.updPipe p fun q =>
    { q with begun := [], opens := [s.clock, s.clock], first := some f, delay := [], priming := true, running := true, dec := dec,
             lastSent := q.lastSent.filter fun k => decide (0 < sdiff (k.2 + tm) s.mono) }
  let s := s.prime p f
  let short := s.active p && decide (s.get .MER_CTRL_lookahead < (s.link p).lmin)
  let s := s.updLink p fun l => { l with laShort := short }
  if short then s.raise .ghlDown 0x100 p else s

/-- The device enters PRINTING; `e` is an agreed first line (R419, R422). -/
def State.enterPrinting (s : State) (e : Option Line) : State :=
  let s := { s with twn := { s.twn with entering := false } }
  ((s.each (List.range 24) fun s p => s.startPipe e p).enter .printing).wakeDram

/-- A module that has taken over in COLD enters PRINTING once the readiness of R41 holds (R339; DEDUCED, log 142). -/
def State.enterIfReady (s : State) : State :=
  if s.twn.entering && s.dev.dev == .standby && s.ready then s.enterPrinting none else s

/-- The device enters STANDBY: pending changes take effect, and the ACTIVE ports send IDLE with sender state 0, those that sent only
IDLE also what has waited (R138, R236, R421). -/
def State.enterStandby (s : State) : State :=
  let s := { s with pipes := s.pipes.map fun (q : Pipe) => { q with begun := [], running := false, priming := false, first := none },
                    dev := { s.dev with stopLine := none } }
  let s := s.flushTabs.enter .standby
  let s := s.each (List.range 24) fun s p => s.flushWave p
  s.each s.activePorts fun s p => (s.sendIdle p).drainCtl p 4

/-! ### Completions that carry a line -/

/-- A descriptor completes OK with a line index in bits 39:0 of its result (R382). -/
def State.reportLine (s : State) (c : Option Ctx) (e : Line) (high : Nat := 0) : State :=
  match c with
  | some c => s.complete c .ok (lineBits c.v1 e + high * 2 ^ 40)
  | none => s

/-! ### Checkpoint journal (R335) -/

/-- The primary of a PAIRED pair in COLD. -/
def State.coldPrimary (s : State) : Bool := s.paired && s.twinMode == 1 && s.twn.role == .primary

/-- The journal with an entry in its place by change identifier (R335). -/
def journalPut (l : List (Nat × Option Line × ChangeBody)) (e : Nat × Option Line × ChangeBody) :
    List (Nat × Option Line × ChangeBody) :=
  l.filter (fun x => decide (x.1 < e.1)) ++ e :: l.filter (fun x => decide (e.1 < x.1))

/-- A change is kept in the journal as its CHANGE record (R333, R335). -/
def State.keepChange (s : State) (id : Nat) (line : Option Line) (body : ChangeBody) : State :=
  { s with twn := { s.twn with ckpt := { s.twn.ckpt with
    journal := journalPut s.twn.ckpt.journal (id, line, body),
    journalBytes := s.twn.ckpt.journalBytes + (changeRecord id line body).length } } }

/-- What a change that may stay pending is of: a table's kind and target, or a group (R333). -/
def changeKey : ChangeBody → Option (Nat × Nat)
  | .table image _ _ => some (byteAt image 0, byteAt image 1)
  | .cancelPlacement g _ => some (256, g)
  | _ => none

/-- A committed change that may stay pending is known by its identifier (R333). -/
def State.nameChange (s : State) (id : Nat) (line : Option Line) (body : ChangeBody) : State :=
  match changeKey body with
  | none => s
  | some k =>
    let others := s.twn.ids.filter fun (e : Nat × Option Line × ChangeBody) => changeKey e.2.2 != some k
    { s with twn := { s.twn with ids := others ++ [(id, line, body)] } }

/-- A committed change goes into the journal: the primary in COLD sends it as a CHANGE record (R335); while the standby
joins, the primary sends every change it commits in any mode (R323 step 6). -/
def State.journal (s : State) (line : Option Line) (body : ChangeBody) : State :=
  if s.coldPrimary || (s.twn.role == .primary && s.twn.pair == .pairing && decide (6 ≤ s.twn.step)) then
    let id := s.twn.lastId + 1
    (({ s with twn := { s.twn with lastId := id } }.keepChange id line body).nameChange id line body).sendTwin (.change id line body)
  else s

/-! ### Tables -/

/-- A change of table kind k and target t. -/
def isTable (k t : Nat) : ChangeBody → Bool
  | .table image _ _ => byteAt image 0 == k && byteAt image 1 == t
  | _ => false

/-- A change of the kind and target is pending, under agreement, or being written to its HDM (R136). A reload's bank write or switch is
ahead of a WAVE load too (R159; DESIGN CHOICE, log 48). -/
def State.tabBusy (s : State) (k t : Nat) : Bool :=
  (if 8 < k then (s.tab k t).pend.isSome else s.tabPending k t) || ((s.twn.proposals ++ s.twn.held).any fun p => isTable k t p.body)
    || (k == 8 && ((s.wick t).write.isSome || (s.wick t).bankFrom.isSome))

/-- A committed wave table takes its place: at once, or pending for line e, with the bank that holds it named from there
or still to be written (R137, R155, R156); `loaded` says that it comes of a load (R160). -/
def State.placeWave (s : State) (p : Nat) (body : Bytes) (e : Line) (now : Bool) (loaded : Bool := true) : State :=
  let there := (s.wick p).spare == some body
  let bank := !(s.wick p).bank
  if now then
    let s := (s.updWick p fun w => { w with bankAcked := false }).waveInForce p body e loaded
    if !s.active p then s
    else if there then s.takeBank p bank
    else s.startBank p body (.load (some e) none)
  else
    let s := s.setTab { s.tab 8 p with pend := some (e, .body body) }
    if !s.active p then s
    else if there then s.updWick p fun w => { w with bankFrom := some (e, bank) }
    else s.startBank p body (.load (some e) none)

/-- The pipelines that an image affects (R139). -/
def State.imageAffects (s : State) (image : Bytes) : List Nat :=
  let k := byteAt image 0
  let t := byteAt image 1
  let old := (s.tabNow k t).cur
  s.affected k t old (loadValue k old (leAt image 2 2) (image.drop 16))

/-- An agreed table takes its place for line e: at once where the device does not print and no line at or above e has
been begun or lies ahead of the first unbegun one, as does a NEXT load of the loop, otherwise pending (R135, R137, R302). -/
def State.placeTable (s : State) (image : Bytes) (e : Line) (loop : Bool := false) : State :=
  let k := byteAt image 0
  let t := byteAt image 1
  let ports := s.imageAffects image
  let now := !s.printing && (loop || lineLe e (s.firstUnbegun ports))
  if k = 8 then s.placeWave t (image.drop 16) e now
  else
    let s := s.settleTab k t
    let x := s.tab k t
    let v := loadValue k x.cur (leAt image 2 2) (image.drop 16)
    if now then s.setTab { x with cur := v, since := e, pend := none } else s.setTab { x with pend := some (e, v) }

/-! ### Placements -/

/-- A group's placement of a handle is resolved to a start line, or is added with it on a partner, and ITEM compares of
the group re-arm (R70, R75, R210). -/
def State.placePlacement (s : State) (g : Nat) (q : Placement) (start : Line) : State :=
  let s := if (s.group g).queue.any fun p => p.handle == q.handle then
      s.updGroup g fun x => { x with queue := x.queue.map fun (p : Placement) =>
        if p.handle = q.handle then { p with start := some start, ctx := none } else p }
    else
      let s := { s with sto := { s.sto with handle := q.handle } }
      s.updGroup g fun x => { x with queue := x.queue ++ [{ q with start := some start }] }
  (s.settleGroup g).rearmItems g

/-- A queued placement leaves its queue (R70, R74). -/
def State.dropPlacement (s : State) (g handle : Nat) : State :=
  s.updGroup g fun x => { x with queue := x.queue.filter fun p => p.handle != handle }

/-- CANCEL of a placement takes effect: a queued one is removed, the running one ends at a line (R74). -/
def State.cancelAt (s : State) (g handle : Nat) (line : Option Line) : State :=
  match line with
  | none => s.dropPlacement g handle
  | some lc =>
    (s.updGroup g fun x => { x with queue := x.queue.map fun (p : Placement) =>
      if p.handle = handle then { p with fin := some lc } else p }).settleGroup g

/-! ### Sections (R45, R330, R333) -/

/-- A section returns to FREE (R50). -/
def State.dropSection (s : State) (n : Nat) : State :=
  { s with sto := { s.sto with sections := s.sto.sections.del n } }

/-- Byte of a plane in a section header record (R45). -/
def Plane.code (q : Plane) : Byte :=
  let r (x : Nat) : Nat := if x = 300 then 0 else if x = 600 then 1 else 2
  BitVec.ofNat 8 ((if q.contone then 0 else 128) + 32 * r q.xres + 8 * r q.yres)

/-- The header record of a section (R45). -/
def Section'.record (x : Section') (n : Nat) : Bytes :=
  withCrc (toLe 2 2 ++ toLe 2 n ++ toLe 4 x.width ++ toLe 4 x.height ++ [BitVec.ofNat 8 x.planes.length, 0, 0, 0]
    ++ ((x.planes.map Plane.code) ++ List.replicate 8 0).take 8 ++ List.replicate 38 0)

/-- The planes that a header record names. -/
def recordPlanes (r : Bytes) : List Plane :=
  (List.range (byteAt r 12)).map fun i =>
    let b := byteAt r (16 + i)
    ⟨!b.testBit 7, resOf (nbits b 6 5), resOf (nbits b 4 3)⟩

/-- The OPEN section that a header record makes (R46). -/
def sectionOf (r : Bytes) : Section' :=
  let planes := recordPlanes r
  ⟨.opened, leAt r 4 4, leAt r 8 4, planes, planes.map fun _ => ⟨0, [], [], true⟩, []⟩

/-- The bytes of one strip received as DATA: offsets and bytes, oldest first (R318). -/
def stagedOf (staged : List (Nat × Nat × Nat × Nat × Bytes)) (sec plane strip : Nat) : List (Nat × Bytes) :=
  (staged.filter fun d => d.1 == sec && d.2.1 == plane && d.2.2.1 == strip).map fun d => d.2.2.2

/-- A strip stream put together from byte `at'` to `len`: from the newest DATA that holds the byte, and below `start` otherwise from
what was stored before; none where a byte has not arrived (R318, R330). `fuel` bounds the pieces. -/
def gather (staged : List (Nat × Bytes)) (old : Bytes) (start len : Nat) : Nat → Nat → Option Bytes
  | 0, at' => if len ≤ at' then some [] else none
  | fuel + 1, at' =>
    if len ≤ at' then some []
    else
      match (staged.filter fun d => decide (d.1 ≤ at') && decide (at' < d.1 + d.2.length)).getLast? with
      | some d => (gather staged old start len fuel (d.1 + d.2.length)).map fun t => (d.2.drop (at' - d.1)).take (len - at') ++ t
      | none =>
        let stop := min (min start len) old.length
        if stop ≤ at' then none
        else
          let next := (staged.map (·.1)).foldl (fun a o => if at' < o then min a o else a) stop
          (gather staged old start len fuel next).map fun t => (old.drop at').take (next - at') ++ t

/-- A strip of a section as DATA has brought it: `e` gives where the data sent begin and the length of the stream (R330). -/
def State.stripIn (s : State) (n : Nat) (x : Section') (i k : Nat) (e : Nat × Nat) : Option Bytes :=
  let d := stagedOf s.twn.staged n i k
  let old := (((x.data.getD i ⟨0, [], [], true⟩).strips.getD k ⟨[], [], true⟩).stream)
  gather d old e.1 e.2 (2 * d.length + 2) 0

/-- Every strip of a section has arrived as far as a record says (R330). -/
def State.dataIn (s : State) (n : Nat) (x : Section') (strips : List (List (Nat × Nat))) : Bool :=
  strips.zipIdx.all fun (q, i) => q.zipIdx.all fun (e, k) => (s.stripIn n x i k e).isSome

/-- The directory of a strip's whole blocks that a stream spells (R76, R85). -/
def streamBlocks (d w height : Nat) (stream : Bytes) : Nat → Nat → Nat → List Nat → List Block → List Block
  | 0, _, _, _, acc => acc
  | fuel + 1, off, line, above, acc =>
    if stream.length ≤ off ∨ height ≤ line then acc
    else
      let up := if acc.length % 16 = 0 then zeroLine w else above
      match decodeBlock d w (height - line) (acc.map (·.off)) stream off up with
      | none => acc
      | some (rows, len, target) =>
        streamBlocks d w height stream fuel (off + len) (line + rows.length) (rows.getLastD up)
          (acc ++ [⟨off, line, rows.length, target, none⟩])

/-- The stored data of a plane on a partner: the strips that have arrived, nothing of an unfinished block, so that a plane that stands
part-way has no saved codec state there and takes no further band but one with restart (R58, R330; log 32). -/
def State.mergePlane (s : State) (n : Nat) (x : Section') (i : Nat) (next : Nat) (strips : List (Nat × Nat)) : PlaneData :=
  let q := x.planes.getD i ⟨true, 1200, 1200⟩
  let w := x.planeWidth q
  let h := x.planeHeight q
  let made := strips.zipIdx.map fun (e, k) =>
    let st := (s.stripIn n x i k e).getD []
    (⟨st, streamBlocks q.depth (stripWidth w k) h st (st.length / 4 + 2) 0 0 (zeroLine (stripWidth w k)) [], true⟩ : Strip)
  let empty := made.all fun t => t.stream.isEmpty
  ⟨next, if empty then [] else made, [], next == 0 || next == h⟩

/-- The section that a partner would hold: its header, the DATA received for it and its next expected lines (R323, R330). -/
def State.mergedSection (s : State) (n : Nat) (header : Bytes) (next : List Nat) (strips : List (List (Nat × Nat))) (sealed : Bool) :
    Section' :=
  let x := (s.section n).getD (sectionOf header)
  let data := (List.range x.planes.length).map fun i => s.mergePlane n x i (next.getD i 0) (strips.getD i [])
  { x with data := data, st := if sealed then .sealed' else x.st }

/-- A section on a partner takes what has arrived for it (R323, R330). -/
def State.mergeSection (s : State) (n : Nat) (header : Bytes) (next : List Nat) (strips : List (List (Nat × Nat))) (sealed : Bool) :
    State :=
  let s := s.setSection n (s.mergedSection n header next strips sealed)
  { s with twn := { s.twn with staged := s.twn.staged.filter fun d =>
      !(d.1 == n && decide (d.2.2.2.1 < ((strips.getD d.2.1 []).getD d.2.2.1 (0, 0)).2)) } }

/-- DATA received for a section is dropped (R330). -/
def State.dropStaged (s : State) (n : Nat) : State :=
  { s with twn := { s.twn with staged := s.twn.staged.filter fun d => d.1 != n } }

/-- The bytes of a stream from an offset on leave as DATA frames of at most 4,096 bytes (R318). -/
def State.sendData (s : State) (n plane strip : Nat) (stream : Bytes) (off : Nat) : State :=
  s.each (List.range ((stream.length - off + 4095) / 4096)) fun s i =>
    s.sendTwin (.data n plane strip (off + 4096 * i) ((stream.drop (off + 4096 * i)).take 4096))

/-! ### Spit and strip (R439, R440) -/

/-- The running activity of a code and target changed. -/
def State.updAct (s : State) (code target : Nat) (f : Activity → Activity) : State :=
  { s with lmp := { s.lmp with running := s.lmp.running.map fun (a : Activity) =>
      if a.code = code ∧ a.target = target then f a else a } }

/-- The placement whose gap a strip uses: the running one of its group. -/
def State.runningPlacement (s : State) (g : Nat) : Option Placement :=
  let x := s.group g
  if x.running then x.queue.head? else none

/-- A SPIT prints from line e on (R439). -/
def State.spitFrom (s : State) (mask : Nat) (param : Bytes) (e : Line) : State :=
  s.updAct 9 mask fun a => { a with line := some e, base := e, left := leAt param 0 2 }

/-- A STRIP prints from the first repetition whose line o_s lies at or above line e (R440). -/
def State.stripFrom (s : State) (mask : Nat) (param : Bytes) (e : Line) : State :=
  match s.runningPlacement (byteAt param 2) with
  | some p =>
    let os := leAt param 4 4
    let i := p.firstRepetition os e + byteAt param 3 - 1
    let last := p.start.getD 0 + BitVec.ofNat 40 (i * p.pitch + os + s.heightOf (stripSection param))
    s.updAct 10 mask fun a => { a with line := some e, base := last, left := p.handle }
  | none => s.updAct 10 mask fun a => { a with line := some e, base := e, left := 65536 }

/-- A partner runs an agreed activity without a descriptor of its own (R441). -/
def State.partnerAct (s : State) (code mask : Nat) (param : Bytes) : State :=
  if (s.actFind code mask).isSome then s
  else s.actRun ⟨code, mask, .schedule, s.clock, false, none, param, 0, 0⟩

/-! ### One change committed -/

/-- The stop line fixed (R421). -/
def State.setStop (s : State) (l : Line) : State :=
  { s with dev := { s.dev with stopLine := some l, stopShown := l } }

/-- The offsets δ of a bar behind a TONE load by the host: 0 where the bar is in tone_bars (R303). -/
def State.deltaBehindHost (s : State) (b : Nat) : List Int :=
  if (s.get .PHO_LOOP_CTRL_tone_bars).testBit b then List.replicate 8 0 else s.deltaOf b

/-- A TONE load for a bar is committed: the offsets that go with it take effect, the host's image becomes the loop's base, and a
reset of the offsets by the loop is done (R301 to R304). -/
def State.toneCommitted (s : State) (image : Bytes) (loop : Bool) (delta : List Int) : State :=
  let b := byteAt image 1
  if byteAt image 0 ≠ 1 then s
  else
    let l := { s.pho.loop with delta := upd b (fun _ => delta) s.pho.loop.delta }
    let l := if !loop then { l with base := upd b (fun _ => some (image.drop 16)) l.base }
      else if delta.all (· == 0) then { l with toneReset := l.toneReset &&& ~~~((1 : BitVec 8) <<< b) } else l
    { s with pho := { s.pho with loop := l } }

/-- A table is committed for line e; the loop keeps the epoch line of its own loads (R302, R303). -/
def State.loadCommitted (s : State) (image : Bytes) (loop : Bool) (delta : List Int) (e : Line) : State :=
  let s := s.toneCommitted image loop delta
  let k := byteAt image 0
  let t := byteAt image 1
  if !loop then s
  else
    let l := s.pho.loop
    let own := (l.own.filter fun (x : Nat × Nat × Line) => !(x.1 == k && x.2.1 == t)) ++ [(k, t, e)]
    { s with pho := { s.pho with loop := { l with own := own, epoch := e } } }

/-- A committed change is applied, and its descriptor completes (R328, R335). -/
def State.applyChange (s : State) (line : Option Line) (body : ChangeBody) (ctx : Option Ctx) (result : Nat) : State :=
  let e := line.getD 0
  match body with
  | .table image loop delta => ((s.placeTable image e loop).loadCommitted image loop delta e).reportLine ctx e
  | .place g sec handle start rep pitch origin map =>
    (s.placePlacement g ⟨handle, sec, false, start, rep, pitch, origin, map, none, none, none⟩ start).reportLine ctx start handle
  | .cancelPlacement g handle =>
    let c := ((s.group g).queue.find? fun p => p.handle == handle).bind (·.ctx)
    match line with
    | some lc => (s.cancelAt g handle line).reportLine ctx lc
    | none => ((s.cancelAt g handle none).completeOpt c .aborted).completeOpt ctx .ok
  | .seal n =>
    match s.sto.sections.find? n with
    | some x => (s.putSection n { x with st := .sealed' }).completeOpt ctx .ok x.pages
    | none => s.completeOpt ctx .state
  | .cancelSection n => (s.dropSection n).completeOpt ctx .ok
  | .ingest n header next strips =>
    if ctx.isSome then s.completeOpt ctx .ok result else s.mergeSection n header next strips false
  | .print => if s.dev.dev == .standby && s.ready then s.enterPrinting line else s
  | .stop => s.setStop e
  | .spit mask param => (s.partnerAct 9 mask.toNat param).spitFrom mask.toNat param e
  | .strip mask param => (s.partnerAct 10 mask.toNat param).stripFrom mask.toNat param e

/-- The identifier of a pending change: 0 where it was committed without one, by a module on its own (R333; DESIGN CHOICE, log 140). -/
def State.idOf (s : State) (line : Option Line) (body : ChangeBody) : Nat :=
  ((s.twn.ids.find? fun e => e.2.1 == line && changeKey e.2.2 == changeKey body).map (·.1)).getD 0

/-- A change that carries an identifier is applied (R328, R333). -/
def State.applyNamed (s : State) (id : Nat) (line : Option Line) (body : ChangeBody) (ctx : Option Ctx) (result : Nat) : State :=
  (s.nameChange id line body).applyChange line body ctx result

/-- The primary proposes a change to its partner (R328). -/
def State.propose (s : State) (line : Option Line) (body : ChangeBody) (ctx : Option Ctx) (result : Nat := 0)
    (undo : Option (Nat × Option Section') := none) (isAt : Bool := false) : State :=
  let id := s.twn.lastId + 1
  let s := { s with twn := { s.twn with lastId := id,
                                        proposals := s.twn.proposals ++ [(⟨id, line, body, s.clock, ctx, result, undo, isAt⟩ : Proposal)] } }
  s.sendTwin (.change id line body)

/-- A change that has passed its checks is agreed with the partner, or committed at once where none agrees (R39,
R328). -/
def State.agree (s : State) (line : Option Line) (body : ChangeBody) (ctx : Option Ctx) (result : Nat := 0)
    (undo : Option (Nat × Option Section') := none) : State :=
  if s.agreeing then s.propose line body ctx result undo
  else (s.journal line body).applyChange line body ctx result

/-- A section put back as it was (R53). -/
def State.undoIngest (s : State) : Option (Nat × Option Section') → State
  | some (n, some x) => s.setSection n x
  | some (n, none) => s.dropSection n
  | none => s

/-- What an aborted change leaves behind on the primary (R53, R306, R329, R330, R422). -/
def State.abortChange (s : State) (p : Proposal) : State :=
  match p.body with
  | .ingest _ _ _ _ => (s.undoIngest p.undo).completeOpt p.ctx .full
  | .place g _ handle _ _ _ _ _ => (s.dropPlacement g handle).completeOpt p.ctx .epochPast
  | .print => s.propose (some s.epochLine) .print none
  | .stop => s.propose (some s.epochLine) .stop none
  | .spit mask _ => s.actEnd 9 mask.toNat .epochPast
  | .strip mask _ => s.actEnd 10 mask.toNat .epochPast
  | .table _ loop _ => if loop then s.count .PHO_LOOP_DISCARD_CNT else s.completeOpt p.ctx .epochPast
  | _ => s.completeOpt p.ctx .epochPast

/-- The primary decides a change of its own: DECIDE is sent, and the change is applied or discarded (R328). -/
def State.decideChange (s : State) (p : Proposal) (commit : Bool) : State :=
  let s := { s with twn := { s.twn with proposals := s.twn.proposals.filter fun q => q.id != p.id } }
  let s := s.sendTwin (.decide p.id commit)
  if commit then s.applyNamed p.id p.line p.body p.ctx p.result
  else (s.count .TWN_ABORT_CNT).abortChange p

/-- Changes whose partner is gone are decided by the primary alone, as if voted yes (R340). -/
def State.decideAlone (s : State) : State :=
  s.each s.twn.proposals fun s p => s.decideChange p true

/-- A change that carries no test of a begun line: SEAL and CANCEL (R330). -/
def untimed : ChangeBody → Bool
  | .seal _ => true
  | .cancelSection _ => true
  | .cancelPlacement _ _ => true
  | .ingest _ _ _ _ => true
  | _ => false

/-- The pipelines that a change affects (R32, R139); for a placement of a group that holds no bar, whose begun line is the highest
that any pipeline has begun, all of them (R72). -/
def State.changeAffects (s : State) (b : ChangeBody) : List Nat :=
  match b with
  | .table image _ _ => s.imageAffects image
  | .place g _ _ _ _ _ _ _ => if (s.groupPorts g).isEmpty then List.range 24 else s.groupPorts g
  | .spit mask _ => (List.range 24).filter fun p => mask.getLsbD (barOf p)
  | .strip mask _ => (List.range 24).filter fun p => mask.getLsbD (barOf p)
  | .print => List.range 24
  | .stop => List.range 24
  | _ => []

/-- The pipelines on which a change must find line E - M unbegun: those it affects, or any, for an AT load of the host (R328, R329). -/
def State.testedPorts (s : State) (p : Proposal) : List Nat := if p.isAt then List.range 24 else s.changeAffects p.body

/-! ### Detaching (R327) -/

/-- The standby or secondary detaches: its ports send IDLE, it enters STANDBY, and the pair state is DETACHED. -/
def State.detach (s : State) (rejoin : Bool) : State :=
  let s := { s with twn := { s.twn with pair := .detached, version := 0, since := s.clock, held := [], unvoted := [], anns := [], waiting := [], noRejoin := !rejoin } }
  if s.printing then s.enterStandby else s.each s.activePorts fun s p => s.sendIdle p

/-- TWN.DISAGREE is raised on a standby or secondary and counted, and the module detaches (R326, R327). -/
def State.disagree (s : State) (why : Nat) : State :=
  ((s.count .TWN_DISAGREE_CNT).raise .twnDisagree (BitVec.ofNat 32 why)).detach true

/-! ### Loads that start (R135 to R139, R155, R156) -/

/-- The epoch line that a NEXT change of the pipelines named takes: R33's in PRINTING, otherwise the smallest line that
none has begun (R137). -/
def State.nextEpoch (s : State) (ports : List Nat) : Line :=
  if s.printing then s.epochLine else s.firstUnbegun ports

/-- The image of a Transit load. -/
def WaitLoad.image (w : WaitLoad) : Bytes :=
  imageOf w.kind w.target w.first
    (match w.kind with | 1 => 256 | 2 => w.body.length / 2 | 3 => (w.body.length - 16) / 16 | 4 => 8 | 5 => 16384 | _ => 3)
    w.body

/-- A checked Transit load of the host with nothing ahead of it is committed or proposed (R32, R135, R137, R303). -/
def State.startTransit (s : State) (w : WaitLoad) : State :=
  let s := s.settleTab w.kind w.target
  let image := w.image
  let ports := s.imageAffects image
  let delta := if w.kind = 1 then s.deltaBehindHost w.target else []
  match w.at' with
  | some e =>
    if s.anyBegun ports e then s.completeOpt w.ctx .epochPast
    else if s.agreeing then s.propose (some e) (.table image false delta) w.ctx 0 none true
    else
      let s := s.journal (some e) (.table image false delta)
      let x := s.tab w.kind w.target
      ((s.setTab { x with pend := some (e, loadValue w.kind x.cur w.first w.body) }).loadCommitted image false delta e).reportLine w.ctx e
  | none => s.agree (some (s.nextEpoch ports)) (.table image false delta) w.ctx

/-- The epoch line of a loop load: that of the loads of its period, which R33 gives when the first of them is committed. One that has
been begun while the load waited is chosen anew (R302; DESIGN CHOICE, log 139). -/
def State.loopEpoch (s : State) (w : WaitLoad) (l : LoopSteps) (ports : List Nat) : Line :=
  match w.at'.orElse fun _ => if l.period = s.pho.loop.period then s.pho.loop.line else none with
  | some e => if s.anyBegun ports e then s.epochLine else e
  | none => s.epochLine

/-- The epoch line of a period is settled: its loads that wait keep it, and those still to be made take it (R302). -/
def State.settlePeriod (s : State) (period : Nat) (e : Line) : State :=
  let waits := s.waits.map fun (w : WaitLoad) =>
    if (w.loop.map (·.period)) = some period ∧ w.at'.isNone then { w with at' := some e } else w
  let line := if period = s.pho.loop.period then some (s.pho.loop.line.getD e) else s.pho.loop.line
  { s with waits := waits, pho := { s.pho with loop := { s.pho.loop with line := line } } }

/-- Steps of a period that a bound keeps are counted, and PHO.LOOP_LIMIT is raised once for the period (R305). -/
def State.countLimits (s : State) (period bar n : Nat) : State :=
  if n = 0 then s
  else
    let s := s.count .PHO_LOOP_LIMIT_CNT 0 0 0 n
    if s.pho.loop.limited.contains period then s
    else { s with pho := { s.pho with loop := { s.pho.loop with limited := period :: s.pho.loop.limited } } }.raise .phoLoopLimit
      (BitVec.ofNat 32 n) bar

/-- Steps of a loop load that R299 or delta_max keeps now that the load is made (R299, R300, R305). -/
def State.stepsKept (s : State) (w : WaitLoad) (l : LoopSteps) : Nat :=
  if w.kind = 2 then
    let m := (s.tabNow 2 w.target).cur.words
    (l.steps.filter fun (i, d) =>
      let v := corrWord m i
      !isOut v && !stepAllowed (s.gainBounds w.target i) (gainOf v) (gainOf v + d)).length
  else
    let dmax : Int := s.get .PHO_LOOP_LIMIT_delta_max
    (l.steps.filter fun (k, u) =>
      let d := (s.deltaOf w.target).getD k 0 + u
      decide (d < -dmax) || decide (dmax < d)).length

/-- A load of the loop with nothing ahead of it is made of the tables now in force, and committed or proposed; one that changes
nothing ends (R298 to R302). What a bound keeps of a load that waited is counted now (R305). -/
def State.startLoop (s : State) (w : WaitLoad) (l : LoopSteps) : State :=
  let s := s.settleTab w.kind w.target
  let s := s.countLimits l.period (if w.kind = 2 then barOf w.target else w.target) (s.stepsKept w l)
  let delta := if w.kind = 1 then s.deltaAfter w.target l else []
  let made : Option (Nat × Bytes) :=
    if w.kind = 2 then s.gainLoad w.target l.steps
    else if !l.reset && delta == s.deltaOf w.target then none else some (0, s.toneCurve w.target delta)
  match made with
  | none => s
  | some (first, body) =>
    let image := { w with first := first, body := body }.image
    let e := s.loopEpoch w l (s.imageAffects image)
    (s.settlePeriod l.period e).agree (some e) (.table image true delta) none

/-- A wave table fails the checks against the port as it stands: RANGE under R148, TOO_LONG under R152. -/
def State.waveCheck (s : State) (p : Nat) (body : Bytes) (ctx : Option Ctx) (act : State → State) : State :=
  if (s.link p).version = 1 ∧ !gahild1Ok body then s.completeOpt ctx .range
  else if s.tMin p < longestEntry body then
    (s.raise .wckTooLong (BitVec.ofNat 32 (longestEntry body)) p).completeOpt ctx .tooLong
  else act s

/-- A wave image of a port. -/
def waveImage (p : Nat) (body : Bytes) : Bytes := imageOf 8 p 0 64 body

/-- A wave load is committed: after its bank is acknowledged, or at once on a port that is not ACTIVE (R32, R155, R156). In MIRROR and
DUAL the load of a port that is not ACTIVE is agreed for the line that an ACTIVE one would take, since the partner's port may be ACTIVE
(DESIGN CHOICE, log 154). -/
def State.commitWave (s : State) (p : Nat) (at' : Option Line) (body : Bytes) (ctx : Option Ctx) : State :=
  let change : ChangeBody := .table (waveImage p body) false []
  let lasting := s.active p || s.agreeing
  let (e, now) := match at' with
    | some e => if lasting then (e, false) else (s.unsentLine p, true)
    | none => if lasting then (s.nextEpoch [p], !s.printing) else (s.unsentLine p, true)
  if (at'.map (s.anyBegun [p])).getD false then s.completeOpt ctx .epochPast
  else if s.agreeing then s.propose (some e) change ctx 0 none at'.isSome
  else ((s.journal (some e) change).placeWave p body e now).reportLine ctx e

/-- A checked load with nothing ahead of it starts: a Transit table is committed, a wave table is written to its HDM or
committed, a Photometer table waits for the next frame start (R135, R155, R156, R308). -/
def State.startLoad (s : State) (w : WaitLoad) : State :=
  if w.kind = 8 then
    s.waveCheck w.target w.body w.ctx fun s =>
      if s.active w.target then s.startBank w.target w.body (.load w.at' w.ctx)
      else s.commitWave w.target w.at' w.body w.ctx
  else if 8 < w.kind then
    (s.setTab { s.tab w.kind w.target with pend := some (0, .body w.body) }).completeOpt w.ctx .ok
  else
    match w.loop with
    | some l => s.startLoop w l
    | none => s.startTransit w

/-- A checked load arrives: it waits while a change of its kind and target is ahead of it (R136). -/
def State.arriveLoad (s : State) (w : WaitLoad) : State :=
  if s.tabBusy w.kind w.target || s.waits.any (fun x => x.kind == w.kind && x.target == w.target) then
    { s with waits := s.waits ++ [w] }
  else s.startLoad w

end Sys2Proof.Machine
end

