-- ==== Sys2Proof/Machine/Store.lean ====
section
/-! DEFINITION. Ingest, sections and placements: the descriptors of the raster store (R42 to R75, R86 to R89, R330). -/

namespace Sys2Proof.Machine

/-- The conditions under which the raster store serves a descriptor: DRAM training complete, not HELD (R375), and not on
a standby or secondary (R313). -/
def State.storeGate (s : State) (c : Ctx) (act : State → State) : State :=
  if !s.drm.ready || s.dev.dev == .held then s.complete c .state
  else if s.follower then s.complete c .role
  else act s

/-- Section number of a descriptor (R376). -/
def dSection (d : Bytes) (o : Nat) : Nat := leAt d o 2 % 4096

/-- Kind of an INGEST (R54). -/
def dIngestKind (d : Bytes) : Nat := nbits (byteAt d 6) 1 0

/-- The fields of a header record lie in the ranges of R44 and R45, and its reserved bits are zero (R46). -/
def recordOk (r : Bytes) (n : Nat) : Bool :=
  let w := leAt r 4 4
  let h := leAt r 8 4
  let count := byteAt r 12
  leAt r 0 2 == 2 && leAt r 2 2 == n && w % 4 == 0 && decide (4 ≤ w) && decide (w ≤ 96768) && h % 4 == 0 && decide (4 ≤ h)
    && decide (h ≤ 4194304) && decide (1 ≤ count) && decide (count ≤ 8)
    && ((r.drop 13).take 3).all (· == 0) && ((r.drop 24).take 38).all (· == 0)
    && (List.range 8).all fun i =>
      let b := byteAt r (16 + i)
      if i < count then nbits b 2 0 == 0 && nbits b 6 5 != 3 && nbits b 4 3 != 3 && (!b.testBit 7 || (nbits b 6 5 == 2 && nbits b 4 3 == 2))
      else b == 0

/-- Next expected line of every plane of a section. -/
def Section'.nexts (x : Section') : List Nat := x.data.map (·.next)

/-- For each strip of each plane where an ingest's data begin, and the length of its stream then: behind what was stored before, or at 0
where a restart has taken that away (R56, R330). -/
def Section'.strips (x : Section') (old : Option Section') : List (List (Nat × Nat)) :=
  x.data.zipIdx.map fun (q, i) =>
    let was := (old.bind fun y => y.data[i]?).getD ⟨0, [], [], true⟩
    q.strips.zipIdx.map fun (t, k) =>
      (if q.next < was.next then 0 else ((was.strips.getD k ⟨[], [], true⟩).stream.length), t.stream.length)

/-- An ingest ends: the partner has to hold it too, or it completes (R330, R335). -/
def State.finishIngest (s : State) (n : Nat) (x : Section') (c : Ctx) (result : Nat) (old : Option Section') : State :=
  s.agree none (.ingest n (x.record n) x.nexts (x.strips old)) (some c) result (some (n, old))

/-- An INGEST needs a page when none is free (R53). -/
def State.ingestFull (s : State) (n : Nat) (c : Ctx) : State := (s.raise .stoFull (BitVec.ofNat 32 n)).complete c .full

/-- INGEST_HEADER (R46, R53); an INGEST of kind 3 completes with RANGE (R54). A length other than 64 gives RANGE behind the
section's state and ahead of the record's CRC, a place that R46 does not name (DESIGN CHOICE, log 135). -/
def execIngestHeader (ring : Nat) (d record : Bytes) (s : State) : Out :=
  .next (s.descriptor ring d 1 (fun d => dIngestKind d == 0 || dIngestKind d == 3) fun s c =>
    s.storeGate c fun s =>
      let n := dSection d 4
      if dIngestKind d = 3 then s.complete c .range
      else if (s.section n).isSome then s.complete c .state
      else if leAt d 16 4 ≠ 64 then s.complete c .range
      else s.withRead c (leAt d 8 8) 64 fun s =>
        if record.length ≠ 64 ∨ !crcOk record then s.complete c .baddesc
        else if !recordOk record n then s.complete c .range
        else
          let x := sectionOf record
          if s.storeFull n x then s.ingestFull n c else (s.setSection n x).finishIngest n x c 0 none)

/-! ### PLANE_RAW (R55 to R60, R86 to R89) -/

/-- Sample x of line r of a band (R55). -/
def bandSample (band : Bytes) (pitch depth r x : Nat) : Nat :=
  let v := byteAt band (r * pitch + x)
  if depth = 3 then v % 8 else v

/-- The lines of a band that fall in strip i. -/
def bandStrip (band : Bytes) (pitch depth lines width i : Nat) : List (List Nat) :=
  (List.range lines).map fun r => (List.range (stripWidth width i)).map fun x => bandSample band pitch depth r (256 * i + x)

/-- One strip of a plane with lines appended: the strip, its saved codec state and the blocks stored RAW (R58 to R60,
R87). -/
def appendStrip (depth w effort : Nat) (flush : Bool) (rows : List (List Nat)) (strip : Strip) (codec : Codec) :
    Strip × Codec × List Nat :=
  let (c, rest) := codeLines depth w effort flush (codec.held ++ rows) ⟨strip, codec.lastLine, codec.adapt, []⟩
  (c.strip, ⟨c.last, c.adapt, rest⟩, c.mismatches)

/-- A plane with a band of lines ingested, and the strips in which blocks were stored RAW, one entry for each block. -/
def appendPlane (x : Section') (q : Plane) (old : PlaneData) (band : Bytes) (pitch lines effort : Nat) (flush : Bool) :
    PlaneData × List Nat :=
  let w := x.planeWidth q
  let full := old.next + lines == x.planeHeight q
  let each := (List.range (stripCount w)).map fun i =>
    let sw := stripWidth w i
    appendStrip q.depth sw effort (flush || full) (bandStrip band pitch q.depth lines w i) (old.strips.getD i ⟨[], [], true⟩)
      (old.codec.getD i ⟨zeroLine sw, none, []⟩)
  (⟨old.next + lines, each.map (·.1), if full then [] else each.map (·.2.1), true⟩,
    each.zipIdx.flatMap fun (e, i) => e.2.2.map fun _ => i)

/-- Blocks stored RAW after a mismatch are counted and raised (R89, log 6). -/
def State.verifyRaises (s : State) (n plane : Nat) (strips : List Nat) : State :=
  s.each strips fun s i =>
    let s := (s.count .STO_VERIFY_CNT).raise .stoVerify (BitVec.ofNat 32 (n + plane * 2 ^ 12 + i * 2 ^ 16)) (Config.lane s.free % 8)
    { s with free := s.free + 1 }

/-- The primary sends the strip data that an ingest produced to its partner (R310, R330). -/
def State.mirrorPlane (s : State) (n plane : Nat) (old new : PlaneData) : State :=
  if s.twn.role == .primary && (s.paired || (s.twn.pair == .pairing && decide (6 ≤ s.twn.step))) then
    s.each new.strips.zipIdx fun s (t, i) => s.sendData n plane i t.stream ((old.strips.getD i ⟨[], [], true⟩).stream.length)
  else s

/-- A section's plane is replaced by an ingest, unless no page is free (R53). The pages of plane data that a band with restart
discards count as free for it (DESIGN CHOICE, log 135). -/
def State.storePlane (s : State) (n plane : Nat) (x : Section') (new : PlaneData) (c : Ctx) (raws : List Nat) : State :=
  let y := { x with data := upd plane (fun _ => new) x.data }
  if s.storeFull n y then s.ingestFull n c
  else
    let old := x.data.getD plane ⟨0, [], [], true⟩
    let s := (s.verifyRaises n plane raws).mirrorPlane n plane (if new.next < old.next then ⟨0, [], [], true⟩ else old) new
    (s.setSection n y).finishIngest n y c raws.length (some x)

/-- STO.BAD_STREAM on an ingest (R58, R61, R415). -/
def State.ingestBad (s : State) (n plane : Nat) (c : Ctx) : State :=
  ((s.count .STO_BADSTREAM_CNT).raise .stoBadStream (BitVec.ofNat 32 (n + plane * 2 ^ 12)) 0xFF 0xFF none (some 9)).complete c .badStream

/-- INGEST_PLANE_RAW (R56). Of the checks the spec ranks only ORDER ahead of the RANGE of the height; here the RANGE of plane, effort
and pitch comes first, and a failed saved state last (DESIGN CHOICE, log 135). -/
def execIngestPlaneRaw (ring : Nat) (d band : Bytes) (s : State) : Out :=
  .next (s.descriptor ring d 1 (fun d => dIngestKind d == 1) fun s c =>
    s.storeGate c fun s =>
      let n := dSection d 4
      let plane := nbits (byteAt d 6) 4 2
      let restart := (byteAt d 6).testBit 5
      let flush := (byteAt d 6).testBit 6
      let effort := nbits (byteAt d 7) 3 0
      let first := nbits (leAt d 20 3) 21 0
      let lines := nbits (leAt d 23 3) 22 0
      let pitch := leAt d 26 3
      match s.section n with
      | none => s.complete c .state
      | some x =>
        if x.st ≠ .opened then s.complete c .state
        else if x.planes.length ≤ plane ∨ 8 < effort then s.complete c .range
        else
          let q := x.planes.getD plane ⟨true, 1200, 1200⟩
          let old := if restart then ⟨0, [], [], true⟩ else x.data.getD plane ⟨0, [], [], true⟩
          let w := x.planeWidth q
          if pitch < w then s.complete c .range
          else if first ≠ old.next then s.complete c .order
          else if x.planeHeight q < first + lines then s.complete c .range
          else if !old.codecOk then (s.failRestore n plane).ingestBad n plane c
          else
            s.withRead c (leAt d 8 8) (if lines = 0 then 0 else (lines - 1) * pitch + w) fun s =>
              let (band, s) := s.received (if lines = 0 then 0 else (lines - 1) * pitch + w) band
              let e := if effort = 8 then s.get .STO_CTRL_effort_default else effort
              let (new, raws) := appendPlane x q old band pitch lines e flush
              s.storePlane n plane x new c raws)

/-- INGEST_PLANE_IBRIK (R61). A plane whose saved state failed a restore takes no container: STATE (R58; which status, DESIGN CHOICE,
log 135). -/
def execIngestPlaneIbrik (ring : Nat) (d container : Bytes) (s : State) : Out :=
  .next (s.descriptor ring d 1 (fun d => dIngestKind d == 2) fun s c =>
    s.storeGate c fun s =>
      let n := dSection d 4
      let plane := nbits (byteAt d 6) 4 2
      match s.section n with
      | none => s.complete c .state
      | some x =>
        if x.st ≠ .opened then s.complete c .state
        else if x.planes.length ≤ plane then s.complete c .range
        else if (x.data.getD plane ⟨0, [], [], true⟩).next ≠ 0 ∨ s.restoreFailed n plane then s.complete c .state
        else
          s.withRead c (leAt d 8 8) (leAt d 16 4) fun s =>
            let q := x.planes.getD plane ⟨true, 1200, 1200⟩
            if container.length < 16 then s.ingestBad n plane c
            else
              let (container, s) := s.received (leAt d 16 4) container
              match readContainer (x.planeWidth q) (x.planeHeight q) q.depth container with
              | none => s.ingestBad n plane c
              | some strips => s.storePlane n plane x ⟨x.planeHeight q, strips, [], true⟩ c [])

/-! ### Sections -/

/-- SEAL (R49). -/
def execSeal (ring : Nat) (d : Bytes) (s : State) : Out :=
  .next (s.descriptor ring d 2 (fun _ => true) fun s c =>
    s.storeGate c fun s =>
      let n := dSection d 4
      match s.section n with
      | none => s.complete c .state
      | some x =>
        if x.st ≠ .opened then s.complete c .state
        else if !((x.planes.zip x.data).all fun e => e.2.next == x.planeHeight e.1) then s.complete c .incomplete
        else s.agree none (.seal n) (some c))

/-- CANCEL_SECTION (R50); a CANCEL of an unknown target completes with RANGE (R376). -/
def execCancelSection (ring : Nat) (d : Bytes) (s : State) : Out :=
  .next (s.descriptor ring d 4 (fun d => byteAt d 4 != 1) fun s c =>
    s.storeGate c fun s =>
      let n := dSection d 6
      if byteAt d 4 ≠ 0 then s.complete c .range
      else if (s.section n).isNone then s.complete c .state
      else
        let s := s.each (List.range 4) fun s g => s.settleGroup g
        if s.inUse n then s.complete c .inUse else s.agree none (.cancelSection n) (some c))

/-! ### Placements -/

/-- A placement of a section on a group meets R64 and R65; a pitch of 0 stands for the section's height. -/
def State.placeOk (s : State) (g pitch origin map : Nat) (x : Section') : Bool :=
  (pitch == 0 || decide (x.height ≤ pitch)) && decide (origin + x.width ≤ 96768) && origin % 4 == 0
    && (List.range 8).all fun b =>
      let v := nbits map (4 * b + 3) (4 * b)
      v == 15 || (decide (v < x.planes.length) && (s.groupMask g).testBit b)

/-- PLACE (R64 to R66): the placement takes its place in its group's queue; it completes when it is resolved. Where several
checks fail, STATE comes before RANGE and RANGE before QUEUE_FULL (DESIGN CHOICE, log 135). -/
def execPlace (ring : Nat) (d : Bytes) (s : State) : Out :=
  .next (s.descriptor ring d 3 (fun _ => true) fun s c =>
    s.storeGate c fun s =>
      let n := dSection d 4
      let g := nbits (byteAt d 6) 1 0
      match s.section n with
      | none => s.complete c .state
      | some x =>
        if x.st ≠ .sealed' then s.complete c .state
        else if !s.placeOk g (leAt d 16 3) (nbits (leAt d 19 3) 16 0) (leAt d 22 4) x then s.complete c .range
        else
          let s := s.settleGroup g
          if 16 ≤ (s.group g).queue.length then s.complete c .queueFull
          else
            let handle := (s.sto.handle + 1) % 65536
            let pitch := leAt d 16 3
            let q : Placement := ⟨handle, n, (byteAt d 6).testBit 2, s.dLine c.v1 d 8, leAt d 13 3, if pitch = 0 then x.height else pitch,
              nbits (leAt d 19 3) 16 0, BitVec.ofNat 32 (leAt d 22 4), none, none, some c⟩
            { s with sto := { s.sto with handle := handle } }.updGroup g fun k => { k with queue := k.queue ++ [q] })

/-- The placement of a group that is to be resolved now: the first without a start line, once every placement ahead of it
has started (R70); and the placement ahead of it: where none runs, the last that ended and still refers to its section (DESIGN
CHOICE, log 135). -/
def State.toResolve (s : State) (g : Nat) : Option (Placement × Option Placement) :=
  let x := s.group g
  let pick := match x.running, x.queue with
    | true, r :: q :: _ => some (q, some r)
    | false, q :: _ => some (q, x.old.getLast?)
    | _, _ => none
  pick.filter fun k => k.1.start.isNone && !(s.twn.proposals.any fun p =>
    match p.body with
    | .place g' _ h _ _ _ _ _ => g' == g && h == k.1.handle
    | _ => false)

/-- A placement is resolved to a start line, alone or with the partner (R70, R75). -/
def State.resolveTo (s : State) (g : Nat) (q : Placement) (start : Line) : State :=
  s.agree (some start) (.place g q.sec q.handle start q.repeats q.pitch q.origin q.map) q.ctx

/-- A placement that fails its checks leaves its queue (R71). -/
def State.failPlacement (s : State) (g : Nat) (q : Placement) (st : Status) : State :=
  (s.dropPlacement g q.handle).completeOpt q.ctx st

/-- PLACEMENT_RESOLVE (R71, R72). -/
def execPlacementResolve (g : Nat) (s : State) : Out :=
  let s := s.settleGroup g
  if 4 ≤ g ∨ s.follower then .next s
  else
    match s.toResolve g with
    | none => .next s
    | some (q, ahead) =>
      let b := s.groupBegun g
      if q.isNext then .next (s.resolveTo g q (nextStart (if (s.group g).running then ahead else none) b))
      else if (ahead.map fun r => lineLe q.given (r.start.getD 0)).getD false then .next (s.failPlacement g q .order)
      else if lineLe q.given b then .next (s.failPlacement g q .epochPast)
      else .next (s.resolveTo g q q.given)

/-- CANCEL_PLACEMENT (R74). A further CANCEL of the running placement keeps the end line that the first has fixed (DESIGN CHOICE,
log 135). -/
def execCancelPlacement (ring : Nat) (d : Bytes) (s : State) : Out :=
  .next (s.descriptor ring d 4 (fun d => byteAt d 4 == 1) fun s c =>
    s.storeGate c fun s =>
      let g := nbits (byteAt d 5) 1 0
      let h := leAt d 6 2
      let s := s.settleGroup g
      let x := s.group g
      match x.running, x.queue with
      | true, r :: t =>
        if r.handle = h then
          let lc := r.fin.getD (upTo64 (s.groupBegun g + 256))
          let next := (t.head?.bind (·.start)).filter fun a => lineLe a lc
          s.agree (some (next.getD lc)) (.cancelPlacement g h) (some c)
        else if t.any fun q => q.handle == h then s.agree none (.cancelPlacement g h) (some c)
        else s.complete c .state
      | _, q => if q.any fun k => k.handle == h then s.agree none (.cancelPlacement g h) (some c) else s.complete c .state)

end Sys2Proof.Machine
end

