-- ==== Sys2Proof/Machine/Loads.lean ====
section
/-! DEFINITION. LOAD_TABLE and READ_TABLE of every kind, and the loads that wait (R131 to R140, R149 to R156, R173, R291,
R308, R313, R599). -/

namespace Sys2Proof.Machine

/-- A body CRC is wrong (R140, R173, R308): counted in the kind's own way; a Transit load raises TRN.TABLE_CRC. -/
def State.tableCrc (s : State) (c : Ctx) (k t : Nat) : State :=
  if k = 8 then s.count .WCK_TABLE_CRC_CNT t
  else if 8 < k then s.count .PHO_TABLE_CRC_CNT t
  else
    let ports := if k = 2 then [t] else [3 * t, 3 * t + 1, 3 * t + 2]
    (s.each ports fun s p => s.count .TRN_TABLE_CRC_CNT p).raise .trnTableCrc (BitVec.ofNat 32 (c.tag + c.ring * 65536))
      (if k = 2 then t else 3 * t)

/-- The checks of R599 behind the descriptor's, in their order; a load that passes them arrives (R136). Step 3 holds the lengths against
the descriptor's; a header whose read failed fails step 2 and a body whose read failed step 4 (R356, log 143). On a standby or secondary the ROLE of R313 comes behind step 3 (DESIGN CHOICE, log 135). -/
def State.checkLoad (s : State) (c : Ctx) (d image : Bytes) : State :=
  let next := (byteAt d 4).testBit 0
  let k := byteAt image 0
  let t := byteAt image 1
  let body := image.drop 16
  let length := leAt d 24 4
  if image.length < 16 ∨ !crcOk (image.take 16) then s.complete c .baddesc
  else if !headerOk image length ∨ (8 < k && !next) then s.complete c .range
  else if s.follower && decide (k ≤ 8) then s.complete c .role
  else if image.length ≠ length ∨ leAt image 12 2 ≠ (crc16 body).toNat then (s.tableCrc c k t).complete c .tableCrc
  else if !bodyOk k (leAt image 4 4) body (s.link t).version then s.complete c .range
  else if k = 8 ∧ s.tMin t < longestEntry body then
    (s.raise .wckTooLong (BitVec.ofNat 32 (longestEntry body)) t).complete c .tooLong
  else s.arriveLoad ⟨k, t, if next then none else some (s.dLine c.v1 d 8), leAt image 2 2, body, some c, none⟩

/-- A LOAD_TABLE whose image is of a kind that `mine` accepts. -/
def State.loadTable (s : State) (ring : Nat) (d image : Bytes) (mine : Nat → Bool) : State :=
  s.descriptor ring d 5 (fun _ => mine (byteAt image 0)) fun s c =>
    if s.dev.dev == .held then s.complete c .state
    else
      s.withRead c (leAt d 16 8) (leAt d 24 4) fun s =>
        s.checkLoad c d image

/-- LOAD_TABLE (R599) of a Transit kind, or of a kind that no block knows. -/
def execLoadTable (ring : Nat) (d image : Bytes) (s : State) : Out :=
  .next (s.loadTable ring d image fun k => !(k == 8 || k == 9 || k == 10))

/-- WAVE_LOAD (R155). -/
def execWaveLoad (ring : Nat) (d image : Bytes) (s : State) : Out :=
  .next (s.loadTable ring d image fun k => k == 8)

/-- PHO_TABLE_LOAD (R308). -/
def execPhoTableLoad (ring : Nat) (d image : Bytes) (s : State) : Out :=
  .next (s.loadTable ring d image fun k => k == 9 || k == 10)

/-- A raise that Lantern has still to handle holds the loop already: the hold runs from the raise (R412). -/
def State.holdRaised (s : State) : Bool := s.ltn.raises.any fun x => x.action == 13 && !x.forced

/-- The colour loop commits nothing: it is frozen or held, the device is HELD, or the module is a standby or secondary in MIRROR or
DUAL (R304, R306, R405, R412). -/
def State.loopStill (s : State) : Bool :=
  s.on .PHO_LOOP_CTRL_freeze || !s.pho.loop.holds.isEmpty || s.holdRaised || s.dev.dev == .held || (s.follower && decide (2 ≤ s.twinMode))

/-- WAITING_LOAD_COMMIT (R136): the first load that waits for a kind and target goes on once nothing is ahead of it. A load of the
loop stays while the loop commits nothing (R304), and those behind it with it, since they are committed in the order received. -/
def execWaitingLoadCommit (kind target : Nat) (s : State) : Out :=
  match s.waits.find? fun w => w.kind == kind && w.target == target with
  | none => .next s
  | some w =>
    if s.tabBusy kind target || (w.loop.isSome && s.loopStill) then .next s
    else .next ({ s with waits := s.waits.erase w }.startLoad w)

/-- The fields of a READ_TABLE are those of its kind (R131, R132, R599). For THRESH any count that some matrix has is taken, and the
image has the table's own (DESIGN CHOICE, log 135). -/
def readOk (k t first count : Nat) : Bool :=
  kindKnown k && decide (t < kindTargets k) && (k == 2 || first == 0) &&
    match k with
    | 1 => count == 256
    | 2 => decide (1 ≤ count) && decide (first + count ≤ 32768)
    | 3 => decide (1 ≤ count) && decide (count ≤ 65536)
    | 4 => count == 8
    | 5 => count == 16384
    | 6 => count == 3
    | 8 => count == 64
    | 9 => decide (1 ≤ count) && decide (count ≤ 64)
    | _ => count == 1024

/-- Entries of a table body of a kind (R132, R149, R291, R308). -/
def bodyCount (k : Nat) (body : Bytes) : Nat :=
  match k with
  | 1 => 256
  | 3 => (body.length - 16) / 16
  | 4 => 8
  | 5 => 16384
  | 6 => 3
  | 8 => 64
  | 9 => body.length / 32
  | _ => 1024

/-- The image that READ_TABLE writes, and the line since which the table has been in force (R134). -/
def State.readImage (s : State) (k t first count : Nat) : Bytes × Line :=
  let ports := if k = 2 ∨ k = 8 then [t] else [3 * t, 3 * t + 1, 3 * t + 2]
  let l := s.highestOf ports
  let x := s.tab k t
  let (v, since) := match x.pend with
    | some (e, v) => if k ≤ 8 ∧ lineLe e l then (v, e) else (x.cur, x.since)
    | none => (x.cur, x.since)
  if k = 2 then
    (imageOf 2 t first count ((List.range count).flatMap fun i => toLe 2 (corrWord v.words (first + i)).toNat), since)
  else (imageOf k t 0 (bodyCount k v.bytes) v.bytes, since)

/-- READ_TABLE (R134, R377): served in every state and on both modules of a pair. -/
def execReadTable (ring : Nat) (d : Bytes) (s : State) : Out :=
  .next (s.descriptor ring d 6 (fun _ => true) fun s c =>
    let k := byteAt d 4
    let t := byteAt d 5
    if !readOk k t (leAt d 6 2) (leAt d 8 4) then s.complete c .range
    else
      let (image, since) := s.readImage k t (leAt d 6 2) (leAt d 8 4)
      if leAt d 20 4 < image.length then s.complete c .tooSmall
      else s.withWrite c (leAt d 12 8) image.length fun s => (s.hostWrite (leAt d 12 8) image true).reportLine (some c) since)

end Sys2Proof.Machine
end

