-- ==== Sys2Proof/Machine/EyeOps.lean ====
section
/-! DEFINITION. The Eyepiece's framebuffers, commits and signature (R522 to R537). -/

namespace Sys2Proof.Machine

/-- Bytes of a pixel of a framebuffer format (R526). -/
def fmtBytes (fmt : Nat) : Nat := if fmt = 0 then 2 else if fmt = 1 then 3 else 4

/-- The bytes of one pixel, lowest address first (R526). -/
def pixelBytes (fmt : Nat) (swap : Bool) (r g b : Nat) : Bytes :=
  let l : Bytes := match fmt with
    | 0 => toLe 2 (r / 8 * 2048 + g / 4 * 32 + b / 8)
    | 1 => [BitVec.ofNat 8 b, BitVec.ofNat 8 g, BitVec.ofNat 8 r]
    | _ => [BitVec.ofNat 8 b, BitVec.ofNat 8 g, BitVec.ofNat 8 r, 0]
  if swap then l.reverse else l

/-- The colour that the bytes of a pixel spell (R526, R527). -/
def pixelRgb (fmt : Nat) (swap : Bool) (bytes : Bytes) : List Nat :=
  let l := if swap then bytes.reverse else bytes
  match fmt with
  | 0 =>
    let v := leAt l 0 2
    let r := v / 2048
    let g := v / 32 % 64
    let b := v % 32
    [r * 8 + r / 4, g * 4 + g / 16, b * 8 + b / 4]
  | _ => [byteAt l 2, byteAt l 1, byteAt l 0]

/-- One step of the signature over one bit (R535). -/
def sigBit (r : Word) (b : Bool) : Word := if r.msb != b then (r <<< 1) ^^^ 0x04C11DB7 else r <<< 1

/-- The signature over the bytes of a line (R535). -/
def sigBytes (r : Word) (l : List Nat) : Word :=
  l.foldl (fun r v => (byteBits (BitVec.ofNat 8 v)).foldl sigBit r) r

/-- The Eyepiece scans: enabled, and the PIX domain is out of reset (R525). -/
def State.scanning (s : State) : Bool := s.on .EYE_CTRL_en && s.clk.pixLock && s.dev.dev != .dark

/-- The display lands while nothing is scanned: DE, HS and VS at their inactive levels and the data at 0; DISP_PCLK is low then (R525). -/
def State.dispIdle (s : State) : DispClock := ⟨[0, 0, 0], s.on .EYE_CTRL_de_pol, s.on .EYE_CTRL_hs_pol, s.on .EYE_CTRL_vs_pol⟩

/-- Clock `x` of line `y` (R523): DE on the active pixels, whose colours `rgb` lists, HS and VS in their ranges, and 0 in blanking. -/
def State.lineClock (s : State) (y : Nat) (rgb : List Nat) (x : Nat) : DispClock :=
  let active := decide (x < s.get .EYE_HTIM_lo) && decide (y < s.get .EYE_VTIM_lo)
  let within (a w k : Nat) : Bool := decide (a ≤ k) && decide (k < a + w)
  ⟨if active then (rgb.drop (3 * x)).take 3 else [0, 0, 0], active != s.on .EYE_CTRL_de_pol,
    within (s.get .EYE_HSYNC_hi) (s.get .EYE_HSYNC_lo) x != s.on .EYE_CTRL_hs_pol,
    within (s.get .EYE_VSYNC_hi) (s.get .EYE_VSYNC_lo) y != s.on .EYE_CTRL_vs_pol⟩

/-- The display lands through line `y` (R522, R523). -/
def State.lineLands (s : State) (y : Nat) (rgb : List Nat) : DispLine :=
  ⟨s.on .EYE_CTRL_pclk_edge, (List.range (s.get .EYE_HTIM_hi)).map (s.lineClock y rgb)⟩

/-- A commit arrives in PIX: it takes effect at the next line 0, or the one after where the commit point has passed, and
replaces one that waits (R531, R532). -/
def State.eyeArrive (s : State) (f : FrameBuf) : State :=
  if !s.scanning then s
  else
    let s := if s.eye.pending.isSome then s.count .EYE_SUPERSEDE_CNT else s
    { s with eye := { s.eye with pending := some (f, if s.eye.pastCommit then 2 else 1) } }

/-- The framebuffer that S2 of a camera port would write is being scanned out or waits to be (R533). -/
def State.s2Blocked (s : State) (c addr : Nat) : Bool :=
  s.on .EYE_CTRL_src && s.get .EYE_CTRL_cam == c && s.scanning &&
    (((s.eye.shown.map (·.addr)) == some addr) || ((s.eye.pending.map (·.1.addr)) == some addr))

/-- S2 offers a framebuffer: a commit where its port is the source (R528). -/
def State.s2Offer (s : State) (c : Nat) (f : FrameBuf) : State :=
  if s.on .EYE_CTRL_src && s.get .EYE_CTRL_cam == c then s.eyeArrive f else s

/-- The source is live (R536). -/
def State.eyeLive (s : State) : Bool :=
  if s.on .EYE_CTRL_src then
    let c := s.get .EYE_CTRL_cam
    s.on .PHO_CTRL_en c && s.on .PHO_SCTRL_en c 2
  else s.on .EYE_CTRL_live

/-- The border colour (EYE_BORDER). -/
def State.border (s : State) : List Nat :=
  let v := (s.rd .EYE_BORDER).toNat
  [v / 65536 % 256, v / 256 % 256, v % 256]

/-- Bytes of a line that is shown of a framebuffer. -/
def State.lineLength (s : State) (f : FrameBuf) : Nat := min f.width (s.get .EYE_HTIM_lo) * fmtBytes f.fmt

/-- The bytes of line y of a framebuffer: as they were fetched one line ahead, or as memory holds them where the line fetched is another
(R530). -/
def State.lineBytes (s : State) (f : FrameBuf) (y : Nat) : Bytes :=
  let a := f.addr + y * f.stride
  match s.eye.fetched with
  | some (b, l) => if b = a ∧ l.length = s.lineLength f then l else Memory.reads Memory.dramFill s.drm.mem a (s.lineLength f)
  | none => Memory.reads Memory.dramFill s.drm.mem a (s.lineLength f)

/-- The line that is fetched while another is driven: the next one of the framebuffer in force, or line 0 of the one that will be (R530,
R531). -/
def State.nextLine (s : State) : Option (FrameBuf × Nat) :=
  let y := s.eye.line + 1
  let f := if y < s.get .EYE_VTIM_hi then s.eye.shown else match s.eye.pending with
    | some (f, 1) => some f
    | _ => s.eye.shown
  let y := if y < s.get .EYE_VTIM_hi then y else 0
  f.bind fun f => if y < min f.height (s.get .EYE_VTIM_lo) then some (f, y) else none

/-- The next display line is fetched (R530). -/
def State.fetchLine (s : State) : State :=
  { s with eye := { s.eye with fetched := s.nextLine.map fun x =>
      (x.1.addr + x.2 * x.1.stride, Memory.reads Memory.dramFill s.drm.mem (x.1.addr + x.2 * x.1.stride) (s.lineLength x.1)) } }

/-- A request of source 24 is of the line that is being fetched (R530). -/
def State.eyeFetches (s : State) (addr : Nat) : Bool :=
  s.eye.fetched.any fun e => decide (addr < e.1 + e.2.length) && decide (e.1 < addr + 256)

/-- Active pixel x of line y, of which `l` has the bytes, or none outside the shown area (R526, R529). -/
def State.shownPixel (s : State) (l : Bytes) (y x : Nat) : Option (List Nat) :=
  match s.eye.shown with
  | none => none
  | some f =>
    if x < f.width ∧ y < f.height then
      let n := fmtBytes f.fmt
      some (pixelRgb f.fmt f.swap ((l.drop (x * n)).take n))
    else none

/-- The pixels of a line from `x` on, where the fetch has delivered none from `missing` on (R529, R534). -/
def State.linePixels (s : State) (l : Bytes) (y : Nat) (missing : Option Nat) : Nat → Nat → Option (List Nat) → List (List Nat)
  | 0, _, _ => []
  | n + 1, x, last =>
    let under : Bool := match missing, s.eye.shown with
      | some m, some f => decide (m ≤ x) && decide (m < f.width) && decide (y < f.height)
      | _, _ => false
    let p := if under then last.getD s.border else (s.shownPixel l y x).getD s.border
    p :: s.linePixels l y missing n (x + 1) (some p)

end Sys2Proof.Machine
end

