-- ==== Sys2Proof/Machine/PhoOps.lean ====
section
/-! DEFINITION. The Photometer's arithmetic and streams: the web under a camera row, reconstruction, S1, S2 and S3, and
what the control strip measures (R269 to R296). -/

namespace Sys2Proof.Machine

/-- A camera port. -/
def State.cam (s : State) (c : Nat) : Camera := s.pho.cams.getD c Camera.reset

/-- A change of one camera port. -/
def State.updCam (s : State) (c : Nat) (f : Camera → Camera) : State :=
  { s with pho := { s.pho with cams := upd c f s.pho.cams } }

/-- A change of the open camera frame of a port. -/
def State.updFrame (s : State) (c : Nat) (f : CamFrame → CamFrame) : State :=
  s.updCam c fun x => { x with frame := x.frame.map f }

/-! ### Flags of a camera frame (R290) -/

def flagShort : BitVec 7 := 1
def flagLong : BitVec 7 := 2
def flagOverflow : BitVec 7 := 4
def flagPartial : BitVec 7 := 8
def flagUncertain : BitVec 7 := 16
def flagCalibration : BitVec 7 := 32
def flagCompressed : BitVec 7 := 64

/-- A camera frame carries one of the flags named. -/
def CamFrame.has (f : CamFrame) (m : BitVec 7) : Bool := f.flags &&& m != 0

/-! ### The web under a camera frame (R269, R270) -/

/-- The two's complement value of a register word. -/
def signedWord (w : Word) : Int := w.toInt

/-- P_exp of a camera frame latched at P_fs (R269); v is 0 while the web is stopped (R270). -/
def State.expPos (s : State) (c : Nat) (pfs : Pos) : Pos :=
  let v : Rat := if s.mer.est.stopped then 0 else s.mer.est.v
  pfs - BitVec.ofInt 48 (roundHalfUp (v * ((s.rd .PHO_FS_LAT c).toNat : Rat)))

/-- The line that camera row y images, as a signed number of lines (R269). -/
def State.rowLine (s : State) (c : Nat) (pexp : Pos) (y : Nat) : Int :=
  let d := sdiff pexp ((s.rd .PHO_CAM_POS c).setWidth 48)
  (d * 65536 - y * signedWord (s.rd .PHO_ROW_PITCH c)) / (256 * 65536)

/-- The web column that pixel column x images (R269). -/
def State.pixelColumn (s : State) (c x : Nat) : Int :=
  (signedWord (s.rd .PHO_COL_ORG c) * 256 + x * (s.rd .PHO_COL_PITCH c).toNat + 32768) / 65536

/-- The lowest and the highest of a list of numbers. -/
def extent : List Int → Option (Int × Int)
  | [] => none
  | x :: t => some (t.foldl min x, t.foldl max x)

/-! ### Reconstruction (R281 to R285) -/

/-- Site types of the 16 sites of the mosaic tile (R282). -/
def State.mosaic (s : State) (c : Nat) : List Nat :=
  (List.range 16).map fun i =>
    if i < 10 then nbits (s.rd .PHO_MOSAIC_LO c).toNat (3 * i + 2) (3 * i)
    else nbits (s.rd .PHO_MOSAIC_HI c).toNat (3 * (i - 10) + 2) (3 * (i - 10))

/-- Site type at pixel (x, y). -/
def siteAt (m : List Nat) (x y : Nat) : Nat := m.getD (4 * (y % 4) + x % 4) 0

/-- Bits of a sample of a pixel format (R265). -/
def sampleBits (fmt : Nat) : Nat := 10 + 2 * fmt

/-- A sample scaled to 16 bits (R281). -/
def scaleSample (fmt v : Nat) : Nat := v <<< (6 - 2 * fmt)

/-- A mean of whole numbers, rounded half up. -/
def meanUp (sum n : Nat) : Nat := (2 * sum + n) / (2 * n)

/-- Samples of a type in the square of a radius around a pixel, inside the frame: their sum and number (R283). -/
def around (m : List Nat) (g : List (List Nat)) (w x y r t : Nat) : Nat × Nat :=
  (List.range (2 * r + 1)).foldl (fun a dy =>
    (List.range (2 * r + 1)).foldl (fun a dx =>
      if x + dx < r ∨ y + dy < r ∨ w + r ≤ x + dx ∨ g.length + r ≤ y + dy then a
      else if siteAt m (x + dx - r) (y + dy - r) ≠ t then a
      else (a.1 + (g.getD (y + dy - r) []).getD (x + dx - r) 0, a.2 + 1)) a) (0, 0)

/-- One channel of a pixel (R283). -/
def demosaic (m : List Nat) (g : List (List Nat)) (w x y t : Nat) : Nat :=
  if siteAt m x y = t then (g.getD y []).getD x 0
  else
    let a := around m g w x y 1 t
    if a.2 ≠ 0 then meanUp a.1 a.2
    else
      let b := around m g w x y 2 t
      if b.2 ≠ 0 then meanUp b.1 b.2 else 0

/-- A value clamped to 16 bits. -/
def clamp16 (x : Int) : Nat := (max 0 (min 65535 x)).toNat

/-- The crosstalk matrix applied where the mosaic contains IR (R284). -/
def State.uncross (s : State) (c : Nat) (m : List Nat) (px : List Nat) : List Nat :=
  if !m.contains 4 then px
  else
    let u := [px.getD 0 0, px.getD 1 0, px.getD 2 0, px.getD 4 0]
    let coef (i j : Nat) : Int := ((s.rd .PHO_XTALK c (4 * i + j)).extractLsb' 0 16).toInt
    let row (i : Nat) : Nat := clamp16 ((((List.range 4).map fun j => coef i j * (u.getD j 0 : Int)).sum) / 4096)
    [row 0, row 1, row 2, px.getD 3 0, px.getD 4 0]

/-- The scaled samples of a camera frame less their black level; the subtraction is bypassed for dark frames (R281,
R307). -/
def State.samplesOf (s : State) (c : Nat) (rows : List (List Nat)) (dark : Bool) : List (List Nat) :=
  let m := s.mosaic c
  let fmt := s.get .PHO_CTRL_fmt c
  rows.zipIdx.map fun (r, y) => r.zipIdx.map fun (v, x) =>
    scaleSample fmt v - (if dark then 0 else s.get .PHO_BLACK_level c (siteAt m x y))

/-- The pixels of a crop, row by row: five linear channels each (R281 to R284). `crop` is x0, y0, w, h. -/
def State.reconstruct (s : State) (c : Nat) (rows : List (List Nat)) (dark : Bool) (crop : Nat × Nat × Nat × Nat) :
    List (List (List Nat)) :=
  let m := s.mosaic c
  let g := s.samplesOf c rows dark
  let w := s.get .PHO_SIZE_width c
  let (x0, y0, cw, ch) := crop
  ((List.range ch).filter fun j => decide (y0 + j < rows.length)).map fun j =>
    (List.range cw).map fun i =>
      s.uncross c m ((List.range 5).map fun t => demosaic m g w (x0 + i) (y0 + j) t)

/-- The plane signal of a bar at a pixel (R285). -/
def State.planeSignal (s : State) (b : Nat) (px : List Nat) : Nat :=
  clamp16 ((((List.range 5).map fun t =>
    ((s.rd .PHO_PLANE_W b t).extractLsb' 0 16).toInt * (px.getD t 0 : Int)).sum) / 16384)

/-! ### Streams (R286 to R290) -/

/-- The crop of a stream: x0, y0, w, h. -/
def State.crop (s : State) (c st : Nat) : Nat × Nat × Nat × Nat :=
  (s.get .PHO_SCROP0_lo c st, s.get .PHO_SCROP0_hi c st, s.get .PHO_SCROP1_lo c st, s.get .PHO_SCROP1_hi c st)

/-- Output width and height of a stream (R287). -/
def State.outSize (s : State) (c st : Nat) : Nat × Nat :=
  let (_, _, w, h) := s.crop c st
  (max 1 (w * 256 / max 1 (s.get .PHO_SSCALE_lo c st)), max 1 (h * 256 / max 1 (s.get .PHO_SSCALE_hi c st)))

/-- A stream is enabled. -/
def State.streamOn (s : State) (c st : Nat) : Bool := s.on .PHO_SCTRL_en c st

/-- One channel of a scaled crop at output pixel `i`: the crop's own pixel at 1/1, a uniform crop's value, and otherwise
free (R287, log 10). -/
def scaledValue (plane : List Nat) (fx fy i : Nat) : Nat :=
  if fx = 256 ∧ fy = 256 then plane.getD i 0
  else match plane with
    | [] => 0
    | v :: t => if t.all (· == v) then v else Config.scaled plane (fx + 65536 * fy) i % 65536

/-- The pixels of S1 or S2 as far as lines have been received: channels R, G, B, C and IR of each, row by row, and the
number of output rows (R286 to R288). -/
def State.streamPixels (s : State) (c st : Nat) (rows : List (List Nat)) (dark : Bool) : List (List Nat) × Nat :=
  let img := s.reconstruct c rows dark (s.crop c st)
  let fx := s.get .PHO_SSCALE_lo c st
  let fy := s.get .PHO_SSCALE_hi c st
  let (ow, oh) := s.outSize c st
  let n := min oh (img.length * 256 / max 1 fy)
  let flat := img.flatten
  let planes := (List.range 5).map fun t => flat.map fun (px : List Nat) => px.getD t 0
  ((List.range (n * ow)).map fun i => planes.map fun pl => scaledValue pl fx fy i, n)

/-- The port's display curve applied to a 16-bit value (R286, R308). -/
def State.displayByte (s : State) (c v : Nat) : Nat := byteAt (s.tab 10 c).cur.bytes (v / 64)

/-- Bytes of an S1 pixel (R286). -/
def s1Bytes (fmt : Nat) : Nat := if fmt = 0 then 6 else if fmt = 1 then 8 else 3

/-- One S1 pixel (R286). -/
def State.s1Pixel (s : State) (c fmt : Nat) (px : List Nat) : Bytes :=
  let ch (t : Nat) : Nat := px.getD t 0
  if fmt = 0 then toLe 2 (ch 0) ++ toLe 2 (ch 1) ++ toLe 2 (ch 2)
  else if fmt = 1 then toLe 2 (ch 0) ++ toLe 2 (ch 1) ++ toLe 2 (ch 2) ++ toLe 2 (ch 4)
  else [0, 1, 2].map fun t => BitVec.ofNat 8 (s.displayByte c (ch t))

/-- One S2 pixel (R286, R526). -/
def State.s2Pixel (s : State) (c fmt : Nat) (swap : Bool) (px : List Nat) : Bytes :=
  let ch (t : Nat) : Nat := s.displayByte c (px.getD t 0)
  pixelBytes fmt swap (ch 0) (ch 1) (ch 2)

/-- Pixel (x, y) is clipped: a channel at 65,535, or the raw sample at full scale (R290). -/
def clippedPixel (full : Nat) (rows : List (List Nat)) (x y : Nat) (px : List Nat) : Bool :=
  px.any (· == 65535) || (rows.getD y []).getD x 0 == full

/-- Clipped flags of the pixels of a crop, row by row. -/
def State.clipped (s : State) (c : Nat) (rows : List (List Nat)) (dark : Bool) (crop : Nat × Nat × Nat × Nat) :
    List (List Bool) :=
  let full := 2 ^ sampleBits (s.get .PHO_CTRL_fmt c) - 1
  (s.reconstruct c rows dark crop).zipIdx.map fun (r, j) => r.zipIdx.map fun (px, i) =>
    clippedPixel full rows (crop.1 + i) (crop.2.1 + j) px

/-- The 64-byte header that S1 buffers and S3 records share (R290); the imaged lines of a frame without a line are free. -/
def State.streamHeader (s : State) (c st len : Nat) (f : CamFrame) (flags : BitVec 7) (ow oh clip : Nat) : Bytes :=
  let ks := (List.range f.rows.length).map fun y => s.rowLine c f.pexp y
  let (lo, hi) : Nat × Nat := match extent ks with
    | some (a, b) => ((BitVec.ofInt 32 a).toNat, (BitVec.ofInt 32 b).toNat)
    | none => let v := (Config.freeWord s.free).toNat
      (v % 2 ^ 32, v / 2 ^ 32)
  toLe 4 len ++ [BitVec.ofNat 8 c, BitVec.ofNat 8 st] ++ toLe 2 f.number.toNat
    ++ [BitVec.ofNat 8 f.expId, flags.setWidth 8] ++ toLe 2 f.rows.length ++ toLe 2 ow ++ toLe 2 oh
    ++ toLe 6 f.pfs.toNat ++ [0, 0] ++ toLe 4 f.mono.toNat ++ toLe 4 lo ++ toLe 4 hi ++ toLe 4 clip
    ++ List.replicate 24 0

/-- The fields of a CAPBUF descriptor are in their ranges (R376). -/
def capbufOk (d : Bytes) : Bool :=
  let len := leAt d 16 4
  leAt d 8 8 % 64 == 0 && decide (64 ≤ len) && len % 64 == 0

/-- The result of a CAPBUF (R382). -/
def capResult (bytes : Nat) (f : CamFrame) (c st : Nat) : Nat :=
  bytes + f.number.toNat * 2 ^ 32 + c * 2 ^ 48 + st * 2 ^ 50

/-- The pixel bytes of an S1 buffer (R286, R288). -/
def State.s1Body (s : State) (c : Nat) (f : CamFrame) (dark : Bool) : Bytes :=
  let fmt := s.get .PHO_SCTRL_fmt c 1
  let raw := (s.streamPixels c 1 f.rows dark).1.flatMap (s.s1Pixel c fmt)
  if s.on .PHO_SCTRL_compress c 1 then Config.captureCode raw (s.outSize c 1).1 (s.get .STO_CTRL_capture_effort) else raw

/-- S1 takes a buffer for a camera frame that opens; one too small for it is given back (R288). -/
def State.takeS1 (s : State) (c : Nat) : State × Option (Ctx × Nat × Nat) :=
  if !s.streamOn c 1 then (s, none)
  else
    let (t, b) := s.takeBuffer (s.get .PHO_SCTRL_ring c 1) 9 capbufOk
    match b with
    | none => (t.count .PHO_S1_DROP_CNT c, none)
    | some (ctx, d) =>
      let (ow, oh) := s.outSize c 1
      let need := 64 + ow * oh * s1Bytes (s.get .PHO_SCTRL_fmt c 1)
      if leAt d 16 4 < need ∧ !s.on .PHO_SCTRL_compress c 1 then
        ((t.count .PHO_S1_DROP_CNT c).complete ctx .tooSmall, none)
      else (t, some (ctx, leAt d 8 8, leAt d 16 4))

/-- S1 completes its buffer with the lines received (R288). -/
def State.closeS1 (s : State) (c : Nat) (f : CamFrame) (dark : Bool) : State :=
  match f.s1 with
  | none => s
  | some (ctx, addr, len) =>
    let comp := s.on .PHO_SCTRL_compress c 1
    let body := s.s1Body c f dark
    let n := 64 + body.length
    let (ow, oh) := s.outSize c 1
    let clip := ((s.clipped c f.rows dark (s.crop c 1)).flatten.filter id).length
    let head := s.streamHeader c 1 n f (if comp then f.flags ||| flagCompressed else f.flags) ow oh clip
    if len < n then (s.count .PHO_S1_DROP_CNT c).complete ctx .tooSmall
    else s.withWrite ctx addr n fun s => (s.hostWrite addr (head ++ body) true).complete ctx .ok (capResult n f c 1)

/-- The rows or columns of zone z of eight (R290). -/
def zoneSpan (o w z : Nat) : Nat × Nat := (o + z * w / 8, o + (z + 1) * w / 8)

/-- The 16 bytes of one zone of S3 (R290); the means of a zone without a pixel are free. -/
def zoneBytes (img : List (List (List Nat))) (clip : List (List Bool)) (w h z free : Nat) : Bytes :=
  let (xa, xb) := zoneSpan 0 w (z % 8)
  let (ya, yb) := zoneSpan 0 h (z / 8)
  let px := ((img.drop ya).take (yb - ya)).flatMap fun (r : List (List Nat)) => (r.drop xa).take (xb - xa)
  let cl := ((((clip.drop ya).take (yb - ya)).flatMap fun (r : List Bool) => (r.drop xa).take (xb - xa)).filter id).length
  ((List.range 5).flatMap fun t =>
    toLe 2 (if px.isEmpty then (Config.freeWord (free + 8 * z + t)).toNat
      else meanUp (px.map fun (p : List Nat) => p.getD t 0).sum px.length))
    ++ toLe 2 (min cl 65535) ++ [0, 0, 0, 0]

/-- S3 posts the statistics record of a camera frame (R290). -/
def State.closeS3 (s : State) (c : Nat) (f : CamFrame) (dark : Bool) : State :=
  if !s.streamOn c 3 then s
  else
    let (t, b) := s.takeBuffer (s.get .PHO_SCTRL_ring c 3) 9 capbufOk
    match b with
    | none => t.count .PHO_S3_DROP_CNT c
    | some (ctx, d) =>
      if leAt d 16 4 < 1088 then (t.count .PHO_S3_DROP_CNT c).complete ctx .tooSmall
      else
        let crop := s.crop c 3
        let (_, _, w, h) := crop
        let img := s.reconstruct c f.rows dark crop
        let clip := s.clipped c f.rows dark crop
        let head := s.streamHeader c 3 1088 f f.flags w h ((clip.flatten.filter id).length)
        let zones := (List.range 64).flatMap fun z => zoneBytes img clip w h z (s.free + 1)
        let t := { t with free := t.free + 513 }
        t.withWrite ctx (leAt d 8 8) 1088 fun t =>
          (t.hostWrite (leAt d 8 8) (head ++ zones) true).complete ctx .ok (capResult 1088 f c 3)

/-- DRAM address of the framebuffer that S2 writes next (R289). -/
def State.s2Addr (s : State) (c : Nat) : Nat :=
  (if (s.cam c).second then (s.rd .PHO_SADDR1 c).toNat else (s.rd .PHO_SADDR0 c).toNat) * 16

/-- S2 writes its framebuffer and offers it, unless the camera frame is SHORT or OVERFLOW (R289). -/
def State.closeS2 (s : State) (c : Nat) (f : CamFrame) (dark : Bool) : State :=
  if !f.writeS2 then s
  else
    let fmt := s.get .PHO_SCTRL_fmt c 2
    let swap := s.on .PHO_SCTRL_swap c 2
    let (ow, oh) := s.outSize c 2
    let a := s.s2Addr c
    let bytes := (s.streamPixels c 2 f.rows dark).1.flatMap (s.s2Pixel c fmt swap)
    let s := { s with drm := { s.drm with mem := Memory.writes Memory.dramFill s.drm.mem a bytes } }
    if f.has (flagShort ||| flagOverflow) then s
    else (s.updCam c fun x => { x with second := !x.second }).s2Offer c ⟨a, ow * fmtBytes fmt, fmt, swap, ow, oh⟩

/-! ### The control strip (R293 to R297) -/

/-- The ports of a bar that print some column from c0 to below c1. -/
def State.portsOver (s : State) (b c0 c1 : Nat) : List Nat :=
  ((s.barHeads s.mer.geom b).filterMap fun (p, _, o, n) =>
    if o < c1 ∧ (c0 : Int) < o + n then some p else none).eraseDups

/-- The epoch line of the newest committed change of a kind and target; none before the first. -/
def State.newestChange (s : State) (k t : Nat) : Option Line :=
  (s.tabs.find? fun x => x.kind == k && x.target == t).map fun x => (x.pend.map (·.1)).getD x.since

/-- A cell whose lowest imaged line is `l` is settled (R297). -/
def State.settled (s : State) (patch : Bool) (b c0 c1 : Nat) (l : Line) : Bool :=
  let after (k t : Nat) : Bool := match s.newestChange k t with
    | some e => lineLe e l
    | none => true
  ((s.portsOver b c0 c1).all fun p => after 2 p) && (!patch || after 1 b)

/-- Every list entry but the first two and the last two. -/
def inner {α : Type} (l : List α) : List α := (l.drop 2).dropLast.dropLast

/-- A mean of whole numbers. -/
def ratMean (l : List Nat) : Rat := (l.sum : Rat) / (l.length : Rat)

/-- The mean of a list of rationals. -/
def ratMean' (l : List Rat) : Rat := l.sum / (l.length : Rat)

/-- Ladder errors of a cell: column and error (R295). `sig` gives y over the cell's pixels of one column number. -/
def ladderErrors (cols : List Int) (q : Nat) (sig : List (Int × Nat)) : List (Int × Rat) :=
  let ms := cols.map fun c =>
    let near := (sig.filter fun e => decide (4 * (e.1 - c).natAbs ≤ q)).map (·.2)
    (c, if near.isEmpty then none else some (ratMean near))
  ms.filterMap fun (c, m) =>
    match m with
    | none => none
    | some m =>
      let below := ((ms.filter fun e => decide (e.1 < c)).filterMap (·.2)).reverse.take 16
      let above := ((ms.filter fun e => decide (c < e.1)).filterMap (·.2)).take 16
      let l := below ++ above
      if l.length < 4 then none else some (c, m - ratMean' l)

/-- The nozzle to which a ladder error of column c over lines `ls` of a bar is attributed: port and port nozzle index
(R296). -/
def State.attribute (s : State) (b : Nat) (ls : List Line) (c : Int) : Option (Nat × Nat) :=
  match ls with
  | [] => none
  | l0 :: _ =>
    let heads := (s.headViews b l0).filter fun h => (h.nozzleAt c).isSome
    let pick : Option HeadView := match heads with
      | [] => none
      | [h] => some h
      | a :: d :: _ =>
        let toA := (ls.filter fun l => stitchToA (s.tabAt 5 b l).bytes a d l c).length
        some (if ls.length ≤ 2 * toA then a else d)
    pick.bind fun h => (h.nozzleAt c).bind fun n => if isOut (h.word n) then none else some (h.port, h.base + n)

/-- A sample added to those gathered. -/
def addSample (l : List Samples) (port idx : Nat) (v : Rat) : List Samples :=
  if l.any fun x => x.port == port && x.idx == idx then
    l.map fun (x : Samples) => if x.port = port ∧ x.idx = idx then { x with sum := x.sum + v, n := x.n + 1 } else x
  else l ++ [⟨port, idx, v, 1⟩]

/-- Repetition start lines of a placement at which a cell of lines o0 to o1 − 1 lies within the imaged lines, as signed
line numbers (R293). -/
def Placement.imagedAt (p : Placement) (o0 o1 : Nat) (lo hi : Int) : List Int :=
  match p.start with
  | none => []
  | some a =>
    let first := lo + sdiff a (BitVec.ofInt 40 lo)
    let i0 : Nat := (max 0 ((lo - o0 - first + p.pitch - 1) / p.pitch)).toNat
    let n : Nat := (max 0 ((hi + 1 - o1 - first) / p.pitch + 1)).toNat
    ((List.range (n - i0)).map (· + i0)).filterMap fun i =>
      if p.repeats ≠ 0 ∧ p.repeats ≤ i then none else some (first + i * p.pitch)

/-- One imaged instance of a cell measured into the loop (R293 to R297). `rows` gives the signed line and the pixels of each
row of the crop, `cols` the web columns of its pixels. -/
def State.measureCell (s : State) (c : Nat) (cell : Bytes) (rows : List (Int × List (List Nat))) (cols : List Int)
    (r : Int) : State :=
  let b := byteAt cell 1
  let o0 := leAt cell 8 4
  let o1 := leAt cell 12 4
  let c0 := leAt cell 16 4
  let c1 := leAt cell 20 4
  let patch := byteAt cell 0 == 1
  let q := byteAt cell 3
  if !patch && decide (q * 65536 < 2 * (s.rd .PHO_COL_PITCH c).toNat) then s.count .PHO_CELL_SKIP_CNT c
  else
    let inCell := rows.filter fun e => decide (r + o0 ≤ e.1) && decide (e.1 < r + o1)
    let sig : List (Int × Nat) := (inner inCell).flatMap fun e =>
      (inner ((cols.zip e.2).filter fun (x : Int × List Nat) => decide ((c0 : Int) ≤ x.1) && decide (x.1 < (c1 : Int)))).map fun x =>
        (x.1, s.planeSignal b x.2)
    if !s.settled patch b c0 c1 (BitVec.ofInt 40 (r + o0)) then s
    else if patch then
      if sig.isEmpty then s
      else { s with pho := { s.pho with loop := { s.pho.loop with
              tones := addSample s.pho.loop.tones b q (ratMean (sig.map (·.2))) } } }
    else
      let printed := ((List.range (c1 - c0)).map (· + c0)).filter fun x => x % q == byteAt cell 4
      let ls := (List.range (o1 - o0)).map fun i => BitVec.ofInt 40 (r + o0 + i)
      let errs := ladderErrors (printed.map Int.ofNat) q sig
      s.each errs fun s (x, e) =>
        match s.attribute b ls x with
        | some (p, i) => { s with pho := { s.pho with loop := { s.pho.loop with gains := addSample s.pho.loop.gains p i e } } }
        | none => s

/-- A closed camera frame is measured for the loop where it takes part in it (R280, R293). -/
def State.measureFrame (s : State) (c : Nat) (f : CamFrame) : State :=
  if f.has 0x3F || f.expId != s.get .PHO_LOOP_EXP_exp_id || !s.streamOn c 0 then s
  else
    let crop := s.crop c 0
    let img := s.reconstruct c f.rows false crop
    let rows := img.zipIdx.map fun (px, j) => (s.rowLine c f.pexp (crop.2.1 + j), px)
    let cols := (List.range crop.2.2.1).map fun i => s.pixelColumn c (crop.1 + i)
    match extent (rows.map (·.1)), extent cols with
    | some (lo, hi), some (cl, ch) =>
      s.each (stripCells (s.tab 9 c).cur.bytes) fun s cell =>
        if (leAt cell 16 4 : Int) < cl ∨ ch < (leAt cell 20 4 : Int) - 1 then s
        else
          let x := (s.settleGroup (byteAt cell 2)).group (byteAt cell 2)
          match x.running, x.queue with
          | true, p :: _ =>
            s.each (p.imagedAt (leAt cell 8 4) (leAt cell 12 4) lo hi) fun s r => s.measureCell c cell rows cols r
          | _, _ => s
    | _, _ => s

end Sys2Proof.Machine
end

