-- ==== Sys2Proof/Machine/ColourLoop.lean ====
section
/-! DEFINITION. The colour loop: one step for each nozzle and patch at the end of a period, resets and holds (R297 to R306,
R412). -/

namespace Sys2Proof.Machine

/-- A change of the loop's state. -/
def State.updLoop (s : State) (f : Loop → Loop) : State :=
  { s with pho := { s.pho with loop := f s.pho.loop } }

/-- A change is a load of the colour loop. -/
def isLoop : ChangeBody → Bool
  | .table _ loop _ => loop
  | _ => false

/-- A loop load of a kind and target is still pending (R302). -/
def State.loopPending (s : State) (k t : Nat) : Bool :=
  let s := s.settleTab k t
  (s.waits.any fun w => w.kind == k && w.target == t && w.loop.isSome)
    || (s.twn.proposals.any fun p => isLoop p.body && isTable k t p.body)
    || match (s.tab k t).pend with
      | some (e, _) => s.pho.loop.own.any fun x => x.1 == k && x.2.1 == t && x.2.2 == e
      | none => false

/-! ### Gains (R298, R299, R304) -/

/-- What a period makes of one nozzle: the step of its gain, and whether a bound keeps it (R298, R299). -/
def State.gainStep (s : State) (x : Samples) : Int × Bool :=
  let w := corrWord (s.tabNow 2 x.port).cur.words x.idx
  let e : Rat := x.sum / (x.n : Rat)
  let dead : Rat := (s.get .PHO_LOOP_GAIN_deadband : Rat)
  let d : Int := if dead < e then 1 else if e < -dead then -1 else 0
  if isOut w ∨ d = 0 then (0, false)
  else if stepAllowed (s.gainBounds x.port x.idx) (gainOf w) (gainOf w + d) then (d, false)
  else (0, true)

/-- The nozzles of a port under gain_reset that differ from g_ref, one unit nearer to it (R304). -/
def State.resetSteps (s : State) (p : Nat) : List (Nat × Int) :=
  let m := (s.tabNow 2 p).cur.words
  (List.range (s.nozzles p)).filterMap fun i =>
    let w := corrWord m i
    let g := gainOf w
    let r := s.gref p i
    if isOut w ∨ g = r then none else some (i, if g < r then 1 else -1)

/-- The steps of one port, and the number of nozzles that a bound keeps. -/
def State.portSteps (s : State) (p : Nat) : List (Nat × Int) × Nat :=
  if s.pho.loop.gainReset.getLsbD (barOf p) then (s.resetSteps p, 0)
  else if !(s.get .PHO_LOOP_CTRL_gain_bars).testBit (barOf p) then ([], 0)
  else
    let l := (s.pho.loop.gains.filter fun x => x.port == p && decide (s.get .PHO_LOOP_CTRL_min_samples ≤ x.n)).map fun x =>
      (x.idx, s.gainStep x)
    ((l.filter fun x => x.2.1 != 0).map fun x => (x.1, x.2.1), (l.filter fun x => x.2.2).length)

/-- A loop load of a kind and target arrives, its epoch line that of the period where that is settled (R302). -/
def State.loopLoad (s : State) (k t : Nat) (l : LoopSteps) : State := s.arriveLoad ⟨k, t, s.pho.loop.line, 0, [], none, some l⟩

/-- The gain steps of one port: loaded, or skipped while a loop load of the port is pending (R302). -/
def State.stepPort (s : State) (p : Nat) : State :=
  let (steps, _) := s.portSteps p
  if steps.isEmpty then s
  else if s.loopPending 2 p then s.count .PHO_LOOP_SKIP_CNT
  else s.loopLoad 2 p ⟨false, steps, s.pho.loop.period⟩

/-! ### Tone (R300, R303, R304) -/

/-- The offsets of a bar after a period, and the patches that delta_max clamped (R300). -/
def State.toneOffsets (s : State) (b : Nat) : List Int × Nat :=
  let old := s.deltaOf b
  let step : Int := s.get .PHO_LOOP_LIMIT_step
  let dmax : Int := s.get .PHO_LOOP_LIMIT_delta_max
  let l := old.zipIdx.map fun (d, k) =>
    match s.pho.loop.tones.find? fun (x : Samples) => x.port == b && x.idx == k && decide (s.get .PHO_LOOP_CTRL_min_samples ≤ x.n) with
    | none => (d, false)
    | some x =>
      let e : Rat := x.sum / (x.n : Rat) - (s.get .PHO_TONE_AIM b k : Rat)
      let u := (e * (s.get .PHO_LOOP_GAIN_ki : Rat) / 4096).floor
      let n := d + max (-step) (min step u)
      (max (-dmax) (min dmax n), decide (n < -dmax) || decide (dmax < n))
  (l.map (·.1), (l.filter (·.2)).length)

/-- The tone step of one bar: loaded, or skipped while a loop load of the bar is pending; tone_reset sets the offsets to 0
and loads the base curve, and stands until that load is committed (R300 to R304, R306). -/
def State.stepBar (s : State) (b : Nat) : State :=
  let reset := s.pho.loop.toneReset.getLsbD b
  let new := if (s.get .PHO_LOOP_CTRL_tone_bars).testBit b then (s.toneOffsets b).1 else s.deltaOf b
  let steps := ((s.deltaOf b).zip new).zipIdx.filterMap fun (e, k) => if e.1 = e.2 then none else some (k, e.2 - e.1)
  if !reset && steps.isEmpty then s
  else if s.loopPending 1 b then s.count .PHO_LOOP_SKIP_CNT
  else s.loopLoad 1 b ⟨reset, if reset then [] else steps, s.pho.loop.period⟩

/-! ### The end of a period (R298 to R306) -/

/-- Nozzles and patches of a bar that a bound keeps in this period (R305). -/
def State.limited (s : State) (b : Nat) : Nat :=
  let ports := [3 * b, 3 * b + 1, 3 * b + 2].filter fun p => !s.loopPending 2 p
  (ports.map fun p => (s.portSteps p).2).sum
    + (if (s.get .PHO_LOOP_CTRL_tone_bars).testBit b && !s.pho.loop.toneReset.getLsbD b && !s.loopPending 1 b then
        (s.toneOffsets b).2 else 0)

/-- PHO.LOOP_LIMIT is raised once for a period (R305); the record names the lowest bar with a bound (log 41). -/
def State.raiseLimit (s : State) (n : List Nat) : State :=
  match n.findIdx? fun x => x != 0 with
  | some b => s.countLimits s.pho.loop.period b n.sum
  | none => s

/-- Gain resets that have reached g_ref on every port of their bar end (R304). -/
def State.endResets (s : State) : State :=
  s.each (List.range 8) fun s b =>
    if s.pho.loop.gainReset.getLsbD b && [3 * b, 3 * b + 1, 3 * b + 2].all fun p => !s.loopPending 2 p && (s.resetSteps p).isEmpty then
      s.updLoop fun l => { l with gainReset := l.gainReset &&& ~~~((1 : BitVec 8) <<< b) }
    else s

/-- A period begins: its number is one greater, its epoch line is open, and the periods whose loop loads still wait stay known (R302,
R305). -/
def State.beginPeriod (s : State) : State :=
  let known := s.waits.filterMap fun w => w.loop.map (·.period)
  s.updLoop fun l => { l with
    periodAt := s.clock, line := none, period := l.period + 1, limited := l.limited.filter fun n => known.contains n }

/-- LOOP_PERIOD_END (R298 to R306). -/
def execLoopPeriodEnd (s : State) : Out :=
  if !s.elapsed s.pho.loop.periodAt (s.get .PHO_LOOP_CTRL_period * 100000000) then .next s
  else
    let s := s.beginPeriod
    let s := if s.loopStill then s
      else
        let n := (List.range 8).map s.limited
        let s := s.endResets
        let s := s.each (List.range 24) State.stepPort
        let s := s.each (List.range 8) State.stepBar
        s.raiseLimit n
    .next (s.updLoop fun l => { l with gains := [], tones := [] })

/-- A write of PHO_LOOP_RESET: the bars whose gains return to g_ref, and those whose δ returns to 0 (R304). -/
def State.writeLoopReset (s : State) (gain tone : BitVec 8) : State :=
  s.bar0 fun s => s.updLoop fun l => { l with gainReset := l.gainReset ||| gain, toneReset := l.toneReset ||| tone }

/-- LOOP_GAIN_RESET (R304): a write of 1 to bits of gain_reset. -/
def execLoopGainReset (bars : BitVec 8) (s : State) : Out := .next (s.writeLoopReset bars 0)

/-- LOOP_TONE_RESET (R304): a write of 1 to bits of tone_reset. -/
def execLoopToneReset (bars : BitVec 8) (s : State) : Out := .next (s.writeLoopReset 0 bars)

/-- LOOP_HOLD_END (R412): holds whose source has not raised for LTN_QUIET[1] ms end. -/
def execLoopHoldEnd (s : State) : Out :=
  let ms := s.get .LTN_QUIET_ms 1
  .next (if ms = 0 then s
    else s.updLoop fun l => { l with holds := l.holds.filter fun (h : Nat × Instant) => !s.elapsed h.2 (ms * 1000000) })

end Sys2Proof.Machine
end

