-- ==== Sys2Proof/Machine/DramService.lean ====
section
/-! DEFINITION. What the DRAM controller does once it is trained: requests, refresh, temperature, row-disturbance windows,
retrain slices, ZQ and self-refresh (R445 to R448, R455 to R461, R467 to R471). -/

namespace Sys2Proof.Machine

/-- A request is well formed: 1 to 4 bursts within one aligned 256-byte block of the DRAM space, by a source of R446; those of Transit and
the Eyepiece are reads of 256 bytes, those of a camera's S2 writes (R443 to R446). -/
def requestOk (src : Nat) (write : Bool) (addr bursts : Nat) : Bool :=
  (!decide (src ≤ 24) || (bursts == 4 && !write)) && (!(decide (35 ≤ src) && decide (src ≤ 38)) || write)
    && decide (src ≤ 41) && decide (addr < 2 ^ 35) && decide (1 ≤ bursts) && addr % 64 == 0 && decide (addr % 256 + 64 * bursts ≤ 256)

/-- DRAM_REQUEST (R444 to R447, R470): the request enters its channel's queue where there is room. A write is acknowledged
there, and reads accepted from then on return its data. The Eyepiece asks for the line that it fetches (R530). A request starts the exit from self-refresh. -/
def execDramRequest (src : Nat) (write : Bool) (addr bursts : Nat) (payload : Bytes) (s : State) : Out :=
  let c := dChannel addr
  let x := s.chan c
  if !requestOk src write addr bursts || (src == 24 && !s.eyeFetches addr) || decide (64 ≤ (if write then x.writes else x.reads).length) then .next s
  else
    let n := 64 * bursts
    let data := (payload ++ List.replicate (n - payload.length) 0).take n
    let bytes := if write then data else Memory.reads Memory.dramFill s.drm.mem addr n
    let q : DramReq := ⟨s.drm.next, src, write, addr, bursts, bytes, s.clock⟩
    let s := s.updChan c fun x => if write then { x with writes := x.writes ++ [q] } else { x with reads := x.reads ++ [q] }
    let mem := if write then Memory.writes Memory.dramFill s.drm.mem addr data else s.drm.mem
    let returns := if write then s.drm.returns else s.drm.returns ++ [⟨s.drm.next, src, bytes, false⟩]
    .next { s with drm := { s.drm with next := s.drm.next + 1, mem := mem, returns := returns,
                                       sr := if s.drm.sr = .inside then .exiting else s.drm.sr } }

/-! ### Refresh and temperature (R455 to R458) -/

/-- REFRESH_DUE (R455, R456, R458, R471): of effect where a refresh of the bank pair falls due now; postponed while RT requests hit the pair's open rows, at once at a count of 8. -/
def execRefreshDue (c rank pair : Nat) (s : State) : Out :=
  let i := 8 * rank + pair
  if 4 ≤ c ∨ 2 ≤ rank ∨ 8 ≤ pair ∨ s.drm.sr = .inside ∨ !s.refreshFalls c i then .next s
  else
    let s := s.fallDue c i
    let x := s.chan c
    let n := x.postponed.getD i 0
    if !(pairBanks i).any x.rtHit then .next (s.refreshPair c i)
    else if n + 1 < 8 then .next (s.postpone c i (n + 1))
    else .next ((((s.postpone c i 8).refreshPair c i).count .DRM_FORCED_CNT).madeUp c i)

/-- The channel's reading: temperature and report of the hotter rank, and whether refresh management is required (R456,
R459). -/
def hotterRank (r0 r1 : RankReading) : RankReading :=
  let h := if r0.temp < r1.temp ∨ (r0.temp = r1.temp ∧ r0.band < r1.band) then r1 else r0
  { h with rfm := r0.rfm || r1.rfm }

/-- A reading of band `b` on a channel whose band in force is `cur` (R456, R457): a lower band takes effect after two consecutive readings in
it, and after band 5 not before 250 in band 4 or lower. -/
def State.readBand (s : State) (c b : Nat) : State :=
  let cur := s.get .DRM_CH_STATUS_band c
  let x := s.chan c
  if cur < b then s.updChan c fun x => { x with bandUp := some b, lowRun := 0 }
  else if 4 < b then s.updChan c fun x => { x with hotLeft := 250, lowRun := 0, bandUp := none }
  else if b < cur then
    let left := x.hotLeft - 1
    let s := s.updChan c fun x => { x with hotLeft := left, lowRun := b + 1, bandUp := none }
    if x.lowRun = b + 1 ∧ left = 0 then (s.updChan c fun x => { x with lowRun := 0 }).set .DRM_CH_STATUS_band b c else s
  else s.updChan c fun x => { x with lowRun := 0, bandUp := none }

/-- DRAM_TEMP_POLL (R456, R457, R471): temp_poll ms after the last. -/
def execDramTempPoll (c : Nat) (r0 r1 : RankReading) (s : State) : Out :=
  let due := (s.chan c).polledAt.all fun t => s.elapsed t (s.get .DRM_CTRL_temp_poll * 1000000)
  if 4 ≤ c ∨ s.drm.sr = .inside ∨ !due then .next s
  else
    let h := hotterRank r0 r1
    let s := s.updChan c fun x => { x with polledAt := some s.clock }
    let s := (s.set .DRM_CH_STATUS_temp (BitVec.ofInt 8 h.temp).toNat c).set .DRM_CH_STATUS_rfm_req h.rfm.toNat c
    .next (s.readBand c (min 5 h.band))

/-- RH_WINDOW_START (R460): once the window has run for window_ms, every tracker is emptied and every throttle lifted. -/
def execRhWindowStart (s : State) : Out :=
  if !s.elapsed s.drm.windowAt (s.get .DRM_RH_window_ms * 1000000) then .next s
  else
    let s := { s with drm := { s.drm with windowAt := s.clock, chans := s.drm.chans.map fun (x : Channel) =>
      { x with banks := x.banks.map fun (b : Bank) => { b with tracker := [], throttled := [] } } } }
    .next (s.each (List.range 4) fun s c => s.set .DRM_THROTTLE_banks 0 c)

/-! ### Periodic retrain and ZQ (R467, R468) -/

/-- The periodic retrain that works on a channel. -/
def State.retrainOn (s : State) (c : Nat) : Option Activity :=
  s.lmp.running.find? fun a => a.code == 1 && a.left == c

/-- A periodic retrain starts on its first channel (R467). -/
def State.retrainBegin (s : State) (a : Activity) : State :=
  let c := if a.target = 0xFF then 0 else a.target
  let s := { s with lmp := { s.lmp with running := s.lmp.running.map fun (x : Activity) =>
    if x = a then { x with left := c } else x } }
  s.updChan c fun x => { x with lastSlice := none }

/-- The new centres are written into the delays, all at once (R468). -/
def State.writeDelays (s : State) (c : Nat) (rd wr wck : List Nat) : State :=
  let s := s.each (List.range 16) fun s b => s.set .DRM_DLY_RD_step (rd.getD b (s.get .DRM_DLY_RD_step c b)) c b
  let s := s.each (List.range 16) fun s b => s.set .DRM_DLY_WR_step (wr.getD b (s.get .DRM_DLY_WR_step c b)) c b
  s.each (List.range 2) fun s y => s.set .DRM_DLY_BYTE_wck (wck.getD y (s.get .DRM_DLY_BYTE_wck c y)) c y

/-- A channel's retrain has passed: its delays are written, and the next channel follows or the activity ends (R467,
R468). -/
def State.retrainPassed (s : State) (c : Nat) (a : Activity) (rd wr wck : List Nat) : State :=
  let s := s.writeDelays c rd wr wck
  if a.target = 0xFF ∧ c < 3 then
    ({ s with lmp := { s.lmp with running := s.lmp.running.map fun (x : Activity) =>
      if x = a then { x with left := c + 1 } else x } }).updChan (c + 1) fun x => { x with lastSlice := none }
  else s.actEnd 1 a.target .ok

/-- RETRAIN_SLICE (R467, R468, R471): slices start at least 25 µs apart, each on one row of one bank in turn. -/
def execRetrainSlice (c : Nat) (last pass : Bool) (rd wr wck : List Nat) (s : State) : Out :=
  match s.retrainOn c with
  | none => .next s
  | some a =>
    let early := match (s.chan c).lastSlice with
      | some t => !s.elapsed t 25000
      | none => false
    if early || s.drm.sr == .inside then .next s
    else
      let b := (s.chan c).slices % 32
      let s := (s.updBank c b Bank.close).updChan c fun x => { x with slices := x.slices + 1, lastSlice := some s.clock }
      if !last then .next s
      else if pass then .next ((s.count .DRM_RETRAIN_CNT).retrainPassed c a rd wr wck)
      else .next (((s.count .DRM_RETRAIN_CNT).actEnd 1 a.target .fail).raise .drmTrainFail 0x100 c)

/-- Channels of a target (R435). -/
def targetChans (t : Nat) : List Nat := if t = 0xFF then [0, 1, 2, 3] else [t]

/-- A ZQ calibration starts on its channels (R468). -/
def State.zqBegin (s : State) (a : Activity) : State :=
  s.each (targetChans a.target) fun s c => (s.updChan c fun x => { x with zqPending := some s.clock }).emit (.dramCommand c 12 2 0)

/-- ZQ_LATCH (R454, R468): 1 µs after the start, the latch closes the channel's rows; the activity ends with the last latch of its target. -/
def execZqLatch (c : Nat) (s : State) : Out :=
  let due := match (s.chan c).zqPending with
    | some t => s.elapsed t 1000
    | none => false
  if !due then .next s
  else
    let s := s.updChan c fun x => { x with zqPending := none, banks := x.banks.map Bank.close }
    let done := s.lmp.running.find? fun a => a.code == 2 && (targetChans a.target).contains c
      && (targetChans a.target).all fun k => (s.chan k).zqPending.isNone
    .next (match done with
      | some a => s.actEnd 2 a.target .ok
      | none => s)

/-! ### Self-refresh (R469 to R471) -/

/-- DRM_SELFREF is accepted: entry waits until every queue is empty. -/
def State.selfrefBegin (s : State) (_ : Activity) : State := { s with drm := { s.drm with sr := .entering } }

/-- Every bank of every channel is precharged. -/
def State.closeRows (s : State) : State :=
  { s with drm := { s.drm with chans := s.drm.chans.map fun (x : Channel) => { x with banks := x.banks.map Bank.close } } }

/-- The activity that put the memory into self-refresh has completed, and runs on until the exit (R436). -/
def State.selfrefDone (s : State) (st : Status) : State :=
  match s.actFind 3 0 with
  | none => s
  | some a =>
    { s with lmp := { s.lmp with running := s.lmp.running.map fun (x : Activity) =>
        if x = a then { x with src := .schedule } else x } }.actReport a st

/-- SELFREF_ENTRY (R469, R470): with every queue empty the memory enters self-refresh; an RT source that is active by then
starts the exit at once. -/
def execSelfrefEntry (s : State) : Out :=
  if s.drm.sr = .entering ∧ s.queuesEmpty then
    let s := (s.closeRows.count .DRM_SR_CNT).selfrefDone .ok
    .next { s with drm := { s.drm with sr := if s.rtActive then .exiting else .inside } }
  else .next s

/-- SELFREF_TIMEOUT (R469). -/
def execSelfrefTimeout (s : State) : Out :=
  match s.actFind 3 0 with
  | some a =>
    if s.drm.sr = .entering ∧ !s.queuesEmpty ∧ s.elapsed a.since 100000000 then
      .next ({ s with drm := { s.drm with sr := .active } }.actEnd 3 0 .fail)
    else .next s
  | none => .next s

/-- SELFREF_EXIT (R470): the exit ends; a request or an RT source has started it. -/
def execSelfrefExit (s : State) : Out :=
  if s.drm.sr = .exiting ∨ (s.drm.sr = .inside ∧ s.rtActive) then
    .next ({ s with drm := { s.drm with sr := .active } }.actEnd 3 0 .ok)
  else .next s

end Sys2Proof.Machine
end

