-- ==== Sys2Proof/Machine/Photometer.lean ====
section
/-! DEFINITION. The camera ports: packets, camera frames, exposure sets, black-level calibration, enable and disable (R263
to R290, R307, R309). -/

namespace Sys2Proof.Machine

/-! ### Exposure sets (R271 to R276) -/

/-- A set is committed: it replaces one committed in the same window, and otherwise waits behind those of earlier windows (R273,
R274). -/
def State.commitExp (s : State) (c set id : Nat) : State :=
  let same := (s.cam c).waiting.any fun e => !e.closed
  let s := if same then s.count .PHO_EXP_SUPERSEDE_CNT c else s
  s.updCam c fun x => { x with waiting := x.waiting.filter (·.closed) ++ [⟨set, id, false⟩] }

/-- Entries of a set (R271). -/
def State.expLen (s : State) (c set : Nat) : Nat := nbits (s.rd .PHO_EXP_LEN c).toNat (4 * set + 3) (4 * set) + 1

/-- The transfers of the first `n` entries of a set leave on the I2C lands (R271). -/
def State.sendEntries (s : State) (c set n : Nat) : State :=
  s.each (List.range n) fun s i =>
    let w := s.rd .PHO_EXP_ENTRY c set i
    let a := s.on .PHO_I2C_addr16 c
    let d := s.on .PHO_I2C_data16 c
    s.emit (.i2c c (s.get .PHO_I2C_speed c) (s.get .PHO_I2C_dev c) (if a then 2 else 1) (field w 31 16 % (if a then 65536 else 256))
      (if d then 2 else 1) (field w 15 0 % (if d then 65536 else 256)))

/-- A commit of a set and identifier is still waiting, being written or not yet believed active (R273, R274). -/
def Camera.expDue (x : Camera) (e : Nat × Nat) : Bool :=
  (x.sending.toList ++ x.written.toList ++ x.waiting).any fun k => (k.set, k.id) == e

/-- The exposure sequence at an accepted frame start: a set written since the one before is believed active, one still being
written makes the camera frame uncertain, and one that waits begins to be written (R273 to R276). A calibration is over once the
restored set is active again with neither it nor the dark set still to come (R307). -/
def State.expFrameStart (s : State) (c : Nat) : State :=
  s.updCam c fun x =>
    let x := match x.written with
      | some e => { x with active := (e.set, e.id), uncertain := false, written := none }
      | none => x
    let x := match x.black with
      | some b => if b.restoring && x.active == b.restore && !x.expDue b.dark && !x.expDue b.restore then
          { x with black := none, calib := false }
        else x
      | none => x
    let waiting := x.waiting.map fun e => { e with closed := true }
    match x.sending, waiting with
    | some _, _ => { x with uncertain := true, waiting := waiting }
    | none, e :: rest => { x with sending := some e, waiting := rest }
    | none, [] => x

/-- A write of PHO_EXP_COMMIT[c] is one commit (R273, R309). -/
def State.writeExpCommit (s : State) (c : Nat) (v : Word) : State :=
  s.bar0 fun s => (s.store .PHO_EXP_COMMIT v c).commitExp c (Fld.PHO_EXP_COMMIT_set.of v) (Fld.PHO_EXP_COMMIT_id.of v)

/-- EXP_COMMIT (R273). -/
def execExpCommit (c : Nat) (v : Word) (s : State) : Out := if c < 4 then .next (s.writeExpCommit c v) else .next s

/-- EXP_SET_WRITTEN (R273). -/
def execExpSetWritten (c : Nat) (s : State) : Out :=
  match (s.cam c).sending with
  | some e =>
    .next ((s.sendEntries c e.set (s.expLen c e.set)).updCam c fun x => { x with sending := none, written := some e })
  | none => .next s

/-- I2C_NAK (R276): the rest of the set is abandoned. -/
def execI2cNak (c entry : Nat) (s : State) : Out :=
  match (s.cam c).sending with
  | some e =>
    let s := (s.sendEntries c e.set (min (entry + 1) (s.expLen c e.set))).updCam c fun x =>
      { x with sending := none, written := none, uncertain := true }
    .next ((s.count .PHO_I2C_NAK_CNT c).raise .phoI2c (BitVec.ofNat 32 entry) c e.set)
  | none => .next s

/-! ### Black-level calibration (R307) -/

/-- The dark set is committed under an identifier that the spec leaves open, and the camera frames carry the calibration
flag from here on (R307). -/
def State.blackStart (s : State) (a : Activity) : State :=
  let c := a.target
  let (v, s) := s.fresh
  let dark := (s.get .PHO_BLACK_CTRL_dark_set c, v.toNat % 256)
  let s := s.commitExp c dark.1 dark.2
  s.updCam c fun x =>
    { x with calib := true,
             black := some ⟨dark, 0, List.replicate 5 0, List.replicate 5 0, x.active, false⟩ }

/-- The set that was active before the dark set is committed again (R307). -/
def State.blackRestore (s : State) (c : Nat) (b : BlackCal) : State :=
  (s.updCam c fun x => { x with black := some { b with restoring := true } }).commitExp c b.restore.1 b.restore.2

/-- Sums and numbers of samples by site type over the S3 crop of a camera frame (R307). -/
def State.blackSums (s : State) (c : Nat) (rows : List (List Nat)) (b : BlackCal) : BlackCal :=
  let m := s.mosaic c
  let g := s.samplesOf c rows true
  let (x0, y0, w, h) := s.crop c 3
  let px := (List.range h).flatMap fun j => (List.range w).map fun i =>
    (siteAt m (x0 + i) (y0 + j), (g.getD (y0 + j) []).getD (x0 + i) 0)
  let of (t : Nat) : List Nat := (px.filter fun e => e.1 == t).map (·.2)
  { b with frames := b.frames + 1,
           sums := b.sums.zipIdx.map fun (v, t) => v + (of t).sum,
           counts := b.counts.zipIdx.map fun (v, t) => v + (of t).length }

/-- The averages are written and the activity ends (R307). -/
def State.blackDone (s : State) (c : Nat) (b : BlackCal) : State :=
  let s := s.each (List.range 5) fun s t =>
    let n := b.counts.getD t 0
    if n = 0 then s else s.set .PHO_BLACK_level (meanUp (b.sums.getD t 0) n) c t
  (s.blackRestore c b).actEnd 8 c .ok

/-- A camera frame counts for black-level calibration: tagged with the dark set and free of the flags that R307 names. -/
def State.blackCounts (s : State) (c : Nat) (f : CamFrame) : Bool :=
  match (s.cam c).black with
  | some b => !b.restoring && (s.cam c).active == b.dark
      && !f.has (flagShort ||| flagLong ||| flagOverflow ||| flagUncertain)
  | none => false

/-- A camera frame closes while its port calibrates (R307). -/
def State.blackFrame (s : State) (c : Nat) (f : CamFrame) : State :=
  match (s.cam c).black with
  | some b =>
    if !s.blackCounts c f then s
    else
      let b := s.blackSums c f.rows b
      if b.frames < 4 then s.updCam c fun x => { x with black := some b } else s.blackDone c b
  | none => s

/-- CAM_BLACK (R307, R434, R435). -/
def execCamBlack (ring : Nat) (d : Bytes) (s : State) : Out :=
  .next (s.maint ring d 8 (fun t => decide (t < 4)) noParam [.firstLight, .standby, .printing] fun s c =>
    if !s.cameraOn (byteAt d 5) then s.complete c .state
    else s.actArrive (s.maintAct c d []) State.blackStart)

/-- CAM_BLACK_TIMEOUT (R307): the averages are not written; the set that was active before is committed again. -/
def execCamBlackTimeout (c : Nat) (s : State) : Out :=
  match s.actFind 8 c, (s.cam c).black with
  | some a, some b =>
    if s.elapsed a.since 2000000000 then .next ((s.blackRestore c b).actEnd 8 c .fail) else .next s
  | _, _ => .next s

/-! ### Camera frames (R272 to R279) -/

/-- A flag set on the open camera frame, and PHO.SHORT or PHO.LONG raised for it once (R278). -/
def State.frameShort (s : State) (c : Nat) : State :=
  match (s.cam c).frame with
  | some f =>
    let s := s.updFrame c fun f => { f with flags := f.flags ||| flagShort ||| flagPartial, shortRaised := true }
    if f.shortRaised then s else s.raise .phoShort (BitVec.ofNat 32 f.number.toNat) c
  | none => s

/-- A line or camera frame longer than configured (R278). -/
def State.frameLong (s : State) (c : Nat) : State :=
  match (s.cam c).frame with
  | some f =>
    let s := s.updFrame c fun f => { f with flags := f.flags ||| flagLong, longRaised := true }
    if f.longRaised then s else s.raise .phoLong (BitVec.ofNat 32 f.number.toNat) c
  | none => s

/-- The open camera frame of a port closes: its streams complete, and it is measured (R280, R286 to R290, R307). -/
def State.closeFrame (s : State) (c : Nat) : State :=
  match (s.cam c).frame with
  | none => s
  | some f =>
    let dark := s.blackCounts c f
    let shown := if f.s1.isSome && s.on .PHO_SCTRL_compress c 1 then f.flags ||| flagCompressed else f.flags
    let s := s.updCam c fun x => { x with frame := none, lastFlags := shown }
    let s := ((s.closeS1 c f dark).closeS3 c f dark).closeS2 c f dark
    (s.measureFrame c f).blackFrame c f

/-- The ECC of a packet header: corrected and uncorrectable errors are counted, and a packet whose header cannot be
corrected goes no further (R266). A packet on a disabled port does not arrive. -/
def State.packet (s : State) (c : Nat) (ecc : Ecc) (act : State → State) : State :=
  if !s.cameraOn c then s
  else
    let s := s.updFrame c fun f => { f with lastAt := s.clock }
    match ecc with
    | .good => act s
    | .corrected => act (s.count .PHO_ECC_CNT c)
    | .bad => s.count .PHO_ECC_CNT c

/-- DESKEW (R264). -/
def execDeskew (c : Nat) (s : State) : Out :=
  if s.cameraOn c then .next (s.updCam c fun x => { x with deskewed := true }) else .next s

/-- Table loads of kinds 9 and 10 that were committed take effect at a frame start (R308). -/
def State.phoTables (s : State) (c : Nat) : State :=
  s.each [9, 10] fun s k =>
    let x := s.tab k c
    match x.pend with
    | some (_, v) => s.setTab { x with cur := v, since := s.highestAll, pend := none }
    | none => s

/-- A camera frame opens (R205, R269, R272 to R277, R288, R289). -/
def State.openFrame (s : State) (c : Nat) : State :=
  let s := ((s.expFrameStart c).phoTables c).triggerLatches (21 + c) s.pos s.mono
  let (s, s1) := s.takeS1 c
  let x := s.cam c
  let blocked := s.streamOn c 2 && s.s2Blocked c (s.s2Addr c)
  let s := if blocked then s.count .EYE_S2_SKIP_CNT else s
  let flags : BitVec 7 := (if x.uncertain then flagUncertain else 0) ||| (if x.calib then flagCalibration else 0)
  let f : CamFrame := ⟨x.nextNo, s.pos, s.mono, s.expPos c s.pos, x.active.2, flags, [], s.streamOn c 2 && !blocked, s1, s.clock,
    false, false⟩
  s.updCam c fun x => { x with frame := some f, nextNo := x.nextNo + 1, started := true }

/-- CSI_FRAME_START (R272, R278): an open camera frame is closed first. -/
def execCsiFrameStart (c : Nat) (ecc : Ecc) (s : State) : Out :=
  .next (s.packet c ecc fun s =>
    let s := if (s.cam c).frame.isSome then (s.frameShort c).closeFrame c else s
    s.openFrame c)

/-- One camera line of the open frame (R278, R279). Held back, it takes one of the 4 places of the buffer; otherwise the streams take
it with all that the buffer held. -/
def State.cameraLine (s : State) (c : Nat) (f : CamFrame) (samples : List (BitVec 14)) (heldBack : Bool) : State :=
  if s.get .PHO_SIZE_height c ≤ f.rows.length then s.frameLong c
  else if heldBack ∧ 4 ≤ (s.cam c).held then
    let s := s.updFrame c fun f => { f with flags := f.flags ||| flagOverflow ||| flagPartial }
    (s.closeFrame c).raise .phoOverflow (BitVec.ofNat 32 f.number.toNat) c
  else
    let s := s.updCam c fun x => { x with held := if heldBack then x.held + 1 else 0 }
    let w := s.get .PHO_SIZE_width c
    let m := 2 ^ sampleBits (s.get .PHO_CTRL_fmt c)
    let row := (samples.map fun v => v.toNat % m).take w
    let s := if samples.length < w then s.frameShort c else if w < samples.length then s.frameLong c else s
    s.updFrame c fun f => { f with rows := f.rows ++ [row ++ List.replicate (w - row.length) 0] }

/-- CSI_PIXEL_DATA (R265, R278, R279): `heldBack` says that the DRAM writes of the streams are held back when the line arrives. -/
def execCsiPixelData (c : Nat) (dataType : Nat) (ecc : Ecc) (samples : List (BitVec 14)) (heldBack : Bool) (s : State) : Out :=
  .next (s.packet c ecc fun s =>
    match (s.cam c).frame with
    | some f =>
      if dataType = 0x2B + s.get .PHO_CTRL_fmt c then s.cameraLine c f samples heldBack else s.count .PHO_DISCARD_CNT c
    | none => s.count .PHO_DISCARD_CNT c)

/-- CSI_FRAME_END (R278). -/
def execCsiFrameEnd (c : Nat) (ecc : Ecc) (s : State) : Out :=
  .next (s.packet c ecc fun s =>
    match (s.cam c).frame with
    | some f =>
      let s := if f.rows.length < s.get .PHO_SIZE_height c then s.frameShort c else s
      s.closeFrame c
    | none => s.count .PHO_DISCARD_CNT c)

/-- CSI_OTHER_PACKET (R265): line start and end and embedded data pass without a count; every other packet is discarded and
counted. -/
def execCsiOtherPacket (c channel dataType : Nat) (ecc : Ecc) (s : State) : Out :=
  .next (s.packet c ecc fun s =>
    if channel = 0 ∧ (dataType < 4 ∨ dataType = 0x12 ∨ dataType = 0x2B + s.get .PHO_CTRL_fmt c) then s
    else s.count .PHO_DISCARD_CNT c)

/-- CAMERA_FRAME_TIMEOUT (R278). -/
def execCameraFrameTimeout (c : Nat) (s : State) : Out :=
  match (s.cam c).frame with
  | some f => if s.elapsed f.lastAt 100000000 then .next ((s.frameShort c).closeFrame c) else .next s
  | none => .next s

/-! ### Enable and disable (R272, R309) -/

/-- A write of PHO_CTRL[c] (R309): en in any state, the other fields only while the port is disabled; of an enabled port a write is taken
that clears en and changes nothing else (R428; DESIGN CHOICE, log 117). The CAM domain is in reset while
en is 0 (R481). -/
def State.writePhoCtrl (s : State) (c : Nat) (v : Word) : State :=
  let was := s.cameraOn c
  let others : Word := s.rd .PHO_CTRL c &&& 0x7FFFFFFF
  s.gate (Reg.PHO_CTRL.addr c 0 0) v
    [(2, was && (v.msb || others != (v &&& Reg.PHO_CTRL.maskOf [.rw] &&& 0x7FFFFFFF))), (3, Fld.PHO_CTRL_fmt.of v == 3)] fun s =>
    let s := if was && !v.msb then
        let s := s.resetXing (30 + c)
        let s := if (s.cam c).frame.isSome then (s.frameShort c).closeFrame c else s
        s.updCam c fun x => { x with deskewed := false, held := 0 }
      else if !was && v.msb then (s.reachStep 11).updCam c fun x => { x with nextNo := 0, started := false, deskewed := false }
      else s
    s.store .PHO_CTRL v c

/-- CAMERA_PORT_ENABLE (R272). -/
def execCameraPortEnable (c : Nat) (v : Word) (s : State) : Out :=
  if c < 4 ∧ v.msb then .next (s.writePhoCtrl c v) else .next s

/-- CAMERA_PORT_DISABLE (R309). -/
def execCameraPortDisable (c : Nat) (v : Word) (s : State) : Out :=
  if c < 4 ∧ !v.msb then .next (s.writePhoCtrl c v) else .next s

/-- CAPBUF (R288, R378): the descriptor waits on its CAPTURE ring until a stream takes it. -/
def execCapbuf (ring : Nat) (d : Bytes) (s : State) : Out :=
  .next (s.descriptor ring d 9 (fun _ => true) fun s c => s.complete c .range)

end Sys2Proof.Machine
end

