-- ==== Sys2Proof/Machine/TwinBase.lean ====
section
/-! DEFINITION. What a module of a pair says of itself: settings digest, HELLO, heartbeat; and the start and the end of
pairing (R311, R318, R322 to R324, R345). -/

namespace Sys2Proof.Machine

/-- Code of a role (TWN_STATUS). -/
def Role.code : Role → Nat
  | .none => 0
  | .primary => 1
  | .standby => 2
  | .secondary => 3

/-- Code of a pair state (TWN_STATUS). -/
def PairState.code : PairState → Nat
  | .unpaired => 0
  | .pairing => 1
  | .paired => 2
  | .detached => 3

/-- Code of a device state (GLB_STATE); 0 in DARK. -/
def DevState.code : DevState → Nat
  | .dark => 0
  | .firstLight => 1
  | .standby => 2
  | .printing => 3
  | .held => 4

/-- The items of a bar geometry in order: bar offsets, port offsets, head origins, D and s of each row (R193). -/
def Geometry.items (g : Geometry) : List Int :=
  ((List.range 8).map fun b => ((g.bars.getD b 0 : Nat) : Int)) ++ (List.range 24).map (fun p => g.ports.getD p 0)
    ++ ((List.range 24).flatMap fun p => (List.range 8).map fun j => g.origin p j)
    ++ (List.range 24).flatMap fun p => (List.range 8).flatMap fun j => (List.range 8).flatMap fun r =>
        [((g.row p j r).1 : Int), ((g.row p j r).2 : Int)]

/-- The bar geometry that a list of items spells. -/
def Geometry.ofItems (l : List Int) : Geometry :=
  let at' (i : Nat) : Int := l.getD i 0
  ⟨(List.range 8).map fun b => (at' b).toNat, (List.range 24).map fun p => at' (8 + p),
    (List.range 24).map fun p => (List.range 8).map fun j => at' (32 + 8 * p + j),
    (List.range 24).map fun p => (List.range 8).map fun j => (List.range 8).map fun r =>
      ((at' (224 + 2 * (64 * p + 8 * j + r))).toNat, (at' (225 + 2 * (64 * p + 8 * j + r))).toNat)⟩

/-- The registers of the settings digest, in order: those before the geometry and those behind it (R324). -/
def digestRegs : List (Reg × Nat) × List (Reg × Nat) :=
  ([(.MER_CTRL, 0), (.MER_ACC_LIMIT, 0), (.MER_ENC_CTRL, 0), (.MER_ENC_SCALE, 0), (.MER_ENC_CTRL, 1), (.MER_ENC_SCALE, 1),
    (.MER_SLIP_CTRL, 0)],
   [(.WCK_CTRL, 0), (.STO_BARGRP, 0), (.STO_REGION, 0)] ++ (List.range 24).map fun p => (Reg.TRN_G1MAP, p))

/-- The settings digest (R324); the bytes of the geometry are free (log 11). -/
def State.digest (s : State) : BitVec 16 :=
  let words (l : List (Reg × Nat)) : Bytes := l.flatMap fun r => toLe 4 (s.rd r.1 r.2).toNat
  crc16 (words digestRegs.1 ++ (Config.geomBytes s.mer.geom.items).map (BitVec.ofNat 8) ++ words digestRegs.2)

/-- This module's serial (GLB_SERIAL). -/
def State.serial (s : State) : BitVec 64 := s.rd .GLB_SERIAL_HI ++ s.rd .GLB_SERIAL_LO

/-- The HELLO of this module (R318, R322). -/
def State.hello (s : State) : Hello :=
  ⟨if s.get .TWN_CTRL_max_ver = 1 then 1 else 3, s.twinMode, s.printing, s.on .TWN_CTRL_role_req, s.serial, s.digest⟩

/-- Step 2 of pairing begins: HELLO is sent (R323). -/
def State.sayHello (s : State) : State :=
  { s with twn := { s.twn with step := 2 } }.sendTwin (.hello s.hello)

/-- Pairing starts (R323): step 1, and step 2 where a twin port is ACTIVE already. The journal of an earlier pair is set aside. -/
def State.startPair (s : State) : State :=
  let s := { s with twn := { s.twn with
    pair := .pairing, step := 1, since := s.clock, joining := false, prior := s.twn.role, before := none, index := none,
    peerIndex := none, joinLine := none, noRejoin := false, seen := [], unvoted := [], held := [], anns := [], staged := [], chunks := [],
    waiting := s.twn.waiting.filter fun f => byteAt f 0 == 0x1A, hbAt := s.clock, aliveAt := s.clock,
    kept := some ⟨s.twn.ckpt, s.twn.ckptLine, s.twn.peers⟩,
    ckpt := { s.twn.ckpt with journal := [], journalBytes := 0, building := none } } }
  if s.twinActive 0 || s.twinActive 1 then s.sayHello else s

/-- The first twin port that becomes ACTIVE takes pairing to step 2 (R323). -/
def State.pairPortUp (s : State) : State :=
  if s.twn.pair == .pairing && s.twn.step == 1 then s.sayHello else s

end Sys2Proof.Machine
end

