-- ==== Sys2Proof/Machine/Wick.lean ====
section
/-! DEFINITION. Wick: temperature reports, bank writes and their acknowledgement (R154 to R166, R246 to R248). -/

namespace Sys2Proof.Machine

/-- A field of a STAT lies outside its range (R248, R252). -/
def statRange (f : Bytes) : Bool :=
  decide (1 < byteAt f 17) || (byteAt f 16 == 3 && (decide (1 < byteAt (framePayload f) 0) || byteAt (framePayload f) 1 != 22))

/-- A received STAT of a kind and payload length that is not discarded: its header and payload are good, and its fields lie in
their ranges (R243, R252, R259). -/
def statOf (frame : Bytes) (kind len : Nat) : Bool :=
  headerGood frame && payloadGood frame && byteAt frame 0 == 0x81 && byteAt frame 16 == kind && leAt frame 2 2 == len
    && !statRange frame

/-- One head's report is evaluated, and its result tied to its line (R162, R165). -/
def State.headReport (s : State) (p h : Nat) (temp : BitVec 16) (lr : Line) : State :=
  let body := s.wave p
  let (x, e) := evalHead body (s.head p h) temp
  let s := (s.updHead p h fun _ => { x with reportAt := s.clock }).headRaises p h temp e 0
  s.applyResult p h lr (headResult body x)

/-- TEMP_REPORT (R162): a TEMP STAT on an ACTIVE port, its L_r extended under R252. -/
def execTempReport (p : Nat) (frame : Bytes) (s : State) : Out :=
  if s.active p && statOf frame 1 32 then
    let pay := framePayload frame
    let ref := (s.pipe p).sent.getD (s.highestBegun p)
    let lr := extendLine ref (BitVec.ofNat 32 (leAt pay 0 4))
    .next (s.each (List.range (s.heads p).heads) fun s h =>
      s.headReport p h (BitVec.ofNat 16 (leAt pay (8 + 2 * h) 2)) lr)
  else .next s

/-- TEMP_TIMEOUT (R166): no report of a head for temp_timeout ms. -/
def execTempTimeout (p h : Nat) (s : State) : Out :=
  if s.active p && decide (h < (s.heads p).heads) && s.elapsed (s.head p h).reportAt (s.get .WCK_CTRL_temp_timeout * 1000000) then
    let body := s.wave p
    let (x, e) := evalHead body (s.head p h) 0x8000
    let s := (s.updHead p h fun _ => { x with reportAt := s.clock }).headRaises p h 0x8000 e 1
    .next (s.applyNow p h (headResult body x))
  else .next s

/-- MONO has passed the latest fire time of the bank's LINE link frames by 16·u + T_min (R247). -/
def State.bankFree (s : State) (p : Nat) (bank : Bool) : Bool :=
  match (s.wick p).bankFire.getD bank.toNat none with
  | some (f, u) => decide ((16 * u + s.tMin p : Nat) ≤ sdiff s.mono f)
  | none => true

/-- WAVE_BANK_WRITE (R247): the bank write that waits leaves the port; a reload that waited for the bank is written once the
bank is free (R159). -/
def execWaveBankWrite (p : Nat) (s : State) : Out :=
  let s := if (s.actFind 5 p).isSome && s.reloadFree p then s.reloadBegin p else s
  match (s.wick p).write with
  | some w => if s.active p && !w.sent && s.bankFree p w.bank then .next (s.sendBank p w) else .next s
  | none => .next s

/-- A bank has been acknowledged (R154, R155, R159). -/
def State.bankStored (s : State) (p : Nat) (w : WaveWrite) : State :=
  let s := s.updWick p fun x => { x with write := none }
  match w.purpose with
  | .afterCaps => s.updWick p fun x => { x with bankAcked := true }
  | .load at' (some c) =>
    (s.updWick p fun x => { x with spare := some w.body }).commitWave p at' w.body (some c)
  | .load at' none =>
    if s.printing then
      s.updWick p fun x => { x with bankFrom := some (lineMax (at'.getD 0) (s.firstUnbegun [p]), w.bank) }
    else s.takeBank p w.bank
  | .reload _ =>
    let e := s.epochLine
    let s := s.updWick p fun x => { x with bankFrom := some (e, w.bank) }
    (s.updAct 5 p fun a => { a with line := some e }).actEnd 5 p .ok

/-- WAVE_ACK (R248): the HDM acknowledges a bank write; where its CRC differs, the whole bank is written again, as soon as it is free
(R247). -/
def execWaveAck (p : Nat) (frame : Bytes) (s : State) : Out :=
  if s.active p && statOf frame 3 8 then
    let pay := framePayload frame
    match (s.wick p).write with
    | some w =>
      if !w.lastAt.isSome ∨ byteAt pay 0 ≠ w.bank.toNat ∨ byteAt pay 1 ≠ 22 then .next s
      else if leAt pay 2 2 = (crc16 w.body).toNat then .next (s.bankStored p w)
      else
        let s := s.count .GHL_WAVE_RETRY_CNT p
        if s.bankFree p w.bank then .next (s.sendBank p w)
        else .next (s.updWick p fun x => { x with write := some { w with sent := false, lastAt := none } })
    | none => .next s
  else .next s

/-- WAVE_ACK_TIMEOUT (R157): 10 ms since the last WAVE link frame. -/
def execWaveAckTimeout (p : Nat) (s : State) : Out :=
  match (s.wick p).write with
  | some w =>
    match w.lastAt with
    | some t => if s.elapsed t 10000000 then .next (s.dropBank p) else .next s
    | none => .next s
  | none => .next s

end Sys2Proof.Machine
end

