-- ==== Sys2Proof/Machine/LinkOps.lean ====
section
/-! DEFINITION. The states of a link and how it moves between them: bring-up, training, the capability exchange, the
time epoch, and what a port's entry to and leaving of ACTIVE do (R218 to R242, R255, R256, R598). Links 0 to 23 are the
head ports, 24 and 25 the twin ports. -/

namespace Sys2Proof.Machine

/-- A head port, not a twin port. -/
def isHead (p : Nat) : Bool := decide (p < 24)

/-! ### Training blocks (R221, R225) -/

/-- A TS-A block. -/
def tsA (rate preset want : Nat) (ready : Bool) : Bytes :=
  [0x1E, BitVec.ofNat 8 rate, BitVec.ofNat 8 preset, BitVec.ofNat 8 want, if ready then 1 else 0] ++ List.replicate 11 0x4A

/-- A TS-B block. -/
def tsB (rate preset link : Nat) : Bytes :=
  [0x2D, BitVec.ofNat 8 rate, BitVec.ofNat 8 preset, BitVec.ofNat 8 link] ++ List.replicate 12 0x45

/-- A received TS-A of the rate being trained (R225). -/
def tsAOk (rate : Nat) (b : Bytes) : Bool :=
  b.length == 16 && byteAt b 0 == 0x1E && byteAt b 1 == rate && decide (byteAt b 2 < 8) && decide (byteAt b 3 < 8)
    && (b.drop 5).all (· == 0x4A)

/-- A received TS-B of the rate being trained. -/
def tsBOk (rate : Nat) (b : Bytes) : Bool :=
  b.length == 16 && byteAt b 0 == 0x2D && byteAt b 1 == rate && (b.drop 4).all (· == 0x45)

/-- The rate a port's training starts at: 8.0 Gbit/s for a head port (R212), 16.0 for a twin port (R314, log 34). -/
def firstRate (p : Nat) : Nat := if isHead p then 0 else 1

/-- The first transmit preset of a training (R225, GHL_CTRL). -/
def State.firstPreset (s : State) (p : Nat) : Nat := if isHead p then s.get .GHL_CTRL_preset p else 5

/-- Training starts: in TRAIN, TS-A leaves with the first preset, in RETRAIN with that which the partner last requested (R225). -/
def State.startTraining (s : State) (p : Nat) (st : LinkState) (rate : Nat) : State :=
  let t := (s.link p).train
  let again := st == .retrain
  let preset := if again then t.preset else s.firstPreset p
  let want := if again then t.wanted else 5
  (s.updLink p fun l =>
    { l with st := st, since := s.clock, rate := rate, lock := false, cold := false, syncWait := none,
             train := { Training.reset with preset := preset, wanted := want } }).sendTrain p (tsA rate preset want false)

/-- A port enters DETECT (R229); `reason` is the down_reason of a training that timed out. -/
def State.enterDetect (s : State) (p : Nat) (reason : Nat) : State :=
  s.updLink p fun l => { l with st := .detect, since := s.clock, cold := false, lock := false, reason := reason }

/-! ### Leaving ACTIVE and going DOWN (R157, R160, R226, R228) -/

/-- What leaving ACTIVE does beside the change of state. -/
def State.leaveActive (s : State) (p : Nat) : State :=
  if (s.link p).st == .active && isHead p then s.wickLeave p else s

/-- A BUSY GHL block is BUSY no longer (R227, GLB_INT_STATUS.busy_done). -/
def State.endBusy (s : State) (p : Nat) : State :=
  if (s.link p).busy then (s.updLink p fun l => { l with busy := false }).busyDone else s

/-- A port goes to DOWN with a reason, its link retrain ending with LINK; GHL.DOWN is raised unless the host took it down
(R226, R228, R231, R234, R435). Its side of the crossing is reset (R481). -/
def State.portDown (s : State) (p reason : Nat) (fault : Bool) : State :=
  let s := (s.leaveActive p).twinPortLost p
  let s := s.updLink p fun l =>
    { l with st := .down, since := s.clock, cold := false, reason := reason, version := 0, rate := 0, lock := false, dual := l.dual,
             laShort := false, fails := [], capsFirst := none, syncs := [], syncWait := none, geomSent := false, unacked := [],
             queued := [], ctlAck := none, naks := 0, viols := 0 }
  let s := (s.emit (.electricalIdle p)).resetXing p
  let s := if fault && isHead p then s.raise .ghlDown (BitVec.ofNat 32 reason) p else s
  if isHead p then (s.endBusy p).actEnd 4 p .link else s

/-- The link trains. -/
def Link.training (l : Link) : Bool := l.st == .train || l.st == .retrain

/-- A port enters RETRAIN at a rate; the capability exchange will run from its first step (R226), where a further attempt after a
rate change goes on with the exchange that asked for it (R231). -/
def State.enterRetrain (s : State) (p rate : Nat) : State :=
  let s := (s.leaveActive p).twinPortLost p
  let goesOn := (s.link p).training || (s.link p).st == .lock
  (s.updLink p fun l => { l with capsFirst := if goesOn then l.capsFirst else none, version := 0, unacked := [], queued := [] }).startTraining p .retrain rate

/-- An attempt fails: RETRAIN again at the same rate, or DOWN at the third failure within 1 s (R226). -/
def State.failAttempt (s : State) (p : Nat) : State :=
  let l := s.link p
  let recent := (l.fails.filter fun t => decide (s.clock < t + 1000000000)) ++ [s.clock]
  if 3 ≤ recent.length then s.portDown p 3 true
  else (s.updLink p fun l => { l with fails := recent }).enterRetrain p l.rate

/-- A link retrain starts: an ACTIVE port enters RETRAIN, with GHL.RETRAIN raised and counted (R226); one that is DOWN
has ended (R435). `why` is the detail: 0 block lock, 1 host, 2 Lamplighter. -/
def State.retrainPort (s : State) (p why : Nat) : State :=
  match (s.link p).st with
  | .active =>
    let s := if isHead p then (s.count .GHL_RETRAIN_CNT p).raise .ghlRetrain (BitVec.ofNat 32 why) p else s
    s.enterRetrain p (s.link p).rate
  | .down => (s.endBusy p).actEnd 4 p .link
  | _ => s

/-- An activity of Lamplighter's own schedule or of a register arrives (R434, R437). -/
def State.ownActivity (s : State) (code target : Nat) (src : ActSource) : Activity :=
  ⟨code, target, src, s.clock, false, none, [], 0, 0⟩

/-- A retrain is scheduled for GHL.PARTNER (R259); none while Lamplighter's schedule is off (LMP_CTRL.sched_en). -/
def State.scheduleRetrain (s : State) (p : Nat) : State :=
  if s.on .LMP_CTRL_sched_en then
    s.actArrive (s.ownActivity 4 p .schedule) fun s _ => s.retrainPort p 2
  else s

/-- GHL.PARTNER with the window's NAKs and violations (R259, R415). -/
def State.raisePartner (s : State) (p : Nat) : State :=
  let l := s.link p
  s.raise .ghlPartner (BitVec.ofNat 32 (min l.naks 65535 + min l.viols 65535 * 65536)) p

/-! ### The capability exchange (R231 to R236) -/

/-- The CAPS_OFFER payload (R232). -/
def State.offerPayload (s : State) (p : Nat) : Bytes :=
  let l := s.link p
  let role := if s.twn.role == .none then 0 else if s.twinMode = 3 then 1 else if s.twn.role == .standby ∧ s.twinMode = 2 then 2 else 0
  [if l.maxVer = 1 then 1 else 3, BitVec.ofNat 8 p, BitVec.ofNat 8 (barOf p), BitVec.ofNat 8 role]
    ++ toLe 8 ((s.rd .GLB_SERIAL_LO).toNat + (s.rd .GLB_SERIAL_HI).toNat * 2 ^ 32)
    ++ [BitVec.ofNat 8 (s.get .MER_CTRL_lookahead), BitVec.ofNat 8 l.rate] ++ List.replicate 18 0

/-- A head port enters CAPS: control sequence numbers restart, and CAPS_OFFER is sent; what a rate change repeats offers what the
exchange began with (R231, R255). -/
def State.enterCaps (s : State) (p : Nat) : State :=
  let s := s.updLink p fun l =>
    { l with st := .caps, since := s.clock, maxVer := if l.capsFirst.isSome then l.maxVer else s.get .GHL_CTRL_max_ver p, version := 0, ctlNext := 0, ctlAck := none,
             unacked := [], queued := [], syncs := [], syncWait := none, geomSent := false, statNext := none, sentActive := false,
             lineAck := none }
  s.sendCtl p (ctrlFrame 1 [] (s.offerPayload p))

/-- The checks of R234: none where the set passes, otherwise the down_reason. -/
def capsFault (maxVer : Nat) (first : Option Bytes) (c : Bytes) : Option Nat :=
  let offered := if maxVer = 1 then 1 else 3
  if byteAt c 0 &&& offered = 0 then some 4
  else
    let heads := byteAt c 1
    let rows := byteAt c 2
    let noz := leAt c 4 2
    let fire := leAt c 8 4
    if heads = 0 ∨ 8 < heads ∨ rows = 0 ∨ 8 < rows ∨ noz = 0 ∨ 32768 < noz ∨ fire = 0 ∨ 1000000 < fire ∨ 32768 < heads * noz
      ∨ (first.map fun f => f != c).getD false then some 5
    else none

/-- The fields of a STAT CAPS are shown in the GHL_CAP registers (R234). -/
def State.showCaps (s : State) (p : Nat) (c : Bytes) : State :=
  let w (o n : Nat) : Word := BitVec.ofNat 32 (leAt c o n)
  let s := ((s.wr .GHL_CAP_FIRE (w 8 4) p).wr .GHL_CAP_ID (BitVec.ofNat 32 (leAt c 12 2 * 65536 + leAt c 14 2)) p)
  let s := ((s.wr .GHL_CAP_FW (w 16 4) p).wr .GHL_CAP_SER_LO (w 20 4) p).wr .GHL_CAP_SER_HI (w 24 4) p
  s.wr .GHL_CAP_GEOM (BitVec.ofNat 32 (byteAt c 1 % 16 * 2 ^ 28 + byteAt c 2 % 16 * 2 ^ 24 + byteAt c 28 % 2 * 2 ^ 21
    + byteAt c 3 % 2 * 2 ^ 20 + leAt c 4 2)) p

/-- The first failing check of one bar's active geometry, and its port (R193, R194). -/
def State.barFault (s : State) (b : Nat) : Option (Nat × Nat) :=
  let g := s.mer.geom
  if b ≠ 0 ∧ g.bars.getD b 0 < g.bars.getD (b - 1) 0 then some (1, 3 * b)
  else
    match headOrderFault (s.barHeads g b) with
    | some p => some (2, p)
    | none =>
      match [3 * b, 3 * b + 1, 3 * b + 2].find? fun p => decide (1048576 < s.delayUse g p) with
      | some p => some (3, p)
      | none =>
        if s.lpi600 then ([3 * b, 3 * b + 1, 3 * b + 2].find? fun p => s.oddDelay g p).map fun p => (4, p) else none

/-- The first failing check of a bar that an exchange on one of its ports has made (R194). -/
def State.checkedFault (s : State) (b : Nat) : Option (Nat × Nat) :=
  if [3 * b, 3 * b + 1, 3 * b + 2].any fun p => (s.link p).geom.isSome then s.barFault b else none

/-- The active geometry of a port's bar is checked again: its failure is shown, and where it passes a failure that was shown for
it gives way to that of another bar, if one fails (R194). -/
def State.recheckBar (s : State) (p : Nat) : State :=
  let b := barOf p
  let shown (x : Nat × Nat) : State := (s.set .MER_GEOM_STATUS_fail x.1).set .MER_GEOM_STATUS_port x.2
  match s.barFault b with
  | some x => shown x
  | none =>
    if s.on .MER_GEOM_STATUS_fail ∧ barOf (s.get .MER_GEOM_STATUS_port) = b then
      shown (((List.range 8).findSome? s.checkedFault).getD (0, 0))
    else s

/-- What this module knows of the HDM on a port (R317). -/
def State.ownHdm (s : State) (p : Nat) : HdmId :=
  ⟨s.rd .GHL_CAP_SER_HI p ++ s.rd .GHL_CAP_SER_LO p, s.get .GHL_CAP_GEOM_hdm_port p, (s.link p).version⟩

/-- The partner's report on a port and this module's agree that the port is protected (R317). -/
def State.checkProtected (s : State) (p : Nat) : State :=
  let mine := s.ownHdm p
  let good := match s.twn.peers.find? fun e => e.1 == p with
    | some (_, q) => q.serial == mine.serial && q.hdmPort != mine.hdmPort && (s.link p).dual && q.version == mine.version
        && mine.version != 0
    | none => false
  let w := s.rd .TWN_UNPROT
  let bit : Word := 1 <<< p
  s.wr .TWN_UNPROT (if good then w &&& ~~~bit else w ||| bit)

/-- CHECK HDM is sent for a port (R323, R326). -/
def State.sendHdm (s : State) (p : Nat) : State :=
  let h := s.ownHdm p
  s.sendTwin (.check (.hdm p h.serial h.hdmPort h.version))

/-- The accepted capability set of the final rate becomes the port's geometry and fire frequency (R194, R235, R598), and
the time epoch is measured (R237). -/
def State.acceptCaps (s : State) (p version : Nat) (c : Bytes) : State :=
  let g : HeadGeom := ⟨byteAt c 1, byteAt c 2, leAt c 4 2⟩
  let fire := leAt c 8 4
  let bound := linkBound (s.link p).rate version (g.heads * g.nozzles)
  let s := s.updLink p fun l =>
    { l with geom := some g, fireEff := min fire bound, dual := (byteAt c 3).testBit 0, version := version, proto := version, capsFirst := none }
  let s := s.wr .GHL_FIRE_EFF (BitVec.ofNat 32 (min fire bound)) p
  let s := if bound < fire then s.count .GHL_FIRECLAMP_CNT p else s
  let s := s.recheckBar p
  let s := if s.twn.pair == .paired ∨ s.twn.pair == .pairing then (s.checkProtected p).sendHdm p
    else if s.twn.tookOver.isSome then s.checkProtected p
    else s
  s.sendSyncReq p

/-- A STAT CAPS is checked, and CAPS_DONE names the version and the rate (R231, R234). -/
def State.takeCaps (s : State) (p : Nat) (c : Bytes) : State :=
  let l := s.link p
  let s := s.showCaps p c
  match capsFault l.maxVer l.capsFirst c with
  | some why => (s.updLink p fun l => { l with capsBad := true }).portDown p why true
  | none =>
    let version := if l.maxVer = 2 ∧ (byteAt c 0).testBit 1 then 2 else 1
    let rate := if version = 2 then 1 else 0
    let s := s.updLink p fun l => { l with capsBad := false }
    let s := s.sendCtl p (ctrlFrame 2 [BitVec.ofNat 8 version, BitVec.ofNat 8 rate] [])
    if rate = l.rate then s.acceptCaps p version c
    else (s.enterRetrain p rate).updLink p fun l => { l with capsFirst := some c }

/-! ### The time epoch (R237 to R242) -/

/-- d and E of one exchange (R238). -/
def epochOf (t1 t4 h2 h3 : Time) : Int × Time :=
  let d := ((sdiff t4 t1 - sdiff h3 h2) + 1) / 2
  (d, h2 - t1 - BitVec.ofInt 32 d)

/-- The measurement with the median E of three (R238). -/
def medianEpoch : List (Int × Time) → Int × Time
  | [a, b, c] =>
    let le (x y : Int × Time) : Bool := decide (sdiff x.2 a.2 ≤ sdiff y.2 a.2)
    if (le a b && le b c) || (le c b && le b a) then b
    else if (le b a && le a c) || (le c a && le a b) then a
    else c
  | a :: _ => a
  | [] => (0, 0)

/-- L_min in µs (R236). -/
def minLookahead (rate version n : Nat) (d : Int) : Nat :=
  let g : Nat := if rate = 1 then 16 else 8
  let ns : Int := 9200 * g + 130 * lineBlocks version n + d * g
  ((ns + 1000 * g - 1) / (1000 * g)).toNat

/-- After three exchanges in CAPS the epoch is set: SYNC SET and GEOM are sent (R231, R238, R242, R250). -/
def State.setEpoch (s : State) (p : Nat) (m : Int × Time) : State :=
  let l := s.link p
  let lmin := minLookahead l.rate l.version (s.nozzles p) m.1
  let s := s.updLink p fun l => { l with epoch := m.2, timed := true, delay := m.1.toNat, lmin := lmin }
  let s := s.wr .GHL_EPOCH m.2 p
  let s := (s.set .GHL_DELAY_l_min (min lmin 255) p).set .GHL_DELAY_delay (min m.1.toNat 65535) p
  let id := (l.epochId + 1) % 256
  ((s.updLink p fun l => { l with epochId := id }).sendCtl p (syncFrame 2 id m.2)).sendGeom p

/-- Three exchanges on an ACTIVE port give E′, which is compared with E (R240). -/
def State.checkEpoch (s : State) (p : Nat) (m : Int × Time) : State :=
  let e := sdiff m.2 (s.link p).epoch
  if 4 < e.natAbs then (s.count .GHL_EPOCH_DRIFT_CNT p).raise .ghlEpoch (BitVec.ofInt 32 e) p else s

/-- One echo is taken: a further SYNC REQ, or the result of three (R238, R240). -/
def State.takeEcho (s : State) (p : Nat) (m : Int × Time) : State :=
  let l := s.link p
  let ms := l.syncs ++ [m]
  let s := s.updLink p fun l => { l with syncs := ms, syncWait := none }
  if ms.length < 3 then s.sendSyncReq p
  else if l.st == .caps then s.setEpoch p (medianEpoch ms)
  else (s.checkEpoch p (medianEpoch ms)).updLink p fun l => { l with syncs := [] }

/-! ### ACTIVE (R154, R227, R231, R256, R339) -/

/-- A head port enters ACTIVE. -/
def State.enterActive (s : State) (p : Nat) : State :=
  let keep := s.twn.role != .none && decide (2 ≤ s.twinMode)
  let s := s.updLink p fun l =>
    { l with st := .active, since := s.clock, statAt := s.clock, syncAt := s.clock, windowAt := s.clock, naks := 0, viols := 0,
             syncs := [], lineNext := if keep then l.lineNext else 0 }
  let s := (s.wickCaps p).wickActive p
  let s := if s.twn.resync.contains p then
      { s.sendCtl p (resyncFrame (s.link p).lineNext) with twn := { s.twn with resync := s.twn.resync.filter (· != p) } }
    else s
  ((s.sendIdle p).endBusy p).actEnd 4 p .ok

/-- A frame whose acknowledgement the capability exchange waits for: CTRL CAPS_DONE, SYNC SET or CTRL GEOM (R231). -/
def isExchange (f : Bytes) : Bool :=
  (byteAt f 0 == 3 && byteAt f 8 == 2) || (byteAt f 0 == 4 && byteAt f 8 == 2) || isGeom f

/-- The exchange is complete once CAPS_DONE, SYNC SET and GEOM are acknowledged (R231). -/
def State.capsComplete (s : State) (p : Nat) : State :=
  let l := s.link p
  if l.st == .caps && l.version != 0 && l.geomSent && !(l.unacked.any fun f => isExchange f.frame) && !(l.queued.any isExchange) then s.enterActive p else s

/-- The DATA of the ingests that still wait for the partner is sent again: DATA has no acknowledgement (R330, R338; log 141). -/
def State.resendIngests (s : State) : State :=
  s.each s.twn.proposals fun s p =>
    match p.body with
    | .ingest n _ _ strips =>
      s.each strips.zipIdx fun s (q, i) => s.each q.zipIdx fun s (e, k) =>
        let stream := (((s.section n).bind fun x => x.data[i]?).getD ⟨0, [], [], true⟩).strips.getD k ⟨[], [], true⟩ |>.stream
        s.sendData n i k (stream.take e.2) e.1
    | _ => s

/-- A twin port enters ACTIVE: its control sequence numbers start at 0, a pairing that waited for it goes on, and what waited for a port
is sent (R255, R318, R323, R338). -/
def State.twinPortActive (s : State) (p : Nat) : State :=
  let alone := !(s.twinActive 0 || s.twinActive 1)
  let s := s.updLink p fun l =>
    { l with st := .active, since := s.clock, version := 2, ctlNext := 0, ctlExpected := 0, ctlAck := none, unacked := [], queued := [] }
  let s := s.pairPortUp.sendWaiting
  if alone then s.resendIngests else s

end Sys2Proof.Machine
end

