-- ==== Sys2Proof/Machine/Gahild.lean ====
section
/-! DEFINITION. The commands of the Gahild links: port control, bring-up, capability exchange, time epoch, STAT and NAK,
violations and resends (R218 to R260). -/

namespace Sys2Proof.Machine

/-! ### GHL_CTRL (R226 to R229, R427, R437) -/

/-- A register-started link retrain: the port's block is BUSY until ACTIVE or DOWN (R227). -/
def State.registerRetrain (s : State) (p : Nat) : State :=
  let s := s.updLink p fun l => { l with busy := true }
  (s.actRun (s.ownActivity 4 p .register)).retrainPort p 1

/-- Port enabled: DETECT at once after cold reset, otherwise after the time in DOWN (R229). -/
def State.enablePort (s : State) (p : Nat) : State :=
  if (s.link p).st == .down && (s.link p).cold then s.enterDetect p (s.link p).reason else s

/-- A write of GHL_CTRL[p]. -/
def State.writeGhlCtrl (s : State) (p : Nat) (v : Word) : State :=
  let m := Fld.GHL_CTRL_max_ver.of v
  let re := v.getLsbD 30
  let off := Reg.GHL_CTRL.addr p 0 0
  let act (s : State) : State :=
    let was := s.on .GHL_CTRL_en p
    let s := s.wr .GHL_CTRL (v &&& 0x8CE0FF00) p
    let s := if re then s.registerRetrain p else s
    if was && !v.msb then s.portDown p 1 false
    else if !was && v.msb then (s.reachStep 10).enablePort p
    else s
  s.gate off v [(1, (s.link p).busy), (3, m == 0 || m == 3 || Fld.GHL_CTRL_stat_timeout.of v == 0)] fun s =>
    if re then s.registerStart off (s.ownActivity 4 p .register) act else act s

/-- PORT_ENABLE (R229). -/
def execPortEnable (p : Nat) (v : Word) (s : State) : Out :=
  if p < 24 ∧ v.msb then .next (s.writeGhlCtrl p v) else .next s

/-- PORT_DISABLE (R228). -/
def execPortDisable (p : Nat) (v : Word) (s : State) : Out :=
  if p < 24 ∧ !v.msb then .next (s.writeGhlCtrl p v) else .next s

/-- PORT_RETRAIN_CMD (R227). -/
def execPortRetrainCmd (p : Nat) (v : Word) (s : State) : Out :=
  if p < 24 ∧ v.getLsbD 30 then .next (s.writeGhlCtrl p v) else .next s

/-! ### Bring-up -/

/-- A link is enabled: GHL_CTRL[p].en, or TWN_CTRL.port_en while the twin has a mode (R310, TWN_CTRL). -/
def State.linkEnabled (s : State) (p : Nat) : Bool :=
  if isHead p then s.on .GHL_CTRL_en p
  else s.twinMode != 0 && (s.get .TWN_CTRL_port_en).testBit (p - 24)

/-- DOWN_TIMEOUT (R229): 1 s in DOWN. -/
def execDownTimeout (p : Nat) (s : State) : Out :=
  let l := s.link p
  if p < 26 ∧ l.st == .down ∧ s.linkEnabled p ∧ (l.cold || s.elapsed l.since 1000000000) then .next (s.enterDetect p l.reason)
  else .next s

/-- DETECT_TEST (R229): a receiver termination on two tests 1 ms apart. -/
def execDetectTest (p : Nat) (first second : Bool) (s : State) : Out :=
  if p < 26 ∧ (s.link p).st == .detect ∧ first ∧ second then .next (s.startTraining p .train (firstRate p)) else .next s

/-- An invalid training block: it is counted, and the runs of consecutive blocks of R225 begin again (R222, R225). -/
def State.badTrain (s : State) (p : Nat) : State :=
  let s := if isHead p then s.count .GHL_SYNCHDR_CNT p else s
  s.updLink p fun l => { l with train := { l.train with readySeen := 0, tsbRecv := 0 } }

/-- The block that a training end sends: TS-B once it has received eight TS-A with ready and is ready itself (R225). A twin port, which
has no number of the table of R221, sends 24 or 25 in it (DESIGN CHOICE, log 156). -/
def trainBlockOf (rate p : Nat) (t : Training) : Bytes :=
  if t.final then tsB rate t.preset p else tsA rate t.preset t.wanted t.ready

/-- TS_A_RECEIVED (R225): the partner's request sets this end's preset; the receiver is satisfied or asks for another
preset, at most eight times; after eight TS-A with ready, a ready end sends TS-B. One block is sent for each received
(log 35). -/
def execTsAReceived (p : Nat) (block : Bytes) (satisfied : Bool) (want : Nat) (s : State) : Out :=
  let l := s.link p
  if 26 ≤ p ∨ !l.training then .next s
  else if !tsAOk l.rate block then .next (s.badTrain p)
  else
    let t := l.train
    let retry := !satisfied && !t.ready && decide (t.tries < 8) && decide (want < 8)
    let t := { t with preset := byteAt block 3, ready := t.ready || satisfied, wanted := if retry then want else t.wanted,
                      tries := if retry then t.tries + 1 else t.tries,
                      readySeen := if (byteAt block 4).testBit 0 then t.readySeen + 1 else 0, tsbRecv := 0 }
    let t := { t with final := t.final || (t.ready && decide (8 ≤ t.readySeen)) }
    let t := { t with tsbSent := t.tsbSent + t.final.toNat }
    .next ((s.updLink p fun l => { l with train := t }).sendTrain p (trainBlockOf l.rate p t))

/-- A port enters LOCK: the scrambler is at its seed, the equaliser's readings are what the receiver measured (R216, R220,
GHL_EQ). -/
def State.enterLock (s : State) (p : Nat) : State :=
  let l := s.link p
  let s := s.updLink p fun l => { l with st := .lock, since := s.clock, lock := false, lfsr := 0x1DBFBC, rx := ⟨0, 0, []⟩ }
  if isHead p then
    let (x, s) := s.fresh
    let w : Word := (x.setWidth 32) &&& 0x03E0FFFF
    s.wr .GHL_EQ (w ||| BitVec.ofNat 32 (l.train.preset % 8 * 2 ^ 29 + l.train.wanted % 8 * 2 ^ 26)) p
  else s

/-- TS_B_RECEIVED (R225): eight consecutive TS-B received and sixteen sent end the training. -/
def execTsBReceived (p : Nat) (block : Bytes) (s : State) : Out :=
  let l := s.link p
  if 26 ≤ p ∨ !l.training then .next s
  else if !tsBOk l.rate block then .next (s.badTrain p)
  else
    let t := { l.train with tsbRecv := l.train.tsbRecv + 1, tsbSent := l.train.tsbSent + l.train.final.toNat, readySeen := 0 }
    let s := (s.updLink p fun l => { l with train := t }).sendTrain p (trainBlockOf l.rate p t)
    if 8 ≤ t.tsbRecv ∧ 16 ≤ t.tsbSent then .next ((s.enterLock p).sendIdle p) else .next s

/-- TRAIN_TIMEOUT (R226): 24 ms. -/
def execTrainTimeout (p : Nat) (s : State) : Out :=
  let l := s.link p
  if p < 26 ∧ s.elapsed l.since 24000000 then
    match l.st with
    | .train => .next (s.enterDetect p 2)
    | .retrain => .next (s.failAttempt p)
    | _ => .next s
  else .next s

/-- The sync header of a received block is 01 or 10 (R219). -/
def headerValid (b : BitVec 130) : Bool := b.getLsbD 0 != b.getLsbD 1

/-- A received block is an IDLE block (R221). -/
def isIdleBlock (b : BitVec 130) : Bool := b.getLsbD 1 && !b.getLsbD 0 && b.extractLsb' 2 8 == 0x4B

/-- A received block is valid: a data block, or a control block of a known kind (R219, R221). -/
def blockValid (b : BitVec 130) : Bool :=
  headerValid b && (b.getLsbD 0 || isIdleBlock b || b.extractLsb' 2 8 == 0x1E || b.extractLsb' 2 8 == 0x2D)

/-- A receiver after `n` blocks like `b` (R222). -/
def Receiver.take (x : Receiver) (b : BitVec 130) (n : Nat) : Receiver :=
  let older := (x.bad.map (· + n)).filter fun k => decide (k < 1024)
  { headers := if headerValid b then x.headers + n else 0,
    idles := if isIdleBlock b then x.idles + n else 0,
    bad := if blockValid b then older else List.range (min n 1024) ++ older }

/-- Block lock is lost: an ACTIVE port and a port in CAPS enter RETRAIN (R222, R226). -/
def State.loseLock (s : State) (p : Nat) : State :=
  let st := (s.link p).st
  let s := s.updLink p fun l => { l with lock := false, rx := ⟨0, 0, []⟩ }
  match st with
  | .active => s.retrainPort p 0
  | .caps => s.failAttempt p
  | _ => s

/-- How many of `n` blocks like `b` are received up to the next that can change the lock or end LOCK (R222, R231). -/
def Receiver.piece (x : Receiver) (lock : Bool) (b : BitVec 130) (n : Nat) : Nat :=
  let n := if !lock && headerValid b then min n (64 - x.headers) else n
  let n := if lock && !blockValid b then min n (16 - x.bad.length) else n
  let n := if lock && isIdleBlock b then min n (4096 - x.idles) else n
  max 1 n

/-- What the blocks received so far bring about: block lock after 64 valid sync headers, from where invalid blocks count towards its
loss, its loss at 16 invalid blocks within 1,024, and the end of LOCK after 4,096 valid IDLE blocks; a twin port is then ACTIVE at once
(R222, R231, R318). -/
def State.judgeLock (s : State) (p : Nat) : State :=
  let s := if (s.link p).st == .lock && !(s.link p).lock && decide (64 ≤ (s.link p).rx.headers) then
      s.updLink p fun l => { l with lock := true, rx := { l.rx with bad := [] } }
    else s
  let l := s.link p
  if l.lock && decide (16 ≤ l.rx.bad.length) then s.loseLock p
  else if l.st == .lock && l.lock && decide (4096 ≤ l.rx.idles) then (if isHead p then s.enterCaps p else s.twinPortActive p)
  else s

/-- `n` blocks like `b` are received on a link in LOCK, CAPS or ACTIVE, and the invalid ones are counted (R219, R222); `fuel` bounds the
pieces. -/
def State.receiveRun (s : State) (p : Nat) (b : BitVec 130) : Nat → Nat → State
  | 0, _ => s
  | fuel + 1, n =>
    if n = 0 ∨ 26 ≤ p ∨ !([LinkState.lock, .caps, .active].contains (s.link p).st) then s
    else
      let m := min n ((s.link p).rx.piece (s.link p).lock b n)
      let s := if isHead p && !blockValid b then s.count .GHL_SYNCHDR_CNT p 0 0 m else s
      ((s.updLink p fun l => { l with rx := l.rx.take b m }).judgeLock p).receiveRun p b fuel (n - m)

/-- Blocks are received, each given with how many like it come one behind the other; how they are grouped makes no difference (R219,
R222). -/
def State.receiveBlocks (s : State) (p : Nat) (blocks : List (BitVec 130 × Nat)) : State :=
  s.each blocks fun s x => s.receiveRun p x.1 x.2 x.2

/-- BLOCK_LOCK_ACQUIRED (R222): the blocks that give block lock. -/
def execBlockLockAcquired (p : Nat) (blocks : List (BitVec 130 × Nat)) (s : State) : Out := .next (s.receiveBlocks p blocks)

/-- BLOCK_LOCK_LOST (R222, R226): the blocks by which block lock is lost. -/
def execBlockLockLost (p : Nat) (blocks : List (BitVec 130 × Nat)) (s : State) : Out := .next (s.receiveBlocks p blocks)

/-- LOCK_COMPLETE (R231): the IDLE blocks that end LOCK. -/
def execLockComplete (p : Nat) (blocks : List (BitVec 130 × Nat)) (s : State) : Out := .next (s.receiveBlocks p blocks)

/-- LOCK_TIMEOUT (R226): 4 ms. -/
def execLockTimeout (p : Nat) (s : State) : Out :=
  let l := s.link p
  if p < 26 ∧ l.st == .lock ∧ s.elapsed l.since 4000000 then .next (s.failAttempt p) else .next s

/-! ### The capability exchange -/

/-- STAT_CAPS (R234). -/
def execStatCaps (p : Nat) (frame : Bytes) (s : State) : Out :=
  let l := s.link p
  if p < 24 ∧ l.st == .caps ∧ l.version = 0 ∧ statOf frame 2 64 then .next (s.takeCaps p (framePayload frame)) else .next s

/-- SYNC_ECHO (R238): an echo of a REQ that was sent again does not measure the epoch, and a further REQ is made
(R253). -/
def execSyncEcho (p : Nat) (frame : Bytes) (t4 : Time) (s : State) : Out :=
  let l := s.link p
  let pay := framePayload frame
  if p < 24 ∧ (l.st == .caps || l.st == .active) ∧ statOf frame 4 16 then
    match l.syncWait with
    | some (id, t1, void) =>
      if byteAt pay 8 ≠ id then .next s
      else if void then
        .next ((s.updLink p fun l => { l with syncWait := none }).sendSyncReq p)
      else .next (s.takeEcho p (epochOf t1 t4 (BitVec.ofNat 32 (leAt pay 0 4)) (BitVec.ofNat 32 (leAt pay 4 4))))
    | none => .next s
  else .next s

/-- CAPS_TIMEOUT (R231): 20 ms in CAPS. -/
def execCapsTimeout (p : Nat) (s : State) : Out :=
  let l := s.link p
  if p < 24 ∧ l.st == .caps ∧ s.elapsed l.since 20000000 then .next (s.portDown p 6 true) else .next s

/-- SYNC_PERIODIC (R240): every 100 ms while ACTIVE, but for a port that sends only IDLE (R236). -/
def execSyncPeriodic (p : Nat) (s : State) : Out :=
  let l := s.link p
  if s.active p ∧ !s.muted p ∧ s.elapsed l.syncAt 100000000 then
    .next ((s.updLink p fun l => { l with syncAt := s.clock, syncs := [], syncWait := none }).sendSyncReq p)
  else .next s

/-! ### STAT and NAK (R252 to R255, R259) -/

/-- A violation is counted, and counts towards the window's limit (R259). -/
def State.violate (s : State) (p : Nat) : State :=
  (s.count .GHL_VIOL_CNT p).updLink p fun l => { l with viols := l.viols + 1 }

/-- CTRL RESEND of a status sequence number; where the STAT asked for is or may be a SYNC_ECHO, the echo that comes no longer
measures (R253, R259). -/
def State.askAgain (s : State) (p : Nat) (seq : BitVec 32) (echo : Bool) : State :=
  (s.updLink p fun l => { l with syncWait := l.syncWait.map fun w => (w.1, w.2.1, w.2.2 || echo) }).sendCtl p (resendFrame seq)

/-- A frame with a bad header is discarded (R259). -/
def State.badHeader (s : State) (p : Nat) : State :=
  let seq := (s.link p).statNext.getD 0
  ((s.count .GHL_CRC_CNT p).raise .ghlCrc seq p).askAgain p seq true

/-- A status sequence number is taken: it must increase (R253, R259). -/
def State.takeStatSeq (s : State) (p : Nat) (seq : BitVec 32) : State :=
  let s := match (s.link p).statNext with
    | some n => if sdiff seq n < 0 then s.violate p else s
    | none => s
  s.updLink p fun l =>
    { l with statNext := some (match l.statNext with
      | some n => if sdiff seq n < 0 then n else seq + 1
      | none => seq + 1) }

/-- line_ack of a STAT (R252). -/
def State.takeLineAck (s : State) (p : Nat) (a : BitVec 32) : State :=
  let l := s.link p
  if !l.sentActive || decide (0 < sdiff a l.lastSeq) then s
  else if (l.lineAck.map fun b => decide (sdiff a b < 0)).getD false then s.violate p
  else (s.updLink p fun l => { l with lineAck := some a }).wr .GHL_ACK a p

/-- ctl_ack of a STAT (R252, R255). -/
def State.takeCtlAck (s : State) (p : Nat) (a : BitVec 32) : State :=
  let l := s.link p
  if 0 ≤ sdiff a l.ctlNext then s
  else if (l.ctlAck.map fun b => decide (sdiff a b < 0)).getD false then s.violate p
  else s.ackCtl p a

/-- Payload length of a STAT kind (R252); none for an unknown one. -/
def statLength (kind : Nat) : Option Nat :=
  match kind with
  | 1 => some 32
  | 2 => some 64
  | 3 => some 8
  | 4 => some 16
  | 5 => some 0
  | _ => none

/-- A frame received on a head port in CAPS or ACTIVE, as the partner table answers it (R259). -/
def State.takeStat (s : State) (p : Nat) (f : Bytes) : State :=
  let seq := BitVec.ofNat 32 (leAt f 4 4)
  if !headerGood f then s.badHeader p
  else if byteAt f 0 = 0x82 then s
  else if byteAt f 0 ≠ 0x81 then s.violate p
  else
    let kind := byteAt f 16
    let s := s.updLink p fun l => { l with statAt := s.clock }
    let s := s.takeStatSeq p seq
    if !payloadGood f then ((s.violate p).raise .ghlCrc seq p).askAgain p seq (kind == 4)
    else if statLength kind ≠ some (leAt f 2 2) || statRange f then (s.violate p).askAgain p seq (kind == 4)
    else if (s.link p).st == .caps && (kind == 1 || kind == 3) then s.violate p
    else ((s.takeLineAck p (BitVec.ofNat 32 (leAt f 8 4))).takeCtlAck p (BitVec.ofNat 32 (leAt f 12 4))).capsComplete p |>.enterIfReady

/-- STAT_ACK (R252): what any received STAT does beside its payload. -/
def execStatAck (p : Nat) (frame : Bytes) (s : State) : Out :=
  if p < 24 ∧ ((s.link p).st == .caps || (s.link p).st == .active) then .next (s.takeStat p frame) else .next s

/-- Unacknowledged frames are sent again; the eighth resend of one raises GHL.PARTNER, which schedules a retrain (R254, R255,
R259). A port that may send only IDLE sends none (R236). -/
def State.resendAll (s : State) (p : Nat) (l : List CtlFrame) : State :=
  if s.muted p then s
  else
    let s := s.each l fun s g => s.resend p g
    s.each (l.filter fun g => g.resends == 7) fun s _ =>
      let s := s.raisePartner p
      if s.active p && isHead p then s.scheduleRetrain p else s

/-- The unacknowledged frame of a sequence number is sent again (R254). -/
def State.resendSeq (s : State) (p : Nat) (seq : BitVec 32) : State :=
  s.resendAll p ((s.link p).unacked.filter fun g => g.seq == seq)

/-- A control frame that the HDM answers with NAK RANGE counts as accepted: it is not sent again (R254). -/
def State.rangeNak (s : State) (p : Nat) (seq : BitVec 32) : State :=
  (s.updLink p fun l => { l with unacked := l.unacked.filter fun g => g.seq != seq }).drainCtl p 4

/-- The 8824's answer to a NAK code (R254); a code that its table does not list counts a violation (DESIGN CHOICE, log 135). -/
def State.answerNak (s : State) (p code type : Nat) (seq : BitVec 32) : State :=
  match code with
  | 1 => (s.raise .ghlCrc seq p).resendAll p (s.link p).unacked
  | 2 => s.resendSeq p seq
  | 3 => s.count .GHL_LINE_NAK_CNT p
  | 4 => if type = 1 then s.violate p else (s.violate p).rangeNak p seq
  | 5 => if type = 1 then s.count .GHL_LINE_NAK_CNT p else s.resendSeq p seq
  | _ => s.violate p

/-- NAK (R254). -/
def execNak (p : Nat) (frame : Bytes) (s : State) : Out :=
  if 24 ≤ p ∨ !((s.link p).st == .caps || (s.link p).st == .active) then .next s
  else if !headerGood frame then .next (s.badHeader p)
  else if byteAt frame 0 ≠ 0x82 then .next s
  else
    let s := (s.takeStatSeq p (BitVec.ofNat 32 (leAt frame 4 4))).count .GHL_NAK_CNT p
    let s := s.updLink p fun l => { l with naks := l.naks + 1 }
    .next (s.answerNak p (byteAt frame 8) (byteAt frame 9) (BitVec.ofNat 32 (leAt frame 12 4)))

/-- STAT_TIMEOUT (R259): no STAT for stat_timeout ms while ACTIVE. -/
def execStatTimeout (p : Nat) (s : State) : Out :=
  if s.active p ∧ s.elapsed (s.link p).statAt (s.get .GHL_CTRL_stat_timeout p * 1000000) then
    let s := (s.violate p).updLink p fun l => { l with statAt := s.clock }
    .next ((s.raisePartner p).scheduleRetrain p)
  else .next s

/-- PARTNER_WINDOW_END (R259). -/
def execPartnerWindowEnd (p : Nat) (s : State) : Out :=
  let l := s.link p
  if s.active p ∧ s.elapsed l.windowAt (s.get .GHL_NAK_CTRL_window p * 1000000) then
    let limit (n k : Nat) : Bool := k != 0 && decide (k < n)
    let broken := limit l.naks (s.get .GHL_NAK_CTRL_nak_limit p) || limit l.viols (s.get .GHL_NAK_CTRL_viol_limit p)
    let s := if broken then (s.raisePartner p).scheduleRetrain p else s
    .next (s.updLink p fun l => { l with windowAt := s.clock, naks := 0, viols := 0 })
  else .next s

/-- CTL_RESEND_TIMEOUT (R255, R320): ctl_ack has not reached a frame within 100 µs; all from the oldest unacknowledged one on are sent
again. -/
def execCtlResendTimeout (p : Nat) (s : State) : Out :=
  let l := s.link p
  if p < 26 && (l.st == .caps || l.st == .active) && l.unacked.any fun f => s.elapsed f.sentAt 100000 then .next (s.resendAll p l.unacked)
  else .next s

end Sys2Proof.Machine
end

