-- ==== Sys2Proof/Machine/TwinOps.lean ====
section
/-! DEFINITION. Pairing, checkpoints, takeover and the end of a pair (R310 to R345). -/

namespace Sys2Proof.Machine

/-! ### Checkpoints (R332 to R335) -/

/-- The registers that a SETTINGS record holds: those of R324 and TWN_POS_TOL (R333). -/
def settingsRegs : List (Reg × Nat) := digestRegs.1 ++ digestRegs.2 ++ [(.TWN_POS_TOL, 0)]

/-- The tables that the pair agrees, by kind and target (R131, R326). -/
def agreedTables : List (Nat × Nat) :=
  [1, 2, 3, 4, 5, 6, 8].flatMap fun k => (List.range (kindTargets k)).map fun t => (k, t)

/-- The image of a table value (R131). -/
def State.valueImage (s : State) (k t : Nat) (v : TabVal) : Bytes :=
  if k = 2 then imageOf 2 t 0 (s.nozzles t) ((List.range (s.nozzles t)).flatMap fun i => toLe 2 (corrWord v.words i).toNat)
  else imageOf k t 0 (bodyCount k v.bytes) v.bytes

/-- The placements of a group's queue as records, in queue order (R333). -/
def Group.records (x : Group) (g : Nat) : List ChangeBody :=
  x.queue.filterMap fun q => q.start.map fun a => .place g q.sec q.handle a q.repeats q.pitch q.origin q.map

/-- A pending table is a load of the loop's own (R302). -/
def State.ownLoad (s : State) (k t : Nat) (e : Line) : Bool := s.pho.loop.own.any fun x => x.1 == k && x.2.1 == t && x.2.2 == e

/-- The changes pending at a checkpoint's line, with their identifiers: pending tables, and end lines of placements (R333). -/
def State.pendingChanges (s : State) : List (Nat × Option Line × ChangeBody) :=
  let tables : List (Option Line × ChangeBody) := s.tabs.filterMap fun x =>
    if x.kind ≤ 8 then x.pend.map fun (e, v) =>
      (some e, ChangeBody.table (s.valueImage x.kind x.target v) (s.ownLoad x.kind x.target e) (if x.kind = 1 then s.deltaOf x.target else []))
    else none
  let ends : List (Option Line × ChangeBody) := s.sto.groups.zipIdx.flatMap fun (x, g) => x.queue.filterMap fun q =>
    q.fin.map fun e => (some e, ChangeBody.cancelPlacement g q.handle)
  (tables ++ ends).map fun c => (s.idOf c.1 c.2, c.1, c.2)

/-- The checkpoint of this module for line C (R332, R333). A strip's data may stand anywhere that the partner has them (R330). -/
def State.checkpoint (s : State) (c : Line) (number : Word) : CkptBody :=
  { line := c, number := number, serial := s.serial,
    settings := settingsRegs.map fun (r, i) => (r.addr i 0 0, s.rd r i),
    geom := s.mer.geom.items,
    tables := agreedTables.map fun (k, t) => s.valueImage k t (s.tabAt k t c),
    changes := s.pendingChanges,
    sections := s.sto.sections.map fun (n, x) =>
      ⟨x.record n, x.st == .sealed', x.nexts, (x.strips none).map fun q => q.map fun e => (e.2, e.2)⟩,
    placements := s.sto.groups.zipIdx.flatMap fun (x, g) => Group.records x g,
    gref := (List.range 24).map fun p => (List.range (s.nozzles p)).map fun i => BitVec.ofNat 8 (s.gref p i),
    deltas := (List.range 8).flatMap fun b => (List.range 8).map fun k => (s.deltaOf b).getD k 0,
    seqs := (List.range 24).map fun p => ((s.link p).lineNext - 1, (s.pipe p).passed.getD (s.highestBegun p)) }

/-- Blocks of a checkpoint stored RAW after a mismatch are counted and raised (R89). A record is no strip of a section: the detail is free
(DESIGN CHOICE, log 153). -/
def State.recordVerify (s : State) (blocks : Nat) : State :=
  s.each (List.range blocks) fun s _ =>
    let s := (s.count .STO_VERIFY_CNT).raise .stoVerify ((Config.freeWord s.free).setWidth 32) (Config.lane s.free % 8)
    { s with free := s.free + 1 }

/-- A table image takes its place at once, in force since line C (R333, R339). The reset table of a port is no load of it
(R160, R600). -/
def State.restoreTable (s : State) (c : Line) (image : Bytes) : State :=
  let k := byteAt image 0
  let t := byteAt image 1
  if k = 8 then s.placeWave t (image.drop 16) c true (image.drop 16 != resetWave)
  else s.setTab { s.tab k t with cur := loadValue k (defaultTab k) (leAt image 2 2) (image.drop 16), since := c, pend := none }

/-- The base curve that goes with a restored tone curve: the checkpoint holds the curve and its offsets, and of the host's own only one
that is pending (R301, R333; DESIGN CHOICE, log 124). -/
def State.restoreBase (s : State) (b : Nat) : State :=
  let x := s.tab 1 b
  let own (e : Line) : Bool := s.ownLoad 1 b e
  let base := match x.pend with
    | some (e, v) => if own e then s.shiftCurve b v.bytes (s.deltaOf b) (-1) else v.bytes
    | none => s.shiftCurve b x.cur.bytes (s.deltaOf b) (-1)
  { s with pho := { s.pho with loop := { s.pho.loop with base := upd b (fun _ => some base) s.pho.loop.base } } }

/-- A checkpoint is restored: the module holds its settings, geometry, tables, sections, placements, pending changes, loop state and
sequence numbers, and no other section or placement (R323, R333, R339). -/
def State.restoreCkpt (s : State) (b : CkptBody) : State :=
  let s := s.each settingsRegs fun s (r, i) => match b.settings.find? fun e => e.1 == r.addr i 0 0 with
    | some (_, v) => s.wr r v i
    | none => s
  let s := { s with mer := { s.mer with geom := Geometry.ofItems b.geom } }
  let kept := b.sections.map fun x => leAt x.header 2 2
  let s := { s with sto := { s.sto with
    sections := s.sto.sections.filter fun e => kept.contains e.1, groups := s.sto.groups.map fun _ => Group.reset } }
  let s := s.each b.sections fun s x => s.mergeSection (leAt x.header 2 2) x.header x.next x.strips x.sealed'
  let s := s.each b.tables fun s image => s.restoreTable b.line image
  let gref := (List.range 24).map fun p =>
    (b.gref.getD p []).zipIdx.foldl (fun (m : SMap (BitVec 8)) e => SMap.put 0x80 e.2 e.1 m) []
  let delta := (List.range 8).map fun r => (List.range 8).map fun k => b.deltas.getD (8 * r + k) 0
  let s := { s with pho := { s.pho with loop := { s.pho.loop with gref := gref, delta := delta, own := [] } } }
  let s := s.each b.placements fun s q => s.applyChange none q none 0
  let s := s.each b.changes fun s (id, l, q) => s.applyNamed id l q none 0
  let s := s.each (List.range 8) State.restoreBase
  s.each b.seqs.zipIdx fun s ((q, l), p) => (s.updLink p fun k => { k with lineNext := q + 1 }).updPipe p fun k => { k with passed := some l }

/-- The journal is applied in order (R323, R335, R339). -/
def State.applyJournal (s : State) : State :=
  s.each s.twn.ckpt.journal fun s (id, l, b) => s.applyNamed id l b none 0

/-- The journal restarts (R335). -/
def State.newJournal (s : State) : State :=
  { s with twn := { s.twn with ckpt := { s.twn.ckpt with journal := [], journalBytes := 0 } } }

/-- The journal restarts behind a checkpoint that holds every change up to an identifier: those after it stay (R335). -/
def State.trimJournal (s : State) (through : Nat) : State :=
  let l := s.twn.ckpt.journal.filter fun e => decide (through < e.1)
  { s with twn := { s.twn with ckpt := { s.twn.ckpt with
    journal := l, journalBytes := (l.map fun e => (changeRecord e.1 e.2.1 e.2.2).length).sum } } }

/-- The journal would exceed its limit of TWN_CKPT.journal_mb (R335). -/
def State.journalFull (s : State) : Bool := decide (s.get .TWN_CKPT_journal_mb * 1048576 ≤ s.twn.ckpt.journalBytes)

/-- The primary makes a checkpoint and sends it (R335). -/
def State.sendCkpt (s : State) : State :=
  let n := s.twn.ckpt.number + 1
  let b := s.checkpoint s.epochLine n
  let s := { s with twn := { s.twn with ckpt := { s.twn.ckpt with building := some b, number := n, through := s.twn.lastId, at' := s.clock } } }
  let s := s.recordVerify (CkptBody.mismatches b (s.get .STO_CTRL_mirror_effort))
  s.sendTwin (.ckpt b s.twn.lastId)

/-- The partner has the whole checkpoint: it is counted, its line shown, its journal restarts, and the activity ends
(R335). -/
def State.ckptDone (s : State) (b : CkptBody) : State :=
  let s := { s with twn := { s.twn with ckptLine := b.line, ckpt := { s.twn.ckpt with body := some b, building := none } } }.trimJournal s.twn.ckpt.through
  (s.count .TWN_CKPT_CNT).actEnd 7 0 .ok

/-- A checkpoint of this module has not yet been acknowledged (R320, R335). -/
def State.ckptOpen (s : State) : Bool := s.openTwin 0x18

/-- TWIN_CKPT arrives (R335, R435): STATE for a MAINT on a module that is no PAIRED primary in COLD. -/
def State.ckptStart (s : State) (a : Activity) : State :=
  if !s.coldPrimary then s.actReport a .state else s.actArrive a fun s _ => s.sendCkpt

/-! ### Pairing (R311, R323) -/

/-- What a joining module had is put back: sections with their bytes, tables, waves, geometry, loop state, settings, numbering, position
and links (R323). -/
def State.undoJoin (s : State) (b : Before) : State :=
  let lo := s.regionBase
  let hi := lo + s.regionPages * 65536
  let region (m : Memory) (inside : Bool) : Memory := m.filter fun e => (decide (lo ≤ e.1) && decide (e.1 < hi)) == inside
  let mem := (region b.mem true).foldl (fun m e => m.write Memory.dramFill e.1 e.2) (region s.drm.mem false)
  let waves := s.tabs.filter fun (x : Tab) => x.kind == 8
  let s := { s with sto := b.sto, tabs := (b.tabs.filter fun (x : Tab) => x.kind != 8) ++ waves, mer := { s.mer with geom := b.geom },
                    drm := { s.drm with mem := mem },
                    pho := { s.pho with loop := { s.pho.loop with gref := b.gref, delta := b.delta, base := b.base } } }
  let s := s.each b.waves.zipIdx fun s ((body, loaded), p) =>
    if s.wave p = body then s.updWick p fun w => { w with loaded := loaded } else s.placeWave p body (s.unsentLine p) true loaded
  let s := s.each (settingsRegs.zip b.settings) fun s ((r, i), v) => s.wr r v i
  let s := s.each b.seqs.zipIdx fun s ((q, l), p) => (s.updLink p fun k => { k with lineNext := q }).updPipe p fun k => { k with passed := l }
  let s := s.each b.enabled.zipIdx fun s (was, p) =>
    if was || !s.on .GHL_CTRL_en p then s else (s.set .GHL_CTRL_en 0 p).portDown p 1 false
  s.loadPos (s.mer.pos - b.shift)

/-- Pairing fails: both modules stay as they were, and what J had received is discarded (R323). -/
def State.failPair (s : State) (reason : Nat) : State :=
  let s := match s.twn.before with
    | some b => s.undoJoin b
    | none => s
  let k := s.twn.kept.getD ⟨s.twn.ckpt, s.twn.ckptLine, s.twn.peers⟩
  { s with twn := { s.twn with pair := .unpaired, role := s.twn.prior, step := 0, joining := false, before := none, fail := reason, version := 0,
                               staged := [], held := [], unvoted := [], chunks := [], waiting := [], kept := none, greeting := none,
                               ckpt := { k.ckpt with building := none, number := s.twn.ckpt.number }, ckptLine := k.line, peers := k.peers } }

/-- The primary of two claims: some true where this module is it, none where they conflict (R311). -/
def primaryOf (mine theirs : Hello) : Option Bool :=
  if mine.printing && theirs.printing then none
  else if mine.printing || theirs.printing then some mine.printing
  else if mine.roleReq && theirs.roleReq then none
  else if mine.roleReq || theirs.roleReq then some mine.roleReq
  else some (decide (theirs.serial.toNat < mine.serial.toNat))

/-- The twin protocol version of two offers: the highest in both (R322). -/
def twinVersion (mine theirs : Nat) : Nat :=
  if mine.testBit 1 && theirs.testBit 1 then 2 else if mine.testBit 0 && theirs.testBit 0 then 1 else 0

/-- A HELLO is judged: steps 2 and 3 of pairing (R311, R322 to R324). -/
def State.takeHello (s : State) (h : Hello) : State :=
  let mine := s.hello
  let v := twinVersion mine.versions h.versions
  let s := (s.wr .TWN_PARTNER_LO (h.serial.extractLsb' 0 32)).wr .TWN_PARTNER_HI (h.serial.extractLsb' 32 32)
  let s := { s with twn := { s.twn with version := v } }
  if v = 0 ∨ mine.mode ≠ h.mode ∨ mine.mode = 0 ∨ (v = 1 ∧ 2 ≤ mine.mode) then s.failPair 2
  else
    match primaryOf mine h with
    | none => s.failPair 3
    | some first =>
      if mine.digest ≠ h.digest then s.failPair 4
      else
        let role := if first then Role.primary else if s.twinMode = 3 then .secondary else .standby
        { s with twn := { s.twn with role := role, joining := !first, step := 4, since := s.clock, index := none, peerIndex := none } }

/-- Pairing starts, and a HELLO that has come already is judged as soon as this module has said its own (R323). -/
def State.beginPair (s : State) : State :=
  let s := s.startPair
  match s.twn.greeting with
  | some h => if s.twn.step = 2 then { s with twn := { s.twn with greeting := none } }.takeHello h else s
  | none => s

/-- Steps 5 and 6 of A: CHECK HDM for every port, DATA for every strip, and a checkpoint (R323). -/
def State.sendAll (s : State) : State :=
  let s := { s with twn := { s.twn with step := 6 } }
  let s := s.each (List.range 24) State.sendHdm
  let s := s.each s.sto.sections fun s (n, x) => s.each x.data.zipIdx fun s (q, i) =>
    s.each q.strips.zipIdx fun s (t, k) => s.sendData n i k t.stream 0
  let s := s.newJournal.sendCkpt
  { s with twn := { s.twn with step := 7, since := s.clock } }

/-- The ports that the partner's HDMs answer on (R317, R326). -/
def State.peerPorts (s : State) : List Nat :=
  (List.range 24).filter fun p => s.twn.peers.any fun e => e.1 == p && e.2.version != 0

/-- A module brings a Gahild port up by itself (R323 step 7, R339). -/
def State.bringUp (s : State) (p : Nat) : State :=
  let s := s.set .GHL_CTRL_en 1 p
  if s.active p then s.retrainPort p 2 else s.enablePort p

/-- A standby in COLD has its Gahild ports disabled (R310). -/
def State.disablePorts (s : State) : State :=
  s.each (List.range 24) fun s p =>
    if s.on .GHL_CTRL_en p then (s.set .GHL_CTRL_en 0 p).portDown p 1 false else s

/-- PAIRED from a join line on (R323 step 8), or at once in COLD, where the standby's Gahild ports are disabled (R310, R323 step 7). -/
def State.becomePaired (s : State) (l : Option Line) : State :=
  let s := match l with
    | some l => { s with twn := { s.twn with joinShown := l } }
    | none => s
  let s := { s with twn := { s.twn with pair := .paired, step := 8, joining := false, before := none, kept := none, joinLine := l,
                                        tookOver := none } }
  if s.follower && s.twinMode == 1 then s.disablePorts else s

/-- Step 7 of J: the checkpoint restored and the journal applied; in COLD pairing ends, and the journal goes on behind the checkpoint; in
MIRROR and DUAL the Gahild ports come up (R323). -/
def State.joinRestore (s : State) (b : CkptBody) : State :=
  let s := { s with twn := { s.twn with ckpt := { s.twn.ckpt with body := some b, building := none }, ckptLine := b.line } }
  let s := ((s.count .TWN_CKPT_CNT).restoreCkpt b).applyJournal
  if s.regionPages < s.usedPages then s.failPair 6
  else if s.twinMode = 1 then s.becomePaired none
  else s.newJournal.each s.peerPorts State.bringUp

/-- J restores the checkpoint that has come once every strip that it names has (R323 step 6). -/
def State.tryRestore (s : State) : State :=
  match s.twn.ckpt.building with
  | some b =>
    if s.twn.pair == .pairing && s.twn.joining && s.twn.step == 7
        && b.sections.all fun x => s.dataIn (leAt x.header 2 2) ((s.section (leAt x.header 2 2)).getD (sectionOf x.header)) x.strips then
      s.joinRestore b
    else s
  | none => s

/-- J takes a checkpoint: it is restored now, or once the strips have come (R323). -/
def State.joinCkpt (s : State) (b : CkptBody) : State :=
  let s := { s with twn := { s.twn with ckpt := { s.twn.ckpt with building := some b } } }
  if s.twn.step = 6 then { s with twn := { s.twn with step := 7, since := s.clock } }.tryRestore else s

/-- What J has before A's state takes its place (R323). -/
def State.had (s : State) (shift : BitVec 64) : Before :=
  { sto := s.sto, mem := s.drm.mem, tabs := s.tabs, geom := s.mer.geom, gref := s.pho.loop.gref, delta := s.pho.loop.delta,
    base := s.pho.loop.base, settings := settingsRegs.map fun (r, i) => s.rd r i,
    waves := (List.range 24).map fun p => (s.wave p, (s.wick p).loaded),
    seqs := (List.range 24).map fun p => ((s.link p).lineNext, (s.pipe p).passed),
    enabled := (List.range 24).map fun p => s.on .GHL_CTRL_en p, shift := shift }

/-- J aligns its position with A's at the same index, keeps what it had, gives its store up to A's, and restores a checkpoint that has
come already (R323, R325). -/
def State.alignTo (s : State) (own peer : Pos) : State :=
  let shift : BitVec 64 := (peer - own).setWidth 64 <<< 16
  let had := s.had shift
  let s := s.loadPos (s.mer.pos + shift)
  let s := { s with sto := { s.sto with sections := [], groups := s.sto.groups.map fun _ => Group.reset },
                    twn := { s.twn with step := 6, since := s.clock, before := some had } }
  match s.twn.ckpt.building with
  | some b => s.joinCkpt b
  | none => s

/-- The twin block's index latch at a filtered ENC0_Z edge (R325, R326). -/
def State.twinIndex (s : State) (pos : Pos) (t : Time) : State :=
  let s := { s with twn := { s.twn with index := some (pos, t) } }
  match s.twn.pair with
  | .pairing =>
    if s.twn.step ≠ 4 then s
    else if s.twn.joining then
      match s.twn.peerIndex with
      | some q => s.alignTo pos q
      | none => s
    else (s.sendTwin (.check (.pos pos))).sendAll
  | .paired => s.sendTwin (.check (.pos pos))
  | _ => s

/-- J is ready: its checkpoint restored, and in MIRROR and DUAL its ports ACTIVE and its blocks ready; in COLD its pairing has ended
(R41, R323). -/
def State.joinReady (s : State) : Bool :=
  (s.twn.pair == .pairing && s.twn.joining && s.twn.step == 7 && s.twn.ckpt.building.isNone && s.peerPorts.all s.active && s.ready)
    || (s.paired && s.follower && s.twinMode == 1)

/-- A takes J's report that it is ready: COLD ends the pairing, otherwise JOIN names the join line (R323). -/
def State.acceptReady (s : State) : State :=
  if s.twinMode = 1 then s.becomePaired none
  else
    let l := s.epochLine
    (s.sendTwin (.join l)).becomePaired (some l)

/-! ### The end of a pair (R336 to R345) -/

/-- What ends with the pair on the primary: a checkpoint under way (R435). -/
def State.dropCkpt (s : State) : State :=
  ({ s with twn := { s.twn with ckpt := { s.twn.ckpt with building := none } } }).actEnd 7 0 .state

/-- The primary goes on alone (R327, R340): what waits for the partner is of no use. -/
def State.goAlone (s : State) : State :=
  let s := s.decideAlone.dropCkpt
  { s with twn := { s.twn with pair := .unpaired, version := 0, joinLine := none, waiting := [], chunks := [] } }

/-- The changes voted yes and held without a DECIDE at a takeover: applied at their line where no pipeline that they
affect has begun it, otherwise discarded (R339). -/
def State.settleHeld (s : State) : State :=
  let l := s.twn.held
  let s := { s with twn := { s.twn with held := [] } }
  s.each l fun s p =>
    let begun := match p.line with
      | some e => s.anyBegun (s.changeAffects p.body) e
      | none => false
    if begun then s else s.applyNamed p.id p.line p.body none 0

/-- The standby or secondary judges the primary failed and becomes primary (R339). In COLD it enters PRINTING from STANDBY, once a port
that it brings up is ready (R41; DEDUCED, log 142); HELD is left by a reset only (R408). -/
def State.takeOver (s : State) : State :=
  let former := s.twn.role
  let mode := s.twinMode
  let s := (s.count .TWN_TAKEOVER_CNT).raise .twnTakeover (BitVec.ofNat 32 mode)
  let s := { s with twn := { s.twn with role := .primary, pair := .unpaired, tookOver := some former, version := 0, joinLine := none, since := s.clock,
                                        unvoted := [], waiting := [], chunks := [] } }
  if mode = 1 then
    let s := match s.twn.ckpt.body with
      | some b => s.restoreCkpt b
      | none => s
    let s := s.applyJournal.newJournal
    let s := { s with twn := { s.twn with resync := s.peerPorts, entering := s.dev.dev == DevState.standby } }
    (s.each s.peerPorts State.bringUp).enterIfReady
  else s.settleHeld

/-- The partner is judged failed (R336, R339, R340). -/
def State.partnerFailed (s : State) (bySilence : Bool) : State :=
  if s.twn.role == .primary then
    let s := if bySilence then s.raise .twnHeartbeat 2 else s
    s.goAlone
  else s.takeOver

/-- The pair or the pairing ends without a fault (R345): the standby or secondary detaches and does not rejoin. -/
def State.endPair (s : State) : State :=
  match s.twn.pair with
  | .pairing =>
    let s := s.failPair s.twn.fail
    { s with twn := { s.twn with noRejoin := true } }
  | .paired => if s.follower then s.detach false else s.goAlone
  | .detached => { s with twn := { s.twn with noRejoin := true } }
  | .unpaired => s

/-- Nothing of the partner has been heard on the twin ports for the timeout (R336). -/
def State.hbSilent (s : State) : Bool := s.elapsed s.twn.hbAt (s.get .TWN_TIMING_timeout * 1000)

/-- TWN_STATUS.alive_in: an edge within the timeout (R345). -/
def State.aliveIn (s : State) : Bool :=
  match s.twn.edgeAt with
  | some t => !s.elapsed t (s.get .TWN_TIMING_timeout * 1000)
  | none => false

/-- No edge on TWIN_ALIVE_IN for the timeout (R336). -/
def State.aliveSilent (s : State) : Bool := s.elapsed s.twn.aliveAt (s.get .TWN_TIMING_timeout * 1000)

end Sys2Proof.Machine
end

