-- ==== Sys2Proof/Machine/Lamplighter.lean ====
section
/-! DEFINITION. Lamplighter's MAINT activities that no other chapter starts, its defer queue and its own schedule (R434 to
R441). -/

namespace Sys2Proof.Machine

/-- The states in which an activity may start (R434, R435). -/
def actStates (code : Nat) : List DevState :=
  match code with
  | 3 => [.standby]
  | 4 => [.firstLight, .standby, .printing]
  | 8 => [.firstLight, .standby, .printing]
  | 9 => [.printing]
  | 10 => [.printing]
  | _ => [.standby, .printing]

/-! ### Spitting and control strips (R439 to R441) -/

/-- The line of an own activity's start is agreed with the partner, or taken at once (R441). -/
def State.startLines (s : State) (body : ChangeBody) : State :=
  s.agree (some s.epochLine) body none

/-- A SPIT starts: a group whose running placement leaves no gap completes it with STATE (R439). -/
def State.spitBegin (s : State) (a : Activity) : State :=
  let gap := match s.runningPlacement (byteAt a.param 4) with
    | some p => decide (s.heightOf p.sec < p.pitch)
    | none => false
  if gap then s.startLines (.spit (BitVec.ofNat 8 a.target) a.param) else s.actEnd 9 a.target .state

/-- The fields of a SPIT parameter lie in their ranges, and every bar of the mask belongs to the group (R439). -/
def State.spitOk (s : State) (mask : Nat) (q : Bytes) : Bool :=
  decide (1 ≤ leAt q 0 2) && decide (leAt q 0 2 ≤ 4096) && decide (1 ≤ byteAt q 2) && decide (byteAt q 2 ≤ 7)
    && decide (1 ≤ byteAt q 3) && decide (byteAt q 3 ≤ 16) && decide (byteAt q 4 < 4)
    && (List.range 8).all fun b => !mask.testBit b || s.groupOf b == some (byteAt q 4)

/-- A STRIP starts: its section is SEALED and fits the gap of the group's running placement (R440). -/
def State.stripBegin (s : State) (a : Activity) : State :=
  let os := leAt a.param 4 4
  match s.section (stripSection a.param) with
  | some x =>
    if x.st ≠ .sealed' then s.actEnd 10 a.target .state
    else
      let fits := match s.runningPlacement (byteAt a.param 2) with
        | some p => decide (s.heightOf p.sec ≤ os) && decide (os + x.height ≤ p.pitch)
        | none => false
      if fits then s.startLines (.strip (BitVec.ofNat 8 a.target) a.param) else s.actEnd 10 a.target .range
  | none => s.actEnd 10 a.target .state

/-- The fields of a STRIP parameter lie in their ranges; its plane map and column origin meet R64 for the bars of the
mask (R440). -/
def State.stripOk (s : State) (mask : Nat) (q : Bytes) : Bool :=
  let origin := nbits (leAt q 12 4) 16 0
  let x := (s.section (stripSection q)).getD ⟨.opened, 0, 0, [], [], []⟩
  decide (byteAt q 2 < 4) && decide (1 ≤ byteAt q 3) && decide (origin + x.width ≤ 96768) && origin % 4 == 0
    && (List.range 8).all fun b =>
      !mask.testBit b || (planeOf (BitVec.ofNat 32 (leAt q 8 4)) b).all fun v => decide (v < x.planes.length)

/-- A SPIT or STRIP descriptor: ROLE on a standby or secondary whatever its device state but HELD, the parameter read, its CRC and its ranges (R435, R441). -/
def State.printMaint (s : State) (ring : Nat) (d : Bytes) (code n : Nat) (param : Bytes) (ok : State → Bytes → Bool)
    (start : State → Activity → State) : State :=
  s.maint ring d code (fun _ => true) (fun k => k == n) (actStates 4) fun s c =>
    if s.follower then s.complete c .role
    else if !(actStates code).contains s.dev.dev then s.complete c .state
    else s.withRead c (leAt d 8 8) n fun s =>
      let q := param.take n
      if !crcOk q ∨ q.length ≠ n then s.complete c .baddesc
      else if !ok s q then s.complete c .range
      else s.actArrive (s.maintAct c d q) start

/-- SPIT (R435, R439, R441). -/
def execSpit (ring : Nat) (d param : Bytes) (s : State) : Out :=
  .next (s.printMaint ring d 9 8 param (fun s q => s.spitOk (byteAt d 5) q) State.spitBegin)

/-- STRIP (R435, R440, R441): a section that is not SEALED gives STATE. -/
def execStrip (ring : Nat) (d param : Bytes) (s : State) : Out :=
  .next (s.printMaint ring d 10 20 param
    (fun s q => ((s.section (stripSection q)).map (·.st)) != some .sealed' || s.stripOk (byteAt d 5) q) State.stripBegin)

/-! ### Memory, links, waves and checkpoints -/

/-- A channel, or 0xFF for all. -/
def channelTarget (t : Nat) : Bool := decide (t < 4) || t == 0xFF

/-- DRM_RETRAIN (R435, R467); a MAINT of an unknown activity code completes with RANGE here (R435). -/
def execDrmRetrain (ring : Nat) (d : Bytes) (s : State) : Out :=
  let code := byteAt d 4
  if d.length = 32 ∧ (code = 0 ∨ 10 < code) then
    .next (s.maint ring d code (fun _ => false) noParam [] fun s _ => s)
  else
    .next (s.maint ring d 1 channelTarget noParam (actStates 1) fun s c => s.actArrive (s.maintAct c d []) State.retrainBegin)

/-- DRM_ZQ (R435, R468). -/
def execDrmZq (ring : Nat) (d : Bytes) (s : State) : Out :=
  .next (s.maint ring d 2 channelTarget noParam (actStates 2) fun s c => s.actArrive (s.maintAct c d []) State.zqBegin)

/-- Self-refresh starts where no RT source is active (R469). -/
def State.selfrefStart (s : State) (a : Activity) : State :=
  if s.rtActive then s.actEnd 3 a.target .state else s.selfrefBegin a

/-- DRM_SELFREF (R435, R469). -/
def execDrmSelfref (ring : Nat) (d : Bytes) (s : State) : Out :=
  .next (s.maint ring d 3 (fun t => t == 0) noParam (actStates 3) fun s c =>
    if s.rtActive then s.complete c .state else s.actArrive (s.maintAct c d []) State.selfrefStart)

/-- LINK_RETRAIN (R226, R435). -/
def execLinkRetrain (ring : Nat) (d : Bytes) (s : State) : Out :=
  .next (s.maint ring d 4 (fun t => decide (t < 24)) noParam (actStates 4) fun s c =>
    s.actArrive (s.maintAct c d []) fun s a => s.retrainPort a.target 2)

/-- WAVE_RELOAD (R159, R435). -/
def execWaveReload (ring : Nat) (d : Bytes) (s : State) : Out :=
  .next (s.maint ring d 5 (fun t => decide (t < 24)) noParam (actStates 5) fun s c =>
    s.actArrive (s.maintAct c d []) fun s a => s.reloadBegin a.target)

/-- TWIN_CKPT (R335, R435). -/
def execTwinCkpt (ring : Nat) (d : Bytes) (s : State) : Out :=
  .next (s.maint ring d 7 (fun t => t == 0) noParam (actStates 7) fun s c => s.ckptStart (s.maintAct c d []))

/-! ### The defer queue (R438) -/

/-- What the start of an activity does, by its code (R435). -/
def State.beginAct (s : State) (a : Activity) : State :=
  match a.code with
  | 1 => s.retrainBegin a
  | 2 => s.zqBegin a
  | 3 => s.selfrefStart a
  | 4 => s.retrainPort a.target 2
  | 5 => s.reloadBegin a.target
  | 6 => s.almBegin a
  | 7 => if s.coldPrimary then s.sendCkpt else s.actEnd 7 a.target .state
  | 8 => if s.cameraOn a.target then s.blackStart a else s.actEnd 8 a.target .state
  | 9 => s.spitBegin a
  | _ => s.stripBegin a

/-- An activity leaves the defer queue. -/
def State.undefer (s : State) (a : Activity) : State :=
  { s with lmp := { s.lmp with queue := s.lmp.queue.erase a } }

/-- The activity was asked for by a MAINT descriptor (R375). -/
def Activity.byMaint (a : Activity) : Bool :=
  match a.src with
  | .maint _ => true
  | _ => false

/-- The device state lets a deferred activity start; HELD lets only a link retrain of a register or a schedule (R434, R435). -/
def State.actAllowed (s : State) (a : Activity) : Bool :=
  if s.dev.dev == .held then a.code == 4 && !a.byMaint else (actStates a.code).contains s.dev.dev

/-- A deferred activity is checked again: it starts when the matrix gives R against everything that runs; a MAINT whose
state has passed completes with STATE, and one of Lamplighter's own schedule waits (R434, R435, R438). -/
def State.recheckAct (s : State) (a : Activity) : State :=
  if (s.verdict a.code a.target).1 ≠ .run then s
  else if s.actAllowed a then
    let a' := { a with since := s.clock }
    ((s.undefer a).actRun a').beginAct a'
  else if a.src = .schedule ∨ s.dev.dev = .held then s
  else (s.undefer a).actReport a .state

/-- DEFERRED_START (R438): the deferred activities are checked again in queue order. -/
def execDeferredStart (s : State) : Out := .next (s.each s.lmp.queue State.recheckAct)

/-- A deferred MAINT has waited for defer_ms (R438). -/
def State.deferExpired (s : State) (a : Activity) : Bool :=
  a.byMaint && s.elapsed a.since (s.get .LMP_CTRL_defer_ms * 1000000)

/-- A deferred MAINT that has waited too long completes with CONFLICT and raises LMP.CONFLICT (R438). -/
def State.expireAct (s : State) (a : Activity) : State :=
  let blocking := (s.verdict a.code a.target).2
  let s := ((s.undefer a).count .LMP_TIMEOUT_CNT).set .LMP_LAST_CONFLICT_blocking blocking
  (((s.set .LMP_LAST_CONFLICT_refused a.code).raise .lmpConflict (BitVec.ofNat 32 (a.code + 256 * blocking)) a.code).actReport a
    .conflict)

/-- DEFER_TIMEOUT (R438). -/
def execDeferTimeout (s : State) : Out :=
  .next (s.each (s.lmp.queue.filter s.deferExpired) State.expireAct)

/-! ### The schedule (R434, R335) -/

/-- Lamplighter's own schedule may start an activity: sched_en, and STANDBY or PRINTING with the DRAM ready (R434). -/
def State.scheduleOn (s : State) : Bool :=
  s.on .LMP_CTRL_sched_en && s.devIn [.standby, .printing] && s.drm.ready

/-- SCHEDULED_ZQ (R434, LMP_SCHED.zq_ms): every channel, once a period. -/
def execScheduledZq (s : State) : Out :=
  if s.scheduleOn && s.on .LMP_SCHED_zq_ms && s.elapsed s.lmp.zqAt (s.get .LMP_SCHED_zq_ms * 1000000) then
    let s := { s with lmp := { s.lmp with zqAt := s.clock } }
    .next (s.actArrive (s.ownActivity 2 0xFF .schedule) State.zqBegin)
  else .next s

/-- SCHEDULED_RETRAIN (R434, LMP_SCHED.retrain_s): one channel per period in turn. -/
def execScheduledRetrain (s : State) : Out :=
  if s.scheduleOn && s.on .LMP_SCHED_retrain_s && s.elapsed s.lmp.retrainAt (s.get .LMP_SCHED_retrain_s * 1000000000) then
    let c := s.lmp.retrainNext
    let s := { s with lmp := { s.lmp with retrainNext := (c + 1) % 4, retrainAt := s.clock } }
    .next (s.actArrive (s.ownActivity 1 c .schedule) State.retrainBegin)
  else .next s

/-- SCHEDULED_CHECKPOINT (R335): the period of TWN_CKPT has passed since the last, or the journal reaches its limit. -/
def execScheduledCheckpoint (s : State) : Out :=
  let due := s.elapsed s.twn.ckpt.at' (s.get .TWN_CKPT_period * 1000000000) || s.journalFull
  if s.scheduleOn && s.coldPrimary && due then .next (s.ckptStart (s.ownActivity 7 0 .schedule)) else .next s

end Sys2Proof.Machine
end

