-- ==== Sys2Proof/Machine/Lands.lean ====
section
/-! DEFINITION. The module's lands and monitored rails: where each signal lies, the level at which it stands, and the window of each rail
(R555 to R561, R565, R571). -/

namespace Sys2Proof.Machine

/-- The 45 row letters in order (R555). -/
def rowLetters : List String :=
  ["A", "B", "C", "D", "E", "F", "G", "H", "J", "K", "L", "M", "N", "P", "T", "U", "V", "W", "Y"]
    ++ ["AA", "AB", "AC", "AD", "AE", "AF", "AG", "AH", "AJ", "AK", "AL", "AM", "AN", "AP", "AT", "AU", "AV", "AW", "AY"]
    ++ ["BA", "BB", "BC", "BD", "BE", "BF", "BG"]

/-- A land: row index and column, each 1 to 45 (R555). -/
structure LandPos where
  row : Nat
  col : Nat
  deriving DecidableEq, Repr

/-- The name of a land (R555). -/
def LandPos.name (l : LandPos) : String := (rowLetters[l.row - 1]?).getD "" ++ toString l.col

/-- The land of a row letter and a column. -/
def landAt (letter : String) (col : Nat) : LandPos := ⟨rowLetters.idxOf letter + 1, col⟩

/-- The signals of the module; `neg` is the N leg of a pair (R557 to R561). -/
inductive Signal where
  | ghlTx (p : Nat) (neg : Bool) | ghlRx (p : Nat) (neg : Bool)
  | twnTx (t : Nat) (neg : Bool) | twnRx (t : Nat) (neg : Bool)
  | netTx (neg : Bool) | netRx (neg : Bool)
  | pcieTx (l : Nat) (neg : Bool) | pcieRx (l : Nat) (neg : Bool)
  | cam (c k : Nat) (neg : Bool)
  | refclk (neg : Bool) | refout (i : Nat) (neg : Bool)
  | dispR (n : Nat) | dispG (n : Nat) | dispB (n : Nat) | dispHs | dispVs | dispDe | dispPclk
  | enc (e k : Nat) | ssiClk | ssiData | latchIn (n : Nat) | strobe (n : Nat) | camTrig (n : Nat) | v3p3Out (i : Nat)
  | tpulse (n : Nat) | camScl (c : Nat) | camSda (c : Nat) | faultN | twinAliveIn | twinAliveOut | pwrEn | pgood | resetN
  | tck | tms | tdi | tdo | trstN | vin (i : Nat) | factoryTest (i : Nat)
  deriving DecidableEq, Repr

/-- First rows of the PCI Express lanes (R557). -/
def pcieRows : List String := ["K", "N", "U", "Y", "AC", "AF", "AJ", "AM"]

/-- The P leg in a row, the N leg in the next. -/
def pairRows (letter : String) (col : Nat) (neg : Bool) : LandPos := ⟨rowLetters.idxOf letter + 1 + neg.toNat, col⟩

/-- The land of a signal (R556 to R561). -/
def Signal.land : Signal → LandPos
  | .ghlTx p n => if p < 12 then landAt "B" (3 * p + 4 + n.toNat) else landAt "BF" (3 * p - 32 + n.toNat)
  | .ghlRx p n => if p < 12 then landAt "D" (3 * p + 4 + n.toNat) else landAt "BD" (3 * p - 32 + n.toNat)
  | .twnTx t n => pairRows (if t = 0 then "K" else "N") 2 n
  | .twnRx t n => pairRows (if t = 0 then "K" else "N") 4 n
  | .netTx n => pairRows "F" 2 n
  | .netRx n => pairRows "F" 4 n
  | .pcieTx l n => pairRows (pcieRows.getD l "") 44 n
  | .pcieRx l n => pairRows (pcieRows.getD l "") 42 n
  | .cam c k n => ⟨16 + 6 * c + k, 2 + n.toNat⟩
  | .refclk n => pairRows "F" 44 n
  | .refout i n => if i = 0 then pairRows "F" 42 n else pairRows "AT" 44 n
  | .dispR n => landAt "BA" (10 + n)
  | .dispG n => landAt "BA" (18 + n)
  | .dispB n => landAt "BB" (10 + n)
  | .dispHs => landAt "BB" 18
  | .dispVs => landAt "BB" 19
  | .dispDe => landAt "BB" 20
  | .dispPclk => landAt "BB" 22
  | .enc e k => landAt "AW" (10 + 3 * e + k)
  | .ssiClk => landAt "AW" 16
  | .ssiData => landAt "AW" 17
  | .latchIn n => landAt "AW" (18 + n)
  | .strobe n => landAt "AW" (22 + n)
  | .camTrig n => landAt "AW" (26 + n)
  | .v3p3Out i => landAt "AW" (31 + i)
  | .tpulse n => landAt "AY" (10 + n)
  | .camScl c => landAt "AY" (18 + 2 * c)
  | .camSda c => landAt "AY" (19 + 2 * c)
  | .faultN => landAt "AY" 26
  | .twinAliveIn => landAt "AY" 27
  | .twinAliveOut => landAt "AY" 28
  | .pwrEn => landAt "AY" 29
  | .pgood => landAt "AY" 30
  | .resetN => landAt "AY" 31
  | .tck => landAt "AY" 33
  | .tms => landAt "AY" 34
  | .tdi => landAt "AY" 35
  | .tdo => landAt "AY" 36
  | .trstN => landAt "AY" 37
  | .vin i => ⟨rowLetters.idxOf "AB" + 1 + i / 8, 19 + i % 8⟩
  | .factoryTest i => landAt "AY" (38 + i)

/-- Every signal of the land map (R556 to R561). -/
def Signal.all : List Signal :=
  let legs := [false, true]
  let each (n : Nat) (f : Nat → Signal) : List Signal := (List.range n).map f
  let pairs (n : Nat) (f : Nat → Bool → Signal) : List Signal := (List.range n).flatMap fun i => legs.map (f i)
  pairs 24 .ghlTx ++ pairs 24 .ghlRx ++ pairs 2 .twnTx ++ pairs 2 .twnRx ++ legs.map .netTx ++ legs.map .netRx
    ++ pairs 8 .pcieTx ++ pairs 8 .pcieRx ++ ((List.range 4).flatMap fun c => pairs 5 (.cam c)) ++ legs.map .refclk ++ pairs 2 .refout
    ++ each 8 .dispR ++ each 8 .dispG ++ each 8 .dispB ++ [.dispHs, .dispVs, .dispDe, .dispPclk]
    ++ each 3 (.enc 0) ++ each 3 (.enc 1) ++ [.ssiClk, .ssiData] ++ each 4 .latchIn ++ each 4 .strobe ++ each 4 .camTrig
    ++ each 2 .v3p3Out ++ each 8 .tpulse ++ each 4 .camScl ++ each 4 .camSda
    ++ [.faultN, .twinAliveIn, .twinAliveOut, .pwrEn, .pgood, .resetN, .tck, .tms, .tdi, .tdo, .trstN]
    ++ each 40 .vin ++ each 4 .factoryTest

/-- A land that no signal takes is ground (R556). -/
def LandPos.isGround (l : LandPos) : Bool := !Signal.all.any fun x => x.land == l

/-- Levels of an output land (R561, R571). -/
inductive LandLevel where
  | low | high | released | highImpedance | off | on
  deriving DecidableEq, Repr

/-- The level of an output from VIN above the undervoltage threshold until First Light step 3, and while RESET_N is low (R561). -/
def Signal.inReset : Signal → Option LandLevel
  | .ssiClk => some .high
  | .strobe _ => some .low
  | .camTrig _ => some .low
  | .tpulse _ => some .low
  | .camScl _ => some .released
  | .camSda _ => some .released
  | .faultN => some .low
  | .twinAliveOut => some .low
  | .pgood => some .low
  | .tdo => some .highImpedance
  | .v3p3Out _ => some .off
  | .dispHs => some .high
  | .dispVs => some .high
  | .dispR _ => some .low
  | .dispG _ => some .low
  | .dispB _ => some .low
  | .dispDe => some .low
  | .dispPclk => some .low
  | _ => none

/-- The window of a rail in mV (R565). -/
def Rail.window : Rail → Nat × Nat
  | .v3p3 => (3200, 3400)
  | .vdd1 => (1700, 1900)
  | .vdd2h => (1010, 1120)
  | .vdd2l => (870, 970)
  | .vddq => (470, 570)
  | .core => (705, 795)
  | .serdes => (760, 840)
  | .memory => (705, 795)

/-- A rail at a voltage in mV lies in its window (R565). -/
def Rail.inWindow (r : Rail) (mv : Nat) : Bool := decide (r.window.1 ≤ mv) && decide (mv ≤ r.window.2)

/-- V3P3_OUT is supplied: from First Light step 2 on, while the rails are in their windows (R561, R566). -/
def State.v3p3Out (s : State) : Bool := s.pwr.rails == .inWindow

/-- The module drives a signal, or can (R556 to R561). -/
def Signal.isOutput : Signal → Bool
  | .ghlTx _ _ | .twnTx _ _ | .netTx _ | .pcieTx _ _ | .refout _ _ | .dispR _ | .dispG _ | .dispB _ | .dispHs | .dispVs | .dispDe | .dispPclk
  | .ssiClk | .strobe _ | .camTrig _ | .v3p3Out _ | .tpulse _ | .camScl _ | .camSda _ | .faultN | .twinAliveOut | .pgood | .tdo => true
  | _ => false

/-- A level that is high or low. -/
def levelOf (high : Bool) : LandLevel := if high then .high else .low

/-- The level at which an output land stands, none where it moves with what the outputs of the block say or is no output (R315, R403, R508,
R525, R561, R571): without VIN every land is high-impedance but the two that their pull-downs hold; while the device is in reset as R561's
table has it; else as its unit drives it. -/
def State.level (s : State) (x : Signal) : Option LandLevel :=
  if !x.isOutput then none
  else if !s.powered then
    match x with
    | .pgood | .twinAliveOut => some .low
    | _ => some .highImpedance
  else match x with
    | .pgood => some (levelOf s.pwr.pgood)
    | .v3p3Out _ => some (if s.v3p3Out then .on else .off)
    | .faultN => some (if s.faultN then .low else .released)
    | _ =>
      if s.dev.dev = .dark then x.inReset
      else match x with
        | .strobe n => some (levelOf ((s.mer.strobes.getD n none).isSome != s.on .MER_STROBE_pol n))
        | .camTrig n => some (levelOf ((s.mer.camtrigs.getD n none).isSome != s.on .MER_CAMTRIG_pol n))
        | .tpulse n => some (levelOf (((s.mer.tpulses.getD n none).isSome || (s.tim.gens[n]?.any fun g => g.active.isSome)) != s.on .TIM_PULSE_CTRL_pol n))
        | .twinAliveOut => some (levelOf s.twn.aliveOut)
        | .ssiClk => if s.mer.ssi.busy then none else some .high
        | .dispR _ | .dispG _ | .dispB _ | .dispPclk => if s.scanning then none else some .low
        | .dispHs => if s.scanning then none else some (levelOf s.dispIdle.hs)
        | .dispVs => if s.scanning then none else some (levelOf s.dispIdle.vs)
        | .dispDe => if s.scanning then none else some (levelOf s.dispIdle.de)
        | .camScl _ | .camSda _ => some .released
        | .tdo => some .highImpedance
        | _ => none

end Sys2Proof.Machine
end

