-- ==== Sys2Proof/Machine/Meridian.lean ====
section
/-! DEFINITION. The commands of Meridian: encoders, the speed estimate, the absolute sensor, slip checks, geometry, latch
and compare units (R175 to R211). -/

namespace Sys2Proof.Machine

/-! ### Encoders (R176, R180 to R182, R191) -/

/-- An encoder input. -/
def State.enc (s : State) (e : Nat) : Encoder := s.mer.encs.getD e Encoder.reset

/-- A change of one encoder input. -/
def State.updEnc (s : State) (e : Nat) (f : Encoder → Encoder) : State :=
  { s with mer := { s.mer with encs := upd e f s.mer.encs } }

/-- Place of a state AB in the sequence 00, 01, 11, 10 (R180). -/
def quadIndex (a b : Bool) : Nat := if a then (if b then 2 else 3) else if b then 1 else 0

/-- An illegal event: counted, and raised as class U where it brings the window's count to the limit (R180). -/
def State.illegalEvent (s : State) (e : Nat) : State :=
  let n := (s.enc e).illegal + 1
  let s := (s.updEnc e fun x => { x with illegal := n }).count .MER_ENC_ILLEGAL_CNT e
  let limit := s.get .MER_ENC_CTRL_illegal_limit e
  s.raise .merQuadIllegal (BitVec.ofNat 32 n) e 0xFF (some (if limit ≠ 0 ∧ n = limit then 2 else 1))

/-- The web moves by one count of ENC0: its position, the estimator's point and the compares (R176, R191, R206). -/
def State.moveWeb (s : State) (up : Bool) (t : Time) : State :=
  let step := (s.rd .MER_ENC_SCALE 0).setWidth 64
  let before := s.pos
  let x := if up then s.mer.pos + step else s.mer.pos - step
  let s := { s with mer := { s.mer with pos := x, tickPoint := some (t, x) } }
  let s := s.settleGroups
  if up then s.crossTargets before s.pos else { s with pipes := s.pipes.map fun (q : Pipe) => { q with back := true } }

/-- One count of an encoder (R176, R180, R188). -/
def State.countOne (s : State) (e : Nat) (up : Bool) (t : Time) : State :=
  let s := s.updEnc e fun x =>
    { x with counts := if up then x.counts + 1 else x.counts - 1, lastUp := some up, sinceIndex := x.sinceIndex + if up then 1 else -1 }
  if e = 0 then s.moveWeb up t
  else
    let step := (s.rd .MER_ENC_SCALE 1).setWidth 64
    { s with mer := { s.mer with aux := if up then s.mer.aux + step else s.mer.aux - step } }

/-- Samples of an input land that hold one level, the first of them at MONO time `t` and web position `x` (R178). -/
def Land.take (l : Land) (level : Bool) (held : Nat) (t : Time) (x : Pos) : Land :=
  if level = l.level then { l with run := l.run + held } else { l with level := level, run := held, since := t, pos := x }

/-- The land has held a level that its filter does not yet show for `n` samples (R179). -/
def Land.passes (l : Land) (n : Nat) : Bool := l.level != l.out && decide (n ≤ l.run)

/-- The filter shows the land's level. -/
def Land.pass (l : Land) : Land := { l with out := l.level }

/-- MER_ENC_CTRL[e].filt: N (R179). -/
def State.encFilter (s : State) (e : Nat) : Nat := s.get .MER_ENC_CTRL_filt e

/-- The transition from one quadrature state to another that has come through the filters (R180). -/
def State.quadStep (s : State) (e : Nat) (a b a' b' : Bool) (t : Time) : State :=
  if !s.on .MER_ENC_CTRL_en e then s
  else
    let d := (quadIndex a' b' + 4 - quadIndex a b) % 4
    if d = 0 then s
    else if d = 2 then s.illegalEvent e
    else s.countOne e ((d == 1) != s.on .MER_ENC_CTRL_invert e) t

/-- Samples for which A and B have held a state, once they hold it for `held` samples more (R181). -/
def Encoder.holds (x : Encoder) (a b : Bool) (held : Nat) : Nat :=
  if a = x.a.level ∧ b = x.b.level then x.run + held else held

/-- ENC_TRANSITION (R178 to R181): A and B of an encoder hold levels for `held` samples, the first at MONO time `t`. The filters
follow a state that has lasted N samples, each land with the time at which it took its level; one that lasts fewer is not seen.
A transition whose state has lasted N samples but fewer than 8 is counted or lost, freely (log 136). -/
def execEncTransition (e : Nat) (a b : Bool) (held : Nat) (t : Time) (s : State) : Out :=
  if 2 ≤ e then .next s
  else
    let x := s.enc e
    let la := x.a.take a held t s.pos
    let lb := x.b.take b held t s.pos
    let run := x.holds a b held
    let s := s.updEnc e fun x => { x with a := la, b := lb, run := run }
    let pa := decide (s.encFilter e ≤ run) && a != la.out
    let pb := decide (s.encFilter e ≤ run) && b != lb.out
    if !pa && !pb then .next s
    else
      let at' := if pa && (!pb || decide (0 ≤ sdiff la.since lb.since)) then la.since else lb.since
      let (w, s) := if run < 8 then s.fresh else (1, s)
      if !w.getLsbD 0 then .next s
      else
        let s := s.updEnc e fun x => { x with a := if pa then la.pass else la, b := if pb then lb.pass else lb }
        .next (s.quadStep e la.out lb.out (if pa then a else la.out) (if pb then b else lb.out) at')

/-- QUAD_WINDOW_END (R180): the windows follow one another, 10 ms each. -/
def execQuadWindowEnd (e : Nat) (s : State) : Out :=
  if e < 2 ∧ s.on .MER_ENC_CTRL_en e ∧ s.elapsed (s.enc e).window 10000000 then
    .next (s.updEnc e fun x => { x with illegal := 0, window := x.window + 10000000 })
  else .next s

/-- An index of an encoder, at a web position and a MONO time (R182, R203, R325). -/
def State.indexPassed (s : State) (e : Nat) (pos : Pos) (t : Time) : State :=
  if !s.on .MER_ENC_CTRL_en e then s
  else
    let x := s.enc e
    let want := s.get .MER_ENC_REV_counts e
    let net : Int := match x.lastUp with
      | some false => -x.sinceIndex
      | _ => x.sinceIndex
    let s := if want ≠ 0 ∧ x.indexDir.isSome ∧ x.indexDir = x.lastUp ∧ net ≠ want then
        (s.count .MER_ENC_INDEX_CNT e).raise .merIndex (BitVec.ofInt 32 (net - want)) e
      else s
    let s := s.updEnc e fun x => { x with sinceIndex := 0, indexDir := x.lastUp }
    let s := s.triggerLatches (25 + e) pos t
    if e = 0 then s.twinIndex pos t else s

/-- ENC_INDEX (R178, R179, R182): ENCe_Z holds a level for `held` samples, the first at MONO time `t`; a filtered rising edge is an
index. -/
def execEncIndex (e : Nat) (level : Bool) (held : Nat) (t : Time) (s : State) : Out :=
  if 2 ≤ e then .next s
  else
    let z := (s.enc e).z.take level held t s.pos
    if z.passes (s.encFilter e) then
      let s := s.updEnc e fun x => { x with z := z.pass }
      .next (if level then s.indexPassed e z.pos z.since else s)
    else .next (s.updEnc e fun x => { x with z := z })

/-! ### The estimate (R191) -/

/-- MER_CTRL.stop_ms in ns. -/
def State.stopNs (s : State) : Nat := s.get .MER_CTRL_stop_ms * 1000000

/-- The points that a later estimate can still use: those within the longest window of the newest, and none
once the web has stopped for longer than that (log 38). -/
def keepPoints (now : Time) (stopped : Bool) : List (Time × BitVec 64) → List (Time × BitVec 64)
  | [] => []
  | p :: older =>
    if stopped && decide (4096000 < sdiff now p.1) then []
    else p :: older.filter fun q => decide (sdiff p.1 q.1 ≤ 4096000)

/-- ESTIMATOR_TICK (R191): the point of the tick that ends, and the estimate. -/
def execEstimatorTick (s : State) : Out :=
  let points := match s.mer.tickPoint with
    | some p => p :: s.mer.points
    | none => s.mer.points
  let est := estimateOf s.mono points s.stopNs (2 ^ s.get .MER_CTRL_window * 1000) (s.get .MER_ACC_LIMIT_a_max)
    (s.on .MER_CTRL_order) s.free
  .next { s with free := s.free + 2,
                 mer := { s.mer with tickPoint := none, est := est, points := keepPoints s.mono est.stopped points } }

/-- WEB_STOP_TIMEOUT (R191): no count of ENC0 for stop_ms. -/
def execWebStopTimeout (s : State) : Out :=
  match s.mer.tickPoint, s.mer.points with
  | none, p :: _ =>
    if (s.stopNs : Int) < sdiff s.mono p.1 then .next { s with mer := { s.mer with est := ⟨true, p.1, p.2, 0, 0⟩ } } else .next s
  | none, [] => .next { s with mer := { s.mer with est := ⟨true, s.mono, s.mer.pos, 0, 0⟩ } }
  | _, _ => .next s

/-! ### The absolute sensor (R184 to R187) -/

/-- T_c, the period of SSI_CLK, in ns (R184). -/
def State.ssiPeriodNs (s : State) : Nat := 10 * (s.get .MER_SSI_CTRL_div + 1)

/-- MER_SSI_TIMING.sample_dly in ns (R184). -/
def State.ssiDelay (s : State) : Nat := 5 * s.get .MER_SSI_TIMING_sample_dly

/-- Samples of a transfer: the word, the parity bit and the check behind it (R184). -/
def State.ssiSamples (s : State) : Nat :=
  s.get .MER_SSI_CTRL_bits + (s.on .MER_SSI_CTRL_parity).toNat + (s.on .MER_SSI_CTRL_zero_chk).toNat

/-- Step 6 of a transfer, in ns from its start: SSI_CLK stays high from there on (R184). -/
def State.ssiLength (s : State) : Nat := s.ssiSamples * s.ssiPeriodNs + s.ssiDelay + s.ssiPeriodNs / 2

/-- The edges of SSI_CLK in a transfer, in ns from its start: it falls at each multiple of T_c and rises half a period later,
the last time at step 6 (R184). -/
def State.ssiEdges (s : State) : List (Nat × Bool) :=
  (List.range s.ssiSamples).flatMap (fun i => [(i * s.ssiPeriodNs, false), (i * s.ssiPeriodNs + s.ssiPeriodNs / 2, true)])
    ++ [(s.ssiSamples * s.ssiPeriodNs, false), (s.ssiLength, true)]

/-- The level of SSI_DATA at an instant of a transfer, from its level at the start and its edges in order. -/
def ssiLevel (init : Bool) (edges : List (Nat × Bool)) (t : Nat) : Bool :=
  ((edges.filter fun e => decide (e.1 ≤ t)).getLast?.map (·.2)).getD init

/-- An SSI transfer or its monoflop time is in progress (R184). -/
def State.ssiBusy (s : State) : Bool := s.mer.ssi.busy || decide (s.clock < s.mer.ssi.until')

/-- A transfer is asked for: it starts, or one request is held (R185). -/
def State.ssiAsk (s : State) : State :=
  if !s.on .MER_SSI_CTRL_en then s
  else if s.ssiBusy then { s with mer := { s.mer with ssi := { s.mer.ssi with held := true } } }
  else
    { s with mer := { s.mer with ssi := { s.mer.ssi with
        busy := true, until' := s.clock + s.ssiLength + s.get .MER_SSI_TIMING_tm * 1000, held := false, startPos := s.mer.pos,
        startAt := s.clock } } }.emit (.ssiClock s.ssiEdges)

/-- A write of MER_SSI_CMD, which may be written in PRINTING (R185). -/
def State.writeSsiCmd (s : State) (v : Word) : State :=
  s.gate (Reg.MER_SSI_CMD.addr 0 0 0) v [(2, s.notStandbyPrinting)] fun s => if v.getLsbD 0 then s.ssiAsk else s

/-- SSI_REQUEST (R185). -/
def execSsiRequest (s : State) : Out := .next (s.writeSsiCmd 1)

/-- SSI_PERIOD (R185): a period has passed; the next begins where it ended. -/
def execSsiPeriod (s : State) : Out :=
  let us := s.get .MER_SSI_TIMING_period
  if us ≠ 0 ∧ s.elapsed s.mer.ssi.periodAt (us * 1000) then
    .next { s with mer := { s.mer with ssi := { s.mer.ssi with periodAt := s.mer.ssi.periodAt + us * 1000 } } }.ssiAsk
  else .next s

/-- SSI_HELD_START (R185). -/
def execSsiHeldStart (s : State) : Out :=
  if s.mer.ssi.held && !s.ssiBusy then .next s.ssiAsk else .next s

/-- A Gray-coded word of n bits in binary (R186). -/
def grayToBinary : Nat → Nat → Nat
  | 0, _ => 0
  | n + 1, g =>
    let rest := grayToBinary n (g / 2)
    2 * rest + (g + rest) % 2

/-- A position difference exceeds the slip tolerance (R188, R189); `chk` is 0 for the ENC1 check, 1 for the SSI check. -/
def State.slip (s : State) (chk : Nat) (d : Int) : State :=
  (s.count .MER_SLIP_CNT).raise .merSlip (BitVec.ofInt 32 d) chk

/-- The SSI slip check of a valid reading (R189). -/
def State.ssiCheck (s : State) (p : Pos) : State :=
  if !s.on .MER_SLIP_CTRL_ssi_chk then s
  else
    let d := sdiff p (s.mer.ssi.startPos.extractLsb' 16 48)
    match s.mer.ssi.dref with
    | none => { s with mer := { s.mer with ssi := { s.mer.ssi with dref := some d } } }
    | some r =>
      let diff := (BitVec.ofInt 48 (d - r)).toInt
      if s.get .MER_SLIP_CTRL_tol < diff.natAbs then s.slip 1 diff else s

/-- SSI_READING (R184, R186, R187, R189): SSI_DATA of a transfer, by its level at the start and its edges in ns from there; the
block samples it as R184 lays down, and judges it once the last sample is taken, with zero_chk after tm. A pending load waits
while the device is not in STANDBY (R177, R190). -/
def execSsiReading (init : Bool) (edges : List (Nat × Bool)) (s : State) : Out :=
  let zero := s.on .MER_SSI_CTRL_zero_chk
  if !s.mer.ssi.busy ∨ (if zero then decide (s.clock < s.mer.ssi.until') else !s.elapsed s.mer.ssi.startAt s.ssiLength) then .next s
  else
    let n := s.get .MER_SSI_CTRL_bits
    let par := s.on .MER_SSI_CTRL_parity
    let sample (i : Nat) : Bool := ssiLevel init edges (i * s.ssiPeriodNs + s.ssiDelay)
    let raw := (List.range n).foldl (fun w i => 2 * w + (sample (i + 1)).toNat) 0
    let ones := ((List.range (n + par.toNat)).filter fun i => sample (i + 1)).length
    let low := !sample (n + par.toNat + 1)
    let high := ssiLevel init edges (s.ssiLength + s.get .MER_SSI_TIMING_tm * 1000)
    let s := { s with mer := { s.mer with ssi := { s.mer.ssi with busy := false } } }
    let bad := (par && ones % 2 == 1) || (zero && !(low && high))
    if bad then .next ((s.count .MER_SSI_FAIL_CNT).raise .merSsiFail (BitVec.ofNat 32 raw))
    else
      let w := if s.on .MER_SSI_CTRL_gray then grayToBinary n raw else raw
      let s := { s with mer := { s.mer with ssi := { s.mer.ssi with raw := w } } }
      let ofs := (s.rd .MER_SSI_OFS_HI).setWidth 16 ++ s.rd .MER_SSI_OFS_LO
      let p : Pos := BitVec.ofNat 48 (w * (s.rd .MER_SSI_SCALE).toNat / 65536) + ofs
      let s := s.triggerLatches 20 (s.mer.ssi.startPos.extractLsb' 16 48) (BitVec.ofNat 32 s.mer.ssi.startAt)
      if s.mer.ssi.loadPending && !s.notStandby then
        let x := (p.setWidth 64 <<< 16) + (s.mer.pos - s.mer.ssi.startPos)
        let s := s.loadPos x
        .next { s with mer := { s.mer with ssi := { s.mer.ssi with loadPending := false } } }
      else .next (s.ssiCheck p)

/-! ### Position commands (R177, R187, R189) -/

/-- A write of MER_POS_CMD; a write that asks for a load is refused outside STANDBY, one that only rebases is accepted in
PRINTING too. -/
def State.writePosCmd (s : State) (v : Word) : State :=
  let load := v.getLsbD 0
  let ssi := v.getLsbD 1
  s.gate (Reg.MER_POS_CMD.addr 0 0 0) v [(2, s.notStandbyPrinting || (s.notStandby && (load || ssi)))] fun s =>
    let s := if v.getLsbD 2 then { s with mer := { s.mer with ssi := { s.mer.ssi with dref := none } } } else s
    let s := if ssi then { s with mer := { s.mer with ssi := { s.mer.ssi with loadPending := true } } } else s
    if load then s.loadPos (((s.rd .MER_POS_SET_HI).setWidth 16 ++ s.rd .MER_POS_SET_LO).setWidth 64 <<< 16) else s

/-- POS_LOAD_NOW (R177). -/
def execPosLoadNow (s : State) : Out := .next (s.writePosCmd 1)

/-- POS_LOAD_SSI (R187). -/
def execPosLoadSsi (s : State) : Out := .next (s.writePosCmd 2)

/-- POS_REBASE (R189). -/
def execPosRebase (s : State) : Out := .next (s.writePosCmd 4)

/-- SLIP_WINDOW_END (R188): ENC0 has travelled the window. -/
def execSlipWindowEnd (s : State) : Out :=
  let d0 := (s.mer.pos - s.mer.slipStart).toInt
  let d1 := (s.mer.aux - s.mer.slipAux).toInt
  if !s.on .MER_SLIP_CTRL_enc_chk ∨ d0.natAbs < s.get .MER_SLIP_CTRL_window * 16384 * 65536 then .next s
  else
    let s := { s with mer := { s.mer with slipStart := s.mer.pos, slipAux := s.mer.aux } }
    let d := d1 - d0
    .next (if s.get .MER_SLIP_CTRL_tol * 65536 < d.natAbs then s.slip 0 (d / 65536) else s)

/-! ### Bar geometry (R193) -/

/-- A field of a register as a signed value. -/
def State.getInt (s : State) (f : Fld) (i : Nat := 0) (j : Nat := 0) (k : Nat := 0) : Int :=
  (BitVec.ofNat (f.hi + 1 - f.lo) (s.get f i j k)).toInt

/-- The geometry that the shadow registers hold. -/
def State.shadow (s : State) : Geometry :=
  ⟨(List.range 8).map fun b => s.get .MER_BAR_OFS_ofs b, (List.range 24).map fun p => s.getInt .MER_PORT_OFS_ofs p,
    (List.range 24).map fun p => (List.range 8).map fun j => s.getInt .MER_HEAD_ORG_org p j,
    (List.range 24).map fun p => (List.range 8).map fun j => (List.range 8).map fun r =>
      if r % 2 = 0 then (s.get .MER_ROW_DLY_d_lo p j (r / 2), s.get .MER_ROW_DLY_s_lo p j (r / 2))
      else (s.get .MER_ROW_DLY_d_hi p j (r / 2), s.get .MER_ROW_DLY_s_hi p j (r / 2))⟩

/-- The first failing check of a commit and its port are shown, 0 where none fails (R193). -/
def State.geomStatus (s : State) (x : Nat × Nat) : State :=
  (s.set .MER_GEOM_STATUS_fail x.1).set .MER_GEOM_STATUS_port x.2

/-- A write of MER_GEOM_COMMIT.commit takes the shadow registers behind the writes that reached FAB before it (R193, R200,
R250). -/
def State.geomCommit (s : State) : State :=
  let off := Reg.MER_GEOM_COMMIT.addr 0 0 0
  let q := s.ahead off
  let fault := q.geomFault q.shadow
  let s := s.gate off 1 [(2, s.notStandby), (3, fault.isSome)] fun s =>
    let s := { s with mer := { s.mer with geom := s.shadow } }.geomStatus (0, 0)
    s.each s.activePorts State.sendGeom
  match s.notStandby, fault with
  | false, some x => s.geomStatus x
  | _, _ => s

/-- GEOM_COMMIT (R193). -/
def execGeomCommit (s : State) : Out := .next s.geomCommit

/-! ### Latch units (R203 to R205) -/

/-- The oldest trigger that a unit has not yet recorded is recorded (R204). -/
def State.latchDueResult (s : State) (n : Nat) : State :=
  match s.mer.latchDue.getD n [] with
  | x :: rest => { s with mer := { s.mer with latchDue := upd n (fun _ => rest) s.mer.latchDue } }.latchResult n x
  | [] => s

/-- The edge that MER_LATCH_CTRL[n].edge selects: rising, falling, or both (R203). -/
def State.latchEdge (s : State) (n : Nat) (level : Bool) : Bool :=
  match s.get .MER_LATCH_CTRL_edge n with
  | 0 => level
  | 1 => !level
  | _ => true

/-- The LATCH_IN land that a unit selects holds a level for `held` samples: an edge of the selected kind that passes the unit's
filter is its trigger, recorded with position and time of its first sample (R203, R204, log 137). The filter takes samples only while
the unit is enabled and selects the land, and starts from the level that it showed last, low after reset: a land that is high when the
unit is enabled makes a rising edge (DESIGN CHOICE, log 137). -/
def State.latchSamples (s : State) (n k : Nat) (level : Bool) (held : Nat) (t : Time) : State :=
  let l := (s.mer.latchIn.getD n Land.reset).take level held t s.pos
  if l.passes (max 1 (s.get .MER_LATCH_CTRL_filt n)) then
    let s := { s with mer := { s.mer with latchIn := upd n (fun _ => l.pass) s.mer.latchIn } }
    if s.latchEdge n level then s.latchResult n ⟨k, l.pos, l.since⟩ else s
  else { s with mer := { s.mer with latchIn := upd n (fun _ => l) s.mer.latchIn } }

/-- LATCH_TRIGGER (R203, R204): unit `n` records a trigger inside the block that reached it; a unit that selects a LATCH_IN land
takes `held` samples of it at a level, the first at MONO time `t`. -/
def execLatchTrigger (n : Nat) (level : Bool) (held : Nat) (t : Time) (s : State) : Out :=
  if 8 ≤ n then .next s
  else
    let s := s.latchDueResult n
    match s.latchTrig n with
    | some k => .next (if k < 4 then s.latchSamples n k level held t else s)
    | none => .next s

/-- Triggers of MER_LATCH_CTRL.trig (R203). -/
def trigKnown (k : Nat) : Bool := decide (k ≤ 26) || k == 31

/-- A write of MER_LATCH_CTRL[n] (R203, R205). -/
def State.writeLatchCtrl (s : State) (n : Nat) (v : Word) : State :=
  s.gate (Reg.MER_LATCH_CTRL.addr n 0 0) v
    [(2, s.notStandbyPrinting || (decide (4 ≤ n) && s.cameraOn (n - 4))),
     (3, Fld.MER_LATCH_CTRL_edge.of v == 3 || !trigKnown (Fld.MER_LATCH_CTRL_trig.of v))] fun s =>
    let s := s.store .MER_LATCH_CTRL v n
    if v.getLsbD 30 && s.on .MER_LATCH_CTRL_en n then s.latchResult n ⟨31, s.pos, s.mono⟩ else s

/-- LATCH_SOFT (R203): a write that keeps the unit's other fields. -/
def execLatchSoft (n : Nat) (s : State) : Out :=
  if n < 8 then .next (s.writeLatchCtrl n (s.rd .MER_LATCH_CTRL n ||| 0x40000000)) else .next s

/-- LATCH_RESULT_READ (R204): reading MER_LATCH_TIME[n] removes the oldest result. -/
def execLatchResultRead (n : Nat) (s : State) : Out :=
  .next (s.bar0 fun s => { s with mer := { s.mer with latches := upd n (fun q => q.drop 1) s.mer.latches } })

/-! ### Compare units (R206 to R211) -/

/-- A write of MER_CMP_CTRL[n] (R207 to R210). At its arm, before it has fired, an ITEM compare aims at the smallest target of every
placement known, ended ones too (DESIGN CHOICE, log 80). -/
def State.writeCmpCtrl (s : State) (n : Nat) (v : Word) : State :=
  let mode := Fld.MER_CMP_CTRL_mode.of v
  let arm := v.msb
  let off := Reg.MER_CMP_CTRL.addr n 0 0
  let q := s.ahead off
  s.gate off v [(2, s.notStandbyPrinting), (3, arm && (mode == 3 || (mode == 1 && q.rd .MER_CMP_IVL n == 0)))] fun s =>
    let s := s.store .MER_CMP_CTRL v n
    let s := s.updCmp n fun _ => ⟨none, none, s.rd .MER_CMP_POS n, false⟩
    if !arm then s
    else s.aim n (if mode = 2 then s.itemTarget n none else some ((s.rd .MER_CMP_POS_HI n).setWidth 16 ++ s.rd .MER_CMP_POS n))

/-- CMP_ARM (R207). -/
def execCmpArm (n : Nat) (v : Word) (s : State) : Out :=
  if n < 16 ∧ v.msb then .next (s.writeCmpCtrl n v) else .next s

/-- CMP_DISARM (R207). -/
def execCmpDisarm (n : Nat) (v : Word) (s : State) : Out :=
  if n < 16 ∧ !v.msb then .next (s.writeCmpCtrl n v) else .next s

/-- Level of an output land whose pulse is active or not (MER_STROBE, MER_CAMTRIG). -/
def landLevel (pol active : Bool) : Bool := active != pol

/-- A pulse starts on a STROBE or CAM_TRIG land: one during an active pulse restarts its width and is counted; a width of
0 holds the land inactive (R211). -/
def State.startPulse (s : State) (pin : OutPin) : State :=
  let merged (busy : Bool) (s : State) : State := if busy then s.count .MER_STROBE_MERGE_CNT else s
  match pin with
  | .strobe i =>
    if s.get .MER_STROBE_width i = 0 then s
    else
      let s := merged ((s.mer.strobes.getD i none).isSome) s
      { s with mer := { s.mer with strobes := upd i (fun _ => some s.clock) s.mer.strobes } }.emit
        (.pin pin (landLevel (s.on .MER_STROBE_pol i) true))
  | .camtrig i =>
    if s.get .MER_CAMTRIG_width i = 0 then s
    else
      let s := merged ((s.mer.camtrigs.getD i none).isSome) s
      { s with mer := { s.mer with camtrigs := upd i (fun _ => some s.clock) s.mer.camtrigs } }.emit
        (.pin pin (landLevel (s.on .MER_CAMTRIG_pol i) true))
  | .tpulse i =>
    { s with mer := { s.mer with tpulses := upd i (fun _ => some s.clock) s.mer.tpulses } }.emit
      (.pin pin (landLevel (s.on .TIM_PULSE_CTRL_pol i) true))

/-- The outputs that a compare selects are driven (R211). -/
def State.drive (s : State) (n : Nat) : State :=
  let sel (f : Fld) (k : Nat) : List Nat := (List.range k).filter fun i => (s.get f n).testBit i
  let pins := (sel .MER_CMP_CTRL_strobe 4).map OutPin.strobe ++ (sel .MER_CMP_CTRL_camtrig 4).map OutPin.camtrig
    ++ (sel .MER_CMP_CTRL_tpulse 8).map OutPin.tpulse
  s.each pins State.startPulse

/-- CMP_FIRE (R206, R208 to R211): an armed compare whose target the web has reached, or that catches up. -/
def execCmpFire (n : Nat) (s : State) : Out :=
  match s.armed n && (s.cmp n).due, (s.cmp n).target with
  | true, some t =>
    let s := s.drive n
    let s := if s.on .MER_CMP_CTRL_irq n then s.irq .meridian n else s
    let s := s.triggerLatches (4 + n) s.pos s.mono
    let s := s.updCmp n fun c => { c with due := false, above := some t }
    match s.get .MER_CMP_CTRL_mode n with
    | 0 => .next ((s.set .MER_CMP_CTRL_fired 1 n).disarm n)
    | 1 => .next (s.aim n (some (t + (s.rd .MER_CMP_IVL n).setWidth 48)))
    | _ => .next (s.aim n (s.itemTarget n (some t)))
  | _, _ => .next s

/-- A pulse generator. -/
def State.gen (s : State) (n : Nat) : PulseGen := s.tim.gens.getD n ⟨false, 0, 0, none⟩

/-- OUTPUT_PULSE_END (R211): the width of the pulse has passed since it last started. -/
def execOutputPulseEnd (pin : OutPin) (s : State) : Out :=
  let ended (t : Option Instant) (ns : Nat) : Bool := match t with
    | some t => s.elapsed t ns
    | none => false
  match pin with
  | .strobe i =>
    if ended (s.mer.strobes.getD i none) (s.get .MER_STROBE_width i * 5) then
      .next ({ s with mer := { s.mer with strobes := upd i (fun _ => none) s.mer.strobes } }.emit
        (.pin pin (landLevel (s.on .MER_STROBE_pol i) false)))
    else .next s
  | .camtrig i =>
    if ended (s.mer.camtrigs.getD i none) (s.get .MER_CAMTRIG_width i * 5) then
      .next ({ s with mer := { s.mer with camtrigs := upd i (fun _ => none) s.mer.camtrigs } }.emit
        (.pin pin (landLevel (s.on .MER_CAMTRIG_pol i) false)))
    else .next s
  | .tpulse i =>
    if ended (s.mer.tpulses.getD i none) 100 then
      .next ({ s with mer := { s.mer with tpulses := upd i (fun _ => none) s.mer.tpulses } }.emit
        (.pin pin (landLevel (s.on .TIM_PULSE_CTRL_pol i) (s.gen i).active.isSome)))
    else .next s

end Sys2Proof.Machine
end

