-- ==== Sys2Proof/Machine/TimeNet.lean ====
section
/-! DEFINITION. MONO and NET, the seconds unit, the pulse generators and the network port (R497 to R520). -/

namespace Sys2Proof.Machine

/-! ### TIME records (R506) -/

/-- A TIME record is posted with MONO and NET of its event. -/
def State.timeRecord (s : State) (sub flags id : Nat) (mono net value : Time) (step : Int) : State :=
  let body := [BitVec.ofNat 8 sub, BitVec.ofNat 8 flags] ++ toLe 2 id ++ toLe 4 mono.toNat ++ toLe 4 net.toNat
    ++ toLe 4 value.toNat ++ toLe 4 (BitVec.ofInt 32 step).toNat ++ List.replicate 6 0
  (s.postEvent .HST_EVT_ROUTE_tim_en .HST_EVT_ROUTE_tim_ring 3 body).1

/-- MONO_WRAP (R504): MONO has passed from 0xFFFF_FFFF to 0. -/
def execMonoWrap (s : State) : Out :=
  match s.tim.monoWraps with
  | [] => .next s
  | (m, n) :: rest =>
    .next (((s.updTim fun t => { t with monoWraps := rest }).timeRecord 1 0 0 m n 0 0).irq .time 9)

/-- NET_WRAP (R504): NET has passed 2^32 in either direction. -/
def execNetWrap (s : State) : Out :=
  match s.tim.netWraps with
  | [] => .next s
  | (back, m, n) :: rest =>
    .next (((s.updTim fun t => { t with netWraps := rest }).timeRecord 2 back.toNat 0 m n 0 0).irq .time 9)

/-! ### Pulse generators (R507 to R511) -/

/-- A change of one generator. -/
def State.updGen (s : State) (n : Nat) (f : PulseGen → PulseGen) : State :=
  s.updTim fun t => { t with gens := upd n f t.gens }

/-- A generator is disarmed; TIM_PULSE_CTRL.arm reads 0. -/
def State.disarmGen (s : State) (n : Nat) : State :=
  (s.updGen n fun g => { g with armed := false }).set .TIM_PULSE_CTRL_arm 0 n

/-- The first target of a periodic generator that lies ahead of NET, from one at which NET − target is `d` (R509, R510). -/
def aheadOf (target : Time) (period : Nat) (d : Int) : Time :=
  if d < 0 ∨ period = 0 then target else target + BitVec.ofNat 32 ((d.toNat / period + 1) * period)

/-- NET − target (R505, R508). -/
def State.netAfter (s : State) (n : Nat) : Int := sdiff s.net (s.gen n).target

/-- A target that is behind already is not fired: the generator is marked and counted, and a ONESHOT one disarms (R509). -/
def State.skipBehind (s : State) (n : Nat) : State :=
  let d := s.netAfter n
  if d ≤ 0 then s
  else
    let s := (s.set .TIM_PULSE_CTRL_missed 1 n).count .TIM_PULSE_MISSED_CNT
    if s.on .TIM_PULSE_CTRL_mode n then s.updGen n fun g => { g with target := aheadOf g.target g.period d } else s.disarmGen n

/-- A generator fires: its land and the CAM_TRIG outputs that it selects are driven, TIM_INT_STATUS.pulse is set, and with
event set a PULSE record is posted (R506 to R508). -/
def State.firePulse (s : State) (n : Nat) (late : Bool) : State :=
  let target := (s.gen n).target
  let s := (s.updGen n fun g => { g with active := some s.clock }).emit (.pin (.tpulse n) (landLevel (s.on .TIM_PULSE_CTRL_pol n) true))
  let s := s.each ((List.range 4).filter fun i => (s.get .TIM_PULSE_CTRL_camtrig n).testBit i) fun s i => s.startPulse (.camtrig i)
  let s := s.irq .time n
  if s.on .TIM_PULSE_CTRL_event n then s.timeRecord 4 (if late then 2 else 0) n s.mono s.net target 0 else s

/-- A write of TIM_PULSE_CTRL[n] (R507, R509, R511): with arm 1 the target and the period are taken. -/
def State.writePulseCtrl (s : State) (n : Nat) (v : Word) : State :=
  let off := Reg.TIM_PULSE_CTRL.addr n 0 0
  let q := s.ahead off
  let arm := v.getLsbD 31
  let width := Fld.TIM_PULSE_CTRL_width.of v
  let period := (q.rd .TIM_PULSE_PERIOD n).toNat
  let periodic := v.getLsbD 30
  s.gate off v [(3, arm && (width == 0 || (periodic && (decide (period < 100) || decide (2147483647 < period) || decide (period ≤ width * 8)))))]
    fun s =>
      let s := s.store .TIM_PULSE_CTRL v n
      if !arm then s.disarmGen n
      else
        let start := s.rd .TIM_PULSE_START n
        (s.updGen n fun g => { g with armed := true, target := start, period := period }).skipBehind n

/-- PULSE_ARM (R507, R509, R511). -/
def execPulseArm (n : Nat) (v : Word) (s : State) : Out := if n < 8 then .next (s.writePulseCtrl n v) else .next s

/-- PULSE_FIRE (R508, R509): NET has reached the target of an armed generator. -/
def execPulseFire (n : Nat) (s : State) : Out :=
  if n < 8 ∧ (s.gen n).armed ∧ 0 ≤ s.netAfter n then
    let s := s.firePulse n false
    if s.on .TIM_PULSE_CTRL_mode n then
      .next ((s.updGen n fun g => { g with target := g.target + BitVec.ofNat 32 g.period }).skipBehind n)
    else .next (s.disarmGen n)
  else .next s

/-- PULSE_WIDTH_END (R508): the land goes inactive unless a compare drives it too (R211). -/
def execPulseWidthEnd (n : Nat) (s : State) : Out :=
  match (s.gen n).active with
  | some t =>
    if s.elapsed t (s.get .TIM_PULSE_CTRL_width n * 8) then
      .next ((s.updGen n fun g => { g with active := none }).emit
        (.pin (.tpulse n) (landLevel (s.on .TIM_PULSE_CTRL_pol n) (s.mer.tpulses.getD n none).isSome)))
    else .next s
  | none => .next s

/-! ### Steps and the rate (R499 to R503) -/

/-- A step that is not under override fires the generators that it carries NET over, each once, with the late flag
(R510). `before` is NET before it. -/
def State.stepPulses (s : State) (before : Time) : State :=
  s.each (List.range 8) fun s n =>
    let g := s.gen n
    if g.armed && decide (sdiff before g.target < 0) && decide (0 ≤ sdiff s.net g.target) then
      let s := s.firePulse n true
      if s.on .TIM_PULSE_CTRL_mode n then s.updGen n fun g => { g with target := aheadOf g.target g.period (s.netAfter n) }
      else s.disarmGen n
    else s

/-- Every generator is disarmed by a step under override and marked (R502). -/
def State.stepDisarm (s : State) : State :=
  s.each (List.range 8) fun s n =>
    (if (s.gen n).armed then s.disarmGen n else s).set .TIM_PULSE_CTRL_stepped 1 n

/-- NET moves by a jump of `d` ns; `net` is NET after it (R501, R502, R504, R510). -/
def State.applyStep (s : State) (d : Int) (net : BitVec 72) : State :=
  let before := s.net
  let over' := s.on .TIM_CTRL_override
  let s := s.updTim fun t => { t with net := net, netValid := true }
  let sum : Int := before.toNat + d
  let s := if sum < 0 then s.updTim fun t => { t with netWraps := t.netWraps ++ [(true, t.mono, s.net)] }
    else if 2 ^ 32 ≤ sum then s.updTim fun t => { t with netWraps := t.netWraps ++ [(false, t.mono, s.net)] }
    else s
  let s := if over' then (s.updTim fun t => { t with secValid := false }).stepDisarm
    else if 0 < d then s.stepPulses before
    else s
  (s.timeRecord 3 (if over' then 4 else 0) 0 s.mono s.net before d).irq .time 8

/-- A jump of `d` ns is asked for: above max_ns it is applied only under override or before NET is valid (R501). -/
def State.askStep (s : State) (d : Int) (net : BitVec 72) : State :=
  if s.get .TIM_STEP_MAX_max_ns < d.natAbs && !s.on .TIM_CTRL_override && s.tim.netValid then
    ((s.count .TIM_STEP_REFUSED_CNT).raise .timJumpRefused (BitVec.ofInt 32 d)).irq .time 8
  else s.applyStep d net

/-- NET_STEP (R501). -/
def State.writeNetStep (s : State) (v : Word) : State :=
  s.gate (Reg.TIM_NET_STEP.addr 0 0 0) v [] fun s => s.askStep v.toInt (s.tim.net + (v ++ (0 : BitVec 40)))

/-- NET_LOAD (R501): the fractional part becomes 0. -/
def State.writeNetLoad (s : State) (v : Word) : State :=
  s.gate (Reg.TIM_NET_LOAD.addr 0 0 0) v [] fun s => s.askStep (v - s.net).toInt (v ++ (0 : BitVec 40))

/-- NET_STEP (R501, R502). -/
def execNetStep (v : Word) (s : State) : Out := .next (s.writeNetStep v)

/-- NET_LOAD (R501, R502). -/
def execNetLoad (v : Word) (s : State) : Out := .next (s.writeNetLoad v)

/-- NET_RATE_WRITE (R499). -/
def execNetRateWrite (v : Word) (s : State) : Out :=
  .next (s.gate (Reg.TIM_NET_RATE.addr 0 0 0) v [] fun s => s.store .TIM_NET_RATE v)

/-- MONO and NET of one cycle are copied (R500). -/
def State.snapshot (s : State) : State :=
  s.gate (Reg.TIM_SNAP_CMD.addr 0 0 0) 1 [] fun s => (s.wr .TIM_SNAP_MONO s.mono).wr .TIM_SNAP_NET s.net

/-- TIME_SNAPSHOT (R500): a write of 1 to TIM_SNAP_CMD.snap. -/
def execTimeSnapshot (s : State) : Out := .next s.snapshot

/-! ### The seconds unit (R519) -/

/-- The registers of the seconds unit show its present second: base and the 48-bit seconds (R519). -/
def State.showSecond (s : State) (base : Time) (secs : BitVec 48) : State :=
  ((s.wr .TIM_SEC_BASE base).wr .TIM_SEC_LO (secs.setWidth 32)).wr .TIM_SEC_HI ((secs.extractLsb' 32 16).setWidth 32)

/-- The unit moves to another second; its registers follow, over what the host has written to them and not committed (DESIGN CHOICE, log 108). -/
def State.moveSecond (s : State) (base : Time) (secs : BitVec 48) : State :=
  (s.updTim fun t => { t with base := base, secs := secs }).showSecond base secs

/-- A write of TIM_SEC_LO commits base and seconds, the registers as they then stand. -/
def State.writeSecLo (s : State) (v : Word) : State :=
  s.gate (Reg.TIM_SEC_LO.addr 0 0 0) v [] fun s =>
    let s := s.store .TIM_SEC_LO v
    s.updTim fun t =>
      { t with base := s.rd .TIM_SEC_BASE, secs := (s.rd .TIM_SEC_HI).setWidth 16 ++ v, secValid := true }

/-- SECONDS_COMMIT (R519). -/
def execSecondsCommit (v : Word) (s : State) : Out := .next (s.writeSecLo v)

/-- SECOND_ROLLOVER (R519): one second in one TIME cycle. -/
def execSecondRollover (s : State) : Out :=
  let d := sdiff s.net s.tim.base
  if !s.tim.secValid then .next s
  else if 1000000000 ≤ d then .next (s.moveSecond (s.tim.base + 1000000000) (s.tim.secs + 1))
  else if d < 0 then .next (s.moveSecond (s.tim.base - 1000000000) (s.tim.secs - 1))
  else .next s

/-- The PTP time of a NET value: seconds and nanoseconds (R519). -/
def State.ptpTime (s : State) (t : Time) : Nat × Nat :=
  let ns : Int := s.tim.secs.toNat * 1000000000 + sdiff t s.tim.base
  ((ns.fdiv 1000000000 % 2 ^ 48).toNat, (ns.fmod 1000000000).toNat)

/-! ### Transmission (R514, R517, R518, R520) -/

/-- The frame check sequence of IEEE 802.3, as the MAC appends it (R514; PRESUMED, log 51). -/
def frameFcs (l : Bytes) : Bytes :=
  let step (r : BitVec 32) (b : Bool) : BitVec 32 := if r.getLsbD 0 != b then (r >>> 1) ^^^ 0xEDB88320 else r >>> 1
  toLe 4 (~~~(l.foldl (fun r b => (byteBits b).reverse.foldl step r) (0xFFFFFFFF : BitVec 32))).toNat

/-- A number as big-endian bytes. -/
def toBe (n v : Nat) : Bytes := (toLe n v).reverse

/-- The frame at the head of the queue begins: its transmit timestamp is taken, and with onestep its PTP time is written
into it; where the link is down or tx_en is 0 it completes with LINK (R514, R517, R520). -/
def State.txBegin (s : State) : Nat → State
  | 0 => s
  | fuel + 1 =>
    match s.tim.tx with
    | [] => s
    | f :: rest =>
      if f.stamp.isSome then s
      else if !s.tim.link || !s.on .TIM_CTRL_tx_en then
        ((s.updTim fun t => { t with tx := rest }).complete f.ctx .link).txBegin fuel
      else
        let ts := s.net + BitVec.ofNat 32 (s.get .TIM_NET_LAT_tx_lat)
        let (sec, ns) := s.ptpTime ts
        let frame := if f.onestep then splice f.frame f.tsOffset (toBe 6 sec ++ toBe 4 ns) else f.frame
        s.updTim fun t => { t with tx := { f with stamp := some ts, frame := frame } :: rest }

/-- NET_TX (R514, R520): length and ts_offset outside their ranges give RANGE, onestep without a valid seconds unit
STATE. -/
def execNetTx (ring : Nat) (d frame : Bytes) (s : State) : Out :=
  .next (s.descriptor ring d 0x0A (fun _ => true) fun s c =>
    let len := leAt d 16 2
    let ofs := leAt d 6 2
    let ts := (byteAt d 4).testBit 0
    let one := (byteAt d 4).testBit 1
    if len < 60 ∨ 9216 < len ∨ (one ∧ (ofs < 14 ∨ len < ofs + 10)) then s.complete c .range
    else if one && !s.tim.secValid then s.complete c .state
    else s.withRead c (leAt d 8 8) len fun s =>
      let (bytes, s) := s.received len frame
      (s.updTim fun t => { t with tx := t.tx ++ [(⟨c, bytes, ts, one, ofs, none⟩ : TxFrame)] }).txBegin (s.tim.tx.length + 1))

/-- A transmit timestamp goes into the queue of 16, or is discarded (R518). -/
def State.queueStamp (s : State) (tag : Nat) (ts : Time) : State :=
  if s.tim.txq.length < 16 then s.updTim fun t => { t with txq := t.txq ++ [(tag, ts)] }
  else ((s.count .TIM_TXQ_DROP_CNT).raise .timTxqOverflow (BitVec.ofNat 32 tag)).irq .time 10

/-- NET_TX_DONE (R514, R518): the last byte of the frame leaves. -/
def execNetTxDone (s : State) : Out :=
  match s.tim.tx with
  | f :: rest =>
    match f.stamp with
    | none => .next s
    | some ts =>
      let s := (s.updTim fun t => { t with tx := rest }).emit (.netFrame (f.frame ++ frameFcs f.frame))
      let s := if f.ts then s.queueStamp f.ctx.tag ts else s
      .next ((s.complete f.ctx .ok).txBegin (rest.length + 1))
  | [] => .next s

/-- TXTS_POST (R518): the oldest timestamp becomes a TXTS record where the routed EVENT ring has room. -/
def execTxtsPost (s : State) : Out :=
  let r := s.get .HST_EVT_ROUTE_tim_ring
  match s.tim.txq with
  | (tag, ts) :: rest =>
    if s.on .HST_EVT_ROUTE_tim_en && s.ringKind r == 3 && s.running r && !s.ringFull r then
      .next ((s.updTim fun t => { t with txq := rest }).timeRecord 5 0 tag s.mono s.net ts 0)
    else .next s
  | [] => .next s

/-- TXTS_READ (R518, R593): a read of TIM_TXTS_NET removes the oldest entry. -/
def execTxtsRead (s : State) : Out := .next (s.bar0 fun s => s.updTim fun t => { t with txq := t.txq.drop 1 })

/-! ### Reception (R515 to R517) -/

/-- The MAC accepts a frame's destination (R515). -/
def State.macAccepts (s : State) (frame : Bytes) : Bool :=
  let dst := le (frame.take 6).reverse
  s.on .TIM_CTRL_promisc || byteAt frame 0 % 2 == 1
    || dst == (s.rd .TIM_NET_MAC_LO).toNat + (s.rd .TIM_NET_MAC_HI).toNat * 2 ^ 32

/-- NET_RX_FRAME (R515 to R517): a frame, without its FCS, has been received. -/
def execNetRxFrame (frame : Bytes) (fcsOk : Bool) (s : State) : Out :=
  if !s.on .TIM_CTRL_rx_en || !s.tim.link then .next s
  else if !fcsOk ∨ frame.length < 60 ∨ 9216 < frame.length then .next (s.count .TIM_RX_BAD_CNT)
  else if !s.macAccepts frame then .next s
  else
    let held := (s.tim.rxWait.map fun (f : Bytes × Time × Bool) => f.1.length).sum
    if 32768 < held + frame.length then .next (s.count .TIM_RX_DROP_CNT)
    else
      let ts := s.net - BitVec.ofNat 32 (s.get .TIM_NET_LAT_rx_lat)
      .next (s.deliver (s.tim.rxWait ++ [(frame, ts, s.tim.netValid)]))

/-- NET_RXBUF (R378, R516): a buffer is supplied, and frames that wait take it. -/
def execNetRxbuf (ring : Nat) (d : Bytes) (s : State) : Out :=
  .next (s.descriptor ring d 0x0B (fun _ => true) fun s c => s.complete c .range)

/-- What the 8824 advertises under Clause 37: full duplex and no pause (R512). -/
def netAdvert : NetAdvert := ⟨true, false⟩

/-- What an exchange settles brings the link up: in SGMII a PHY with its link at 1000 Mbit/s full duplex, in 1000BASE-X a partner that
advertises full duplex as the 8824 does (R512). -/
def State.netSettles (s : State) : NetExchange → Bool
  | .none => false
  | .inBand mbit full => s.get .TIM_CTRL_mode == 1 && mbit == 1000 && full
  | .clause37 a => s.get .TIM_CTRL_mode == 2 && a.fullDuplex && netAdvert.fullDuplex

/-- NET_LINK_CHANGE (R512): the link comes up as the mode's exchange settles it, and goes down without one. -/
def execNetLinkChange (x : NetExchange) (s : State) : Out :=
  let up := s.netSettles x && s.clk.rootLock
  if up == s.tim.link then .next s else .next ((s.updTim fun t => { t with link := up }).irq .time 11)

end Sys2Proof.Machine
end

