-- ==== Sys2Proof/Machine/Resets.lean ====
section
/-! DEFINITION. What a reset keeps and what it returns to its reset value: cold, clock-loss and warm resets (R15, R430 to
R433, R475, R481). -/

namespace Sys2Proof.Machine

/-- A flash write cut short leaves a record that fails its CRC (R433, R569). -/
def State.cutWrite (s : State) : Memory :=
  match s.alm.job with
  | none => s.alm.flash
  | some (r, a) =>
    let erased := s.alm.flash.filter fun e => !(decide (a ≤ e.1) && decide (e.1 < a + 0x10000))
    Memory.writes Memory.flashFill erased a (r.take 1 ++ [0] ++ r.drop 2)

/-- The register words that survive a reset: of each register the bits that `mask` names, the others at their reset
values. -/
def State.keptRegs (s : State) (mask : Reg → Nat → Word) : SMap Word :=
  s.regs.foldl (fun (m : SMap Word) e =>
    match Reg.ofOffset e.1 with
    | some (r, l) =>
      let i := l.getD 0 0
      let j := l.getD 1 0
      let k := mask r j
      m.put (r.reset i j) e.1 ((e.2 &&& k) ||| (r.reset i j &&& ~~~k))
    | none => m) []

/-- Bits kept by a clock-loss reset: RWS fields (R475), and the copies of LTN_REC (R408). -/
def keptByClockLoss (r : Reg) (_ : Nat) : Word :=
  if r = .LTN_REC then BitVec.allOnes 32 else r.maskOf [.rws]

/-- Registers that a warm reset keeps whole beside the RWS and RWL fields: the MSI-X table, the DRAM delays, every TIM
register, and LTN_REC (R408, R432). -/
def warmKept (r : Reg) : Bool :=
  [Reg.HST_MSIX_TABLE, .DRM_DLY_RD, .DRM_DLY_WR, .DRM_DLY_CA, .DRM_DLY_BYTE, .LTN_REC].contains r
    || (decide (0x1A0000 ≤ r.base) && decide (r.base < 0x1B0000))

/-- Bits kept by a warm reset (R15, R432). -/
def keptByWarm (r : Reg) (_ : Nat) : Word :=
  if warmKept r then BitVec.allOnes 32 else r.maskOf [.rws, .rwl]

/-- The signal of an output pin. -/
def pinSignal : OutPin → Signal
  | .strobe n => .strobe n
  | .camtrig n => .camTrig n
  | .tpulse n => .tpulse n

/-- The lands go to their levels in reset: those of the pulse outputs that stand high and TWIN_ALIVE_OUT go low, and the display outputs to the
inactive levels of the reset polarities (R315, R525, R561). -/
def State.landsLow (s : State) : State :=
  let pins := (List.range 4).map OutPin.strobe ++ (List.range 4).map OutPin.camtrig ++ (List.range 8).map OutPin.tpulse
  let high := pins.filter fun q => s.level (pinSignal q) == some .high
  let idle : DispClock := ⟨[0, 0, 0], false, true, true⟩
  let shown := s.scanning || (s.dev.dev != .dark && s.dispIdle != idle)
  let s := s.each high fun s q => s.emit (.pin q false)
  let s := if shown then s.emit (.display false idle) else s
  if s.twn.aliveOut then s.emit (.twinAlive false) else s

/-- The supplies and pins as a reset finds them; the supply monitor starts again (R430, R432). -/
def Power.kept (w : Power) : Power := { w with vinLowRun := 0, vinOkRun := 0, vinLowRaised := false, vinAt := none }

/-- A cold start: everything at its reset value and DARK, but for the flash, the supplies, the pins and the model's own
fields (R430). -/
def State.cold (s : State) (regs : SMap Word) (cause : Nat) : State :=
  let t := s.landsLow
  let held := s.ltn.fHold
  let r := State.reset
  let t := { r with
    regs := regs, out := t.out, free := s.free, pending := s.pending,
    dev := { r.dev with dev := .dark },
    pwr := s.pwr.kept,
    hst := { r.hst with gen := s.hst.gen + 1 },
    alm := { r.alm with flash := s.cutWrite } }
  (t.set .GLB_RESET_CAUSE_cause cause).set .GLB_RESET_CAUSE_f_hold held.toNat

/-- The power-up and RESET_N resets: every register at its reset value (R430). -/
def State.coldReset (s : State) (cause : Nat) : State := s.cold [] cause

/-- The clock-loss reset: a cold reset that keeps the RWS fields and the numbering of FAULT records (R408, R409, R475). -/
def State.clockLossReset (s : State) : State :=
  let t := s.cold (s.keptRegs keptByClockLoss) 3
  { t with dev := { t.dev with lossReset := true }, ltn := { t.ltn with seq := s.ltn.seq } }

/-- The warm reset begins: what R432 does not keep returns to its reset value, and the memory is in self-refresh. The crossings
whose other side is not reset resynchronise (R481, R490). -/
def State.warmStart (s : State) : State :=
  let t := s.landsLow
  let r := State.reset
  let chans := s.drm.chans.map fun (x : Channel) => { Channel.reset with modes := x.modes, trained := x.trained }
  let xings := r.clk.xings.zipIdx.map fun (x : Crossing × Nat) =>
    if [35, 37, 38, 39].contains x.2 then (⟨[], 0, .waiting, false⟩ : Crossing) else x.1
  let t := { r with
    regs := s.keptRegs keptByWarm, out := t.out, free := s.free, pending := s.pending, pwr := s.pwr.kept, tim := s.tim,
    dev := { r.dev with dev := .dark, locked := s.dev.locked, flStep := 5, warm := true },
    clk := { r.clk with rootLock := s.clk.rootLock, pcieUp := s.clk.pcieUp, refOk := s.clk.refOk, xings := xings },
    hst := { r.hst with dlUp := s.hst.dlUp, l1 := s.hst.l1, d3hot := s.hst.d3hot, cfg := s.hst.cfg, gen := s.hst.gen + 1 },
    ltn := { r.ltn with seq := s.ltn.seq },
    drm := { r.drm with chans := chans, sr := .inside, ready := s.drm.ready, mem := s.drm.mem },
    alm := { r.alm with flash := s.cutWrite } }
  let t := (t.set .GLB_RESET_CAUSE_cause 2).set .GLB_RESET_CAUSE_f_hold 0
  let t := if s.drm.sr = .inside then t else t.count .DRM_SR_CNT
  t.each ((List.range 26).filter fun p => (s.link p).st != .down) fun t p => t.emit (.electricalIdle p)

end Sys2Proof.Machine
end

