-- ==== Sys2Proof/Machine/FirstLight.lean ====
section
/-! DEFINITION. Supplies, resets, start-up and the commands that change the device state (R418 to R433, R475, R492, R563 to
R570). -/

namespace Sys2Proof.Machine

/-! ### Supplies (R492, R563, R567 to R570) -/

/-- A change of the supply state. -/
def State.updPwr (s : State) (f : Power → Power) : State := { s with pwr := f s.pwr }

/-- The order in which the rails come up; they go down in the reverse order (R567, R569). -/
def Rail.sequence : List (List Rail) := [[.v3p3], [.vdd1], [.vdd2h], [.vdd2l, .core, .memory], [.serdes], [.vddq]]

/-- The rails come up one after another, V3P3 first and VDDQ last (R567). -/
def State.railsUp (s : State) : State := s.each Rail.sequence.flatten fun s r => s.emit (.rail r true)

/-- The rails go down in the reverse order, VDDQ first (R569). -/
def State.railsDown (s : State) : State := s.each Rail.sequence.flatten.reverse fun s r => s.emit (.rail r false)

/-- The rail sequence starts with PWR_EN high and VIN up: from off at once, during a ramp-down when that has ended (R567,
R570). -/
def State.askRails (s : State) : State :=
  if s.pwr.pwrEn && s.pwr.vinUp then
    match s.pwr.rails with
    | .off => (s.updPwr fun w => { w with rails := .rising }).railsUp
    | .falling => s.updPwr fun w => { w with riseHeld := true }
    | _ => s
  else s

/-- PWR_EN_RISE (R567, R570). -/
def execPwrEnRise (s : State) : Out :=
  if s.pwr.pwrEn then .next s else .next (s.updPwr fun w => { w with pwrEn := true }).askRails

/-- UNDERVOLTAGE_LOCKOUT_RELEASE (R563): VIN rises through 2.55 V, with PWR_EN high or not. -/
def execUndervoltageLockoutRelease (pwrEn : Bool) (s : State) : Out :=
  if s.pwr.vinUp then .next s
  else .next (s.updPwr fun w => { w with vinUp := true, pwrEn := pwrEn }).askRails

/-- PGOOD_RISE (R567, R568): every rail has been in window for 0.5 ms; the die stays in reset for 1 ms more. -/
def execPgoodRise (s : State) : Out :=
  if s.pwr.rails = .rising then
    .next ((s.updPwr fun w => { w with rails := .inWindow, pgood := true, dieHeld := true }).emit (.pgood true))
  else .next s

/-- RAIL_TIMEOUT (R567): a rail is not in window by 10 ms. -/
def execRailTimeout (s : State) : Out :=
  if s.pwr.rails = .rising then .next ((s.updPwr fun w => { w with rails := .retryWait }).railsDown) else .next s

/-- RAIL_RETRY (R567): 100 ms later the sequence starts again, as long as PWR_EN stays high. -/
def execRailRetry (s : State) : Out :=
  if s.pwr.rails = .retryWait ∧ s.pwr.pwrEn ∧ s.pwr.vinUp then
    .next ((s.updPwr fun w => { w with rails := .rising }).railsUp)
  else .next s

/-- PGOOD falls and the die is held in reset: a power-up follows (R492). -/
def State.losePgood (s : State) (rails : Rails) : State :=
  let s := if s.pwr.pgood then s.emit (.pgood false) else s
  (s.updPwr fun w => { w with rails := rails, pgood := false, dieHeld := true }).coldReset 0

/-- RAIL_FAULT (R492, R565): a rail or region outside its window for 5 µs. -/
def execRailFault (s : State) : Out :=
  if s.pwr.rails = .inWindow then .next (s.losePgood .rising) else .next s

/-- POWER_DOWN (R569): PWR_EN falls, or VIN falls through 2.45 V. -/
def execPowerDown (pwrEnFell : Bool) (s : State) : Out :=
  if (if pwrEnFell then s.pwr.pwrEn else s.pwr.vinUp) then
    let s := s.updPwr fun w => { w with pwrEn := w.pwrEn && !pwrEnFell, vinUp := w.vinUp && pwrEnFell, riseHeld := false }
    match s.pwr.rails with
    | .off => .next s
    | .retryWait => .next (s.updPwr fun w => { w with rails := .off })
    | .falling => .next s
    | _ => .next ((s.losePgood .falling).railsDown)
  else .next s

/-- RAMP_DOWN_END (R570): the rails are down; a rise of PWR_EN held off starts the sequence. -/
def execRampDownEnd (s : State) : Out :=
  if s.pwr.rails = .falling then
    let held := s.pwr.riseHeld
    let s := s.updPwr fun w => { w with rails := .off, riseHeld := false }
    .next (if held then s.askRails else s)
  else .next s

/-! ### Leaving DARK (R424, R430, R475, R568) -/

/-- The device leaves DARK for FIRST_LIGHT at step 3 once RESET_N is high, the hold behind PGOOD has ended and no clock-loss
reset lasts (R424, R475, R568). -/
def State.leaveDark (s : State) : State :=
  if s.dev.dev = .dark ∧ s.pwr.rails = .inWindow ∧ s.pwr.pgood ∧ s.pwr.resetN ∧ !s.pwr.dieHeld ∧ !s.dev.lossReset ∧ !s.dev.warm then
    { s with dev := { s.dev with flStep := 3 } }.enter .firstLight
  else s

/-- COLD_RESET (R430): RESET_N is low. -/
def execColdReset (s : State) : Out :=
  if !s.pwr.resetN then .next s
  else if s.pwr.rails = .inWindow then .next ((s.updPwr fun w => { w with resetN := false }).coldReset 1)
  else .next (s.updPwr fun w => { w with resetN := false })

/-- RESET_RELEASE (R424, R568). -/
def execResetRelease (s : State) : Out := .next (s.updPwr fun w => { w with resetN := true }).leaveDark

/-- DIE_RESET_HOLD_END (R568): 1 ms after PGOOD. -/
def execDieResetHoldEnd (s : State) : Out :=
  if s.pwr.pgood ∧ s.pwr.dieHeld then .next (s.updPwr fun w => { w with dieHeld := false }).leaveDark else .next s

/-- CLOCK_LOSS (R475): a clock-loss reset starts. -/
def execClockLoss (s : State) : Out :=
  if s.pwr.rails = .inWindow ∧ s.pwr.resetN ∧ !s.pwr.dieHeld ∧ !s.dev.lossReset then .next s.clockLossReset else .next s

/-- CLOCK_RECOVERED (R475): REFCLK has stayed within the window for 1 ms. -/
def execClockRecovered (s : State) : Out :=
  if s.dev.lossReset then
    .next (({ s with dev := { s.dev with lossReset := false } }).count .CLK_LOSS_CNT).leaveDark
  else .next s

/-! ### First Light (R424 to R426, R481) -/

/-- The factory load begins: ALM and every TRN block are BUSY (R424 step 5, R427). -/
def State.loadBegin (s : State) : State :=
  { s with dev := { s.dev with factoryLoading := true } }.reachStep 5

/-- PLL_LOCK (R424 step 4, R497): the root PLL has locked; MONO starts. -/
def execPllLock (s : State) : Out :=
  if s.dev.dev = .dark ∨ s.clk.rootLock then .next s
  else .next { s with clk := { s.clk with rootLock := true, refOk := true } }.loadBegin

/-- FACTORY_LOAD_DONE (R426): what was found is in force. -/
def execFactoryLoadDone (s : State) : Out :=
  if s.dev.factoryLoading then
    .next (s.factoryLoad.reachStep 7).busyDone
  else .next s

/-- PCIE_RESET_RELEASE (R424 step 6, R481). -/
def execPcieResetRelease (s : State) : Out :=
  if s.dev.dev = .dark ∨ s.clk.pcieUp then .next s
  else .next ({ s with clk := { s.clk with pcieUp := true } }.reachStep 6)

/-- A module whose twin mode is not OFF pairs at start-up (R343, R424 step 12). -/
def State.pairAtStart (s : State) : State :=
  if s.twinMode != 0 && s.on .TWN_CTRL_auto_rejoin then
    (s.reachStep 12).beginPair
  else s

/-- GLB_CMD.finish (R425): accepted once step 5 has ended, dram_ready is set, and a factory load has succeeded or is not
asked for. -/
def State.finish (s : State) : State :=
  let may := s.dev.dev == .firstLight && s.dev.factoryLoaded && s.drm.ready && (s.dev.factoryOk || s.on .GLB_CTRL_allow_nofactory)
  s.gate (Reg.GLB_CMD.addr 0 0 0) 1 [(2, !may)] fun s =>
    (({ s with dev := { s.dev with locked := true, stoReady := true } }.reachStep 9).enter .standby).pairAtStart

/-- FINISH (R425). -/
def execFinish (s : State) : Out := .next s.finish

/-- GLB_CMD.print (R419, R422): in STANDBY, ready, and not on a standby or secondary; a pair agrees its first line. -/
def State.print (s : State) : State :=
  s.gate (Reg.GLB_CMD.addr 0 0 0) 2 [(2, s.dev.dev != .standby || !s.ready), (5, s.follower)] fun s =>
    if s.agreeing then s.propose (some s.epochLine) .print none else s.enterPrinting none

/-- PRINT (R419, R422). -/
def execPrint (s : State) : Out := .next s.print

/-- GLB_CMD.stop (R421, R422): a stop line is fixed, alone or with the partner; one already fixed stays. -/
def State.stop (s : State) : State :=
  s.gate (Reg.GLB_CMD.addr 0 0 0) 4 [(2, !s.printing), (5, s.pairedAgree && s.follower)] fun s =>
    if s.dev.stopLine.isSome then s
    else if s.agreeing then s.propose (some s.epochLine) .stop none
    else s.setStop s.epochLine

/-- A write of GLB_CMD. No device state permits two of the commands, so a write of two is refused with the lowest reason, 2 (R428). -/
def State.writeGlbCmd (s : State) (v : Word) : State :=
  match v.getLsbD 0, v.getLsbD 1, v.getLsbD 2 with
  | false, false, false => s
  | true, false, false => s.finish
  | false, true, false => s.print
  | false, false, true => s.stop
  | _, _, _ => s.gate (Reg.GLB_CMD.addr 0 0 0) v [(2, true)] id

/-- STOP (R421, R422). -/
def execStop (s : State) : Out := .next s.stop

/-! ### The warm reset (R429, R431 to R433) -/

/-- A write of GLB_RESET: without the key it is refused with reason 3; a warm reset starts in STANDBY, and in HELD outside
F-HOLD. -/
def State.writeReset (s : State) (v : Word) : State :=
  let key := decide (Fld.GLB_RESET_key.of v = 0xA5)
  let may := s.devIn [.standby, .held] && !s.ltn.fHold
  s.gate (Reg.GLB_RESET.addr 0 0 0) v [(3, !key), (2, key && v.getLsbD 0 && !may)] fun s =>
    if v.getLsbD 0 then s.warmStart else s

/-- WARM_RESET (R431 to R433). -/
def execWarmReset (v : Word) (s : State) : Out := .next (s.writeReset v)

/-- WARM_RESET_END (R432, R471): First Light resumes at step 5, and the memory leaves self-refresh. -/
def execWarmResetEnd (s : State) : Out :=
  if s.dev.warm then
    let s := { s with dev := { s.dev with warm := false }, drm := { s.drm with sr := .active } }
    .next (s.enter .firstLight).loadBegin
  else .next s

end Sys2Proof.Machine
end

