-- ==== Sys2Proof/Machine/Crossings.lean ====
section
/-! DEFINITION. Crossings between clock domains and the PIX PLL (R479, R482 to R490). -/

namespace Sys2Proof.Machine

/-- The two domains that a crossing joins (R476, R489). -/
def xingDomains (x : Nat) : Nat × Nat :=
  if x < 26 then (1, 3) else if x < 30 then (1, 2) else if x < 34 then (1, 8) else if x = 34 then (1, 7)
  else if x = 35 then (1, 6) else if x = 36 then (1, 5) else if x = 37 then (1, 4) else if x = 38 then (5, 6) else (6, 3)

/-- The latest timeout or resynchronisation is recorded (R490). -/
def State.xingLast (s : State) (x domain event : Nat) : State :=
  ((s.set .CLK_XING_LAST_crossing x).set .CLK_XING_LAST_domain domain).set .CLK_XING_LAST_event event

/-- A register write has been pending for 4,096 cycles of FAB (R488). -/
def State.writeStuck (s : State) (x : Nat) : Bool := (s.xing x).writes.any fun w => s.elapsed w.since 7448

/-- CROSSING_TIMEOUT (R488): of effect where a transfer is pending: a register write that has been for 4,096 cycles of FAB, or, as `side` says,
an event of another kind or stream words that the far side has not acknowledged, whose source the spec leaves open (log 52). What is pending is
discarded, each write of a value counted. A camera port's crossing is idle while its sensor holds the clock lane in a low-power state (R268). -/
def execCrossingTimeout (x : Nat) (side : XingSide) (s : State) : Out :=
  let k := s.xing x
  if 40 ≤ x ∨ k.sync = .waiting ∨ (side.clockLow ∧ 30 ≤ x ∧ x < 34) ∨ (!s.writeStuck x ∧ !side.event ∧ side.words = 0) then .next s
  else
    let (v, s) := if s.writeStuck x then (0, s) else s.fresh
    let (a, b) := xingDomains x
    let domain := if v.getLsbD 0 then b else a
    let s := s.count .CLK_XING_LOST_CNT 0 0 0 k.values.length
    let s := (s.count .CLK_XING_TIMEOUT_CNT).xingLast x domain 1
    let s := s.raise .cdcTimeout (BitVec.ofNat 32 domain) x
    .next (s.updXing x fun _ => ⟨[], side.words, .waiting, true⟩)

/-- The clocks of both sides of a crossing run (R480, R481, R490). -/
def State.clocksRun (s : State) (x : Nat) : Bool :=
  s.clk.rootLock && (!(decide (30 ≤ x) && decide (x < 34)) || s.cameraOn (x - 30)) && (x != 34 || s.clk.pixLock) && (x != 37 || s.clk.pcieUp)

/-- CROSSING_RESYNC (R490): once the clocks of both sides run, both start from empty; writes that reached FAB meanwhile follow. Whether the
stream of a side that was reset held words then is free (log 52). -/
def execCrossingResync (x : Nat) (s : State) : Out :=
  let k := s.xing x
  if 40 ≤ x ∨ k.sync = .running ∨ !s.clocksRun x then .next s
  else
    let (v, s) := if k.afterTimeout then (0, s) else s.fresh
    let s := if k.words = 0 && !v.getLsbD 0 then s else s.count .CLK_XING_FLUSH_CNT
    let s := if k.afterTimeout then s else s.xingLast x (xingDomains x).1 2
    .next (s.updXing x fun _ => ⟨k.writes, 0, .running, false⟩)

/-! ### The PIX PLL (R479, R481) -/

/-- n and div lie in their ranges, and with en 1 the VCO and f_pix do. -/
def pixOk (n div frac : Nat) (en : Bool) : Bool :=
  let vco := 100 * (n * 2 ^ 20 + frac)
  decide (16 ≤ n) && decide (n ≤ 40) && decide (10 ≤ div)
    && (!en || (decide (1600 * 2 ^ 20 ≤ vco) && decide (vco ≤ 4000 * 2 ^ 20) && decide (vco ≤ 165 * 2 ^ 20 * div)))

/-- The PIX domain is held in reset: scan-out stops (R481). -/
def State.pixOff (s : State) : State :=
  let s := if s.scanning then s.emit (.display false s.dispIdle) else s
  { s with clk := { s.clk with pixLock := false },
           eye := { s.eye with line := 0, fresh := true, shown := none, pending := none, pastCommit := false, fetched := none } }

/-- A write of CLK_PIX_CTRL (R479): n and div can be written only while en is 0; while it is 1 a write is taken that clears it and changes
nothing else (R428; DESIGN CHOICE, log 117). -/
def State.writePixCtrl (s : State) (v : Word) : State :=
  let n := Fld.CLK_PIX_CTRL_n.of v
  let div := Fld.CLK_PIX_CTRL_div.of v
  let en := v.getLsbD 31
  let was := s.on .CLK_PIX_CTRL_en
  let moved := n != s.get .CLK_PIX_CTRL_n || div != s.get .CLK_PIX_CTRL_div
  s.gate (Reg.CLK_PIX_CTRL.addr 0 0 0) v [(2, was && (en || moved)), (3, !pixOk n div (s.get .CLK_PIX_FRAC_frac) en)] fun s =>
    let s := s.store .CLK_PIX_CTRL v
    if was && !en then (s.pixOff).resetXing 34 else s

/-- PIX_PLL_ENABLE (R479). -/
def execPixPllEnable (v : Word) (s : State) : Out := .next (s.writePixCtrl v)

/-- PIX_PLL_LOCK (R479, R481, R525): the PIX domain leaves reset. -/
def execPixPllLock (s : State) : Out :=
  if s.on .CLK_PIX_CTRL_en ∧ s.clk.rootLock ∧ !s.clk.pixLock ∧ s.dev.dev ≠ .dark then
    let s := { s with clk := { s.clk with pixLock := true } }.resetXing 34
    .next (if s.scanning then s.emit (.display true s.dispIdle) else s).wakeDram
  else .next s

end Sys2Proof.Machine
end

