-- ==== Sys2Proof/Machine/Eyepiece.lean ====
section
/-! DEFINITION. The commands of the Eyepiece (R522 to R538). -/

namespace Sys2Proof.Machine

/-- The timing registers satisfy R524. -/
def State.eyeTimingOk (s : State) : Bool :=
  let ha := s.get .EYE_HTIM_lo
  let ht := s.get .EYE_HTIM_hi
  let va := s.get .EYE_VTIM_lo
  let vt := s.get .EYE_VTIM_hi
  let hs := s.get .EYE_HSYNC_hi
  let hw := s.get .EYE_HSYNC_lo
  let vs := s.get .EYE_VSYNC_hi
  let vw := s.get .EYE_VSYNC_lo
  decide (16 ≤ ha ∧ ha ≤ 1920 ∧ 16 ≤ va ∧ va ≤ 1200) && decide (ha + 16 ≤ ht ∧ ht ≤ 4096 ∧ va + 3 ≤ vt ∧ vt ≤ 4096)
    && decide (ha ≤ hs ∧ hs + hw ≤ ht ∧ 1 ≤ hw) && decide (va ≤ vs ∧ vs + vw ≤ vt ∧ 1 ≤ vw)

/-- A write of EYE_CTRL (R524, R525, R538): while en is 1, a write is taken that changes en or live and no other field (R428; DESIGN CHOICE,
log 117). -/
def State.writeEyeCtrl (s : State) (v : Word) : State :=
  let old := s.rd .EYE_CTRL
  let was := s.on .EYE_CTRL_en
  let q := s.ahead (Reg.EYE_CTRL.addr 0 0 0)
  let others : Word := 0x000000F7
  s.gate (Reg.EYE_CTRL.addr 0 0 0) v
    [(2, was && ((old &&& others) != (v &&& others) || (old &&& 0xC0000000) == (v &&& 0xC0000000))), (3, v.msb && (!q.eyeTimingOk || !s.on .CLK_PIX_CTRL_en))] fun s =>
    let idle := s.dispIdle
    let s := s.store .EYE_CTRL v
    if v.msb == was then (if s.scanning || s.dispIdle == idle then s else s.emit (.display false s.dispIdle))
    else
      let t : State := { s with eye := { s.eye with line := 0, fresh := true, shown := none, pending := none, pastCommit := false,
                                                    fetched := none } }
      (if s.clk.pixLock then t.emit (.display v.msb t.dispIdle) else t).wakeDram

/-- EYE_ENABLE (R524). -/
def execEyeEnable (v : Word) (s : State) : Out := if v.msb then .next (s.writeEyeCtrl v) else .next s

/-- EYE_DISABLE (R525). -/
def execEyeDisable (v : Word) (s : State) : Out := if v.msb then .next s else .next (s.writeEyeCtrl v)

/-- The host framebuffer that the registers name (R528, R529). -/
def State.hostFrame (s : State) : FrameBuf :=
  ⟨(s.rd .EYE_FB_ADDR).toNat * 16, (s.rd .EYE_FB_STRIDE).toNat % 65536, s.get .EYE_FMT_fmt, s.on .EYE_FMT_swap,
    s.get .EYE_HTIM_lo, s.get .EYE_VTIM_lo⟩

/-- A write of EYE_COMMIT, of effect with the host as source (R528, R531). -/
def State.writeEyeCommit (s : State) (v : Word) : State :=
  s.gate (Reg.EYE_COMMIT.addr 0 0 0) v [] fun s =>
    if !v.getLsbD 0 || s.on .EYE_CTRL_src then s else s.eyeArrive s.hostFrame

/-- EYE_COMMIT (R528, R531). -/
def execEyeCommit (s : State) : Out := .next (s.writeEyeCommit 1)

/-- Line 0 of a display frame: the frame is counted, but for the one that begins with the scan (DESIGN CHOICE, log 160), and a pending commit
takes effect (R531, R537). -/
def State.eyeFrameStart (s : State) : State :=
  let s := { s with eye := { s.eye with frame := if s.eye.fresh then s.eye.frame else s.eye.frame + 1, fresh := false,
                                        pastCommit := false, underran := false, bordered := false, crc := 0xFFFFFFFF } }
  match s.eye.pending with
  | some (f, 1) => { s with eye := { s.eye with shown := some f, pending := none } }.irq .eyepiece 3
  | some (f, k) => { s with eye := { s.eye with pending := some (f, k - 1) } }
  | none => s

/-- A line is driven that has no active pixel (R523). -/
def State.blankLine (s : State) : State :=
  s.emit (.displayLine s.eye.frame.toNat s.eye.line [] (s.lineLands s.eye.line []))

/-- The active part of a line is driven (R523, R529, R534, R535). -/
def State.driveLine (s : State) (missing : Option Nat) : State :=
  let y := s.eye.line
  let ha := s.get .EYE_HTIM_lo
  let l := (s.eye.shown.map fun f => s.lineBytes f y).getD []
  let pixels := s.linePixels l y missing ha 0 none
  let under : Bool := match missing, s.eye.shown with
    | some m, some f => decide (m < min ha f.width) && decide (y < f.height)
    | _, _ => false
  let border := match s.eye.shown with
    | some f => decide (f.width < ha) || decide (f.height ≤ y)
    | none => true
  let first := under && !s.eye.underran
  let rgb := pixels.flatten
  let s := { s with eye := { s.eye with crc := sigBytes s.eye.crc rgb, underran := s.eye.underran || under,
                                        bordered := s.eye.bordered || border } }
  let s := s.emit (.displayLine s.eye.frame.toNat y rgb (s.lineLands y rgb))
  let s := if under then s.count .EYE_UNDERRUN_CNT else s
  if first then (s.raise .eyeUnderrun (BitVec.ofNat 32 y)).irq .eyepiece 4 else s

/-- DISPLAY_LINE_START (R523, R530, R531, R537): the next line begins and the one after it is fetched; `missing` is the first pixel of it that the fetch does not
deliver in time. -/
def execDisplayLineStart (missing : Option Nat) (s : State) : Out :=
  if !s.scanning then .next s
  else
    let y := if s.eye.fresh then 0 else (s.eye.line + 1) % max 1 (s.get .EYE_VTIM_hi)
    let s := { s with eye := { s.eye with line := y } }
    let s := if y = 0 then s.eyeFrameStart else s
    let va := s.get .EYE_VTIM_lo
    let s := if y = va then s.irq .eyepiece 0 else s
    let s := if y = s.get .EYE_LINE_MATCH then s.irq .eyepiece 1 else s
    .next (if y < va then s.driveLine missing else s.blankLine).fetchLine

/-- The run of equal signatures, and EYE.FREEZE (R536). -/
def State.checkFreeze (s : State) : State :=
  let e := s.eye
  let changed := e.lastSig != some e.crc
  let same := if e.bordered || e.underran then 0 else if changed then 1 else e.same + 1
  let frozen := e.frozen && !changed
  let count := s.get .EYE_FREEZE
  let fire := s.eyeLive && count != 0 && decide (count ≤ same) && !frozen
  let s := { s with eye := { s.eye with same := same, lastSig := some e.crc, frozen := frozen || fire } }
  if fire then s.raise .eyeFreeze e.crc else s

/-- COMMIT_POINT (R531, R535 to R537): the end of the last active line. -/
def execCommitPoint (s : State) : Out :=
  if s.scanning ∧ !s.eye.fresh ∧ !s.eye.pastCommit ∧ s.eye.line + 1 = s.get .EYE_VTIM_lo then
    let s := { s with eye := { s.eye with pastCommit := true } }.wr .EYE_SIG s.eye.crc
    .next (s.checkFreeze.irq .eyepiece 2)
  else .next s

end Sys2Proof.Machine
end

