-- ==== Sys2Proof/Machine/HostIf.lean ====
section
/-! DEFINITION. The host interface: the PCI Express link, doorbells, rings, completions, the status block and ring
interrupts (R346 to R389). -/

namespace Sys2Proof.Machine

/-! ### The link (R348 to R350, R386) -/

/-- Pending vectors that nothing masks any more are signalled (R386). -/
def State.flushMsix (s : State) : State :=
  s.each (List.range 64) fun s v =>
    if (s.rd .HST_MSIX_PBA (v / 32)).getLsbD (v % 32) && s.hst.cfg.msixEn && s.hst.dlUp && !s.hst.d3hot && !s.hst.cfg.msixMask
        && !(s.rd .HST_MSIX_TABLE v 3).getLsbD 0 then
      (s.clearPending v).msix v none
    else s

/-- Every descriptor in flight is abandoned without a completion, and what has been taken and has not begun goes (R349, log
42). -/
def State.abandon (s : State) : State :=
  { s with
    pho := { s.pho with cams := s.pho.cams.map fun (x : Camera) => { x with frame := x.frame.map fun f => { f with s1 := none } } },
    hst := { s.hst with gen := s.hst.gen + 1, reading := false, again := false,
                        rings := s.hst.rings.map fun (g : Ring) => { g with inflight := 0, waiting := [], bufs := [] } },
    waits := s.waits.filter fun w => w.ctx.isNone,
    lmp := { s.lmp with queue := s.lmp.queue.filter fun a => match a.src with
      | .maint _ => false
      | _ => true },
    tim := { s.tim with tx := [] } }

/-- Every ring is stopped by loss of the link (R349, R350). -/
def State.stopRings (s : State) : State :=
  { s with hst := { s.hst with rings := s.hst.rings.map fun (g : Ring) =>
      if g.st = .disabled then g else { g with st := .stopped, reason := 6, dirty := false, unsignalled := 0 } } }

/-- Code of a cause of HST.LINK_DOWN (R415). -/
def lossCode : LinkLoss → Nat
  | .dataLink => 0
  | .hotReset => 1
  | .d3hot => 2

/-- PCIE_LINK_LOSS (R349, R350): of no effect where the link is not up; a hot reset resets the PCIE domain (R481). -/
def execPcieLinkLoss (cause : LinkLoss) (s : State) : Out :=
  if !s.hst.dlUp || s.hst.d3hot && cause == LinkLoss.d3hot then .next s
  else
    let s := s.abandon.stopRings
    let s := if cause = .hotReset then s.resetXing 37 else s
    let s := { s with hst := { s.hst with l1 := false, dlUp := cause == LinkLoss.d3hot, d3hot := cause == LinkLoss.d3hot } }
    .next (if s.devIn [.standby, .printing, .held] then s.raise .hstLinkDown (BitVec.ofNat 32 (lossCode cause)) else s)

/-- The endpoint answers configuration requests with Configuration Request Retry Status until the first factory load has ended
(R424 step 6). -/
def State.configRetry (s : State) : Bool := !s.clk.pcieUp || (s.dev.dev == .firstLight && !s.dev.factoryLoaded && !s.hst.dlUp)

/-- PCIE_LINK_UP (R346, R350): configuration space and BAR0 are served again, or for the first time once step 5 of First Light has ended
(R424). -/
def execPcieLinkUp (cfg : PcieCfg) (s : State) : Out :=
  if s.configRetry then .next s
  else .next ({ s with hst := { s.hst with dlUp := true, d3hot := false, cfg := cfg } }.traffic).flushMsix

/-- L1_ENTRY (R348): ASPM L1 enabled, not PRINTING, nothing in flight, and the link idle for 10 µs. -/
def execL1Entry (s : State) : Out :=
  if s.hst.cfg.l1En ∧ s.hst.dlUp ∧ !s.hst.d3hot ∧ !s.printing ∧ !s.hst.reading ∧ s.hst.rings.all (fun g => g.inflight == 0)
      ∧ s.elapsed s.hst.busyAt 10000 then
    .next { s with hst := { s.hst with l1 := true } }
  else .next s

/-! ### Doorbells (R365 to R367) -/

/-- Some ring is RUNNING. -/
def State.anyRunning (s : State) : Bool := s.hst.rings.any fun g => g.st == .running

/-- A read of the doorbell block is issued, or abandoned where it lies outside the windows (R353, R366). -/
def State.readDoorbells (s : State) : State :=
  let s := { s.traffic with hst := { s.traffic.hst with pollAt := s.clock } }
  if s.windowOk false s.dbBase 512 then
    { s with hst := { s.hst with reading := true } }.emit (.hostRead s.dbBase 512)
  else s.windowFault 0xFF s.dbBase

/-- A write at an offset of BAR2: a kick at 0, and nothing at any other (R351, R366, R595). -/
def State.writeBar2 (s : State) (off : Nat) : State :=
  s.bar0 fun s =>
    if off ≠ 0 then s
    else
      let s := s.count .HST_KICK_CNT
      if !s.anyRunning then s
      else if s.hst.reading then { s with hst := { s.hst with again := true } }
      else s.readDoorbells

/-- What a read of BAR2 answers at any offset: HST_KICK is write-only, and the others read 0 (R351, R593). -/
def readBar2 (_ : Nat) : Word := 0

/-- KICK (R366, R594, R595): a write of HST_KICK. -/
def execKick (s : State) : Out := .next (s.writeBar2 0)

/-- DOORBELL_POLL (R366). -/
def execDoorbellPoll (s : State) : Out :=
  let us := s.get .HST_CTRL_poll_us
  if us ≠ 0 ∧ s.anyRunning ∧ !s.hst.reading ∧ s.elapsed s.hst.pollAt (us * 1000) then .next s.readDoorbells else .next s

/-- DOORBELL_READ (R356, R366, R367): the block returns, or `none` where the read fails; a kick that came meanwhile makes one
further read. -/
def execDoorbellRead (block : Option Bytes) (s : State) : Out :=
  if !s.hst.reading then .next s
  else
    let s := { s.traffic with hst := { s.traffic.hst with reading := false } }
    let s := match block with
      | some b => if b.length = 512 then (s.doorbells b).ackConsumed else s
      | none => s
    if s.hst.again then
      let s := { s with hst := { s.hst with again := false } }
      .next (if s.anyRunning then s.readDoorbells else s)
    else .next s

/-! ### Rings (R359 to R361) -/

/-- Reason why a ring cannot be enabled under a configuration, 0 where it can (R359). -/
def State.enableReason (s : State) (r : Nat) (v : Word) : Nat :=
  let kind := Fld.HST_RING_CFG_kind.of v
  let ver := Fld.HST_RING_CFG_ver.of v
  let n := Fld.HST_RING_CFG_size_log2.of v
  let c := Fld.HST_RING_CFG_cring.of v
  let hosted := kind == 0 || kind == 2
  if n < 4 ∨ 16 < n ∨ (hosted && (ver == 0 || ver == 3)) then 5
  else if !s.windowOk (!hosted) (s.ringBase r) (2 ^ n * (if kind = 1 then 16 else 32)) then 2
  else if !s.windowOk false s.dbBase 512 || !s.windowOk true s.sbBase 512 then 4
  else if hosted && !(s.running c && s.ringKind c == 1) then 3
  else 0

/-- A ring becomes RUNNING; completions held for it stay, and are written from entry 0 (R359, R363). A FAULT record written to it before
cannot be passed in it any more (R395; log 144). -/
def State.startRing (s : State) (r : Nat) : State :=
  let s := { s with ltn := { s.ltn with classes := s.ltn.classes.map fun (c : ClassState) =>
    { c with newest := c.newest.filter fun q => q.1 != r } } }
  s.updRing r fun g =>
    { g with st := .running, reason := 0, dev := 0, acc := 0, kick := 0, phase := true, written := 0, bufs := [],
             dirty := true, badKick := none }

/-- A COMPLETE ring that an enabled ring names (R360). -/
def State.namedRing (s : State) (r : Nat) : Bool :=
  s.ringKind r == 1 && (List.range 64).any fun q =>
    q != r && s.on .HST_RING_CFG_en q && (s.ringKind q == 0 || s.ringKind q == 2) && s.cring q == r

/-- A ring becomes DISABLED (R360). What it has written and not signalled is signalled still (R387). -/
def State.haltRing (s : State) (r : Nat) : State :=
  (s.updRing r fun g => { g with st := .disabled, reason := 0, bufs := [], dirty := !(g.st == .stopped && g.reason == 6) }).abortNotBegun r

/-- A write of HST_RING_CFG[r] (R359 to R361): of a ring that is not DISABLED only en can be written, and only cleared. -/
def State.writeRingCfg (s : State) (r : Nat) (v : Word) : State :=
  let off := Reg.HST_RING_CFG.addr r 0 0
  let old := s.rd .HST_RING_CFG r
  let m := Reg.HST_RING_CFG.maskOf [.rw]
  let busy := (s.ring r).st != .disabled
  s.gate off v [(2, busy && (v.msb || ((old ^^^ v) &&& m &&& 0x7FFFFFFF) != 0)), (2, busy && !v.msb && s.namedRing r)] fun s =>
    if v.msb then
      let why := s.enableReason r v
      if why ≠ 0 then (s.updRing r fun g => { g with reason := why }).refuse off 3
      else (s.store .HST_RING_CFG v r).startRing r
    else
      let s := s.store .HST_RING_CFG v r
      if busy then s.haltRing r else s

/-- RING_ENABLE (R359). -/
def execRingEnable (r : Nat) (v : Word) (s : State) : Out :=
  if r < 64 ∧ v.msb then .next (s.writeRingCfg r v) else .next s

/-- RING_DISABLE (R360). -/
def execRingDisable (r : Nat) (v : Word) (s : State) : Out :=
  if r < 64 ∧ !v.msb then .next (s.writeRingCfg r v) else .next s

/-! ### Descriptors of the host interface itself -/

/-- NOP (R372, R378). -/
def execNop (ring : Nat) (d : Bytes) (s : State) : Out :=
  .next (s.descriptor ring d 0 (fun _ => true) fun s c => s.complete c .ok)

/-- CHECKPOINT (R375, R377): a checkpoint for a line chosen under R33 is written into the host's buffer. -/
def execCheckpoint (ring : Nat) (d : Bytes) (s : State) : Out :=
  .next (s.descriptor ring d 7 (fun _ => true) fun s c =>
    if !s.drm.ready then s.complete c .state
    else
      let n := s.twn.ckpt.number + 1
      let b := s.checkpoint s.epochLine n
      let bytes := CkptBody.bytes b (s.get .STO_CTRL_mirror_effort)
      let a := leAt d 8 8
      if leAt d 16 4 < bytes.length then s.complete c .tooSmall
      else s.withWrite c a bytes.length fun s =>
        let s := { s with twn := { s.twn with ckpt := { s.twn.ckpt with number := n } } }
        let s := s.recordVerify (CkptBody.mismatches b (s.get .STO_CTRL_mirror_effort))
        (s.hostWrite a bytes true).reportLine (some c) b.line)

/-! ### Completions, status block, interrupts (R355, R363, R369, R380, R387) -/

/-- The 16 bytes of a completion entry (R380, R381). -/
def Completion.bytes (x : Completion) (phase : Bool) : Bytes :=
  withCrc ([BitVec.ofNat 8 x.ctx.opcode, BitVec.ofNat 8 x.status] ++ toLe 2 x.ctx.tag ++ toLe 2 x.ctx.index
    ++ [BitVec.ofNat 8 (x.ctx.ring + (if phase then 128 else 0))] ++ toLe 7 x.result.toNat)

/-- COMPLETION_POST (R353, R355, R363): the first completion that waits for a COMPLETE ring is written, once the ring is
RUNNING and has room. -/
def execCompletionPost (cring : Nat) (s : State) : Out :=
  match (s.ring cring).waiting with
  | [] => .next s
  | x :: t =>
    if !s.running cring || s.ringKind cring != 1 || s.ringFull cring then .next s
    else
      let a := s.ringBase cring + 16 * (s.ring cring).dev
      if !s.windowOk true a 16 then .next (s.stopRing cring a)
      else
        let s := s.updRing cring fun g => { g with waiting := t }
        let s := s.updRing x.ctx.ring fun g => { g with inflight := g.inflight - 1 }
        .next (s.pushEntry cring (x.bytes (s.ring cring).phase) x.ctx.irq)

/-- STATUS_BLOCK_WRITE (R369): an entry of which a field has changed is written. -/
def execStatusBlockWrite (r : Nat) (s : State) : Out :=
  if r < 64 ∧ (s.ring r).dirty then .next (s.writeStatus r) else .next s

/-- A write of HST_RING_IRQ[r] has been stored: the ring's vector is signalled where its count condition holds now (R387). -/
def State.ringIrqSet (s : State) (r : Nat) : State :=
  if s.ringSignals r && s.countMet r then s.signalRing r else s

/-- RING_IRQ_TIMER (R387). -/
def execRingIrqTimer (r : Nat) (s : State) : Out :=
  let us := s.get .HST_RING_IRQ_time_us r
  if r < 64 ∧ s.ringSignals r ∧ us ≠ 0 ∧ (s.ring r).unsignalled ≠ 0 ∧ s.elapsed (s.ring r).unsigAt (us * 1000) then
    .next (s.signalRing r)
  else .next s

end Sys2Proof.Machine
end

