-- ==== Sys2Proof/Machine/Line.lean ====
section
/-! DEFINITION. Lines: the beginning, packing and sending of each line of a port, priming, and overspeed (R19 to R41,
R122 to R130, R158, R160, R163, R165, R168 to R171, R244, R256, R331). -/

namespace Sys2Proof.Machine

/-! ### Overspeed slots (R169, R170) -/

/-- Line indices between one fire and the next (R200). -/
def State.lineStep (s : State) : Nat := if s.lpi600 then 2 else 1

/-- ρ: T_min over the predicted line period at a fire time (R170, log 33). -/
def State.overspeedRatio (s : State) (p : Nat) (f : Time) : Rat :=
  let e := s.mer.est
  let v := e.v + e.a * ((sdiff f e.t0 : Int) : Rat)
  (s.tMin p : Rat) * v / (256 * s.lineStep : Nat)

/-- The last line of a port and its fire time, as predicted for the lines begun and not yet sent (R169). -/
def State.lastFire (s : State) (p : Nat) : Option (Line × Time) :=
  let tm := BitVec.ofNat 32 (s.tMin p)
  (s.pipe p).begun.foldl (fun acc (b : Begun) =>
    match acc, s.fireTimeOf p b.line with
    | some (_, t), some f => some (b.line, if b.ovs ∨ sdiff f (t + tm) < 0 then t + tm else f)
    | some (_, t), none => some (b.line, if b.ovs then t + tm else t)
    | none, some f => some (b.line, f)
    | none, none => none) (s.pipe p).lastSent

/-- The line nearest a fire time, the lower on a tie, from a line whose fire time lies below it (R169); `fuel` bounds
the search. -/
def State.nearestLine (s : State) (p : Nat) (t : Time) : Nat → Line → Line
  | 0, k => k
  | fuel + 1, k =>
    match s.fireTimeOf p k, s.fireTimeOf p (s.nextAfter k) with
    | some f, some f' =>
      if (sdiff f' t).natAbs < (sdiff f t).natAbs then s.nearestLine p t fuel (s.nextAfter k) else k
    | _, _ => k

/-- The line that a port begins next by its own prediction, whether it is an overspeed slot, and how many lines it skips
(R27, R169, R199). -/
def State.ownNext (s : State) (p : Nat) : Line × Bool × Nat :=
  let q := s.pipe p
  let n := match q.begun.getLast? with
    | some b => s.nextAfter b.line
    | none => s.startLine p
  match s.lastFire p, s.fireTimeOf p n with
  | some (_, t), some f =>
    let due := t + BitVec.ofNat 32 (s.tMin p)
    if sdiff f due < 0 then
      let k := s.nearestLine p due ((sdiff due f).toNat + 1) n
      (k, true, (k - n).toNat / s.lineStep)
    else (n, false, 0)
  | _, _ => (n, false, 0)

/-- An overspeed slot goes out: it is counted, and its episode begins or rises to class U (R170). The 10 ms of MONO that end the
episode run from the slot's send decision (DESIGN CHOICE, log 135). -/
def State.slotSent (s : State) (p : Nat) (rho : Rat) : State :=
  let s := s.count .WCK_OVS_FIRE_CNT p
  let w := s.wick p
  let high := decide ((11 : Rat) / 10 < rho)
  let detail := BitVec.ofInt 32 (rho * 65536).floor
  let s := if !w.ovs then s.raise .merOverspeed detail p 0xFF (some (if high then 2 else 1))
    else if high && !w.ovsU then s.raise .merOverspeed detail p 0xFF (some 2)
    else s
  s.updWick p fun w => { w with ovs := true, ovsU := w.ovsU || high, ovsAt := s.clock }

/-- OVERSPEED_EPISODE_END (R170): 10 ms of MONO without a slot. -/
def execOverspeedEpisodeEnd (p : Nat) (s : State) : Out :=
  let w := s.wick p
  if w.ovs && s.elapsed w.ovsAt 10000000 then
    .next (s.updWick p fun w => { w with ovs := false, ovsU := false })
  else .next s

/-! ### Beginning a line (R27) -/

/-- The earliest of the lines that the pipelines named have begun. -/
def State.lowestOf (s : State) (ports : List Nat) : Line :=
  match ports.map s.highestBegun with
  | [] => s.highestAll
  | h :: t => t.foldl (fun a b => if lineLe a b then a else b) h

/-- SPIT and STRIP activities that have printed all their lines end (R439, R440). -/
def State.settleActs (s : State) : State :=
  s.each s.lmp.running fun s a =>
    let m := s.lowestOf ((List.range 24).filter fun p => a.target.testBit (barOf p))
    if a.line.isNone then s
    else if a.code = 9 then
      let used := s.gapsBetween (byteAt a.param 4) a.base (m + 1)
      if !lineLe a.base m then s
      else if a.left ≤ used then s.actEnd 9 a.target .ok
      else s.updAct 9 a.target fun a => { a with base := m + 1, left := a.left - used }
    else if a.code = 10 then
      match (s.group (byteAt a.param 2)).all.find? fun q => q.handle == a.left with
      | some q =>
        if lineLe a.base (m + 1) || (q.fin.map fun e => lineLe e m).getD false then s.actEnd 10 a.target .ok else s
      | none => s.actEnd 10 a.target .ok
    else s

/-- The primary reaches line `l` of a port: its changes whose decide margin ends there without a yes vote are aborted
(R328). -/
def State.abortDue (s : State) (p : Nat) (l : Line) : State :=
  let m := BitVec.ofNat 40 (s.get .TWN_TIMING_decide_margin)
  s.each (s.twn.proposals.filter fun (q : Proposal) => !untimed q.body && (s.testedPorts q).contains p &&
    match q.line with
    | some e => lineLe (e - m) l
    | none => false) fun s q => s.decideChange q false

/-- A partner begins line `l` of a port while it holds a change for it without a DECIDE (R329). -/
def State.undecided (s : State) (p : Nat) (l : Line) : Bool :=
  s.twn.held.any fun (q : Proposal) => !untimed q.body && (s.changeAffects q.body).contains p &&
    match q.line with
    | some e => lineLe e l
    | none => false

/-- The primary numbers and announces its lines (R40, R331). -/
def State.announces (s : State) (l : Line) : Bool :=
  s.twn.role == .primary && decide (2 ≤ s.twinMode) && (s.paired || s.twn.joinLine.isSome)
    && ((s.twn.joinLine.map fun j => lineLe j l).getD true)

/-- The announcement of a port that a module holds and has not passed: of a line not yet begun (R171, R331, R339). -/
def State.heldAnn (s : State) (p : Nat) : Option AnnEntry :=
  s.twn.anns.find? fun a => a.port == p && lineLe (s.link p).lineNext a.seq

/-- An announcement is taken up: its line is begun, or is decided unbegun (R171). -/
def State.dropAnn (s : State) (a : AnnEntry) : State := { s with twn := { s.twn with anns := s.twn.anns.erase a } }

/-- The partner has acknowledged GIVE on no twin port (R337). -/
def State.giveOpen (s : State) : Bool :=
  s.openTwin 0x1A && (List.range 2).all fun t => !s.twinActive t || s.openOn t 0x1A

/-- A HELD primary in MIRROR or DUAL that still announces (R337). -/
def State.heldAnnounces (s : State) : Bool :=
  s.dev.dev == .held && s.agreeing && s.giveOpen

/-- A line is begun: it counts as begun for every rule, its codes are made, the primary announces it (R27, R31, R73,
R103, R331). -/
def State.beginLine (s : State) (p : Nat) (l : Line) (ovs : Bool) (skipped : Nat) (seq : Option (BitVec 32)) : State :=
  let s := s.abortDue p l
  let s := s.updPipe p fun q => { q with highest := some (match q.highest with
    | some h => lineMax h l
    | none => l) }
  let s := s.settleGroups
  let s := s.count .WCK_OVS_SKIP_CNT p 0 0 skipped
  let seq := if s.announces l then some ((s.link p).lineNext + BitVec.ofNat 32 (s.pipe p).begun.length) else seq
  let made : Screened := if s.printing then s.screen p l (s.pipe p).dec else ⟨[], 0, [], (s.pipe p).dec⟩
  let s := s.screened p made
  let rho := match s.fireTimeOf p l with
    | some f => s.overspeedRatio p f
    | none => 0
  let s := s.updPipe p fun q =>
    { q with begun := q.begun ++ [⟨l, ovs, seq, s.on .TRN_CTRL_force_zero p, rho, made.codes, none⟩] }
  let s := s.settleActs
  if s.announces l then s.sendTwin (.announce [⟨p, ovs, seq.getD 0, l⟩]) else s

/-- The stop line lies at or below line `l` (R421). -/
def State.stopped (s : State) (l : Line) : Bool := (s.dev.stopLine.map fun e => lineLe e l).getD false

/-- LINE_BEGIN (R27): at most two lines of a port are begun and not yet sent; a standby or secondary begins the line of
a sequence number only with its announcement (R171, R331); one that has taken over first begins those announced (R339). -/
def execLineBegin (p : Nat) (s : State) : Out :=
  let q := s.pipe p
  if 24 ≤ p ∨ !q.running ∨ 2 ≤ q.begun.length ∨ !(s.printing || s.heldAnnounces) then .next s
  else
    match s.heldAnn p with
    | none =>
      if s.announced then .next s
      else
        let (l, ovs, skipped) := s.ownNext p
        if s.stopped l then .next s else .next (s.beginLine p l ovs skipped none)
    | some a =>
      if s.stopped a.line then .next s
      else if s.undecided p a.line then .next (s.disagree 4)
      else
        let s := s.dropAnn a
        let n := match q.begun.getLast? with
          | some b => s.nextAfter b.line
          | none => s.startLine p
        let skipped := if a.ovs && lineLe n a.line then (a.line - n).toNat / s.lineStep else 0
        .next (s.beginLine p a.line a.ovs skipped (some a.seq))

/-! ### Packing (R126 to R129) -/

/-- LINE_PACKED (R28): the oldest line begun and not packed is packed; none is while the pipeline primes (R124). -/
def execLinePacked (p : Nat) (s : State) : Out :=
  let q := s.pipe p
  if q.priming ∨ 24 ≤ p then .next s
  else
    match q.begun.findIdx? fun b => b.packed.isNone with
    | none => .next s
    | some i =>
      match q.begun[i]? with
      | none => .next s
      | some b =>
        let mem := remember q.delay b.line b.codes
        let (codes, subs) := s.rowDelayed p mem b.line
        let codes := if b.zero then codes.map fun _ => 0 else codes
        let pay := packLine (s.link p).proto (s.rd .TRN_G1MAP p).toNat codes
        let b' := { b with packed := some (pay, if b.zero then 0 else subs) }
        .next (s.updPipe p fun q => { q with delay := mem, begun := upd i (fun _ => b') q.begun })

/-- PRIMING_DONE (R124): the Dmax raster lines below the first line are in the delay memory, and lines are packed from now on. -/
def execPrimingDone (p : Nat) (s : State) : Out :=
  if 24 ≤ p ∨ !(s.pipe p).priming then .next s else .next (s.updPipe p fun q => { q with priming := false })

/-! ### The send decision (R23) -/

/-- Bytes 8 to 27 of a LINE header (R244). -/
def lineMid (l : Line) (f : Time) (rdu bar blanks bands port : Nat) : Bytes :=
  toLe 4 (l.toNat % 2 ^ 32) ++ toLe 4 f.toNat ++ toLe 2 rdu ++ [BitVec.ofNat 8 bar, BitVec.ofNat 8 blanks]
    ++ toLe 3 bands ++ [BitVec.ofNat 8 port]

/-- The results of temperature reports that apply at a line are taken over (R165). -/
def State.reachHeads (s : State) (p : Nat) (l : Line) : State :=
  s.updWick p fun w => { w with heads := w.heads.map (Head.reach l) }

/-- A LINE link frame leaves a port, blank where `payload` is none (R24, R25, R163, R244). -/
def State.sendLine (s : State) (p : Nat) (l : Line) (f : Time) (rdu : Nat) (seq : BitVec 32) (ovs : Bool)
    (payload : Option Bytes) : State :=
  let w := s.wick p
  let heads := w.heads.take (s.heads p).heads
  let blanks := (heads.zipIdx.map fun (h, j) => h.blank.toNat * 2 ^ j).sum
  let bands := (heads.zipIdx.map fun (h, j) => h.useBand * 8 ^ j).sum
  let dual := s.paired && s.twinMode == 3
  let flags := payload.isNone.toNat + 2 * w.bank.toNat + 4 * ovs.toNat + 8 * dual.toNat
  let raw := rawFrame 1 flags (lineMid l f rdu (barOf p) blanks bands p) (payload.getD [])
  let s := (s.wr .GHL_SEQ seq p).updLink p fun k => { k with lineNext := seq + 1, sentActive := true, lastSeq := seq }
  let s := s.updWick p fun w => { w with named := w.bank, bankFire := upd w.bank.toNat (fun _ => some (f, rdu)) w.bankFire }
  let s := s.updPipe p fun q => { q with lastSent := some (l, f), sent := some l, back := false }
  s.sendFrame p (finishFrame raw seq)

/-- A line of the port is passed without being sent (R35); the pipeline's work on it stays in its delay memory (R125). The line and
its fire time are the last ones that R169 predicts from (DESIGN CHOICE, log 148). -/
def State.passLine (s : State) (p : Nat) (b : Option Begun) (l : Line) (f : Time) : State :=
  s.updPipe p fun q =>
    let mem := match b with
      | some b => if b.packed.isNone then remember q.delay b.line b.codes else q.delay
      | none => q.delay
    { q with begun := q.begun.drop 1, opens := s.clock :: q.opens.take 1, passed := some l, lastSent := some (l, f),
             delay := mem }

/-- The device leaves PRINTING once every port has passed the send decision of the line below the stop line (R421). -/
def State.settleStop (s : State) : State :=
  match s.dev.stopLine with
  | some e =>
    if s.printing && (List.range 24).all fun p => lineLe e (s.startLine p) then s.enterStandby else s
  | none => s

/-- A twin's record of a send decision for CHECK FIRE, on a port whose time epoch gives the fire time in HDM time (R326). -/
def State.noteFire (s : State) (p : Nat) (seq : BitVec 32) (f : Time) (rdu : Nat) : State :=
  let note : Nat × BitVec 32 × Time × Nat := (p, seq, f + (s.link p).epoch, rdu)
  if s.pairedAgree && (s.link p).timed then { s with twn := { s.twn with fires := (note :: s.twn.fires).take 384 } } else s

/-- The send decision of line `l`, with sequence number `seq` and fire time `f`: the line is skipped, passed, or sent (R23, R28, R35,
R129, R160, R405). A line passed takes its number where the numbers are agreed, or where a later line begun counts on it (R40,
R256). -/
def State.decideLine (s : State) (p : Nat) (b : Option Begun) (l : Line) (seq : BitVec 32) (f : Time) (ovs : Bool) : State :=
  let rdu := rowDelayUnit s.mer.est f
  let agree := s.announced || s.announces l
  let counted := agree || ((s.pipe p).begun.drop 1).any fun c => c.seq.isSome
  let s := if agree then s.noteFire p seq f rdu else s
  let s := (s.reachBank p l).reachHeads p l
  if !s.lineActive p then
    let s := s.count .GHL_SKIP_CNT p
    let s := if counted then s.updLink p fun k => { k with lineNext := seq + 1 } else s
    s.passLine p b l f
  else if !s.sendsLines p || (s.dev.dev == .held && s.agreeing) then
    (s.updLink p fun k => { k with lineNext := seq + 1 }).passLine p b l f
  else
    let late := s.printing && (b.bind (·.packed)).isNone
    let ready := s.wickReady p
    let send := s.printing && !late && ready
    let s := if late then
        let zeros := List.replicate (s.nozzles p) (0 : BitVec 3)
        ((s.count .TRN_LATE_CNT p).raise .trnLate (l.setWidth 32) p).updPipe p fun q =>
          { q with delay := remember q.delay l zeros }
      else s
    let s := if ready then s else s.count .WCK_NOTREADY_CNT p
    let pay := b.bind (·.packed)
    let s := if send then s.count .TRN_ROWSUB_CNT p 0 0 ((pay.map (·.2)).getD 0) else s
    let s := if ovs then s.slotSent p ((b.map (·.rho)).getD (s.overspeedRatio p f)) else s
    let s := s.sendLine p l f rdu seq ovs (if send then pay.map (·.1) else none)
    s.updPipe p fun q => { q with begun := q.begun.drop 1, opens := s.clock :: q.opens.take 1, passed := some l }

/-- LINE link frames still leave: PRINTING, or HELD up to one lookahead behind the fatal raise in OFF and COLD (R405 step 4), or passed
over by a HELD primary that announces. -/
def State.decides (s : State) : Bool :=
  let stopping := match s.ltn.fatalAt with
    | some t => decide (s.clock ≤ t + s.lookahead)
    | none => false
  s.printing || (s.dev.dev == .held && stopping && s.ltn.fatalPrinting && decide (s.twinMode < 2)) || s.heldAnnounces

/-- The web has moved back and has not again passed the fire position of the highest line that the port has sent (R22). -/
def State.movedBack (s : State) (p : Nat) : Bool :=
  (s.pipe p).back && match (s.pipe p).sent with
    | some l => lineLt s.pos (s.firePos p l)
    | none => false

/-- SEND_DECISION (R23): the predicted fire time of the port's next line lies within the lookahead; none falls while the web that
has moved back has not passed the highest line sent again (R22). The next line is the oldest begun, else the oldest announced (R171),
else the port's own. An announced line keeps its announced slot flag, whatever its fire time (R38, R171; DESIGN CHOICE, log 149); no
line fires less than T_min behind the last (R168). -/
def execSendDecision (p : Nat) (s : State) : Out :=
  let q := s.pipe p
  if 24 ≤ p ∨ !q.running ∨ !s.decides ∨ s.movedBack p then .next s
  else
    let b := q.begun.head?
    let ann := if b.isNone then s.heldAnn p else none
    let l := ((b.map (·.line)).orElse fun _ => ann.map (·.line)).getD (s.startLine p)
    let agreed := ((b.bind (·.seq)).orElse fun _ => ann.map (·.seq))
    let flag := ((b.map (·.ovs)).orElse fun _ => ann.map (·.ovs)).getD false
    match s.fireTimeOf p l with
    | none => .next s
    | some f =>
      let due := q.lastSent.map fun k => k.2 + BitVec.ofNat 32 (s.tMin p)
      let slot := flag || (match due with
        | some d => decide (sdiff f d < 0)
        | none => false)
      let t := if slot then due.getD f else f
      let ovs := if agreed.isSome then flag else slot
      if s.stopped l ∨ (s.lookahead : Int) < sdiff t s.mono then .next s
      else if s.announced && agreed.isNone && b.isNone then
        let s := s.count .TWN_ANN_MISS_CNT
        .next (((s.updLink p fun k => { k with lineNext := k.lineNext + 1 }).passLine p none l t).settleStop)
      else
        let s := match ann with
          | some a => s.dropAnn a
          | none => s
        .next ((s.decideLine p b l (agreed.getD (s.link p).lineNext) t ovs).settleStop)

end Sys2Proof.Machine
end

