-- ==== Sys2Proof/Machine/Training.lean ====
section
/-! DEFINITION. The training steps of the DRAM controller (R462 to R466). -/

namespace Sys2Proof.Machine

/-- What a step carries to the memory beside its rank (R462): the mode register and its data, the CA pattern, the address, or the pattern with its
margin, 0 for COMMIT. -/
def State.stepArg (s : State) (c op : Nat) : Nat :=
  match op with
  | 2 => s.get .DRM_MR_addr c * 256 + s.get .DRM_MR_data c
  | 3 => s.get .DRM_MR_addr c
  | 4 => (s.rd .DRM_PAT_USER c 0).toNat % 2 ^ 14
  | 6 | 7 => (s.rd .DRM_TRAIN_ADDR c).toNat
  | 10 => (s.rd .DRM_PAT_CTRL c).toNat
  | 11 => (s.rd .DRM_PAT_CTRL c).toNat % 2 ^ 24
  | _ => 0

/-- A write of DRM_TRAIN_CMD[c] (R462, R463): with go the step starts, and the DRM block is BUSY until it ends. -/
def State.writeTrain (s : State) (c : Nat) (v : Word) : State :=
  let op := Fld.DRM_TRAIN_CMD_op.of v
  let rank := Fld.DRM_TRAIN_CMD_rank.of v
  s.gate (Reg.DRM_TRAIN_CMD.addr c 0 0) v
    [(1, s.drmBusy), (2, s.dev.dev != .firstLight || (s.chan c).trained), (3, op == 0 || decide (11 < op) || rank == 3)] fun s =>
    let s := s.store .DRM_TRAIN_CMD v c
    if (Fld.DRM_TRAIN_CMD_go.of v) = 0 then s
    else ((s.set .DRM_TRAIN_CMD_status 3 c).updChan c fun x => { x with running := some (op, rank, s.clock) }).emit
      (.dramCommand c op rank (s.stepArg c op))

/-- A training step that a row of the command table names (R462): of effect where the write starts that step. -/
def State.trainStep (s : State) (c op : Nat) (v : Word) : State :=
  if c < 4 ∧ Fld.DRM_TRAIN_CMD_op.of v = op ∧ Fld.DRM_TRAIN_CMD_go.of v = 1 then s.writeTrain c v else s

/-- TRAIN_INIT (R462). -/
def execTrainInit (c : Nat) (v : Word) (s : State) : Out := .next (s.trainStep c 1 v)

/-- TRAIN_MRW (R462). -/
def execTrainMrw (c : Nat) (v : Word) (s : State) : Out := .next (s.trainStep c 2 v)

/-- TRAIN_MRR (R462). -/
def execTrainMrr (c : Nat) (v : Word) (s : State) : Out := .next (s.trainStep c 3 v)

/-- TRAIN_CBT (R462). -/
def execTrainCbt (c : Nat) (v : Word) (s : State) : Out := .next (s.trainStep c 4 v)

/-- TRAIN_WCK_LEVEL (R462). -/
def execTrainWckLevel (c : Nat) (v : Word) (s : State) : Out := .next (s.trainStep c 5 v)

/-- TRAIN_WRITE (R462). -/
def execTrainWrite (c : Nat) (v : Word) (s : State) : Out := .next (s.trainStep c 6 v)

/-- TRAIN_READ (R462). -/
def execTrainRead (c : Nat) (v : Word) (s : State) : Out := .next (s.trainStep c 7 v)

/-- TRAIN_CLEAR (R462). -/
def execTrainClear (c : Nat) (v : Word) (s : State) : Out := .next (s.trainStep c 8 v)

/-- TRAIN_ZQ (R462). -/
def execTrainZq (c : Nat) (v : Word) (s : State) : Out := .next (s.trainStep c 9 v)

/-- TRAIN_VERIFY (R462). -/
def execTrainVerify (c : Nat) (v : Word) (s : State) : Out := .next (s.trainStep c 10 v)

/-- TRAIN_COMMIT (R464). -/
def execTrainCommit (c : Nat) (v : Word) (s : State) : Out := .next (s.trainStep c 11 v)

/-- The ranks that a rank field names. -/
def ranksOf (rank : Nat) : List Nat := if rank = 2 then [0, 1] else [rank]

/-- Mode registers after MRW (R462). -/
def State.writeModes (s : State) (c rank : Nat) : State :=
  let a := s.get .DRM_MR_addr c
  let v := BitVec.ofNat 8 (s.get .DRM_MR_data c)
  s.updChan c fun x => { x with modes := (ranksOf rank).foldl (fun (m : SMap (BitVec 8)) r => m.ins (128 * r + a) v) x.modes }

/-- Byte `j` of burst `i` of the generator's pattern on a channel (R462): the user pattern as written, walking ones as a single 1 that moves up
one DQ with each beat of 16 bits (DESIGN CHOICE, log 159), and the PRBS of the kind and seed, free. -/
def State.patternByte (s : State) (c i j : Nat) : BitVec 8 :=
  match s.get .DRM_PAT_CTRL_kind c with
  | 3 => BitVec.ofNat 8 ((s.rd .DRM_PAT_USER c (j / 4)).toNat / 2 ^ (8 * (j % 4)))
  | 2 => BitVec.ofNat 8 (2 ^ (j / 2 % 16) / 2 ^ (8 * (j % 2)))
  | k => Config.prbsByte k (s.get .DRM_PAT_CTRL_seed c) i j

/-- The 64 bytes of burst i of the pattern (R462). -/
def State.patternBytes (s : State) (c i : Nat) : Bytes := (List.range 64).map (s.patternByte c i)

/-- Rank and burst of each transfer of WRITE or READ (R462). -/
def State.trainSpots (s : State) (c rank : Nat) : List (Nat × Nat) :=
  (ranksOf rank).flatMap fun r => (List.range (s.get .DRM_TRAIN_ADDR_count c + 1)).map fun i => (r, i)

/-- Device address of a burst of the training address on a rank (R443, R462). -/
def State.trainAt (s : State) (c : Nat) (x : Nat × Nat) : Nat :=
  dAddress c (s.get .DRM_TRAIN_ADDR_addr c * 64 % 2 ^ 32 + 64 * x.2 + x.1 * 2 ^ 32)

/-- WRITE: count bursts of the pattern at the training address (R462). -/
def State.writePattern (s : State) (c rank : Nat) : State :=
  let put (m : Memory) (x : Nat × Nat) : Memory := Memory.writes Memory.dramFill m (s.trainAt c x) (s.patternBytes c x.2)
  { s with drm := { s.drm with mem := (s.trainSpots c rank).foldl put s.drm.mem } }

/-- Bits of DQ `k` in which two bursts differ; byte 2n carries DQ 0 to 7 of beat n and byte 2n + 1 the others (PRESUMED, log 159). -/
def dqErrors (k : Nat) (a b : Bytes) : Nat :=
  ((List.range 32).filter fun n => (byteAt a (2 * n + k / 8) ^^^ byteAt b (2 * n + k / 8)).testBit (k % 8)).length

/-- The mismatching bits of DQ `k` that a READ of the generator's pattern finds in what memory holds; the memory's own read-training pattern has
none there (R462). -/
def State.storedErrors (s : State) (c rank k : Nat) : Nat :=
  if Fld.DRM_TRAIN_CMD_pat_src.of (s.rd .DRM_TRAIN_CMD c) = 1 then 0
  else ((s.trainSpots c rank).map fun x =>
    dqErrors k (Memory.reads Memory.dramFill s.drm.mem (s.trainAt c x) 64) (s.patternBytes c x.2)).sum

/-- Device address of a burst of a row of a bank, 16 to a rank (R443). -/
def rowBurst (c bank row i : Nat) : Nat :=
  dAddress c ((bank / 16) * 2 ^ 32 + row * 2 ^ 15 + ((bank % 16) ^^^ (row % 16)) * 2 ^ 11 + 64 * i)

/-- VERIFY and COMMIT leave the PRBS in one row of every bank of both ranks (R462). -/
def State.verifyRows (s : State) (c : Nat) : State :=
  let seed := s.get .DRM_PAT_CTRL_seed c
  let spots := (List.range 32).flatMap fun b => (List.range 32).map fun i => (b, i)
  let put (m : Memory) (x : Nat × Nat) : Memory :=
    Memory.writes Memory.dramFill m (rowBurst c x.1 (Config.verifyRow c).toNat x.2) ((List.range 64).map (Config.prbsByte 0 seed x.2))
  { s with drm := { s.drm with mem := spots.foldl put s.drm.mem } }

/-- MRR: a mode register that MRW has written since INIT reads as written, that of rank 0 where both are selected; any other gives what the
memory answers (R462; DEDUCED, log 159). -/
def State.modeRead (s : State) (c rank : Nat) (answer : Word) : Word :=
  match (s.chan c).modes.find? (128 * (rank % 2) + s.get .DRM_MR_addr c) with
  | some v => v.setWidth 32
  | none => answer

/-- READ: mismatching bits added to the error counts of each DQ: those of what memory holds and those that the transfer adds (R462). -/
def State.addErrors (s : State) (c rank : Nat) (errors : List Nat) : State :=
  let n (k : Nat) : Nat := s.storedErrors c rank k + errors.getD k 0
  s.each (List.range 8) fun s k =>
    let w := s.rd .DRM_ERR c k
    let lo := min 65535 (field w 15 0 + n (2 * k))
    let hi := min 65535 (field w 31 16 + n (2 * k + 1))
    s.wr .DRM_ERR (BitVec.ofNat 32 (lo + 65536 * hi)) c k

/-- What a step that the memory answers leaves (R462, R464). -/
def State.stepResult (s : State) (c op rank : Nat) (result : Word) (errors : List Nat) : State :=
  match op with
  | 1 => s.updChan c fun x => { x with modes := [] }
  | 2 => s.writeModes c rank
  | 3 => s.wr .DRM_TRAIN_RESULT (s.modeRead c rank result) c
  | 4 => s.wr .DRM_TRAIN_RESULT result c
  | 5 => s.wr .DRM_TRAIN_RESULT (result &&& 3) c
  | 6 => s.writePattern c rank
  | 7 => s.addErrors c rank errors
  | 8 => s.each (List.range 8) fun s k => s.wr .DRM_ERR 0 c k
  | 10 => (s.verifyRows c).wr .DRM_TRAIN_RESULT (result &&& 0xFFFF) c
  | 11 =>
    let s := (s.verifyRows c).wr .DRM_TRAIN_RESULT (result &&& 0xFFFF) c
    if result &&& 0xFFFF = 0 then s.updChan c fun x => { x with trained := true }
    else s.raise .drmTrainFail 11 c
  | _ => s

/-- The longest time of a training step in ns (R462). -/
def stepLongest (op : Nat) : Nat :=
  if op = 1 ∨ op = 10 then 2000000 else if op = 9 ∨ op = 11 then 1000000 else if op = 8 then 1000 else 10000

/-- TRAIN_STEP_END (R427, R462, R464): DONE with what the step returns, or TIMEOUT where the memory has not answered within the step's
longest time. -/
def execTrainStepEnd (c : Nat) (answered : Bool) (result : Word) (errors : List Nat) (s : State) : Out :=
  match (s.chan c).running with
  | none => .next s
  | some (op, rank, since) =>
    if !answered && !s.elapsed since (stepLongest op) then .next s else
    let s := (s.updChan c fun x => { x with running := none }).set .DRM_TRAIN_CMD_status (if answered then 1 else 2) c
    let s := if answered then s.stepResult c op rank result errors else s
    let all := s.drm.chans.all (·.trained)
    .next { s with drm := { s.drm with ready := s.drm.ready || all } }.busyDone

end Sys2Proof.Machine
end

