-- ==== Sys2Proof/Machine/Twin.lean ====
section
/-! DEFINITION. The commands of the twin block (R310 to R345). -/

namespace Sys2Proof.Machine

/-! ### TWN_CMD (R323, R335, R345) -/

/-- A write of TWN_CMD: each bit that is 1 acts, unpair first. -/
def State.writeTwnCmd (s : State) (v : Word) : State :=
  let pair := v.getLsbD 0
  let unpair := v.getLsbD 1
  let ckpt := v.getLsbD 2
  let off := Reg.TWN_CMD.addr 0 0 0
  let act (s : State) : State :=
    let s := if unpair then (if s.paired || s.twn.pair == .pairing then s.endPair.sendTwin (.give 2) else s.endPair) else s
    if pair && (s.twn.pair == .unpaired || s.twn.pair == .detached) then s.beginPair else s
  s.gate off v [(2, pair && s.notStandby && s.twn.role != .primary), (2, ckpt && s.dev.dev == .held), (5, ckpt && !s.coldPrimary)] fun s =>
    if ckpt then s.registerStart off ⟨7, 0, .register, s.clock, false, none, [], 0, 0⟩ fun s =>
      act ((s.actRun ⟨7, 0, .register, s.clock, false, none, [], 0, 0⟩).sendCkpt)
    else act s

/-- PAIR (R323). -/
def execPair (s : State) : Out := .next (s.writeTwnCmd 1)

/-- UNPAIR (R345): the partner is told by GIVE with reason 2 (log 36). -/
def execUnpair (s : State) : Out := .next (s.writeTwnCmd 2)

/-- CHECKPOINT_NOW (R335). -/
def execCheckpointNow (s : State) : Out := .next (s.writeTwnCmd 4)

/-! ### Pairing -/

/-- PAIR_LINK_TIMEOUT (R323): no twin port ACTIVE within 1 s. -/
def execPairLinkTimeout (s : State) : Out :=
  if s.twn.pair == .pairing ∧ s.twn.step = 1 ∧ s.elapsed s.twn.since 1000000000 then .next (s.failPair 1) else .next s

/-- PAIR_INDEX_TIMEOUT (R323): no index within 1 s. -/
def execPairIndexTimeout (s : State) : Out :=
  if s.twn.pair == .pairing ∧ s.twn.step = 4 ∧ s.elapsed s.twn.since 1000000000 then .next (s.failPair 5) else .next s

/-- PAIR_READY_TIMEOUT (R323): J not ready within 10 s of the checkpoint. -/
def execPairReadyTimeout (s : State) : Out :=
  if s.twn.pair == .pairing ∧ s.twn.step = 7 ∧ s.elapsed s.twn.since 10000000000 then .next (s.failPair 7) else .next s

/-- A HELLO is judged in step 2; an unpaired primary answers with a pairing of its own, and one that is PAIRED has lost its partner and
goes on alone first (R322, R323, R327; log 37). Any other module keeps it until it pairs. -/
def State.hearHello (s : State) (h : Hello) : State :=
  let judge (s : State) : State := if s.twn.pair == .pairing && decide (s.twn.step ≤ 2) then s.takeHello h else s
  let answers := s.twn.role == .primary && s.twinMode != 0
  let keeps : State := { s with twn := { s.twn with greeting := some h } }
  match s.twn.pair with
  | .pairing => if s.twn.step = 1 then keeps else judge s
  | .unpaired => if answers then judge s.startPair else keeps
  | .paired => if answers then judge s.goAlone.startPair else s
  | .detached => keeps

/-- HELLO (R318, R322). -/
def execHello (t : Nat) (f : Bytes) (s : State) : Out := .next (s.takeTwin t 0x11 f fun s => s.hearHello (readHello (framePayload f)))

/-- J takes JOIN: it is PAIRED, and prints from the join line on where the primary prints and J is ready (R41, R323). -/
def State.hearJoin (s : State) (line : Line) : State :=
  if s.twn.pair == .pairing ∧ s.twn.joining ∧ s.twn.step = 7 then
    let s := s.becomePaired (some line)
    if s.twn.peerState = 3 ∧ s.dev.dev == .standby ∧ s.ready then s.enterPrinting (some line) else s
  else s

/-- JOIN (R323). -/
def execJoin (t : Nat) (f : Bytes) (s : State) : Out := .next (s.takeTwin t 0x1B f fun s => s.hearJoin (lineAt (framePayload f) 0))

/-! ### Heartbeats and the partner's life (R315, R318, R320, R336 to R341) -/

/-- The heartbeat of this module on a twin port: it acknowledges the newest control frame taken there (R318, R320, R324). -/
def State.heartbeat (s : State) (t : Nat) : HbInfo :=
  ⟨s.dev.dev.code, s.twn.role.code, s.dev.dev == .held, s.highestAll, s.digest, (s.link (24 + t)).ctlExpected - 1, s.joinReady,
    s.twn.pair == .detached⟩

/-- HB_SEND (R318). -/
def execHbSend (t : Nat) (s : State) : Out :=
  if s.twinActive t then .next (s.each (TwMsg.frames (.hb (s.heartbeat t)) 0) fun s f => s.sendTwinPort t f) else .next s

/-- A checkpoint all of whose frames are acknowledged is done (R320, R335). -/
def State.ckptAcked (s : State) : State :=
  match s.twn.ckpt.building with
  | some b => if s.twn.role == .primary && s.paired && !s.ckptOpen then s.ckptDone b else s
  | none => s

/-- A heartbeat: acknowledgement, evidence of life, settings digest, role claim, and what the partner reports of itself (R320, R323, R324,
R327, R336, R341). -/
def State.hearHb (s : State) (t : Nat) (h : HbInfo) : State :=
  let s := { s with twn := { s.twn with hbAt := s.clock, peerState := h.state, hbBroken := s.twn.hbBroken && s.aliveSilent } }
  let s := (s.ackCtl (24 + t) h.ack).ckptAcked
  match s.twn.pair with
  | .paired =>
    if s.follower then (if h.digest ≠ s.digest then s.disagree 3 else s)
    else if h.detached then s.goAlone
    else s
  | .pairing => if s.twn.step = 7 ∧ !s.twn.joining ∧ h.ready then s.acceptReady else s
  | _ =>
    match s.twn.tookOver with
    | some former =>
      if h.role = 1 ∧ !h.held then
        let s := s.disagree 5
        { s with twn := { s.twn with role := former, tookOver := none } }
      else s
    | none => s

/-- HB (R318, R324, R336, R341). -/
def execHb (t : Nat) (f : Bytes) (s : State) : Out := .next (s.takeTwin t 0x12 f fun s => s.hearHb t (readHb f))

/-- TWIN_ALIVE_EDGE (R336). -/
def execTwinAliveEdge (s : State) : Out :=
  .next { s with twn := { s.twn with aliveAt := s.clock, edgeAt := some s.clock, hbBroken := s.twn.hbBroken && s.hbSilent } }

/-- TWIN_ALIVE_TOGGLE (R315): low in HELD and in DARK. -/
def execTwinAliveToggle (s : State) : Out :=
  if s.devIn [.firstLight, .standby, .printing] then
    .next ({ s with twn := { s.twn with aliveOut := !s.twn.aliveOut } }.emit (.twinAlive !s.twn.aliveOut))
  else if s.twn.aliveOut then .next ({ s with twn := { s.twn with aliveOut := false } }.emit (.twinAlive false))
  else .next s

/-- PARTNER_TIMEOUT (R336): silence of both judges the partner failed; silence of one says that a path is broken. -/
def execPartnerTimeout (s : State) : Out :=
  if !s.paired then .next s
  else if s.hbSilent && s.aliveSilent then .next (s.partnerFailed true)
  else if (s.hbSilent || s.aliveSilent) && !s.twn.hbBroken then
    .next ({ s with twn := { s.twn with hbBroken := true } }.count .TWN_HB_MISS_CNT |>.raise .twnHeartbeat (if s.hbSilent then 0 else 1))
  else .next s

/-- What GIVE says: reason 2 is the partner's host that ends the pair or the pairing, any other a partner that has failed (R336, R345). -/
def State.hearGive (s : State) (reason : Nat) : State :=
  let s := { s with twn := { s.twn with greeting := none } }
  if reason = 2 then (if s.paired || s.twn.pair == .pairing then s.endPair else s)
  else if s.paired then s.partnerFailed false
  else s

/-- GIVE (R318, R336, R345). -/
def execGive (t : Nat) (f : Bytes) (s : State) : Out := .next (s.takeTwin t 0x1A f fun s => s.hearGive (byteAt (framePayload f) 0))

/-- The instant at which R27 lets a port begin the line that it waits for. -/
def Pipe.openSince (q : Pipe) : Option Instant :=
  match q.begun.length with
  | 0 => q.opens[1]?
  | 1 => q.opens[0]?
  | _ => none

/-- ANNOUNCE_TIMEOUT (R336): a DUAL secondary misses an announcement 2.5 µs late, with TWIN_ALIVE_IN silent for 2.0 µs. -/
def execAnnounceTimeout (p : Nat) (s : State) : Out :=
  let q := s.pipe p
  let missing := s.printing && q.running && !(s.twn.anns.any fun a => a.port == p)
  match q.openSince with
  | some t =>
    if p < 24 ∧ s.paired ∧ s.twn.role == .secondary ∧ missing ∧ s.elapsed t 2500 ∧ s.elapsed s.twn.aliveAt 2000 then
      .next (s.partnerFailed true)
    else .next s
  | none => .next s

/-- REJOIN_TIMER (R327): 1 s after a detach with auto_rejoin set. -/
def execRejoinTimer (s : State) : Out :=
  if s.twn.pair == .detached ∧ s.on .TWN_CTRL_auto_rejoin ∧ !s.twn.noRejoin ∧ s.elapsed s.twn.since 1000000000 then .next s.beginPair
  else .next s

/-! ### Announcements (R331) -/

/-- An announcement that this module has neither passed nor taken already (R320). -/
def State.newAnn (s : State) (a : AnnEntry) : Bool :=
  decide (a.port < 24) && lineLe (s.link a.port).lineNext a.seq
    && !(s.twn.anns.any fun b => b.port == a.port && b.seq == a.seq)
    && !((s.pipe a.port).begun.any fun b => b.seq == some a.seq)

/-- Announcements taken by a follower that prints by them (R331). -/
def State.hearAnnounce (s : State) (entries : List AnnEntry) : State :=
  if s.announced then
    s.each entries fun s a => if s.newAnn a then { s with twn := { s.twn with anns := s.twn.anns ++ [a] } } else s
  else s

/-- ANNOUNCE (R318, R331). -/
def execAnnounce (t : Nat) (f : Bytes) (s : State) : Out :=
  .next (s.takeTwin t 0x13 f fun s => s.hearAnnounce (readAnnounce (framePayload f)))

/-! ### Agreed changes (R328 to R330) -/

/-- A section as an ingest leaves it still fits into this module's raster store (R330). -/
def State.ingestFits (s : State) (n : Nat) (header : Bytes) (next : List Nat) (strips : List (List (Nat × Nat))) : Bool :=
  !s.storeFull n (s.mergedSection n header next strips false)

/-- A change passes its own rules on the partner (R328). -/
def State.changeOk (s : State) (b : ChangeBody) : Bool :=
  match b with
  | .table image _ _ =>
    let k := byteAt image 0
    let body := image.drop 16
    decide (16 ≤ image.length) && crcOk (image.take 16) && headerOk image image.length
      && leAt image 12 2 == (crc16 body).toNat && bodyOk k (leAt image 4 4) body (s.link (byteAt image 1)).version
      && (k != 8 || decide (longestEntry body ≤ s.tMin (byteAt image 1)))
  | .place g n _ _ _ pitch origin map =>
    decide (g < 4) && decide ((s.group g).queue.length < 16)
      && ((s.section n).map fun x => x.st == .sealed' && s.placeOk g pitch origin map.toNat x).getD false
  | .cancelPlacement g h => (s.group g).queue.any fun q => q.handle == h
  | .seal n =>
    match s.section n with
    | some x => x.st == .opened && (x.planes.zip x.data).all fun e => e.2.next == x.planeHeight e.1
    | none => false
  | .cancelSection n => (s.section n).isSome && !s.inUse n
  | .ingest n h next strips => s.ingestFits n h next strips
  | .print => s.dev.dev == .standby && s.ready
  | .stop => true
  | .spit mask q => s.spitOk mask.toNat q
  | .strip mask q => ((s.section (stripSection q)).map (·.st)) == some .sealed' && s.stripOk mask.toNat q

/-- A received change as the partner holds it once it has voted yes. -/
def heldAs (now : Instant) (id : Nat) (line : Option Line) (body : ChangeBody) : Proposal := ⟨id, line, body, now, none, 0, none, false⟩

/-- The partner votes on a change: yes where the change passes its own rules and none of its pipelines has begun its line (R328, R330).
The reason in a VOTE is the model's: 0 none, 1 a CRC or a rule, 2 a line begun, 3 the raster store full (log 140). -/
def State.voteOn (s : State) (id : Nat) (line : Option Line) (body : ChangeBody) : State :=
  let begun := match line with
    | some e => !untimed body && s.anyBegun (s.changeAffects body) e
    | none => false
  if !s.changeOk body then
    match body with
    | .ingest n _ _ _ => ((s.raise .stoFull (BitVec.ofNat 32 n)).dropStaged n).sendTwin (.vote id false 3)
    | _ => s.sendTwin (.vote id false 1)
  else if begun then s.sendTwin (.vote id false 2)
  else { s with twn := { s.twn with held := s.twn.held ++ [heldAs s.clock id line body] } }.sendTwin (.vote id true 0)

/-- Every strip that an ingest names has arrived; true of every other change (R330). -/
def State.changeIn (s : State) : ChangeBody → Bool
  | .ingest n header _ strips => s.dataIn n ((s.section n).getD (sectionOf header)) strips
  | _ => true

/-- A change to be voted on: an ingest waits for its DATA (R328, R330). -/
def State.hearChange (s : State) (id : Nat) (line : Option Line) (body : ChangeBody) : State :=
  if s.changeIn body then s.voteOn id line body
  else { s with twn := { s.twn with unvoted := s.twn.unvoted ++ [(id, line, body)] } }

/-- A chunk joins those that have come of its record; and the record, where that is whole now (R318). Chunks of another checkpoint than
the newest are dropped. -/
def State.collect (s : State) (type : Nat) (f : Bytes) : State × Option Bytes :=
  let c : Chunk := ⟨type, leAt f 8 4, leAt f 16 4, leAt f 12 4, framePayload f⟩
  let mine (x : Chunk) : Bool := x.type == c.type && x.id == c.id && x.total == c.total
  let l := (s.twn.chunks.filter fun x => x.type != type || type == 0x14 || mine x) ++ [c]
  let own := (l.filter mine).map fun x => (x.offset, x.bytes)
  match gather own [] 0 c.total (own.length + 1) 0 with
  | some b => ({ s with twn := { s.twn with chunks := l.filter fun x => !mine x } }, some b)
  | none => ({ s with twn := { s.twn with chunks := l } }, none)

/-- A whole CHANGE record by its identifier: voted on in MIRROR and DUAL, kept in the journal in COLD and while joining, applied at once by
a module that has restored its checkpoint but is not yet PAIRED; one with a wrong CRC is voted no (R323, R328, R334, R335). -/
def State.takeChange (s : State) (id : Nat) (record : Bytes) : State :=
  if s.twn.seen.contains id then s
  else
    let seen := { s with twn := { s.twn with seen := (s.twn.seen ++ [id]).drop (s.twn.seen.length - 63) } }
    let keep (x : Nat × Option Line × ChangeBody) : State := seen.keepChange id x.2.1 x.2.2
    match s.twn.pair, readChangeRecord record with
    | .paired, none => if s.follower ∧ s.twinMode ≠ 1 then seen.sendTwin (.vote id false 1) else s
    | .paired, some x =>
      if !s.follower then s
      else if s.twinMode = 1 then keep x
      else seen.hearChange id x.2.1 x.2.2
    | .pairing, some x =>
      if !s.twn.joining then s
      else if s.twn.step = 7 ∧ s.twn.ckpt.building.isNone then seen.applyNamed id x.2.1 x.2.2 none 0
      else keep x
    | _, _ => s

/-- CHANGE (R318, R323, R328, R335). -/
def execChange (t : Nat) (f : Bytes) (s : State) : Out :=
  .next (s.takeTwin t 0x14 f fun s =>
    match s.collect 0x14 f with
    | (s, some record) => s.takeChange (leAt f 8 4) record
    | (s, none) => s)

/-- A NEXT load outside PRINTING: it takes effect at once, whichever lines have been begun (R137, R138). -/
def State.atOnce (s : State) (p : Proposal) : Bool :=
  match p.body with
  | .table _ _ _ => !p.isAt && !s.printing
  | _ => false

/-- The primary has begun the line M below a change's, at which an undecided change is aborted (R328, R329). -/
def State.tooLate (s : State) (p : Proposal) : Bool :=
  match p.line with
  | some e => !untimed p.body && !s.atOnce p
      && s.anyBegun (s.testedPorts p) (e - BitVec.ofNat 40 (s.get .TWN_TIMING_decide_margin))
  | none => false

/-- The first verdict on a change decides it: yes in time commits it (R328 to R330). -/
def State.hearVote (s : State) (id : Nat) (yes : Bool) : State :=
  match s.twn.proposals.find? fun p => p.id == id with
  | some p => if s.agreeing then s.decideChange p (yes && !s.tooLate p) else s
  | none => s

/-- VOTE (R318, R328). -/
def execVote (t : Nat) (f : Bytes) (s : State) : Out :=
  let b := framePayload f
  .next (s.takeTwin t 0x15 f fun s => s.hearVote (leAt b 0 4) (byteAt b 4 == 1))

/-- The primary's decision on a change held: applied or discarded, an ingest with its DATA (R328, R330). -/
def State.hearDecide (s : State) (id : Nat) (commit : Bool) : State :=
  match s.twn.held.find? fun p => p.id == id with
  | some p =>
    let s := { s with twn := { s.twn with held := s.twn.held.filter fun q => q.id != id } }
    if commit then s.applyNamed p.id p.line p.body none 0
    else
      match p.body with
      | .ingest n _ _ _ => s.dropStaged n
      | _ => s
  | none => { s with twn := { s.twn with unvoted := s.twn.unvoted.filter fun q => q.1 != id } }

/-- DECIDE (R318, R328, R330). -/
def execDecide (t : Nat) (f : Bytes) (s : State) : Out :=
  let b := framePayload f
  .next (s.takeTwin t 0x16 f fun s => s.hearDecide (leAt b 0 4) (byteAt b 4 == 1))

/-- SEAL or CANCEL. -/
def sealOrCancel : ChangeBody → Bool
  | .ingest _ _ _ _ => false
  | b => untimed b

/-- VOTE_TIMEOUT (R330): no yes vote on a SEAL or CANCEL 1 ms after its CHANGE. -/
def execVoteTimeout (s : State) : Out :=
  .next (s.each (s.twn.proposals.filter fun p => sealOrCancel p.body && s.elapsed p.since 1000000) fun s p => s.decideChange p false)

/-- DECIDE_TIMEOUT (R330): no DECIDE on a SEAL or CANCEL 2 ms after a yes vote. -/
def execDecideTimeout (s : State) : Out :=
  if s.pairedAgree && s.follower && s.twn.held.any fun p => sealOrCancel p.body && s.elapsed p.since 2000000 then .next (s.disagree 4)
  else .next s

/-! ### Data and checkpoints (R318, R330, R332 to R335) -/

/-- The ingests whose DATA has come are voted on (R330). -/
def State.voteIngests (s : State) : State :=
  let l := s.twn.unvoted.filter fun x => s.changeIn x.2.2
  { s with twn := { s.twn with unvoted := s.twn.unvoted.filter fun x => !s.changeIn x.2.2 } }.each l fun s x =>
    s.voteOn x.1 x.2.1 x.2.2

/-- DATA is stored by a partner or a joining module, which then votes on the ingests, or restores the checkpoint, that waited for it
(R323, R330). -/
def State.hearData (s : State) (d : Nat × Nat × Nat × Nat × Bytes) : State :=
  if (s.paired && s.follower) || (s.twn.pair == .pairing && s.twn.joining) then
    ({ s with twn := { s.twn with staged := s.twn.staged ++ [d] } }.voteIngests).tryRestore
  else s

/-- DATA (R318, R319, R330). -/
def execData (t : Nat) (f : Bytes) (s : State) : Out :=
  .next (s.takeTwin t 0x17 f fun s => s.hearData (leAt f 8 2, leAt f 10 2, leAt f 12 4, leAt f 16 4, framePayload f))

/-- A whole checkpoint: one that fails a CRC is dropped, and the last one and its journal stay; a good one is restored by a joining module,
and takes the place of the last, its journal restarting behind it, on a standby in COLD (R323, R334, R335). -/
def State.takeCkpt (s : State) (through : Nat) (bytes : Bytes) : State :=
  match readCkpt bytes with
  | none => s
  | some b =>
    if s.twn.pair == .pairing && s.twn.joining then s.joinCkpt b
    else if s.paired && s.follower && s.twinMode == 1 then
      ({ s with twn := { s.twn with ckptLine := b.line, ckpt := { s.twn.ckpt with body := some b } } }.trimJournal through).count .TWN_CKPT_CNT
    else s

/-- CKPT (R318, R332 to R335). -/
def execCkpt (t : Nat) (f : Bytes) (s : State) : Out :=
  .next (s.takeTwin t 0x18 f fun s =>
    match s.collect 0x18 f with
    | (s, some bytes) => s.takeCkpt (leAt f 20 4) bytes
    | (s, none) => s)

/-! ### CHECK (R317, R325, R326) -/

/-- A position of the partner's: at step 4 J aligns with it, and while PAIRED a follower compares it with its own (R325, R326). -/
def State.hearPos (s : State) (q : Pos) : State :=
  match s.twn.pair, s.twn.index with
  | .pairing, some (own, _) => if s.twn.joining ∧ s.twn.step = 4 then s.alignTo own q else s
  | .pairing, none =>
    if s.twn.joining ∧ s.twn.step = 4 then { s with twn := { s.twn with peerIndex := some q } } else s
  | .paired, some (own, _) => if s.follower ∧ s.get .TWN_POS_TOL_tol < (sdiff own q).natAbs then s.disagree 1 else s
  | _, _ => s

/-- A fire time of the partner's is compared with a follower's own of the same line sequence number (R326). -/
def State.hearFire (s : State) (p : Nat) (seq : BitVec 32) (f : Time) (u : Nat) : State :=
  if s.paired && s.follower then
    match s.twn.fires.find? fun e => e.1 == p && e.2.1 == seq with
    | some (_, _, f', u') => if 20 < (sdiff f f').natAbs ∨ 1 < ((u : Int) - u').natAbs then s.disagree 2 else s
    | none => s
  else s

/-- The partner's HDM on a port is kept, and tells whether the port is protected (R317, R326). -/
def State.hearHdm (s : State) (p : Nat) (h : HdmId) : State :=
  if p < 24 ∧ (s.twn.pair == .pairing ∨ s.paired) then
    { s with twn := { s.twn with peers := (s.twn.peers.filter fun (e : Nat × HdmId) => e.1 != p) ++ [(p, h)] } }.checkProtected p
  else s

/-- What a CHECK says (R326). -/
def State.hearCheck (s : State) : CheckBody → State
  | .pos q => s.hearPos q
  | .fire p seq f u => s.hearFire p seq f u
  | .hdm p serial hp v => s.hearHdm p ⟨serial, hp, v⟩

/-- CHECK (R318, R326). -/
def execCheck (t : Nat) (f : Bytes) (s : State) : Out :=
  .next (s.takeTwin t 0x19 f fun s => match readCheck (framePayload f) with
    | some c => s.hearCheck c
    | none => s)

/-- CHECK_FIRE_SEND (R326): the newest send decision of the next port in turn. -/
def execCheckFireSend (s : State) : Out :=
  if !s.pairedAgree then .next s
  else
    let p := s.twn.firePort
    let s := { s with twn := { s.twn with firePort := (p + 1) % 24 } }
    match s.twn.fires.find? fun e => e.1 == p with
    | some (_, seq, f, u) => .next (s.sendTwin (.check (.fire p seq f u)))
    | none => .next s

end Sys2Proof.Machine
end

