-- ==== Sys2Proof/Machine/RegAccess.lean ====
section
/-! DEFINITION. Register writes: the rules by which each register takes or refuses one, and what a write does beyond
changing the register; reads that have a side effect (R428, R590 to R593, and the register tables that close each chapter). -/

namespace Sys2Proof.Machine

/-- The reasons of R428 for which a write is refused, each with whether it applies: of the state, the register's indices and
the value written. -/
abbrev WriteRule := State → Nat → Nat → Nat → Word → List (Nat × Bool)

/-- What a write that is taken does: of the state, the register's first index and the value written. -/
abbrev WriteEffect := State → Nat → Word → State

/-- A value of a field lies outside a range. -/
def outOf (x lo hi : Nat) : Bool := decide (x < lo) || decide (hi < x)

/-- A DRAM address in units of 16 bytes that lies at or above the end of the memory (R444). -/
def beyondDram (v : Word) : Bool := decide (2 ^ 31 ≤ v.toNat)

/-! ### Raster store, Transit, Wick (R96, R97, R174) -/

/-- No bar stands in two of the four groups of a STO_BARGRP value (R97). -/
def groupsApart (v : Word) : Bool :=
  (List.range 8).all fun b => decide (((List.range 4).filter fun g => v.getLsbD (8 * g + b)).length ≤ 1)

/-- A placement is queued or runs (R97). -/
def State.placementsHeld (s : State) : Bool := s.settleGroups.sto.groups.any fun g => !g.queue.isEmpty

def storeRules : List (Reg × WriteRule) :=
  [(.STO_REGION, fun _ _ _ _ v =>
     [(3, decide (Fld.STO_REGION_size_mb.of v < 64) ||
          decide (32768 < Fld.STO_REGION_base_mb.of v + Fld.STO_REGION_size_mb.of v))]),
   (.STO_BARGRP, fun s _ _ _ v => [(2, s.notStandby || s.placementsHeld), (3, !groupsApart v)]),
   (.TRN_CTRL, fun s _ _ _ _ => [(2, s.notStandbyPrinting), (5, s.paired && s.twinMode == 3)]),
   (.TRN_LATE_CNT, fun s _ _ _ _ => [(2, s.notStandbyPrinting)]),
   (.TRN_NOC_LOST_CNT, fun s _ _ _ _ => [(2, s.notStandbyPrinting)]),
   (.TRN_ROWSUB_CNT, fun s _ _ _ _ => [(2, s.notStandbyPrinting)]),
   (.TRN_TABLE_CRC_CNT, fun s _ _ _ _ => [(2, s.notStandbyPrinting)]),
   (.WCK_CTRL, fun s _ _ _ v => [(2, s.notStandby), (3, decide (Fld.WCK_CTRL_temp_timeout.of v < 2))])]

/-! ### Meridian (R184, R193, R200, and the MER registers) -/

/-- A head origin that the 18-bit field can hold but R193 does not allow. -/
def orgOut (v : Word) : Bool :=
  let x := (BitVec.ofNat 18 (Fld.MER_HEAD_ORG_org.of v)).toInt
  decide (x < -32768) || decide (131071 < x)

/-- A word carries the fields that a register has already: its write could only be one of the fields that are barred (R428; DESIGN CHOICE,
log 117). -/
def sameFields (r : Reg) (old v : Word) : Bool := ((old ^^^ v) &&& r.maskOf [.rw]) == 0

def meridianRules : List (Reg × WriteRule) :=
  [(.MER_CTRL, fun s _ _ _ v =>
     [(2, s.notStandby),
      (3, Fld.MER_CTRL_stop_ms.of v == 0 || outOf (Fld.MER_CTRL_window.of v) 6 12 || outOf (Fld.MER_CTRL_lookahead.of v) 16 64
        || (v.getLsbD 7 && (List.range 24).any (s.oddDelay s.mer.geom)))]),
   (.MER_ACC_LIMIT, fun s _ _ _ v => [(2, s.notStandby), (3, Fld.MER_ACC_LIMIT_a_max.of v == 0)]),
   (.MER_ENC_CTRL, fun s _ _ _ v => [(2, s.notStandby), (3, Fld.MER_ENC_CTRL_filt.of v == 0)]),
   (.MER_ENC_SCALE, fun s _ _ _ v => [(2, s.notStandby), (3, v == 0)]),
   (.MER_SLIP_CTRL, fun s _ _ _ v => [(2, s.notStandby), (3, Fld.MER_SLIP_CTRL_window.of v == 0)]),
   (.MER_SSI_CTRL, fun s _ _ _ v =>
     [(2, s.notStandby), (3, outOf (Fld.MER_SSI_CTRL_bits.of v) 8 40 || outOf (Fld.MER_SSI_CTRL_div.of v) 24 999)]),
   (.MER_SSI_TIMING, fun s _ _ _ v =>
     [(2, s.notStandbyPrinting || (s.notStandby
        && (v.extractLsb' 16 16 != (s.rd .MER_SSI_TIMING).extractLsb' 16 16 || sameFields .MER_SSI_TIMING (s.rd .MER_SSI_TIMING) v))),
      (3, Fld.MER_SSI_TIMING_tm.of v == 0 || (Fld.MER_SSI_TIMING_period.of v != 0 && decide (Fld.MER_SSI_TIMING_period.of v < 25)))]),
   (.MER_HEAD_ORG, fun s _ _ _ v => [(2, s.notStandby), (3, orgOut v)]),
   (.MER_CMP_POS, fun s _ _ _ _ => [(2, s.notStandbyPrinting)]),
   (.MER_CMP_POS_HI, fun s _ _ _ _ => [(2, s.notStandbyPrinting)]),
   (.MER_CMP_IVL, fun s _ _ _ _ => [(2, s.notStandbyPrinting)]),
   (.MER_INT_STATUS, fun s _ _ _ _ => [(2, s.notStandbyPrinting)]),
   (.MER_INT_EN, fun s _ _ _ _ => [(2, s.notStandbyPrinting)]),
   (.MER_ENC_ILLEGAL_CNT, fun s _ _ _ _ => [(2, s.notStandbyPrinting)]),
   (.MER_ENC_INDEX_CNT, fun s _ _ _ _ => [(2, s.notStandbyPrinting)]),
   (.MER_SLIP_CNT, fun s _ _ _ _ => [(2, s.notStandbyPrinting)]),
   (.MER_SSI_FAIL_CNT, fun s _ _ _ _ => [(2, s.notStandbyPrinting)]),
   (.MER_CMP_MISSED_CNT, fun s _ _ _ _ => [(2, s.notStandbyPrinting)]),
   (.MER_STROBE_MERGE_CNT, fun s _ _ _ _ => [(2, s.notStandbyPrinting)])]

/-! ### Links, Photometer, twin (R258, R282, R286, R287, R309, R345) -/

/-- A stream enable breaks R286 or R287: a format that the stream does not have, a crop outside the camera frame, a scale
factor out of range, an empty output, or a factor other than 1/1 on S0 and S3. -/
def State.streamBad (s : State) (c st : Nat) (v : Word) : Bool :=
  let fmt := Fld.PHO_SCTRL_fmt.of v
  let x := s.get .PHO_SCROP0_lo c st
  let y := s.get .PHO_SCROP0_hi c st
  let w := s.get .PHO_SCROP1_lo c st
  let h := s.get .PHO_SCROP1_hi c st
  let fx := s.get .PHO_SSCALE_lo c st
  let fy := s.get .PHO_SSCALE_hi c st
  let scaled := st == 1 || st == 2
  (scaled && decide (2 < fmt)) || (Fld.PHO_SCTRL_compress.of v != 0 && !(st == 1 && fmt == 2))
    || (v.msb && (decide (s.get .PHO_SIZE_width c < x + w) || decide (s.get .PHO_SIZE_height c < y + h)
          || outOf fx 0x100 0x1000 || outOf fy 0x100 0x1000 || decide (w * 256 < fx) || decide (h * 256 < fy)
          || (!scaled && (fx != 0x100 || fy != 0x100))))

/-- An exposure set is committed or being written (R309). -/
def State.setInUse (s : State) (c n : Nat) : Bool :=
  ((s.cam c).waiting.any fun e => e.set == n) || ((s.cam c).sending.map (·.set)) == some n

/-- A code above 4 stands in one of the first `n` sites of a mosaic word (R282). -/
def mosaicBad (v : Word) (n : Nat) : Bool := (List.range n).any fun i => decide (4 < field v (3 * i + 2) (3 * i))

def portRules : List (Reg × WriteRule) :=
  [(.GHL_NAK_CTRL, fun _ _ _ _ v => [(3, Fld.GHL_NAK_CTRL_window.of v == 0)]),
   (.PHO_SIZE, fun s c _ _ v =>
     let h := Fld.PHO_SIZE_height.of v
     let w := Fld.PHO_SIZE_width.of v
     [(2, s.cameraOn c), (3, outOf h 4 4096 || outOf w 16 8192 || h % 4 != 0 || w % 4 != 0)]),
   (.PHO_MOSAIC_LO, fun s c _ _ v => [(2, s.cameraOn c), (3, mosaicBad v 10)]),
   (.PHO_MOSAIC_HI, fun s c _ _ v => [(2, s.cameraOn c), (3, mosaicBad v 6)]),
   (.PHO_BLACK, fun s c _ _ _ => [(2, s.cameraOn c)]),
   (.PHO_XTALK, fun s c _ _ _ => [(2, s.cameraOn c)]),
   (.PHO_CAM_POS, fun s c _ _ _ => [(2, s.cameraOn c || s.notStandby)]),
   (.PHO_ROW_PITCH, fun s c _ _ _ => [(2, s.cameraOn c || s.notStandby)]),
   (.PHO_COL_ORG, fun s c _ _ _ => [(2, s.cameraOn c || s.notStandby)]),
   (.PHO_COL_PITCH, fun s c _ _ _ => [(2, s.cameraOn c || s.notStandby)]),
   (.PHO_FS_LAT, fun s c _ _ _ => [(2, s.cameraOn c || s.notStandby)]),
   (.PHO_I2C, fun s c _ _ v => [(2, s.cameraOn c), (3, Fld.PHO_I2C_speed.of v == 3)]),
   (.PHO_BLACK_CTRL, fun s c _ _ _ => [(2, s.cameraOn c)]),
   (.PHO_EXP_ENTRY, fun s c n _ _ => [(2, s.setInUse c n)]),
   (.PHO_SCTRL, fun s c st _ v => [(3, s.streamBad c st v)]),
   (.PHO_SADDR0, fun _ _ _ _ v => [(3, beyondDram v)]),
   (.PHO_SADDR1, fun _ _ _ _ v => [(3, beyondDram v)]),
   (.PHO_LOOP_CTRL, fun _ _ _ _ v => [(3, Fld.PHO_LOOP_CTRL_min_samples.of v == 0 || Fld.PHO_LOOP_CTRL_period.of v == 0)]),
   (.PHO_LOOP_LIMIT, fun _ _ _ _ v =>
     [(3, outOf (Fld.PHO_LOOP_LIMIT_range_pct.of v) 1 25 || outOf (Fld.PHO_LOOP_LIMIT_step.of v) 1 64
        || decide (1024 < Fld.PHO_LOOP_LIMIT_delta_max.of v))]),
   (.TWN_CTRL, fun s _ _ _ v => [(5, s.twn.pair != .unpaired), (3, outOf (Fld.TWN_CTRL_max_ver.of v) 1 2)]),
   (.TWN_TIMING, fun s _ _ _ v =>
     [(5, s.twn.pair != .unpaired),
      (3, outOf (Fld.TWN_TIMING_decide_margin.of v) 8 128 || outOf (Fld.TWN_TIMING_timeout.of v) 20 400)]),
   (.TWN_CKPT, fun s _ _ _ v =>
     [(5, s.twn.pair != .unpaired), (3, outOf (Fld.TWN_CKPT_journal_mb.of v) 1 1024 || Fld.TWN_CKPT_period.of v == 0)]),
   (.TWN_POS_TOL, fun s _ _ _ _ => [(5, s.twn.pair != .unpaired)])]

/-! ### Host interface, Lamplighter, DRAM, clocks, time, Eyepiece, Almanac (R361, R444, R451, R463, R479, R494, R512, R538) -/

/-- Every ring is DISABLED (R361). -/
def State.ringsOff (s : State) : Bool := s.hst.rings.all fun g => g.st == .disabled

/-- Delay, mode and training registers are written in FIRST_LIGHT while the channel is not trained (R463). -/
def State.trainLocked (s : State) (c : Nat) : Bool := s.dev.dev != .firstLight || (s.chan c).trained

/-- The device is in neither FIRST_LIGHT nor STANDBY (R451). -/
def State.notSetUp (s : State) : Bool := !s.devIn [.firstLight, .standby]

def hostRules : List (Reg × WriteRule) :=
  [(.HST_DB_BASE_LO, fun s _ _ _ _ => [(2, !s.ringsOff)]),
   (.HST_DB_BASE_HI, fun s _ _ _ _ => [(2, !s.ringsOff)]),
   (.HST_SB_BASE_LO, fun s _ _ _ _ => [(2, !s.ringsOff)]),
   (.HST_SB_BASE_HI, fun s _ _ _ _ => [(2, !s.ringsOff)]),
   (.HST_RING_BASE_LO, fun s r _ _ _ => [(2, (s.ring r).st != .disabled)]),
   (.HST_RING_BASE_HI, fun s r _ _ _ => [(2, (s.ring r).st != .disabled)]),
   (.LMP_CTRL, fun _ _ _ _ v => [(3, Fld.LMP_CTRL_defer_ms.of v == 0)]),
   (.DRM_CTRL, fun s _ _ _ v => [(2, s.notSetUp), (3, Fld.DRM_CTRL_temp_poll.of v == 0)]),
   (.DRM_SCHED, fun s _ _ _ v =>
     let hi := Fld.DRM_SCHED_wr_hi.of v
     let lo := Fld.DRM_SCHED_wr_lo.of v
     [(2, s.notSetUp), (3, decide (hi ≤ lo) || decide (64 < hi) || Fld.DRM_SCHED_rt_age.of v == 0 || Fld.DRM_SCHED_bulk_age.of v == 0)]),
   (.DRM_RH, fun _ _ _ _ v =>
     [(3, outOf (Fld.DRM_RH_window_ms.of v) 8 64 || decide (Fld.DRM_RH_act_thresh.of v < 256))]),
   (.DRM_TRAIN_ADDR, fun _ _ _ _ v => [(3, decide (31 < Fld.DRM_TRAIN_ADDR_addr.of v % 32 + Fld.DRM_TRAIN_ADDR_count.of v))]),
   (.DRM_PAT_CTRL, fun _ _ _ _ v => [(3, Fld.DRM_PAT_CTRL_seed.of v == 0)]),
   (.DRM_MR, fun s c _ _ _ => [(2, s.trainLocked c)]),
   (.DRM_DLY_RD, fun s c _ _ _ => [(2, s.trainLocked c)]),
   (.DRM_DLY_WR, fun s c _ _ _ => [(2, s.trainLocked c)]),
   (.DRM_DLY_CA, fun s c _ _ _ => [(2, s.trainLocked c)]),
   (.DRM_DLY_BYTE, fun s c _ _ _ => [(2, s.trainLocked c)]),
   (.CLK_PIX_FRAC, fun s _ _ _ _ => [(2, s.on .CLK_PIX_CTRL_en)]),
   (.CLK_MARGIN, fun s _ _ _ v =>
     let f := Fld.CLK_MARGIN_force_preset.of v
     [(3, decide (4 < f) || (v.msb && decide (f < s.get .ALM_SENSE_STATUS_band)))]),
   (.TIM_CTRL, fun s _ _ _ v =>
     [(2, (s.on .TIM_CTRL_tx_en || s.on .TIM_CTRL_rx_en)
        && (Fld.TIM_CTRL_mode.of v != s.get .TIM_CTRL_mode || sameFields .TIM_CTRL (s.rd .TIM_CTRL) v)),
      (3, Fld.TIM_CTRL_mode.of v == 3)]),
   (.TIM_STEP_MAX, fun _ _ _ _ v => [(3, outOf (Fld.TIM_STEP_MAX_max_ns.of v) 1 1000000)]),
   (.EYE_HTIM, fun s _ _ _ _ => [(2, s.on .EYE_CTRL_en)]),
   (.EYE_HSYNC, fun s _ _ _ _ => [(2, s.on .EYE_CTRL_en)]),
   (.EYE_VTIM, fun s _ _ _ _ => [(2, s.on .EYE_CTRL_en)]),
   (.EYE_VSYNC, fun s _ _ _ _ => [(2, s.on .EYE_CTRL_en)]),
   (.EYE_FMT, fun _ _ _ _ v => [(3, Fld.EYE_FMT_fmt.of v == 3)]),
   (.EYE_FB_ADDR, fun _ _ _ _ v => [(3, beyondDram v)]),
   (.EYE_FB_STRIDE, fun s _ _ _ v => [(3, decide (v.toNat % 65536 < s.get .EYE_HTIM_lo * fmtBytes (s.get .EYE_FMT_fmt)))]),
   (.ALM_WR_LEN, fun _ _ _ _ v => [(3, outOf v.toNat 16 65536)]),
   (.ALM_TJ, fun _ _ _ _ v => [(3, outOf (Fld.ALM_TJ_high.of v) 80 110)]),
   (.PWR_VIN_LOW, fun _ _ _ _ v => [(3, outOf (Fld.PWR_VIN_LOW_limit.of v) 2700 5500)])]

/-! ### Which rule governs a write (R17, R427, R428, R592) -/

/-- The block that a register belongs to is BUSY with a long operation (R427). -/
def State.blockBusy (s : State) (off : Nat) : Bool :=
  if 0x80000 ≤ off ∧ off < 0xB0000 then s.dev.factoryLoading
  else if 0x140000 ≤ off ∧ off < 0x158000 then (s.link ((off - 0x140000) / 4096)).busy
  else if 0x190000 ≤ off ∧ off < 0x1A0000 then s.drmBusy
  else if 0x1C0000 ≤ off ∧ off < 0x1D0000 then s.almBusy
  else false

/-- The rule of a register among those of a list. -/
def ruleOf {α : Type} (r : Reg) (l : List (Reg × α)) : Option α := (l.find? fun (e : Reg × α) => e.1.base == r.base).map (·.2)

/-- The device states of a register that says nothing else: TRN, MER only in STANDBY, every other block in any state. -/
def State.blockRule (s : State) (off : Nat) : List (Nat × Bool) :=
  if (0x80000 ≤ off ∧ off < 0xB0000) ∨ (0x120000 ≤ off ∧ off < 0x140000) then [(2, s.notStandby)] else []

/-- The reasons for which a write of a register is refused, each with whether it applies. -/
def State.writeChecks (s : State) (r : Reg) (i j k : Nat) (v : Word) : List (Nat × Bool) :=
  let off := r.addr i j k
  [(1, s.blockBusy off), (6, s.dev.locked && r.maskOf [.rwl] != 0)] ++
    match ruleOf r (storeRules ++ meridianRules ++ portRules ++ hostRules) with
    | some f => f s i j k v
    | none => s.blockRule off

/-! ### What a write does beyond changing its register -/

/-- A twin port that a write of TWN_CTRL enables enters DETECT where it has not been in DOWN since cold reset; one that it
disables goes DOWN (R228, R229). -/
def State.switchTwinPort (s : State) (p : Nat) (was : Bool) : State :=
  if was && !s.linkEnabled p then s.portDown p 1 false
  else if !was && s.linkEnabled p then s.enablePort p
  else s

/-- Registers whose write also changes something at once. -/
def writeEffects : List (Reg × WriteEffect) :=
  [(.TWN_CTRL, fun s _ v =>
     let was := [s.linkEnabled 24, s.linkEnabled 25]
     let s := s.store .TWN_CTRL v
     (s.switchTwinPort 24 (was.getD 0 false)).switchTwinPort 25 (was.getD 1 false)),
   (.CLK_MARGIN, fun s _ v => (s.store .CLK_MARGIN v).setPreset)]

/-- Registers with a row of their own in the command table: a write of one is that command. A start of an Almanac write has
its record from host memory, which a register write does not carry (log 53). -/
def ownWrites : List (Reg × WriteEffect) :=
  [(.MER_POS_CMD, fun s _ v => s.writePosCmd v),
   (.MER_SSI_CMD, fun s _ v => s.writeSsiCmd v),
   (.MER_GEOM_COMMIT, fun s _ v =>
     if v.getLsbD 0 then s.geomCommit else s.gate (Reg.MER_GEOM_COMMIT.addr 0 0 0) v [(2, s.notStandby)] id),
   (.MER_LATCH_CTRL, State.writeLatchCtrl),
   (.MER_CMP_CTRL, State.writeCmpCtrl),
   (.GHL_CTRL, State.writeGhlCtrl),
   (.PHO_CTRL, State.writePhoCtrl),
   (.PHO_EXP_COMMIT, State.writeExpCommit),
   (.PHO_LOOP_RESET, fun s _ v =>
     s.writeLoopReset (BitVec.ofNat 8 (Fld.PHO_LOOP_RESET_gain_reset.of v)) (BitVec.ofNat 8 (Fld.PHO_LOOP_RESET_tone_reset.of v))),
   (.TWN_CMD, fun s _ v => s.writeTwnCmd v),
   (.HST_RING_CFG, State.writeRingCfg),
   (.LTN_ACK, fun s _ v => s.writeAck v),
   (.LTN_REC_CLR, fun s _ v => s.writeRecClr v),
   (.LTN_SRC_CFG, State.writeSrcCfg),
   (.GLB_CMD, fun s _ v => s.writeGlbCmd v),
   (.GLB_RESET, fun s _ v => s.writeReset v),
   (.DRM_TRAIN_CMD, State.writeTrain),
   (.CLK_PIX_CTRL, fun s _ v => s.writePixCtrl v),
   (.TIM_NET_LOAD, fun s _ v => s.writeNetLoad v),
   (.TIM_NET_STEP, fun s _ v => s.writeNetStep v),
   (.TIM_SNAP_CMD, fun s _ v => if v.getLsbD 0 then s.snapshot else s.gate (Reg.TIM_SNAP_CMD.addr 0 0 0) v [] id),
   (.TIM_SEC_LO, fun s _ v => s.writeSecLo v),
   (.TIM_PULSE_CTRL, State.writePulseCtrl),
   (.EYE_CTRL, fun s _ v => s.writeEyeCtrl v),
   (.EYE_COMMIT, fun s _ v => s.writeEyeCommit v),
   (.ALM_WR_CMD, fun s _ _ => s.gate (Reg.ALM_WR_CMD.addr 0 0 0) 1 [(1, s.almBusy)] id)]

/-- A write of every other register: in the domain of FAB it is applied at once, elsewhere it waits in its crossing (R484). An MSI-X vector
that the write unmasks signals if it is pending (R386). -/
def State.writePlain (s : State) (r : Reg) (i j k : Nat) (v : Word) : State :=
  let off := r.addr i j k
  s.bar0 fun s =>
    let checks := (s.ahead off).writeChecks r i j k v
    match ruleOf r writeEffects, s.xingOf off with
    | some f, _ => s.gate off v checks fun s => f s i v
    | none, none => s.gate off v checks fun s =>
      let s := s.store r v i j k
      (if r.base = Reg.HST_MSIX_TABLE.base then s.flushMsix
        else if r.base = Reg.HST_RING_IRQ.base then s.ringIrqSet i else s).settlePending
    | none, some x =>
      match (((4, s.xingBlocked off) :: checks).filter (·.2)).map (·.1) with
      | [] => s.enqueue x off v
      | a :: t => s.refuse off (t.foldl min a)

/-- The reason for which a write would be refused, 0 where for none (R428). -/
def State.reasonOf (s : State) (write : State → State) : Nat :=
  (write (s.set .GLB_REFUSED_INFO_reason 0)).get .GLB_REFUSED_INFO_reason

/-- A write of a register that has a row of its own: in the domain of FAB it is that command; elsewhere it is judged in FAB behind the writes of
its crossing, and waits there (R484). -/
def State.writeOwn (s : State) (f : WriteEffect) (off i : Nat) (v : Word) : State :=
  match s.xingOf off with
  | none => f s i v
  | some x => s.bar0 fun s =>
    let why := (s.ahead off).reasonOf fun s => f s i v
    if s.xingBlocked off then s.refuse off (if why = 0 then 4 else min why 4)
    else if why = 0 then s.enqueue x off v
    else if (s.xing x).writes.isEmpty then f s i v
    else s.refuse off why

/-- A write of every byte of a register (R428, R592). -/
def State.writeWhole (s : State) (r : Reg) (l : List Nat) (v : Word) : State :=
  let i := l.getD 0 0
  match ruleOf r ownWrites with
  | some f => s.writeOwn f (r.addr i (l.getD 1 0) (l.getD 2 0)) i v
  | none => s.writePlain r i (l.getD 1 0) (l.getD 2 0) v

/-- The oldest write that a crossing holds arrives: a register with a row of its own does what the row does, any other is applied; the writes
behind it stay where the crossing carries traffic still (R484, R490). -/
def State.arrive (s : State) (x : Nat) (w : PendWrite) (rest : List PendWrite) : State :=
  let s := s.updXing x fun k => { k with writes := [] }
  let s := match (Reg.ofOffset w.off).bind fun e => (ruleOf e.1 ownWrites).map fun f => (f, e.2) with
    | some (f, l) => f s (l.getD 0 0) w.value
    | none => s.applyPend w
  if (s.xing x).sync = .running then s.updXing x fun k => { k with writes := rest ++ k.writes } else s

/-- CROSSING_WRITE_APPLY (R484): the oldest pending write of a crossing that carries traffic is applied. -/
def execCrossingWriteApply (x : Nat) (s : State) : Out :=
  match (s.xing x).sync, (s.xing x).writes with
  | .running, w :: rest => .next (s.arrive x w rest)
  | _, _ => .next s

/-- A write of 32 bits at a BAR0 offset with its byte enables (R590 to R592): nothing at a reserved offset; one that covers
part of a register is refused with reason 3, or a lower one that holds (R428); fields that are read-only and reserved bits are ignored. -/
def State.writeReg (s : State) (off : Nat) (v : Word) (enables : BitVec 4) : State :=
  match Reg.ofOffset off with
  | none => s
  | some (r, l) =>
    if enables = 0 then s
    else if r.maskOf [.rw, .rws, .rwl, .w1c, .w1s, .wo] = 0 then
      s.bar0 fun s => if s.blockBusy off then s.refuse off 1 else if enables ≠ 0xF then s.refuse off 3 else s
    else if enables ≠ 0xF then s.bar0 fun s => 
      let why := s.reasonOf fun s => s.writeWhole r l v
      s.refuse off (if why = 0 then 3 else min 3 why)
    else s.writeWhole r l v

/-- REGISTER_WRITE (R428, R590 to R592): a write of up to 8 bytes with their byte enables. It is applied as two writes of 32 bits in ascending
address order, to the register that holds the offset and to the one after it, each refused or accepted on its own; a half without a byte
enabled is no write. -/
def execRegisterWrite (off : Nat) (v : BitVec 64) (enables : BitVec 8) (s : State) : Out :=
  let o := off / 4 * 4
  .next ((s.writeReg o (v.setWidth 32) (enables.setWidth 4)).writeReg (o + 4) (v.extractLsb' 32 32) (enables.extractLsb' 4 4))

/-! ### Reads with a side effect (R593) -/

/-- The _LO registers, with the register that shows the upper half and the value of which a read takes one instant. -/
def captures : List (Reg × Reg × (State → Nat → Nat)) :=
  [(.TRN_LINE_LO, .TRN_LINE_HI, fun s p => ((s.pipe p).highest.getD 0).toNat),
   (.MER_POS_LO, .MER_POS_HI, fun s _ => s.pos.toNat),
   (.MER_SSI_RAW_LO, .MER_SSI_RAW_HI, fun s _ => s.mer.ssi.raw),
   (.PHO_LOOP_EPOCH_LO, .PHO_LOOP_EPOCH_HI, fun s _ => s.pho.loop.epoch.toNat),
   (.TWN_JOIN_LO, .TWN_JOIN_HI, fun s _ => s.twn.joinShown.toNat),
   (.TWN_CKPT_LINE_LO, .TWN_CKPT_LINE_HI, fun s _ => s.twn.ckptLine.toNat),
   (.GLB_STOP_LINE_LO, .GLB_STOP_LINE_HI, fun s _ => s.dev.stopShown.toNat)]

/-- A read of MER_LATCH_POS_LO[n] shows the oldest result in MER_LATCH_POS_HI[n] and MER_LATCH_TIME[n] (R204); with no result
held, what they show is open (log 4). -/
def State.captureLatch (s : State) (n : Nat) : State :=
  match s.mer.latches.getD n [] with
  | x :: _ => (s.wr .MER_LATCH_POS_HI (BitVec.ofNat 32 (x.pos.toNat / 2 ^ 32)) n).wr .MER_LATCH_TIME x.mono n
  | [] =>
    let (v, s) := s.fresh
    (s.wr .MER_LATCH_POS_HI (BitVec.ofNat 32 (v.toNat % 2 ^ 16)) n).wr .MER_LATCH_TIME (v.extractLsb' 16 32) n

/-- A read at a BAR0 offset captures the upper half of a _LO register (R593). -/
def State.loCapture (s : State) (off : Nat) : State :=
  match Reg.ofOffset (off / 4 * 4) with
  | none => s
  | some (r, l) =>
    let i := l.getD 0 0
    if r.base = Reg.MER_LATCH_POS_LO.base then s.captureLatch i
    else match ruleOf r captures with
      | some (hi, f) => s.wr hi (BitVec.ofNat 32 (f s i / 2 ^ 32)) i
      | none => s

/-- LO_CAPTURE_READ (R593). -/
def execLoCaptureRead (off : Nat) (s : State) : Out := .next (s.bar0 fun s => s.loCapture off)

/-- CH_STATUS_READ (R593): DRM_CH_STATUS[c].max_postponed is cleared. -/
def execChStatusRead (c : Nat) (s : State) : Out :=
  if c < 4 then .next (s.bar0 fun s => s.set .DRM_CH_STATUS_max_postponed 0 c) else .next s

end Sys2Proof.Machine
end

