-- ==== Sys2Proof/Machine/Dispatch.lean ====
section
/-! DEFINITION. One arm per command: a direct call of its meaning. -/

namespace Sys2Proof.Machine

/-- The effect of a command on everything but the queue. -/
def exec (i : Instr) (s : State) : Host.Outcome State Fault Refusal :=
  match i with
  | .sendDecision p => Sys2Proof.Machine.execSendDecision p s
  | .lineBegin p => Sys2Proof.Machine.execLineBegin p s
  | .overspeedEpisodeEnd p => Sys2Proof.Machine.execOverspeedEpisodeEnd p s
  | .linePacked p => Sys2Proof.Machine.execLinePacked p s
  | .primingDone p => Sys2Proof.Machine.execPrimingDone p s
  | .ingestHeader ring d record => Sys2Proof.Machine.execIngestHeader ring d record s
  | .ingestPlaneRaw ring d band => Sys2Proof.Machine.execIngestPlaneRaw ring d band s
  | .ingestPlaneIbrik ring d container => Sys2Proof.Machine.execIngestPlaneIbrik ring d container s
  | .seal ring d => Sys2Proof.Machine.execSeal ring d s
  | .cancelSection ring d => Sys2Proof.Machine.execCancelSection ring d s
  | .place ring d => Sys2Proof.Machine.execPlace ring d s
  | .cancelPlacement ring d => Sys2Proof.Machine.execCancelPlacement ring d s
  | .placementResolve g => Sys2Proof.Machine.execPlacementResolve g s
  | .loadTable ring d image => Sys2Proof.Machine.execLoadTable ring d image s
  | .waveLoad ring d image => Sys2Proof.Machine.execWaveLoad ring d image s
  | .phoTableLoad ring d image => Sys2Proof.Machine.execPhoTableLoad ring d image s
  | .waitingLoadCommit kind target => Sys2Proof.Machine.execWaitingLoadCommit kind target s
  | .readTable ring d => Sys2Proof.Machine.execReadTable ring d s
  | .tempReport p frame => Sys2Proof.Machine.execTempReport p frame s
  | .tempTimeout p h => Sys2Proof.Machine.execTempTimeout p h s
  | .waveBankWrite p => Sys2Proof.Machine.execWaveBankWrite p s
  | .waveAck p frame => Sys2Proof.Machine.execWaveAck p frame s
  | .waveAckTimeout p => Sys2Proof.Machine.execWaveAckTimeout p s
  | .encTransition e a b held t => Sys2Proof.Machine.execEncTransition e a b held t s
  | .quadWindowEnd e => Sys2Proof.Machine.execQuadWindowEnd e s
  | .encIndex e level held t => Sys2Proof.Machine.execEncIndex e level held t s
  | .estimatorTick => Sys2Proof.Machine.execEstimatorTick s
  | .webStopTimeout => Sys2Proof.Machine.execWebStopTimeout s
  | .ssiRequest => Sys2Proof.Machine.execSsiRequest s
  | .ssiPeriod => Sys2Proof.Machine.execSsiPeriod s
  | .ssiHeldStart => Sys2Proof.Machine.execSsiHeldStart s
  | .ssiReading init edges => Sys2Proof.Machine.execSsiReading init edges s
  | .posLoadNow => Sys2Proof.Machine.execPosLoadNow s
  | .posLoadSsi => Sys2Proof.Machine.execPosLoadSsi s
  | .posRebase => Sys2Proof.Machine.execPosRebase s
  | .slipWindowEnd => Sys2Proof.Machine.execSlipWindowEnd s
  | .geomCommit => Sys2Proof.Machine.execGeomCommit s
  | .latchTrigger n level held t => Sys2Proof.Machine.execLatchTrigger n level held t s
  | .latchSoft n => Sys2Proof.Machine.execLatchSoft n s
  | .latchResultRead n => Sys2Proof.Machine.execLatchResultRead n s
  | .cmpArm n v => Sys2Proof.Machine.execCmpArm n v s
  | .cmpDisarm n v => Sys2Proof.Machine.execCmpDisarm n v s
  | .cmpFire n => Sys2Proof.Machine.execCmpFire n s
  | .outputPulseEnd pin => Sys2Proof.Machine.execOutputPulseEnd pin s
  | .portEnable p v => Sys2Proof.Machine.execPortEnable p v s
  | .portDisable p v => Sys2Proof.Machine.execPortDisable p v s
  | .portRetrainCmd p v => Sys2Proof.Machine.execPortRetrainCmd p v s
  | .downTimeout p => Sys2Proof.Machine.execDownTimeout p s
  | .detectTest p first second => Sys2Proof.Machine.execDetectTest p first second s
  | .tsAReceived p block satisfied want => Sys2Proof.Machine.execTsAReceived p block satisfied want s
  | .tsBReceived p block => Sys2Proof.Machine.execTsBReceived p block s
  | .trainTimeout p => Sys2Proof.Machine.execTrainTimeout p s
  | .blockLockAcquired p blocks => Sys2Proof.Machine.execBlockLockAcquired p blocks s
  | .blockLockLost p blocks => Sys2Proof.Machine.execBlockLockLost p blocks s
  | .lockComplete p blocks => Sys2Proof.Machine.execLockComplete p blocks s
  | .lockTimeout p => Sys2Proof.Machine.execLockTimeout p s
  | .statCaps p frame => Sys2Proof.Machine.execStatCaps p frame s
  | .syncEcho p frame t4 => Sys2Proof.Machine.execSyncEcho p frame t4 s
  | .statAck p frame => Sys2Proof.Machine.execStatAck p frame s
  | .capsTimeout p => Sys2Proof.Machine.execCapsTimeout p s
  | .syncPeriodic p => Sys2Proof.Machine.execSyncPeriodic p s
  | .nak p frame => Sys2Proof.Machine.execNak p frame s
  | .statTimeout p => Sys2Proof.Machine.execStatTimeout p s
  | .partnerWindowEnd p => Sys2Proof.Machine.execPartnerWindowEnd p s
  | .ctlResendTimeout p => Sys2Proof.Machine.execCtlResendTimeout p s
  | .deskew c => Sys2Proof.Machine.execDeskew c s
  | .csiFrameStart c ecc => Sys2Proof.Machine.execCsiFrameStart c ecc s
  | .csiPixelData c dataType ecc samples heldBack => Sys2Proof.Machine.execCsiPixelData c dataType ecc samples heldBack s
  | .csiFrameEnd c ecc => Sys2Proof.Machine.execCsiFrameEnd c ecc s
  | .csiOtherPacket c channel dataType ecc => Sys2Proof.Machine.execCsiOtherPacket c channel dataType ecc s
  | .cameraFrameTimeout c => Sys2Proof.Machine.execCameraFrameTimeout c s
  | .expCommit c v => Sys2Proof.Machine.execExpCommit c v s
  | .expSetWritten c => Sys2Proof.Machine.execExpSetWritten c s
  | .i2cNak c entry => Sys2Proof.Machine.execI2cNak c entry s
  | .cameraPortDisable c v => Sys2Proof.Machine.execCameraPortDisable c v s
  | .capbuf ring d => Sys2Proof.Machine.execCapbuf ring d s
  | .loopPeriodEnd => Sys2Proof.Machine.execLoopPeriodEnd s
  | .loopGainReset bars => Sys2Proof.Machine.execLoopGainReset bars s
  | .loopToneReset bars => Sys2Proof.Machine.execLoopToneReset bars s
  | .loopHoldEnd => Sys2Proof.Machine.execLoopHoldEnd s
  | .camBlack ring d => Sys2Proof.Machine.execCamBlack ring d s
  | .camBlackTimeout c => Sys2Proof.Machine.execCamBlackTimeout c s
  | .pair => Sys2Proof.Machine.execPair s
  | .unpair => Sys2Proof.Machine.execUnpair s
  | .checkpointNow => Sys2Proof.Machine.execCheckpointNow s
  | .pairLinkTimeout => Sys2Proof.Machine.execPairLinkTimeout s
  | .pairIndexTimeout => Sys2Proof.Machine.execPairIndexTimeout s
  | .pairReadyTimeout => Sys2Proof.Machine.execPairReadyTimeout s
  | .hello t frame => Sys2Proof.Machine.execHello t frame s
  | .hb t frame => Sys2Proof.Machine.execHb t frame s
  | .hbSend t => Sys2Proof.Machine.execHbSend t s
  | .announce t frame => Sys2Proof.Machine.execAnnounce t frame s
  | .change t frame => Sys2Proof.Machine.execChange t frame s
  | .vote t frame => Sys2Proof.Machine.execVote t frame s
  | .decide t frame => Sys2Proof.Machine.execDecide t frame s
  | .data t frame => Sys2Proof.Machine.execData t frame s
  | .ckpt t frame => Sys2Proof.Machine.execCkpt t frame s
  | .check t frame => Sys2Proof.Machine.execCheck t frame s
  | .checkFireSend => Sys2Proof.Machine.execCheckFireSend s
  | .give t frame => Sys2Proof.Machine.execGive t frame s
  | .join t frame => Sys2Proof.Machine.execJoin t frame s
  | .twinAliveEdge => Sys2Proof.Machine.execTwinAliveEdge s
  | .twinAliveToggle => Sys2Proof.Machine.execTwinAliveToggle s
  | .partnerTimeout => Sys2Proof.Machine.execPartnerTimeout s
  | .announceTimeout p => Sys2Proof.Machine.execAnnounceTimeout p s
  | .voteTimeout => Sys2Proof.Machine.execVoteTimeout s
  | .decideTimeout => Sys2Proof.Machine.execDecideTimeout s
  | .rejoinTimer => Sys2Proof.Machine.execRejoinTimer s
  | .pcieLinkLoss cause => Sys2Proof.Machine.execPcieLinkLoss cause s
  | .l1Entry => Sys2Proof.Machine.execL1Entry s
  | .kick => Sys2Proof.Machine.execKick s
  | .doorbellPoll => Sys2Proof.Machine.execDoorbellPoll s
  | .doorbellRead block => Sys2Proof.Machine.execDoorbellRead block s
  | .ringEnable r v => Sys2Proof.Machine.execRingEnable r v s
  | .ringDisable r v => Sys2Proof.Machine.execRingDisable r v s
  | .nop ring d => Sys2Proof.Machine.execNop ring d s
  | .checkpoint ring d => Sys2Proof.Machine.execCheckpoint ring d s
  | .completionPost cring => Sys2Proof.Machine.execCompletionPost cring s
  | .statusBlockWrite r => Sys2Proof.Machine.execStatusBlockWrite r s
  | .ringIrqTimer r => Sys2Proof.Machine.execRingIrqTimer r s
  | .drmRetrain ring d => Sys2Proof.Machine.execDrmRetrain ring d s
  | .drmZq ring d => Sys2Proof.Machine.execDrmZq ring d s
  | .drmSelfref ring d => Sys2Proof.Machine.execDrmSelfref ring d s
  | .linkRetrain ring d => Sys2Proof.Machine.execLinkRetrain ring d s
  | .waveReload ring d => Sys2Proof.Machine.execWaveReload ring d s
  | .almWrite ring d record => Sys2Proof.Machine.execAlmWrite ring d record s
  | .twinCkpt ring d => Sys2Proof.Machine.execTwinCkpt ring d s
  | .spit ring d param => Sys2Proof.Machine.execSpit ring d param s
  | .strip ring d param => Sys2Proof.Machine.execStrip ring d param s
  | .deferredStart => Sys2Proof.Machine.execDeferredStart s
  | .deferTimeout => Sys2Proof.Machine.execDeferTimeout s
  | .scheduledZq => Sys2Proof.Machine.execScheduledZq s
  | .scheduledRetrain => Sys2Proof.Machine.execScheduledRetrain s
  | .scheduledCheckpoint => Sys2Proof.Machine.execScheduledCheckpoint s
  | .faultHandle => Sys2Proof.Machine.execFaultHandle s
  | .fatalQuiesce => Sys2Proof.Machine.execFatalQuiesce s
  | .faultAck v => Sys2Proof.Machine.execFaultAck v s
  | .quietRecovery c => Sys2Proof.Machine.execQuietRecovery c s
  | .recordClear v => Sys2Proof.Machine.execRecordClear v s
  | .faultForce src v => Sys2Proof.Machine.execFaultForce src v s
  | .pwrEnRise => Sys2Proof.Machine.execPwrEnRise s
  | .pgoodRise => Sys2Proof.Machine.execPgoodRise s
  | .railTimeout => Sys2Proof.Machine.execRailTimeout s
  | .railFault => Sys2Proof.Machine.execRailFault s
  | .powerDown pwrEnFell => Sys2Proof.Machine.execPowerDown pwrEnFell s
  | .rampDownEnd => Sys2Proof.Machine.execRampDownEnd s
  | .coldReset => Sys2Proof.Machine.execColdReset s
  | .resetRelease => Sys2Proof.Machine.execResetRelease s
  | .pllLock => Sys2Proof.Machine.execPllLock s
  | .factoryLoadDone => Sys2Proof.Machine.execFactoryLoadDone s
  | .pcieResetRelease => Sys2Proof.Machine.execPcieResetRelease s
  | .finish => Sys2Proof.Machine.execFinish s
  | .print => Sys2Proof.Machine.execPrint s
  | .stop => Sys2Proof.Machine.execStop s
  | .warmReset v => Sys2Proof.Machine.execWarmReset v s
  | .warmResetEnd => Sys2Proof.Machine.execWarmResetEnd s
  | .clockLoss => Sys2Proof.Machine.execClockLoss s
  | .clockRecovered => Sys2Proof.Machine.execClockRecovered s
  | .trainInit c v => Sys2Proof.Machine.execTrainInit c v s
  | .trainMrw c v => Sys2Proof.Machine.execTrainMrw c v s
  | .trainMrr c v => Sys2Proof.Machine.execTrainMrr c v s
  | .trainCbt c v => Sys2Proof.Machine.execTrainCbt c v s
  | .trainWckLevel c v => Sys2Proof.Machine.execTrainWckLevel c v s
  | .trainWrite c v => Sys2Proof.Machine.execTrainWrite c v s
  | .trainRead c v => Sys2Proof.Machine.execTrainRead c v s
  | .trainClear c v => Sys2Proof.Machine.execTrainClear c v s
  | .trainZq c v => Sys2Proof.Machine.execTrainZq c v s
  | .trainVerify c v => Sys2Proof.Machine.execTrainVerify c v s
  | .trainCommit c v => Sys2Proof.Machine.execTrainCommit c v s
  | .trainStepEnd c answered result errors => Sys2Proof.Machine.execTrainStepEnd c answered result errors s
  | .dramRequest src write addr bursts payload => Sys2Proof.Machine.execDramRequest src write addr bursts payload s
  | .refreshDue c rank pair => Sys2Proof.Machine.execRefreshDue c rank pair s
  | .dramTempPoll c r0 r1 => Sys2Proof.Machine.execDramTempPoll c r0 r1 s
  | .rhWindowStart => Sys2Proof.Machine.execRhWindowStart s
  | .retrainSlice c last pass rd wr wck => Sys2Proof.Machine.execRetrainSlice c last pass rd wr wck s
  | .zqLatch c => Sys2Proof.Machine.execZqLatch c s
  | .selfrefEntry => Sys2Proof.Machine.execSelfrefEntry s
  | .selfrefTimeout => Sys2Proof.Machine.execSelfrefTimeout s
  | .selfrefExit => Sys2Proof.Machine.execSelfrefExit s
  | .crossingWriteApply x => Sys2Proof.Machine.execCrossingWriteApply x s
  | .crossingTimeout x side => Sys2Proof.Machine.execCrossingTimeout x side s
  | .crossingResync x => Sys2Proof.Machine.execCrossingResync x s
  | .pixPllEnable v => Sys2Proof.Machine.execPixPllEnable v s
  | .pixPllLock => Sys2Proof.Machine.execPixPllLock s
  | .netRateWrite v => Sys2Proof.Machine.execNetRateWrite v s
  | .netStep v => Sys2Proof.Machine.execNetStep v s
  | .netLoad v => Sys2Proof.Machine.execNetLoad v s
  | .timeSnapshot => Sys2Proof.Machine.execTimeSnapshot s
  | .monoWrap => Sys2Proof.Machine.execMonoWrap s
  | .netWrap => Sys2Proof.Machine.execNetWrap s
  | .secondsCommit v => Sys2Proof.Machine.execSecondsCommit v s
  | .secondRollover => Sys2Proof.Machine.execSecondRollover s
  | .pulseArm n v => Sys2Proof.Machine.execPulseArm n v s
  | .pulseFire n => Sys2Proof.Machine.execPulseFire n s
  | .pulseWidthEnd n => Sys2Proof.Machine.execPulseWidthEnd n s
  | .netTx ring d frame => Sys2Proof.Machine.execNetTx ring d frame s
  | .netTxDone => Sys2Proof.Machine.execNetTxDone s
  | .netRxbuf ring d => Sys2Proof.Machine.execNetRxbuf ring d s
  | .netRxFrame frame fcsOk => Sys2Proof.Machine.execNetRxFrame frame fcsOk s
  | .netLinkChange exchange => Sys2Proof.Machine.execNetLinkChange exchange s
  | .txtsPost => Sys2Proof.Machine.execTxtsPost s
  | .txtsRead => Sys2Proof.Machine.execTxtsRead s
  | .eyeEnable v => Sys2Proof.Machine.execEyeEnable v s
  | .eyeDisable v => Sys2Proof.Machine.execEyeDisable v s
  | .eyeCommit => Sys2Proof.Machine.execEyeCommit s
  | .displayLineStart missing => Sys2Proof.Machine.execDisplayLineStart missing s
  | .commitPoint => Sys2Proof.Machine.execCommitPoint s
  | .dieTempSample x => Sys2Proof.Machine.execDieTempSample x s
  | .vinSample raw => Sys2Proof.Machine.execVinSample raw s
  | .almWrGo record => Sys2Proof.Machine.execAlmWrGo record s
  | .almWriteDone programmed readBackOk => Sys2Proof.Machine.execAlmWriteDone programmed readBackOk s
  | .almReadData => Sys2Proof.Machine.execAlmReadData s
  | .loCaptureRead off => Sys2Proof.Machine.execLoCaptureRead off s
  | .chStatusRead c => Sys2Proof.Machine.execChStatusRead c s
  | .registerWrite off v enables => Sys2Proof.Machine.execRegisterWrite off v enables s
  | .cameraPortEnable c v => Sys2Proof.Machine.execCameraPortEnable c v s
  | .pcieLinkUp cfg => Sys2Proof.Machine.execPcieLinkUp cfg s
  | .undervoltageLockoutRelease pwrEn => Sys2Proof.Machine.execUndervoltageLockoutRelease pwrEn s
  | .dieResetHoldEnd => Sys2Proof.Machine.execDieResetHoldEnd s
  | .railRetry => Sys2Proof.Machine.execRailRetry s

end Sys2Proof.Machine
end

