-- ==== Sys2Proof/Machine/Tick.lean ====
section
/-! DEFINITION. What passes with time alone: one cycle of the TIME domain, 8 ns of MONO, in which the counters advance and
each DRAM channel has one command slot (R449, R450, R497, R498, R504; DESIGN CHOICE: log 1). -/

namespace Sys2Proof.Machine

/-- MONO advances by 8 and NET by 8 · (1 + rate · 2^-38) ns; a wrap of either is marked with both counters of its cycle
(R497, R498, R504). -/
def TimeBlock.tick (rate : Int) (t : TimeBlock) : TimeBlock :=
  let mono := t.mono + 8
  let add : Int := 8 * 2 ^ 40 + 32 * rate
  let net := t.net + BitVec.ofInt 72 add
  let m : Time := mono
  let n : Time := net.extractLsb' 40 32
  { t with mono := mono, laps := if mono < t.mono then t.laps + 1 else t.laps, net := net,
           monoWraps := if mono < t.mono then t.monoWraps ++ [(m, n)] else t.monoWraps,
           netWraps := if net < t.net then t.netWraps ++ [(false, m, n)] else t.netWraps }

/-- An instant that lies more than 2^30 ns behind MONO: comparisons with it no longer matter, and would turn as MONO wraps. -/
def longPast (now t : Time) : Bool := decide (2 ^ 30 < sdiff now t)

/-- Instants kept for comparison are dropped once they lie long past. -/
def State.forget (s : State) : State :=
  let now := s.mono
  { s with
    pipes := s.pipes.map fun (q : Pipe) => { q with lastSent := q.lastSent.filter fun x => !longPast now x.2 }
    wck := s.wck.map fun (w : WickPort) =>
      { w with bankFire := w.bankFire.map fun (x : Option (Time × Nat)) => x.filter fun y => !longPast now y.1 } }

/-- One cycle of the TIME domain, once the root PLL has locked (R473, R497). -/
def State.tick (s : State) : State :=
  if s.clk.rootLock then
    let s := { s with tim := s.tim.tick (s.rd .TIM_NET_RATE).toInt }
    (s.each (List.range 4) State.commandSlot).forget
  else s

end Sys2Proof.Machine
end

