-- ==== Sys2Proof/Machine/Views.lean ====
section
/-! DEFINITION. What a BAR0 read returns: the stored word of a register, or what a status register shows of the machine's
working state at the instant of the read (R485, R589, R591, R594, and the register tables that close each chapter). A read has
no other effect than those of R593, which are commands. -/

namespace Sys2Proof.Machine

/-- HST_STATUS.width: lanes, 0 while the data link layer is down (R346). -/
def State.linkWidth (s : State) : Nat :=
  if !s.hst.dlUp then 0
  else match s.hst.cfg.width with
    | .x1 => 1
    | .x2 => 2
    | .x4 => 4
    | .x8 => 8

/-- HST_STATUS.speed: 1 to 5, 0 while the data link layer is down (R346). -/
def State.linkSpeed (s : State) : Nat := if s.hst.dlUp then s.hst.cfg.speed.ctorIdx + 1 else 0

/-- A memory BAR of the endpoint (R351): a 64-bit BAR takes two places. -/
structure Bar where
  index : Nat
  bytes : Nat
  is64 : Bool
  prefetchable : Bool
  deriving DecidableEq, Repr

/-- The BARs that are implemented: BAR0 with the register space and BAR2 with HST_KICK; the others and the expansion ROM are not (R351). -/
def bars : List Bar := [⟨0, 2 ^ 24, true, false⟩, ⟨2, 2 ^ 12, true, false⟩]

/-- The 32 bits at a BAR's place of the configuration header that its size and kind fix, the rest being the address the host gave it, which
is outside this model: the low word of a BAR reads its kind, and a place with no BAR reads 0. The places are those of the PCI header
(PRESUMED, log 145). -/
def barWord (place : Nat) : Word :=
  match bars.find? (fun b => b.index == place) with
  | some b => BitVec.ofNat 32 ((if b.is64 then 4 else 0) + (if b.prefetchable then 8 else 0))
  | none => 0

/-- The bits of a BAR's place that the host can set: those at and above its size (R351; PRESUMED as above, log 145). -/
def barMask (place : Nat) : Word :=
  match bars.find? (fun b => b.index == place) with
  | some b => BitVec.ofNat 32 (2 ^ 32 - b.bytes)
  | none => if bars.any (fun b => b.is64 && b.index + 1 == place) then BitVec.allOnes 32 else 0

/-- A 16-bit word of the configuration space header, none while the endpoint answers with Configuration Request Retry Status (R424, R587);
the places of the registers are those of the PCI header, and the BARs are read as they stand before the host gives them an address (PRESUMED,
log 145). -/
def State.configHeader (s : State) (offset : Nat) : Option (BitVec 16) :=
  if s.configRetry then none
  else match offset with
    | 0x00 => some 0x1E6B
    | 0x02 => some 0x8824
    | 0x08 => some (BitVec.ofNat 16 (s.get .GLB_REV_stepping))
    | 0x0A => some 0x1180
    | 0x2C => some 0x1E6B
    | 0x2E => some 0x0801
    | 0x30 | 0x32 | 0x3C => some 0
    | _ =>
      if 0x10 ≤ offset ∧ offset < 0x28 ∧ offset % 2 = 0 then
        some (BitVec.ofNat 16 ((barWord ((offset - 0x10) / 4)).toNat / 2 ^ (8 * (offset % 4))))
      else none

/-- Bits packed from bit `lo` on. -/
def fieldAt (lo v : Nat) : Nat := v * 2 ^ lo

/-- A flag at a bit. -/
def bit (lo : Nat) (b : Bool) : Nat := if b then 2 ^ lo else 0

/-! ### Raster store, Transit, Wick -/

/-- Source strips that the heads of a port, each with one source sample more to its right, meet in one row of the running placement
(R90, R91, R105). -/
def State.stripsMet (s : State) (p : Nat) : Nat :=
  let b := barOf p
  match (s.groupOf b).bind fun g => if (s.group g).running then (s.group g).queue.head? else none with
  | none => 0
  | some pl =>
    match s.section pl.sec, planeOf pl.map b with
    | some x, some n =>
      match x.planes[n]? with
      | none => 0
      | some q =>
        let width := x.planeWidth q
        let h := s.heads p
        let strips := (List.range h.heads).flatMap fun j =>
          let lo := s.mer.geom.origin p j - pl.origin
          let hi := lo + h.nozzles - 1
          let first := lo.toNat * q.xres / 1200
          let reach := hi * (q.xres : Int) / 1200 + 1
          let last := min (width - 1) reach.toNat
          if reach < 0 ∨ width ≤ first then [] else (List.range (last / 256 + 1)).filter fun i => decide (first / 256 ≤ i)
        strips.dedup.length
    | _, _ => 0

/-- Decoding a line takes longer than a line period (R91): 64 CORE clocks of 1,100 MHz for each strip of a source row. -/
def State.stripsOver (s : State) (p : Nat) : Bool :=
  let yres := (((s.groupOf (barOf p)).bind fun g => (s.group g).queue.head?).bind fun pl =>
    (s.section pl.sec).bind fun x => (planeOf pl.map (barOf p)).bind fun n => x.planes[n]?).elim 1200 (·.yres)
  decide (1100000000 * 1200 < 64 * s.stripsMet p * yres * s.practicalRate p)

/-- Word n of the OUT flags of the neighbours in the overlaps that they share with port p (R102). -/
def State.peerOut (s : State) (p n : Nat) : Nat :=
  let q := if n < 4 then p - 1 else p + 1
  let flags := if (n < 4 && p % 3 == 0) || (4 ≤ n && p % 3 == 2) then [] else s.sharedOut (s.tabNow 2 q).cur.words q p
  ((flags.drop (32 * (n % 4))).take 32).zipIdx.foldl (fun w (f, i) => w + bit i f) 0

/-- Pending changes of the tables of port p, TONE lowest. -/
def State.tablesPending (s : State) (p : Nat) : Nat :=
  [1, 2, 3, 4, 5, 6].foldl (fun w k => w + bit (k - 1) (s.tabPending k (if k = 2 then p else barOf p))) 0

/-- A WAVE load or a reload of port p is pending. -/
def State.wavePending (s : State) (p : Nat) : Bool :=
  let w := s.wick p
  s.tabPending 8 p || (w.write.any fun x => x.purpose != .afterCaps) || w.bankFrom.isSome || (s.actFind 5 p).isSome
    || (s.waits.any fun x => x.kind == 8 && x.target == p) || (s.twn.proposals ++ s.twn.held).any fun q => isTable 8 p q.body

/-- The raster store, Transit and Wick. STO_SECT_INFO.refs stays at 127 where more placements refer to the section (DESIGN CHOICE,
log 151). TRN_DELAY_USE shows its reset value until the port's first capability exchange, although
R598 gives the port the reference geometry before it (DESIGN CHOICE, log 135). -/
def viewsLine : List (Reg × (State → Nat → Nat → Nat)) :=
  [(.STO_PAGES, fun s _ _ => s.regionPages - s.usedPages),
   (.STO_SECTIONS, fun s _ _ =>
     fieldAt 16 (s.sto.sections.filter fun e => e.2.st == .sealed').length + (s.sto.sections.filter fun e => e.2.st == .opened).length),
   (.STO_SECT_INFO, fun s _ _ =>
     let n := s.get .STO_SECT_SEL_section
     let s := s.settleGroups
     match s.sto.sections.find? n with
     | some x => fieldAt 12 x.pages + fieldAt 4 (min 127 (s.refs n)) + (if x.st = .opened then 1 else 2)
     | none => fieldAt 4 (min 127 (s.refs n))),
   (.STO_PLACE_STATUS, fun s g _ =>
     let q := s.settleGroups.group g
     bit 24 q.running + fieldAt 16 q.queue.length + (if q.running then (q.queue.head?.map (·.handle)).getD 0 else 0)),
   (.STO_PLACE_REPEAT, fun s g _ =>
     s.settleGroups.placeRepeat g % 2 ^ 24),
   (.TRN_STATUS, fun s p _ => fieldAt 8 (s.tablesPending p) + bit 2 (s.pipe p).priming + bit 1 (s.pipe p).running),
   (.TRN_GEOM, fun s p _ =>
     match (s.link p).geom with
     | some h => fieldAt 28 h.heads + fieldAt 24 h.rows + h.nozzles % 65536
     | none => 0),
   (.TRN_DELAY_USE, fun s p _ => if (s.link p).geom.isSome then s.delayUse s.mer.geom p else 0),
   (.TRN_LINE_LO, fun s p _ => ((s.pipe p).highest.getD 0).toNat % 2 ^ 32),
   (.TRN_PEER_OUT, State.peerOut),
   (.TRN_STRIPS, fun s p _ =>
     let s := s.settleGroups
     bit 31 (s.stripsOver p) + min 255 (s.stripsMet p)),
   (.WCK_STATUS, fun s p _ =>
     let w := s.wick p
     bit 7 w.ovsU + bit 6 w.ovs + bit 2 (s.wavePending p) + bit 1 w.named + bit 0 (s.wickReady p)),
   (.WCK_TMIN, fun s p _ => s.tMin p),
   (.WCK_LONGEST, fun s p _ => longestEntry (s.wave p)),
   (.WCK_HEAD, fun s p h =>
     let x := s.head p h
     fieldAt 16 x.temp.toNat + bit 15 x.stale + bit 14 x.hot + bit 13 x.derate + fieldAt 8 (headResult (s.wave p) x).2)]

/-! ### Meridian, links, Photometer, twin -/

/-- Codes of the link states (GHL_STATUS.state). -/
def LinkState.code : LinkState → Nat
  | .down => 0
  | .detect => 1
  | .train => 2
  | .lock => 3
  | .caps => 4
  | .active => 5
  | .retrain => 6

/-- A 32-bit signed value rounded down. -/
def signed32 (x : Rat) : Nat := (BitVec.ofInt 32 x.floor).toNat

/-- Meridian, the links, the Photometer and the twin. MER_LATCH_POS_LO shows 0 while its queue is empty, which the spec leaves open
(DESIGN CHOICE, log 79). -/
def viewsPorts : List (Reg × (State → Nat → Nat → Nat)) :=
  [(.MER_STATUS, fun s _ _ =>
     bit 5 s.geomOk + bit 4 s.mer.loaded + bit 3 s.ssiBusy + bit 2 ((s.enc 0).lastUp == some false) + bit 1 s.mer.est.stopped
       + bit 0 s.rdyMer),
   (.MER_POS_LO, fun s _ _ => s.pos.toNat % 2 ^ 32),
   (.MER_POS_CMD, fun s _ _ => bit 1 s.mer.ssi.loadPending),
   (.MER_SPEED, fun s _ _ => signed32 (s.mer.est.v * 65536000)),
   (.MER_ACCEL, fun s _ _ => signed32 (s.mer.est.a * 256000000000000)),
   (.MER_ENC_COUNT, fun s e _ => (s.enc e).counts.toNat),
   (.MER_SSI_RAW_LO, fun s _ _ => s.mer.ssi.raw % 2 ^ 32),
   (.MER_LATCH_POS_LO, fun s n _ => ((s.mer.latches.getD n []).head?.map fun x => x.pos.toNat % 2 ^ 32).getD 0),
   (.MER_LATCH_STATUS, fun s n _ => fieldAt 8 (s.get .MER_LATCH_STATUS_ovf n) + (s.mer.latches.getD n []).length),
   (.MER_GEOM_STATUS, fun s _ _ =>
     bit 31 (s.shadow != s.mer.geom) + fieldAt 8 (s.get .MER_GEOM_STATUS_port) + s.get .MER_GEOM_STATUS_fail),
   (.GHL_STATUS, fun s p _ =>
     let l := s.link p
     bit 31 l.busy + bit 30 l.laShort + bit 29 l.capsBad + bit 28 l.dual + fieldAt 16 l.reason + fieldAt 10 l.version + fieldAt 9 l.rate
       + bit 8 l.lock + l.st.code),
   (.PHO_STATUS, fun s c _ =>
     let x := s.cam c
     let n : BitVec 16 := if x.started then x.nextNo - 1 else 0
     fieldAt 16 n.toNat + fieldAt 8 ((x.frame.map (·.expId)).getD x.active.2) + bit 7 x.frame.isSome + x.lastFlags.toNat),
   (.PHO_EXP_STATE, fun s c _ =>
     let x := s.cam c
     fieldAt 24 x.active.2 + fieldAt 16 ((x.waiting.head?.map (·.id)).getD 0) + fieldAt 8 ((x.sending.map (·.id)).getD 0) + bit 2 x.uncertain
       + bit 1 x.sending.isSome + bit 0 (!x.waiting.isEmpty)),
   (.PHO_LOOP_EPOCH_LO, fun s _ _ => s.pho.loop.epoch.toNat % 2 ^ 32),
   (.PHO_TONE_DELTA, fun s b k => (BitVec.ofInt 16 ((s.pho.loop.delta.getD b []).getD k 0)).toNat),
   (.TWN_STATUS, fun s _ _ =>
     fieldAt 20 s.twn.fail + fieldAt 16 s.twn.version + bit 12 s.aliveIn + bit 11 (s.twinActive 1) + bit 10 (s.twinActive 0)
       + fieldAt 8 s.twn.role.code + s.twn.pair.code),
   (.TWN_JOIN_LO, fun s _ _ => s.twn.joinShown.toNat % 2 ^ 32),
   (.TWN_CKPT_LINE_LO, fun s _ _ => s.twn.ckptLine.toNat % 2 ^ 32)]

/-! ### Host interface, Lantern, device, Lamplighter, DRAM, clocks, time, Eyepiece, Almanac -/

/-- The mean deviation of REFCLK over the last 10 ms (R496): 0 from reset until 10 ms of MONO have passed and it is measured; then a free value,
which no command reports (log 4). -/
def State.refPpm (s : State) : Nat := if s.elapsed 0 10000000 then (Config.freeWord s.free).toNat % 65536 else 0

def viewsHost : List (Reg × (State → Nat → Nat → Nat)) :=
  [(.HST_STATUS, fun s _ _ =>
     bit 31 s.hst.dlUp + bit 30 s.hst.l1 + bit 29 s.hst.d3hot + fieldAt 20 s.linkWidth + fieldAt 16 s.linkSpeed),
   (.HST_RING_STATUS, fun s r _ => let g := s.ring r; fieldAt 30 g.st.code + fieldAt 24 g.reason + min 511 g.inflight),
   (.LTN_STATUS, fun s _ _ =>
     bit 5 (s.dev.dev == .held) + bit 4 s.faultN + bit 3 s.ltn.fHold + bit 2 (s.classRaised 3) + bit 1 (s.classRaised 2)
       + bit 0 (s.classRaised 1)),
   (.GLB_STATE, fun s _ _ =>
     fieldAt 20 s.dev.factoryStep + fieldAt 16 (if s.dev.flStep = 7 ∧ s.drm.ready then 8 else s.dev.flStep) + bit 12 s.rdyGhl + bit 11 s.rdyWck + bit 10 s.rdyMer + bit 9 s.rdyTrn
       + bit 8 s.rdySto + bit 7 s.dev.locked + bit 6 s.dev.factoryOk + bit 5 s.drm.ready + s.dev.dev.code),
   (.GLB_BUSY, fun s _ _ =>
     (List.range 24).foldl (fun w p => w + bit (3 + p) (s.link p).busy) 0 + bit 2 s.dev.factoryLoading + bit 1 s.almBusy
       + bit 0 s.drmBusy),
   (.GLB_STOP_LINE_LO, fun s _ _ => s.dev.stopShown.toNat % 2 ^ 32),
   (.LMP_STATUS, fun s _ _ =>
     fieldAt 22 s.lmp.queue.length + ((List.range 10).filter fun a => s.lmp.running.any fun x => x.code == a + 1).foldl (fun w a => w + 2 ^ (a + 1)) 0),
   (.DRM_STATUS, fun s _ _ =>
     let c := (List.range 4).find? fun c => (s.retrainOn c).isSome
     fieldAt 8 (match s.drm.sr with
       | .active => 0
       | .entering => 1
       | .inside => 2
       | .exiting => 3)
       + bit 7 c.isSome + fieldAt 4 (c.getD 0) + (List.range 4).foldl (fun w c => w + bit c (s.chan c).trained) 0),
   (.CLK_STATUS, fun s _ _ =>
     fieldAt 16 s.refPpm + bit 6 s.clk.refOk + bit 5 s.clk.pixLock + bit 4 s.clk.pcieUp + bit 3 s.clk.rootLock + bit 2 s.clk.rootLock
       + bit 1 s.clk.rootLock + bit 0 s.clk.rootLock),
   (.TIM_STATUS, fun s _ _ => fieldAt 3 s.tim.txq.length + bit 2 s.tim.link + bit 1 s.tim.secValid + bit 0 s.tim.netValid),
   (.TIM_MONO, fun s _ _ => s.mono.toNat),
   (.TIM_NET, fun s _ _ => s.net.toNat),
   (.TIM_TXTS_TAG, fun s _ _ => bit 16 (!s.tim.txq.isEmpty) + ((s.tim.txq.head?.map (·.1)).getD 0) % 65536),
   (.TIM_TXTS_NET, fun s _ _ => (s.tim.txq.head?.map fun x => x.2.toNat).getD 0),
   (.EYE_STATUS, fun s _ _ =>
     bit 31 s.eye.pending.isSome + bit 30 s.eye.shown.isSome + fieldAt 16 (s.eye.line % 4096) + s.eye.frame.toNat),
   (.EYE_SCAN_ADDR, fun s _ _ => ((s.eye.shown.map (·.addr)).getD 0) / 16),
   (.ALM_RD_DATA, fun s _ _ =>
     if s.almBusy then 0 else leAt (Memory.reads Memory.flashFill s.alm.flash (s.rd .ALM_RD_ADDR).toNat 4) 0 4),
   (.ALM_SLOTS, fun s _ _ =>
     let count (l : List Nat) (f : Nat → Bool) : Nat := (l.filter f).length
     fieldAt 24 (count (List.range 16) fun i => s.slotErased true i || s.slotReclaimable true i)
       + fieldAt 16 (count (List.range 96) fun i => !s.slotErased false i && s.slotReclaimable false i)
       + count (List.range 96) (s.slotErased false))]

/-! ### A read -/

/-- The word of a register that a read returns: write-only fields and command bits read 0 (R13). -/
def State.readWord (s : State) (r : Reg) (i j k : Nat) : Word :=
  match ruleOf r (viewsLine ++ viewsPorts ++ viewsHost) with
  | some f => BitVec.ofNat 32 (f s i j)
  | none => s.rd r i j k &&& ~~~(r.maskOf [.wo, .w1s])

/-- A write of the register at an offset is pending in its crossing (R485). -/
def State.writePends (s : State) (off : Nat) : Bool :=
  match s.xingOf off with
  | some x => (s.xing x).writes.any fun w => w.off == off
  | none => false

/-- A BAR0 read of the 32-bit register that contains an offset (R485, R589, R591, R594): all ones during a warm reset, 0 at a reserved offset.
A read of a register with a write pending waits until the write has been applied or discarded: it answers nothing yet. -/
def State.readReg (s : State) (off : Nat) : Option Word :=
  if s.dev.dev = .dark then some 0xFFFFFFFF
  else if s.writePends (off / 4 * 4) then none
  else match Reg.ofOffset (off / 4 * 4) with
    | none => some 0
    | some (r, l) => some (s.readWord r (l.getD 0 0) (l.getD 1 0) (l.getD 2 0))

/-- A BAR0 read of a number of bytes (R589): those of the 32-bit register that contains them; 8 bytes are two reads in ascending address
order, so that a _LO register and its partner come from one instant. -/
def State.readBytes (s : State) (off size : Nat) : Option Bytes :=
  (s.readReg off).bind fun a =>
    if size = 8 then
      ((if s.dev.dev = .dark then s else s.loCapture off).readReg (off + 4)).map fun b => toLe 4 a.toNat ++ toLe 4 b.toNat
    else some (((toLe 4 a.toNat).drop (off % 4)).take size)

end Sys2Proof.Machine
end

