-- ==== Sys2Proof/Safety.lean ====
section
/-! DEFINITION. What the claims are stated in: the parts of the state, frames over them, and the canonical shape that every step
keeps. -/

namespace Sys2Proof.Machine

/-- The parts of the state that a frame names: its fields, with the DRAM and the flash apart from their controllers, and what traffic on the
PCI Express link changes (R348) apart from the host interface. -/
inductive Part where
  | regs | dev | pwr | clk | ltn | lmp | hst | pcie | sto | tabs | waits | pipes | wck | mer
  | links | twn | pho | drm | mem | tim | eye | alm | flash | out | free | pending
  deriving DecidableEq, Repr

/-- A part is the same in two states; the DRAM and the flash are the same where every byte reads alike. -/
def Part.same (s t : State) : Part → Prop
  | .regs => ∀ off : Nat, t.regs.find? off = s.regs.find? off
  | .dev => t.dev = s.dev
  | .pwr => t.pwr = s.pwr
  | .clk => t.clk = s.clk
  | .ltn => t.ltn = s.ltn
  | .lmp => t.lmp = s.lmp
  | .hst => { t.hst with l1 := false, busyAt := 0 } = { s.hst with l1 := false, busyAt := 0 }
  | .pcie => t.hst.l1 = s.hst.l1 ∧ t.hst.busyAt = s.hst.busyAt
  | .sto => t.sto = s.sto
  | .tabs => t.tabs = s.tabs
  | .waits => t.waits = s.waits
  | .pipes => t.pipes = s.pipes
  | .wck => t.wck = s.wck
  | .mer => t.mer = s.mer
  | .links => t.links = s.links
  | .twn => t.twn = s.twn
  | .pho => t.pho = s.pho
  | .drm => { t.drm with mem := [] } = { s.drm with mem := [] }
  | .mem => ∀ a : Nat, t.drm.mem.read Memory.dramFill a = s.drm.mem.read Memory.dramFill a
  | .tim => t.tim = s.tim
  | .eye => t.eye = s.eye
  | .alm => { t.alm with flash := [] } = { s.alm with flash := [] }
  | .flash => ∀ a : Nat, t.alm.flash.read Memory.flashFill a = s.alm.flash.read Memory.flashFill a
  | .out => t.out = s.out
  | .free => t.free = s.free
  | .pending => t.pending = s.pending

/-- From `s` to `t` nothing changes but the parts named. -/
def State.onlyIn (s t : State) (parts : List Part) : Prop := ∀ x : Part, x ∈ parts ∨ x.same s t

/-- From `s` to `t` no register changes but those at the BAR0 offsets named. -/
def State.regsOnlyAt (s t : State) (offs : List Nat) : Prop :=
  ∀ off : Nat, off ∈ offs ∨ t.regs.find? off = s.regs.find? off

/-- The stores of the block are in canonical form: the register file lists each offset once, in rising order, and the DRAM and
the flash list each address once, in rising order, and no byte that an unlisted address reads as. -/
abbrev State.canonical (s : State) : Prop :=
  s.regs.sorted = true ∧ s.drm.mem.wf Memory.dramFill = true ∧ s.alm.flash.wf Memory.flashFill = true

/-- The block has as many of each unit as the spec gives it: pipelines and head ports 24, links 26 with the twin ports, rings 64,
crossings 40, encoder inputs 2, latch units 8, compare units 16, camera ports 4, DRAM channels 4, pulse generators
8, fault classes 3 (R5, R10, R390, R489). -/
abbrev State.shaped (s : State) : Prop :=
  s.pipes.length = 24 ∧ s.wck.length = 24 ∧ s.links.length = 26 ∧ s.hst.rings.length = 64 ∧ s.clk.xings.length = 40
    ∧ s.ltn.classes.length = 3 ∧ s.mer.encs.length = 2
    ∧ s.mer.latches.length = 8 ∧ s.mer.latchDue.length = 8 ∧ s.mer.cmps.length = 16 ∧ s.mer.strobes.length = 4
    ∧ s.mer.camtrigs.length = 4 ∧ s.mer.tpulses.length = 8 ∧ s.pho.cams.length = 4 ∧ s.drm.chans.length = 4
    ∧ s.tim.gens.length = 8

/-- A raster store lists each of its sections once, in rising order, no section holds a page twice, and there are four bar groups (R46, R51,
R62). -/
abbrev Store.fit (x : Store) : Prop :=
  x.sections.sorted = true ∧ (∀ e ∈ x.sections, e.2.table.Nodup) ∧ x.groups.length = 4

/-- A port of Wick has places for eight heads (spec/00_scope.md: up to 8 heads on a port). -/
abbrev WickPort.fit (w : WickPort) : Prop := w.heads.length = 8

/-- A DRAM channel has two ranks of 16 banks, refreshed in 16 pairs, and lists the mode registers written each once (R442,
R455). -/
abbrev Channel.fit (c : Channel) : Prop :=
  c.banks.length = 32 ∧ c.postponed.length = 16 ∧ c.refreshedAt.length = 16 ∧ c.modes.sorted = true

/-- What a joining module would have back is a raster store as any is (R323). -/
abbrev Twin.fit (x : Twin) : Prop := ∀ b ∈ x.before, b.sto.fit

/-- The units that State holds in lists are themselves as the spec gives them. -/
abbrev State.fitted (s : State) : Prop :=
  s.sto.fit ∧ (∀ w ∈ s.wck, w.fit) ∧ s.twn.fit ∧ ∀ c ∈ s.drm.chans, c.fit

/-- The invariant of the block. -/
abbrev State.sound (s : State) : Prop := s.canonical ∧ s.shaped ∧ s.fitted

/-- A run is safe where no step of it stops: nothing that the spec describes stops the block. -/
def State.safe (s : State) : Prop := ∃ t, step s = .next t

/-! ### Descriptors in the claims (R362, R363, R374, R380) -/

/-- The 8824 takes the descriptor `d` from ring `r` now, can read it, and finds it good and of opcode `op` (R362, R363, R374). -/
abbrev State.accepts (s : State) (r : Nat) (d : Bytes) (op : Nat) : Prop :=
  d.length = 32 ∧ s.takes r d = true ∧ s.windowOk false (s.ringBase r + 32 * (s.ring r).dev) 32 = true ∧ crcOk d = true
    ∧ opcodeOk (s.ringKind r) (s.ctxOf r d).v1 op = true ∧ dOpcode d = op ∧ reservedSet d (s.ctxOf r d).v1 = false

/-- From `s` to `t` the host interface changes in the rings named alone, beside the ring whose turn comes next (R373) and the traffic on
its link. -/
def State.ringsOnly (s t : State) (rs : List Nat) : Prop :=
  { t.hst with rings := [], l1 := false, busyAt := 0, turn := 0 } = { s.hst with rings := [], l1 := false, busyAt := 0, turn := 0 } ∧ ∀ q : Nat, q ∈ rs ∨ t.ring q = s.ring q

/-- In `t` the entry at the device index that ring `r` has in `s` has been taken and is in flight. -/
def State.took (s t : State) (r : Nat) : Prop :=
  (t.ring r).dev = ((s.ring r).dev + 1) % s.ringSize r ∧ (t.ring r).inflight = (s.ring r).inflight + 1

/-- In `t` a descriptor's completion waits, behind those that wait in `s`, for the COMPLETE ring of its own ring. -/
def State.completes (s t : State) (c : Ctx) (st : Status) (result : Nat) : Prop :=
  (t.ring (s.cring c.ring)).waiting = (s.ring (s.cring c.ring)).waiting ++ [⟨c, st.code, BitVec.ofNat 56 result⟩]

/-- In `t` the descriptor `d` of ring `r` has been taken and its completion waits; the host interface changes in nothing else. -/
def State.answered (s t : State) (r : Nat) (d : Bytes) (st : Status) (result : Nat) : Prop :=
  s.took t r ∧ s.completes t (s.ctxOf r d) st result ∧ s.ringsOnly t [r, s.cring r]

/-- In `t` the descriptor of ring `r` has been taken and none of it has completed yet. -/
def State.inFlight (s t : State) (r : Nat) : Prop :=
  s.took t r ∧ (∀ q, (t.ring q).waiting = (s.ring q).waiting) ∧ s.ringsOnly t [r]

/-- The table image that a LOAD_TABLE names can be read and passes the checks of R599. -/
abbrev State.imageGood (s : State) (d image : Bytes) : Prop :=
  image.length = leAt d 24 4 ∧ 16 ≤ image.length ∧ s.windowOk false (leAt d 16 8) (leAt d 24 4) = true ∧ crcOk (image.take 16) = true
    ∧ headerOk image image.length = true ∧ leAt image 12 2 = (crc16 (image.drop 16)).toNat
    ∧ bodyOk (byteAt image 0) (leAt image 4 4) (image.drop 16) (s.link (byteAt image 1)).version = true

/-! ### Registers, counters and raises in the claims -/

/-- A host write to a BAR0 offset is not held on its way: the device is not DARK, and its crossing carries traffic and holds no write (R484,
R490, R594). -/
def State.reaches (s : State) (off : Nat) : Bool :=
  s.dev.dev != .dark && match s.xingOf off with
    | some x => (s.xing x).writes.isEmpty && (s.xing x).sync == .running
    | none => true

/-- In `t` a counter is one higher than in `s`, or stays at its greatest value. -/
def State.counted (s t : State) (f : Fld) (i : Nat := 0) : Prop := t.get f i = min (s.get f i + 1) (2 ^ (f.hi + 1 - f.lo) - 1)

/-- From `s` to `t` Lantern takes one raise, of a source, class, instances, action code and detail word, and changes in nothing
else (R390, R415). -/
def State.raised (s t : State) (x : Src) (cls inst0 inst1 action : Nat) (detail : Word) : Prop :=
  t.ltn = { s.ltn with raises := insertRaise ⟨x.num, cls, inst0, inst1, action, detail, false, s.clock⟩ s.ltn.raises }

/-- In `t` a host write to a BAR0 offset has been refused and counted, and nothing else has changed (R428). -/
def State.refusedAt (s t : State) (off reason : Nat) : Prop :=
  s.counted t .GLB_REFUSED ∧ t.get .GLB_REFUSED_INFO_reason = reason ∧ t.get .GLB_REFUSED_INFO_offset = off
    ∧ s.regsOnlyAt t [Reg.GLB_REFUSED.addr 0 0 0, Reg.GLB_REFUSED_INFO.addr 0 0 0] ∧ s.onlyIn t [.regs, .pcie]

/-! ### Links in the claims (R226, R228) -/

/-- In `t` link `p` has gone DOWN with a reason: its output is electrically idle, its side of its crossing is reset, and every other
link is as it was. -/
def State.wentDown (s t : State) (p reason : Nat) : Prop :=
  (t.link p).st = .down ∧ (t.link p).reason = reason ∧ (t.link p).version = 0 ∧ (t.link p).unacked = [] ∧ .electricalIdle p ∈ t.out
    ∧ (t.xing p).sync = .waiting ∧ ∀ q : Nat, q ≠ p → t.link q = s.link q

/-- In `t` link `p` trains at a rate: it has been moved to TRAIN or RETRAIN now, and every other link is as it was (R225). -/
def State.trainsAt (s t : State) (p : Nat) (st : LinkState) (rate : Nat) : Prop :=
  (t.link p).st = st ∧ (t.link p).rate = rate ∧ (t.link p).since = s.clock ∧ (t.link p).lock = false ∧ (t.link p).train.ready = false
    ∧ ∀ q : Nat, q ≠ p → t.link q = s.link q

/-- In `t` one control frame has left port `p`, with the next control sequence number, and waits for its acknowledgement (R255). -/
def State.ctlSent (s t : State) (p : Nat) (seq : BitVec 32) (raw : Bytes) : Prop :=
  (t.link p).unacked = [⟨seq, raw, s.clock, 0⟩] ∧ (t.link p).ctlNext = seq + 1 ∧ (t.link p).queued = []

/-- The link frames that have left link `p`, oldest first. -/
def State.framesOut (s : State) (p : Nat) : List Bytes := s.out.filterMap fun o =>
  match o with
  | .linkFrame q frame _ => if q = p then some frame else none
  | _ => none

/-- A control frame as it leaves at a MONO time: a SYNC REQ carries that time (R237). -/
def CtlFrame.wire (f : CtlFrame) (now : Time) : Bytes :=
  finishFrame (if isSyncReq f.frame then splice f.frame 12 (toLe 4 now.toNat) else f.frame) f.seq

/-- In `t` the frames of a list have left port `p` again, in order; each is counted, and its time and its resends are noted (R254,
R255). -/
def State.resent (s t : State) (p : Nat) (l : List CtlFrame) : Prop :=
  t.framesOut p = s.framesOut p ++ l.map (fun f => f.wire s.mono) ∧
  (t.link p).unacked = l.foldl (fun u f => u.map fun g =>
    if g.seq = f.seq then { g with sentAt := s.clock, resends := g.resends + 1 } else g) (s.link p).unacked ∧
  t.get .GHL_RESEND_CNT p = min (s.get .GHL_RESEND_CNT p + l.length) (2 ^ (Fld.GHL_RESEND_CNT.hi + 1 - Fld.GHL_RESEND_CNT.lo) - 1) ∧
  ∀ q, q ≠ p → t.link q = s.link q ∧ t.framesOut q = s.framesOut q

/-- Raises with GHL.PARTNER (U) of port `p` taken in, once for each frame of a list that is sent again for the eighth time (R255). -/
def State.partnerRaises (s : State) (p : Nat) (l : List CtlFrame) (detail : Word) (raises : List Raise) : List Raise :=
  (l.filter fun f => f.resends == 7).foldl (fun r _ => insertRaise ⟨Src.ghlPartner.num, 2, p, 0xFF, 7, detail, false, s.clock⟩ r) raises

/-! ### Doorbells in the claims (R367) -/

/-- The entry of a ring in a doorbell block is of a RUNNING ring, differs from what it last accepted, fails its CRC or names an index outside
the ring, and carries a kick_seq value that no such entry carried before (R367). -/
def State.badDoorbell (s : State) (block : Bytes) (r : Nat) : Bool :=
  let e := (block.drop (8 * r)).take 8
  let k := BitVec.ofNat 32 (leAt e 4 4)
  (s.ring r).st == .running && (leAt e 0 2 != (s.ring r).acc || k != (s.ring r).kick) && (s.ring r).badKick != some k
    && (crc16 (e.take 2 ++ e.drop 4) != BitVec.ofNat 16 (leAt e 2 2) || decide (s.ringSize r ≤ leAt e 0 2))

/-- HST.DOORBELL_RANGE (C) of a ring, its detail the index given, with bit 31 where the CRC failed (R367). -/
def State.doorbellRaise (s : State) (block : Bytes) (r : Nat) : Raise :=
  let e := (block.drop (8 * r)).take 8
  ⟨Src.hstDoorbellRange.num, 1, r, 0xFF, 12,
    BitVec.ofNat 32 (leAt e 0 2 + if crc16 (e.take 2 ++ e.drop 4) = BitVec.ofNat 16 (leAt e 2 2) then 0 else 2 ^ 31), false, s.clock⟩

/-! ### The pair in the claims (R255, R320, R323) -/

/-- Twin port 0 alone is ACTIVE, and a control frame leaves it at once. -/
abbrev State.twinOpen (s : State) : Prop :=
  s.twinActive 0 = true ∧ s.twinActive 1 = false ∧ (s.link 24).unacked.length < 4 ∧ (s.link 24).queued = []

/-- In `t` a message of one control frame has left twin port 0, with the port's next number, and waits for its acknowledgement: the frame
as bytes and scrambled on the lane, and an IDLE block behind it. -/
def State.twinSent (s t : State) (m : TwMsg) : Prop :=
  ∃ raw block lane, m.frames (s.get .STO_CTRL_mirror_effort) = [raw]
    ∧ t.out = s.out ++ [.linkFrame 24 (finishFrame raw (s.link 24).ctlNext)
        (dataBlocks ((finishFrame raw (s.link 24).ctlNext).length / 16) (s.link 24).lfsr (finishFrame raw (s.link 24).ctlNext)),
        .idle 24 block lane]
    ∧ (t.link 24).ctlNext = (s.link 24).ctlNext + 1
    ∧ (t.link 24).unacked = (s.link 24).unacked ++ [⟨(s.link 24).ctlNext, raw, s.clock, 0⟩] ∧ (t.link 24).queued = []
    ∧ ∀ q : Nat, q ≠ 24 → t.link q = s.link q

/-- A frame of a type reaches a twin port that takes it: the port is ACTIVE, the frame is good, and a control frame is the next in
order (R255, R319, R320). -/
abbrev State.hears (s : State) (k type : Nat) (f : Bytes) : Prop :=
  s.twinActive k = true ∧ twinFrameOk type f = true
    ∧ (isTwinControl f = true → BitVec.ofNat 32 (leAt f 4 4) = (s.link (24 + k)).ctlExpected)

/-- In `t` twin port `k` expects the next control sequence number, and every link is as it was otherwise (R255, R320). -/
def State.heard (s t : State) (k : Nat) : Prop :=
  t.link (24 + k) = { s.link (24 + k) with ctlExpected := (s.link (24 + k)).ctlExpected + 1 }
    ∧ ∀ q : Nat, q ≠ 24 + k → t.link q = s.link q

/-- In `t` pairing has failed with a reason, and the module is what it was before, its checkpoint, journal and knowledge of the partner's
ports those that it kept when the pairing began. -/
def State.pairingFailed (s t : State) (reason : Nat) : Prop :=
  t.twn.pair = .unpaired ∧ t.twn.role = s.twn.prior ∧ t.twn.step = 0 ∧ t.twn.joining = false ∧ t.twn.before = none
    ∧ t.twn.fail = reason ∧ t.twn.staged = [] ∧ t.twn.held = [] ∧ t.twn.unvoted = [] ∧ t.twn.chunks = [] ∧ t.twn.version = 0
    ∧ ∀ k : Kept, s.twn.kept = some k → t.twn.ckpt = { k.ckpt with building := none, number := s.twn.ckpt.number }
        ∧ t.twn.ckptLine = k.line ∧ t.twn.peers = k.peers

/-- `t` is the state after a cold reset with a cause, taken from `s`: reset values throughout and DARK, but for the cause, the
supplies, the flash, what has left the block, and the model's own fields (R15, R430). -/
def State.coldStart (s t : State) (cause : Nat) : Prop :=
  t.dev = { State.reset.dev with dev := .dark } ∧ t.hst = { State.reset.hst with gen := s.hst.gen + 1 }
    ∧ t.get .GLB_RESET_CAUSE_cause = cause ∧ t.get .GLB_RESET_CAUSE_f_hold = s.ltn.fHold.toNat
    ∧ State.reset.regsOnlyAt t [Reg.GLB_RESET_CAUSE.addr 0 0 0] ∧ Part.flash.same s t ∧ Part.free.same s t ∧ Part.pending.same s t
    ∧ State.reset.onlyIn t [.regs, .dev, .pwr, .hst, .flash, .out, .free, .pending]

end Sys2Proof.Machine
end

