-- ==== Sys2Proof/Certificates/Slice0/Obligations.lean ====
section
/-! DEFINITION. The statements about the block: its step, its registers, and the effect of every command, family by family. -/

open Sys2Proof Sys2Proof.Machine

/-- For every command c and state s, the step of s with c at the front of its queue is exec of c on s with the queue's rest (the
model's form of a block: commands come first in, first out). (00_scope (Blocks and their names)) -/
def Obligations.StepRunsFrontCommand : Prop :=
  ∀ (c : Instr) (rest : List Instr) (s : State), step { s with pending := c :: rest } = exec c { s with pending := rest }

/-- With an empty queue, a step leaves the state as it is while the root PLL is not locked; while it is locked, the step answers
a next state in which MONO is 8 ns further, no command waits, and the Raster Store, the links, the Almanac and the device
state are as before. That time passes on an empty queue is the model's choice (log 1); the 8 ns are the TIME domain's cycle
of R497. (14_time_network (MONO and NET), 13_clocks_crossings (The nine domains)) -/
def Obligations.EmptyQueueTick : Prop :=
  ∀ s : State, s.pending = [] →
    (s.clk.rootLock = false → step s = .next s) ∧
    (s.clk.rootLock = true → ∃ t, step s = .next t ∧ t.tim.mono = s.tim.mono + 8 ∧ t.pending = [] ∧
      t.sto = s.sto ∧ t.links = s.links ∧ t.alm = s.alm ∧ t.dev = s.dev)

/-- In State.reset every instance of every register holds its reset value, the device is in FIRST_LIGHT with its configuration
not locked, all 64 rings are DISABLED, all 26 links are DOWN, no fault class is RAISED, the web position is 0 and not
loaded, MONO and NET are 0, and no command waits. (R15, 11_first_light (Device states), 09_host_rings (Rings),
16_almanac_sensing (ALM registers)) -/
def Obligations.ResetValues : Prop :=
  (∀ (r : Reg) (i j k : Nat), State.reset.rd r i j k = r.reset i j) ∧ State.reset.dev.dev = .firstLight ∧
    State.reset.dev.locked = false ∧ (∀ r, (State.reset.ring r).st = .disabled) ∧ (∀ p, (State.reset.link p).st = .down) ∧
    (∀ c, State.reset.classRaised c = false) ∧ State.reset.mer.pos = 0 ∧ State.reset.mer.loaded = false ∧
    State.reset.tim.mono = 0 ∧ State.reset.tim.net = 0 ∧ State.reset.pending = []

/-- From every state whose register file, DRAM and flash are in canonical form, that has as many pipelines, links, rings,
crossings, encoder inputs, latch units, compare units, cameras, DRAM channels, pulse generators and fault classes as the
spec gives the block, and whose parts are whole (the sections listed once each in rising order, none with a page twice, four
bar groups; eight places for heads at each port; 32 banks, 16 bank pairs and each written mode register once in a DRAM
channel; and the same of the store that a joining module would have back), a step that answers a next state answers one of
the same kind. (09_host_rings (Rings), 12_dram (Memory organisation and addresses), 16_almanac_sensing (Regions and slots),
18_address_map (Access rules)) -/
def Obligations.StepKeepsSound : Prop :=
  ∀ s t : State, s.sound → step s = .next t → t.sound

/-- State.reset meets the invariant that every step keeps. (00_scope (Headline figures), 11_first_light (Device states)) -/
def Obligations.ResetIsSound : Prop :=
  State.reset.sound

/-- For every command and every state, exec answers a next state and never a fault or a refusal, and so does every step. No rule
of the spec stops the block; that no operand stops it either is the model's choice (log 2). (00_scope (Headline figures)) -/
def Obligations.NoCommandStops : Prop :=
  (∀ (c : Instr) (s : State), ∃ t, exec c s = .next t) ∧ ∀ s : State, s.safe

/-- For every command and state, a next state of exec holds the same waiting commands in the same order (the model's own queue).
(00_scope (Blocks and their names)) -/
def Obligations.CommandsLeaveTheQueue : Prop :=
  ∀ (c : Instr) (s t : State), exec c s = .next t → t.pending = s.pending

/-- MONO is never adjusted: every command but RAIL_FAULT, POWER_DOWN, COLD_RESET and CLOCK_LOSS, which start the block cold,
leaves MONO as it is, whatever the state and the operands. (14_time_network (MONO and NET), 11_first_light (Resets)) -/
def Obligations.OnlyColdStartsTouchMono : Prop :=
  ∀ (c : Instr) (s t : State), exec c s = .next t → c ≠ .railFault → (∀ b, c ≠ .powerDown b) → c ≠ .coldReset →
    c ≠ .clockLoss → t.tim.mono = s.tim.mono

/-- In a sound state, on a head port p: (1) LINE_BEGIN while the device is PRINTING, the pipeline runs and holds less than two
lines, no stop line is in force and no announcement or proposal of a twin is open begins the line that its own prediction
names, behind the line it holds; it counts as begun and is not packed, its codes are those that screening makes of it with
the placements as they then stand, and it has an agreed number, the next behind the lines begun, exactly where the primary
announces; (2) LINE_PACKED packs the oldest line begun, once its codes have gone through the row delays, into the payload of
the port's protocol, and changes nothing but that pipeline; (3) PRIMING_DONE ends priming and changes nothing else; (4)
SEND_DECISION, once the predicted fire time lies within the lookahead and at least T_min behind the last fire, takes off and
passes the oldest line; (5) OVERSPEED_EPISODE_END, 10 ms of MONO after the last slot, ends the episode and changes nothing
but Wick's state of that port; (6) on a head with no nozzle out or weak, a nozzle over a contone value v prints the code
that the bar's map gives for the level of the corrected tone of v, at level 0 where stitching gives its column to the other
head; over a pre-screened plane it prints the stored code, or 0; over no value it prints 0; nothing is lost (worked example:
samples 138, 143 give 141, tone 2,100 gives 2,289); (7) SEND_DECISION of a line begun as an overspeed slot falls at T_min
behind the last fire, whatever its own fire time, and passes the line; on an ACTIVE port the slot is counted and the port is
in an episode; (8) where a follower in MIRROR or DUAL holds an announcement of the port that it has not begun, SEND_DECISION
decides that line with the announced number, and drops the announcement; that such a line is sent blank rather than missed
is the model's reading (log 149); (9) there LINE_BEGIN begins the announced line, with its number and slot flag, and drops
the announcement. (01_line_path (One line, end to end), 03_transit_screening (The stages in order), 04_wick_waveforms
(Overspeed), R27, R124, R169, R170, R171, R105, R108, R110) -/
def Obligations.LineCommandsComplete : Prop :=
  ∀ (s : State) (p : Nat), s.sound → p < 24 →
    ((s.pipe p).running = true → (s.pipe p).begun.length < 2 → s.printing = true → s.dev.stopLine = none → s.announced = false →
      s.twn.anns = [] → s.twn.proposals = [] → ∃ t b h, exec (.lineBegin p) s = .next t ∧ (t.pipe p).begun = (s.pipe p).begun ++ [b] ∧
        b.line = (s.ownNext p).1 ∧ b.ovs = (s.ownNext p).2.1 ∧ b.packed = none ∧ (t.pipe p).highest = some h ∧ lineLe b.line h = true ∧
        b.codes = (((s.updPipe p fun q => { q with highest := some h }).settleGroups.count .WCK_OVS_SKIP_CNT p 0 0
          (s.ownNext p).2.2).screen p b.line (s.pipe p).dec).codes ∧
        b.seq = (if s.announces b.line = true then some ((s.link p).lineNext + BitVec.ofNat 32 (s.pipe p).begun.length) else none) ∧
        (t.pipe p).passed = (s.pipe p).passed ∧ ∀ q, q ≠ p → (t.pipe q).begun = (s.pipe q).begun) ∧
    (∀ b rest, (s.pipe p).begun = b :: rest → b.packed = none → (s.pipe p).priming = false →
      ∃ t codes subs, exec (.linePacked p) s = .next t ∧ s.rowDelayed p (remember (s.pipe p).delay b.line b.codes) b.line = (codes, subs) ∧
        (b.zero = false → (t.pipe p).begun = { b with
          packed := some (packLine (s.link p).proto (s.rd .TRN_G1MAP p).toNat codes, subs) } :: rest) ∧
        (b.zero = true → (t.pipe p).begun = { b with
          packed := some (packLine (s.link p).proto (s.rd .TRN_G1MAP p).toNat (codes.map fun _ => 0), 0) } :: rest) ∧
        s.onlyIn t [.pipes] ∧ ∀ q, q ≠ p → t.pipe q = s.pipe q) ∧
    ((s.pipe p).priming = true →
      ∃ t, exec (.primingDone p) s = .next t ∧ t.pipe p = { s.pipe p with priming := false } ∧
        s.onlyIn t [.pipes] ∧ ∀ q, q ≠ p → t.pipe q = s.pipe q) ∧
    (∀ b rest f, (s.pipe p).begun = b :: rest → (s.pipe p).running = true → s.printing = true → s.movedBack p = false → b.ovs = false →
      (∀ k, (s.pipe p).lastSent = some k → 0 ≤ sdiff f (k.2 + BitVec.ofNat 32 (s.tMin p))) → s.fireTimeOf p b.line = some f →
      sdiff f s.mono ≤ s.lookahead → s.dev.stopLine = none →
      ∃ t, exec (.sendDecision p) s = .next t ∧ (t.pipe p).begun = rest ∧ (t.pipe p).passed = some b.line ∧
        (∀ q, q ≠ p → t.pipe q = s.pipe q) ∧ t.sto = s.sto ∧ t.mer = s.mer ∧ t.drm = s.drm ∧ t.alm = s.alm ∧ t.dev = s.dev) ∧
    ((s.wick p).ovs = true → s.elapsed (s.wick p).ovsAt 10000000 = true →
      ∃ t, exec (.overspeedEpisodeEnd p) s = .next t ∧ (t.wick p).ovs = false ∧ (t.wick p).ovsU = false ∧
        s.onlyIn t [.wck] ∧ ∀ q, q ≠ p → t.wick q = s.wick q) ∧
    (∀ (b : Nat) (k : Line) (l : List HeadView) (h : HeadView) (vals : List (Option Nat)) (n : Nat) (x : Option Nat),
      vals.length = h.nozzles → vals[n]? = some x → (∀ m, m < h.nozzles → isOut (h.word m) = false ∧ isWeak (h.word m) = false) →
      ∀ here, here = selected (s.tabAt 5 b k).bytes l h k n →
      (s.headCodes b k l h true vals).1[n]? = some (match x with
        | some v => BitVec.ofNat 3 (byteAt (s.tabAt 4 b k).bytes (if here = true then
            level (s.tabAt 3 b k).bytes (h.origin + n) k (correct (leAt (s.tabAt 1 b k).bytes (2 * v) 2) (h.word n)) else 0))
        | none => 0) ∧
      (s.headCodes b k l h false vals).1[n]? = some (match x with
        | some v => BitVec.ofNat 3 (if here = true then v else 0)
        | none => 0) ∧
      (s.headCodes b k l h true vals).2 = 0 ∧ (s.headCodes b k l h false vals).2 = 0 ∧ correct 2100 0x9AF4 = 2289 ∧
      ∀ get : Nat → Option Nat, get 19000 = some 138 → get 19001 = some 143 → upsample get 20000 600 true 38001 = some 141) ∧
    (∀ b rest f k, (s.pipe p).begun = b :: rest → (s.pipe p).running = true → s.printing = true → s.movedBack p = false → b.ovs = true →
      b.seq = none → (s.pipe p).lastSent = some k → s.fireTimeOf p b.line = some f →
      sdiff (k.2 + BitVec.ofNat 32 (s.tMin p)) s.mono ≤ s.lookahead → s.dev.stopLine = none → s.twn.role = .none →
      s.twn.tookOver = none → ∃ t, exec (.sendDecision p) s = .next t ∧ (t.pipe p).begun = rest ∧ (t.pipe p).passed = some b.line ∧
        (t.pipe p).lastSent = some (b.line, k.2 + BitVec.ofNat 32 (s.tMin p)) ∧ (∀ q, q ≠ p → t.pipe q = s.pipe q) ∧
        (s.lineActive p = true → s.counted t .WCK_OVS_FIRE_CNT p ∧ (t.wick p).ovs = true ∧ (t.wick p).ovsAt = s.clock)) ∧
    (∀ a f, s.heldAnn p = some a → (s.pipe p).begun = [] → (s.pipe p).running = true → s.printing = true → s.movedBack p = false →
      a.ovs = false → (∀ k, (s.pipe p).lastSent = some k → 0 ≤ sdiff f (k.2 + BitVec.ofNat 32 (s.tMin p))) →
      s.fireTimeOf p a.line = some f → sdiff f s.mono ≤ s.lookahead → s.dev.stopLine = none → s.announced = true →
      ∃ t, exec (.sendDecision p) s = .next t ∧ t.twn.anns = s.twn.anns.erase a ∧ (t.pipe p).passed = some a.line ∧
        (t.pipe p).lastSent = some (a.line, f) ∧ (t.link p).lineNext = a.seq + 1 ∧ (∀ q, q ≠ p → t.pipe q = s.pipe q) ∧
        ((s.link p).timed = true → ∃ rdu, t.twn.fires = ((p, a.seq, f + (s.link p).epoch, rdu) :: s.twn.fires).take 384)) ∧
    (∀ a, s.heldAnn p = some a → (s.pipe p).running = true → (s.pipe p).begun.length < 2 → s.printing = true → s.dev.stopLine = none →
      s.announced = true → s.undecided p a.line = false → s.twn.proposals = [] →
      ∃ t b, exec (.lineBegin p) s = .next t ∧ (t.pipe p).begun = (s.pipe p).begun ++ [b] ∧ b.line = a.line ∧ b.ovs = a.ovs ∧
        b.seq = some a.seq ∧ b.packed = none ∧ t.twn.anns = s.twn.anns.erase a ∧ (t.pipe p).passed = (s.pipe p).passed ∧
        ∀ q, q ≠ p → (t.pipe q).begun = (s.pipe q).begun)

/-- In a sound PRINTING state without a twin role, where the send decision of the oldest line begun falls on an ACTIVE port that
is Wick-ready at that line, and that line is packed, exactly one LINE link frame leaves the port, followed by an IDLE block.
Its BLANK flag is 0; it carries the port's next line sequence number, the line index, the fire time predicted at this
instant, the row delay unit and the packed payload. The line leaves the pipeline, and beside what the line brings into force
on the port (a wave table, a bank, the results of temperature reports: R155, R158, R165) nothing changes but the pipelines,
the link, Wick's note of the fire, the port's counters and what leaves the block. (01_line_path (One line, end to end),
06_gahild_links (Link frames), R23, R24, R244) -/
def Obligations.PackedLineGoesOut : Prop :=
  ∀ (s : State) (p : Nat) (b : Begun) (rest : List Begun) (f : Time) (pay : Bytes) (subs : Nat), s.sound → p < 24 →
    (s.pipe p).running = true → s.printing = true → s.movedBack p = false → (s.pipe p).begun = b :: rest → b.packed = some (pay, subs) →
    b.seq = none → b.ovs = false → (∀ k, (s.pipe p).lastSent = some k → 0 ≤ sdiff f (k.2 + BitVec.ofNat 32 (s.tMin p))) →
    s.fireTimeOf p b.line = some f → sdiff f s.mono ≤ s.lookahead → s.dev.stopLine = none → s.twn.role = .none →
    s.twn.tookOver = none → s.lineActive p = true → ((s.reachBank p b.line).reachHeads p b.line).wickReady p = true →
    ∃ t frame lane block lane', exec (.sendDecision p) s = .next t ∧
      t.out = s.out ++ [.linkFrame p frame lane, .idle p block lane'] ∧ byteAt frame 0 = 1 ∧ byteAt frame 1 % 2 = 0 ∧
      leAt frame 2 2 = pay.length % 65536 ∧ leAt frame 4 4 = (s.link p).lineNext.toNat ∧ leAt frame 8 4 = b.line.toNat % 2 ^ 32 ∧
      leAt frame 12 4 = f.toNat ∧ leAt frame 16 2 = rowDelayUnit s.mer.est f % 65536 ∧ (frame.drop 32).take pay.length = pay ∧
      (t.pipe p).begun = rest ∧ (t.pipe p).passed = some b.line ∧ (t.pipe p).lastSent = some (b.line, f) ∧
      (t.link p).lineNext = (s.link p).lineNext + 1 ∧ (∀ q, q ≠ p → t.pipe q = s.pipe q ∧ t.link q = s.link q) ∧
      ((s.reachBank p b.line).reachHeads p b.line).onlyIn t [.pipes, .links, .wck, .regs, .out]

/-- In a sound PRINTING state of a module without a twin role that has not taken over, with no stop line in force, where the
send decision of the oldest line begun on an ACTIVE port falls, and that line is no overspeed slot, fires no less than T_min
behind the last, and is not packed, the port sends one LINE link frame for that line index, with the BLANK flag and an empty
payload, followed by an IDLE block, behind what left before; TRN.LATE is raised as class U on that port with the line in its
detail and counted; the line leaves the pipeline, so that its work is never sent afterwards; and the frame takes the next
line sequence number. Beside what the line brings into force on the port, nothing changes but that pipeline, that link,
Wick's note of the fire, the registers and Lantern's raises. (R28) -/
def Obligations.LateLineGoesOutBlank : Prop :=
  ∀ (s : State) (p : Nat) (b : Begun) (rest : List Begun) (f : Time), s.sound → p < 24 → (s.pipe p).running = true →
    s.printing = true → (s.pipe p).begun = b :: rest → b.packed = none → b.seq = none → b.ovs = false →
    s.movedBack p = false →
    (∀ k, (s.pipe p).lastSent = some k → 0 ≤ sdiff f (k.2 + BitVec.ofNat 32 (s.tMin p))) → s.fireTimeOf p b.line = some f → sdiff f s.mono ≤ s.lookahead → s.dev.stopLine = none →
    s.twn.role = .none → s.twn.tookOver = none → s.lineActive p = true →
    ∃ t frame lane block lane', exec (.sendDecision p) s = .next t ∧
      t.out = s.out ++ [.linkFrame p frame lane, .idle p block lane'] ∧ frame.length = 32 ∧
      byteAt frame 0 = 1 ∧ byteAt frame 1 % 2 = 1 ∧ leAt frame 2 2 = 0 ∧ leAt frame 4 4 = (s.link p).lineNext.toNat ∧
      leAt frame 8 4 = b.line.toNat % 2 ^ 32 ∧ leAt frame 12 4 = f.toNat ∧ s.counted t .TRN_LATE_CNT p ∧
      ((s.reachBank p b.line).reachHeads p b.line).raised t .trnLate 2 p 0xFF (srcDefaults.getD Src.trnLate.num (0, 0)).2 (b.line.setWidth 32) ∧
      (t.pipe p).begun = rest ∧ (t.pipe p).passed = some b.line ∧ (t.link p).lineNext = (s.link p).lineNext + 1 ∧
      (∀ q, q ≠ p → t.pipe q = s.pipe q ∧ t.link q = s.link q) ∧
      ((s.reachBank p b.line).reachHeads p b.line).onlyIn t [.pipes, .links, .wck, .regs, .ltn, .out]

/-- In a sound PRINTING state without a twin role, where the send decision of the oldest line begun falls on a port that is not
ACTIVE, no link frame leaves, GHL_SKIP_CNT of the port counts one more line (saturating), and the line is passed.
(01_line_path (Changes that meet a line), R35) -/
def Obligations.InactivePortSkipsLines : Prop :=
  ∀ (s : State) (p : Nat) (b : Begun) (rest : List Begun) (f : Time), s.sound → p < 24 → (s.pipe p).running = true →
    s.printing = true → (s.pipe p).begun = b :: rest → b.ovs = false → s.movedBack p = false →
    (∀ k, (s.pipe p).lastSent = some k → 0 ≤ sdiff f (k.2 + BitVec.ofNat 32 (s.tMin p))) →
    s.fireTimeOf p b.line = some f → sdiff f s.mono ≤ s.lookahead → s.dev.stopLine = none → s.twn.role = .none →
    s.lineActive p = false →
    ∃ t, exec (.sendDecision p) s = .next t ∧ t.out = s.out ∧
      (t.rd .GHL_SKIP_CNT p).toNat = min ((s.rd .GHL_SKIP_CNT p).toNat + 1) (2 ^ 32 - 1) ∧
      (t.pipe p).begun = rest ∧ (t.pipe p).passed = some b.line ∧ (t.pipe p).lastSent = some (b.line, f) ∧
      (∀ q, q ≠ p → t.pipe q = s.pipe q) ∧
      ((s.reachBank p b.line).reachHeads p b.line).onlyIn t [.pipes, .links, .regs]

/-- In a sound state with training complete, not HELD and without a twin role, for a descriptor d that ring r accepts: (1)
INGEST_HEADER of a FREE section with a good 64-byte record, for which the region has the pages, opens the section with the
record's width and height and as many planes as it says, each contone or pre-screened and of the resolutions that its byte
of the record gives and expecting line 0, and completes OK; of device DRAM only bytes of the section's own pages change; (2)
SEAL of an OPEN section whose planes are all whole makes it SEALED and completes OK with the pages it holds; (3)
CANCEL_SECTION of a section to which no placement and no strip refers makes it FREE and completes OK. Every other section
stays, and beside that nothing changes but the raster store and the rings of the descriptor; of the raster store
CANCEL_SECTION changes the sections and lets the groups pass what has been begun. (02_raster_store (Sections and planes),
02_raster_store (Ingest), R46, R49, R50) -/
def Obligations.SectionCommandsComplete : Prop :=
  ∀ (s : State) (r : Nat) (d : Bytes), s.sound → s.drm.ready = true → s.dev.dev ≠ .held →
    s.twn.role = .none →
    (∀ record, s.accepts r d 1 → dIngestKind d = 0 → s.section (dSection d 4) = none → leAt d 16 4 = 64 →
      s.windowOk false (leAt d 8 8) 64 = true → record.length = 64 → crcOk record = true → recordOk record (dSection d 4) = true →
      s.storeFull (dSection d 4) (sectionOf record) = false →
      ∃ t x, exec (.ingestHeader r d record) s = .next t ∧ t.sto.sections.find? (dSection d 4) = some x ∧ x.st = .opened ∧
        x.width = leAt record 4 4 ∧ x.height = leAt record 8 4 ∧ x.planes.length = byteAt record 12 ∧
        x.nexts = List.replicate (byteAt record 12) 0 ∧ (∀ i q, x.planes[i]? = some q →
          q.contone = !(byteAt record (16 + i)).testBit 7 ∧ q.xres = resOf (nbits (byteAt record (16 + i)) 6 5) ∧
          q.yres = resOf (nbits (byteAt record (16 + i)) 4 3)) ∧
        (∀ n, n ≠ dSection d 4 → t.sto.sections.find? n = s.sto.sections.find? n) ∧
        (∀ a, (∀ e ∈ x.spots, ∀ i, i < e.2.length → x.physical s.regionBase (e.1 + i) ≠ a) →
          t.drm.mem.read Memory.dramFill a = s.drm.mem.read Memory.dramFill a) ∧
        t.sto.groups = s.sto.groups ∧ s.answered t r d .ok 0 ∧ s.onlyIn t [.sto, .mem, .hst, .pcie]) ∧
    (∀ x, s.accepts r d 2 → s.section (dSection d 4) = some x → x.st = .opened →
      (x.planes.zip x.data).all (fun e => e.2.next == x.planeHeight e.1) = true →
      ∃ t, exec (.seal r d) s = .next t ∧ t.section (dSection d 4) = some { x with st := .sealed' } ∧
        (∀ n, n ≠ dSection d 4 → t.section n = s.section n) ∧ t.sto.groups = s.sto.groups ∧ s.answered t r d .ok x.pages ∧
        s.onlyIn t [.sto, .hst, .pcie]) ∧
    (∀ x, s.accepts r d 4 → byteAt d 4 = 0 → s.section (dSection d 6) = some x →
      (s.each (List.range 4) fun s g => s.settleGroup g).inUse (dSection d 6) = false →
      ∃ t, exec (.cancelSection r d) s = .next t ∧ t.section (dSection d 6) = none ∧
        (∀ n, n ≠ dSection d 6 → t.section n = s.section n) ∧ s.answered t r d .ok 0 ∧ s.onlyIn t [.sto, .hst, .pcie])

/-- In a sound state with training complete, not HELD and without a twin role, for a descriptor d that ring r accepts, of an
OPEN section with room: (1) a RAW band whose first line is the plane's next expected line and whose pitch, lines and effort
level lie in range moves the next expected line by the lines of the band and completes OK with the number of blocks stored
RAW; where no block is, nothing changes but the section, its bytes in device DRAM and the rings; (2) an IBRIK container that
decodes to the plane's size, for a plane that expects line 0 and whose saved state has failed no restore, makes the plane
whole and completes OK with 0. Size, the data of every other plane and every other section stay, and so does every byte of
device DRAM but those that the section's own pages hold of its streams and tables. (02_raster_store (Ingest), R56, R58, R60,
R61) -/
def Obligations.PlaneIngestCompletes : Prop :=
  ∀ (s : State) (r : Nat) (d : Bytes) (x : Section'), s.sound → s.drm.ready = true → s.dev.dev ≠ .held → s.twn.role = .none →
    s.accepts r d 1 → s.section (dSection d 4) = some x → x.st = .opened → x.planes.length = x.data.length →
    nbits (byteAt d 6) 4 2 < x.planes.length →
    (∀ band len q old e new raws, dIngestKind d = 1 → q = x.planes.getD (nbits (byteAt d 6) 4 2) ⟨true, 1200, 1200⟩ →
      old = (if (byteAt d 6).testBit 5 then ⟨0, [], [], true⟩ else x.data.getD (nbits (byteAt d 6) 4 2) ⟨0, [], [], true⟩) →
      nbits (byteAt d 7) 3 0 ≤ 8 → e = (if nbits (byteAt d 7) 3 0 = 8 then s.get .STO_CTRL_effort_default else nbits (byteAt d 7) 3 0) →
      x.planeWidth q ≤ leAt d 26 3 → nbits (leAt d 20 3) 21 0 = old.next → old.next + nbits (leAt d 23 3) 22 0 ≤ x.planeHeight q →
      old.codecOk = true → len = (if nbits (leAt d 23 3) 22 0 = 0 then 0 else (nbits (leAt d 23 3) 22 0 - 1) * leAt d 26 3 + x.planeWidth q) →
      len = 0 ∨ s.windowOk false (leAt d 8 8) len = true → band.length = len →
      appendPlane x q old band (leAt d 26 3) (nbits (leAt d 23 3) 22 0) e ((byteAt d 6).testBit 6) = (new, raws) →
      s.storeFull (dSection d 4) { x with data := upd (nbits (byteAt d 6) 4 2) (fun _ => new) x.data } = false →
      ∃ t y, exec (.ingestPlaneRaw r d band) s = .next t ∧ t.sto.sections.find? (dSection d 4) = some y ∧ y.st = .opened ∧
        y.width = x.width ∧ y.height = x.height ∧ y.planes = x.planes ∧
        (y.data.getD (nbits (byteAt d 6) 4 2) ⟨0, [], [], true⟩).next = old.next + nbits (leAt d 23 3) 22 0 ∧
        (∀ i, i ≠ nbits (byteAt d 6) 4 2 → y.data.getD i ⟨0, [], [], true⟩ = x.data.getD i ⟨0, [], [], true⟩) ∧
        (∀ n, n ≠ dSection d 4 → t.sto.sections.find? n = s.sto.sections.find? n) ∧ t.sto.groups = s.sto.groups ∧
        s.answered t r d .ok raws.length ∧ (∀ a, (∀ e ∈ y.spots, ∀ i, i < e.2.length → y.physical s.regionBase (e.1 + i) ≠ a) →
          t.drm.mem.read Memory.dramFill a = s.drm.mem.read Memory.dramFill a) ∧
        (raws = [] → s.onlyIn t [.sto, .mem, .hst, .pcie])) ∧
    (∀ container strips, dIngestKind d = 2 → (x.data.getD (nbits (byteAt d 6) 4 2) ⟨0, [], [], true⟩).next = 0 →
      s.restoreFailed (dSection d 4) (nbits (byteAt d 6) 4 2) = false → 16 ≤ leAt d 16 4 → s.windowOk false (leAt d 8 8) (leAt d 16 4) = true → container.length = leAt d 16 4 →
      readContainer (x.planeWidth (x.planes.getD (nbits (byteAt d 6) 4 2) ⟨true, 1200, 1200⟩))
        (x.planeHeight (x.planes.getD (nbits (byteAt d 6) 4 2) ⟨true, 1200, 1200⟩))
        (x.planes.getD (nbits (byteAt d 6) 4 2) ⟨true, 1200, 1200⟩).depth container = some strips →
      s.storeFull (dSection d 4) { x with data := upd (nbits (byteAt d 6) 4 2) (fun _ =>
        ⟨x.planeHeight (x.planes.getD (nbits (byteAt d 6) 4 2) ⟨true, 1200, 1200⟩), strips, [], true⟩) x.data } = false →
      ∃ t y, exec (.ingestPlaneIbrik r d container) s = .next t ∧ t.sto.sections.find? (dSection d 4) = some y ∧ y.st = .opened ∧
        y.width = x.width ∧ y.height = x.height ∧ y.planes = x.planes ∧
        (y.data.getD (nbits (byteAt d 6) 4 2) ⟨0, [], [], true⟩).next =
          x.planeHeight (x.planes.getD (nbits (byteAt d 6) 4 2) ⟨true, 1200, 1200⟩) ∧
        (y.data.getD (nbits (byteAt d 6) 4 2) ⟨0, [], [], true⟩).strips = strips ∧
        (∀ i, i ≠ nbits (byteAt d 6) 4 2 → y.data.getD i ⟨0, [], [], true⟩ = x.data.getD i ⟨0, [], [], true⟩) ∧
        (∀ n, n ≠ dSection d 4 → t.sto.sections.find? n = s.sto.sections.find? n) ∧ t.sto.groups = s.sto.groups ∧
        s.answered t r d .ok 0 ∧ (∀ a, (∀ e ∈ y.spots, ∀ i, i < e.2.length → y.physical s.regionBase (e.1 + i) ≠ a) →
          t.drm.mem.read Memory.dramFill a = s.drm.mem.read Memory.dramFill a) ∧
        s.onlyIn t [.sto, .mem, .hst, .pcie])

/-- In a sound state with training complete, not HELD and without a twin role: (1) PLACE of a SEALED section with fields in
range and fewer than 16 placements queued puts a placement with the next handle (that handles count on is the model's
choice: log 61), without a start line, at the end of its group's queue, and its descriptor stays in flight; (2)
PLACEMENT_RESOLVE of a group whose queue holds that one placement and nothing runs gives it a start line, for NEXT the
smallest multiple of 64 at or above the group's begun line plus 256, for AT its own line where that line is not begun, and
for NEXT behind a running placement the line that R72 gives from it, where that is not begun; its PLACE completes OK with
the start line and the handle; (3) CANCEL_PLACEMENT of a placement that has not started takes it out of its queue and both
the cancelled PLACE and it complete, ABORTED and OK, in this order where one COMPLETE ring serves both (that the cancelled
PLACE completes ABORTED is the model's choice: log 60), and of the running placement, with none behind it, fixes its end
line at the smallest multiple of 64 at or above the begun line plus 256 and completes OK with that line. Sections and the
other groups stay. (02_raster_store (Placing sections on the web), R64, R66, R70, R71, R72, R74) -/
def Obligations.PlacementCommandsComplete : Prop :=
  ∀ (s : State) (r g : Nat) (d : Bytes), s.sound → s.drm.ready = true → s.dev.dev ≠ .held →
    s.twn.role = .none →
    (∀ x, s.accepts r d 3 → g = nbits (byteAt d 6) 1 0 → s.section (dSection d 4) = some x → x.st = .sealed' → s.placeOk g (leAt d 16 3) (nbits (leAt d 19 3) 16 0) (leAt d 22 4) x = true →
      ((s.settleGroup g).group g).queue.length < 16 →
      ∃ t q, exec (.place r d) s = .next t ∧ (t.group g).queue = ((s.settleGroup g).group g).queue ++ [q] ∧
        q.handle = (s.sto.handle + 1) % 65536 ∧ t.sto.handle = q.handle ∧ q.sec = dSection d 4 ∧ q.isNext = (byteAt d 6).testBit 2 ∧
        q.repeats = leAt d 13 3 ∧ q.pitch = (if leAt d 16 3 = 0 then x.height else leAt d 16 3) ∧ q.start = none ∧
        q.ctx = some (s.ctxOf r d) ∧ (t.group g).running = ((s.settleGroup g).group g).running ∧
        (∀ k, k ≠ g → t.group k = s.group k) ∧ t.sto.sections = s.sto.sections ∧ s.inFlight t r ∧ s.onlyIn t [.sto, .hst, .pcie]) ∧
    (∀ q c start, g < 4 → s.group g = ⟨[q], false, [], []⟩ → q.start = none → q.ctx = some c → c.gen = s.hst.gen → s.twn.proposals = [] →
      q.fin = none →
      start = (if q.isNext then upTo64 (s.groupBegun g + 256) else q.given) → (q.isNext = false → lineLe q.given (s.groupBegun g) = false) →
      ∃ t, exec (.placementResolve g) s = .next t ∧ (t.group g).queue = [{ q with start := some start, ctx := none }] ∧
        (t.group g).running = false ∧ (∀ k, k ≠ g → t.group k = s.group k) ∧ t.sto.sections = s.sto.sections ∧
        s.completes t c .ok (lineBits c.v1 start + q.handle * 2 ^ 40)) ∧
    (∀ q0 q c start, g < 4 → s.group g = ⟨[q0, q], true, [], []⟩ → (∀ e, q0.fin = some e → lineLe e (s.groupBegun g) = false) →
      q0.handle ≠ q.handle → q.start = none → q.fin = none → q.isNext = true → q.ctx = some c → c.gen = s.hst.gen → s.twn.proposals = [] →
      start = nextStart (some q0) (s.groupBegun g) → lineLe start (s.groupBegun g) = false →
      ∃ t, exec (.placementResolve g) s = .next t ∧ (t.group g).queue = [q0, { q with start := some start, ctx := none }] ∧
        (t.group g).running = true ∧ (∀ k, k ≠ g → t.group k = s.group k) ∧ t.sto.sections = s.sto.sections ∧
        s.completes t c .ok (lineBits c.v1 start + q.handle * 2 ^ 40)) ∧
    (∀ q, s.accepts r d 4 → byteAt d 4 = 1 → g = nbits (byteAt d 5) 1 0 → q.handle = leAt d 6 2 → s.group g = ⟨[q], true, [], []⟩ →
      q.fin = none → ∃ t, exec (.cancelPlacement r d) s = .next t ∧
        (t.group g).queue = [{ q with fin := some (upTo64 (s.groupBegun g + 256)) }] ∧ (t.group g).running = true ∧
        (∀ k, k ≠ g → t.group k = s.group k) ∧ t.sto.sections = s.sto.sections ∧
        s.answered t r d .ok (lineBits (s.ctxOf r d).v1 (upTo64 (s.groupBegun g + 256))) ∧ s.onlyIn t [.sto, .hst, .pcie]) ∧
    (∀ q c h, s.accepts r d 4 → byteAt d 4 = 1 → g = nbits (byteAt d 5) 1 0 → h = leAt d 6 2 →
      ((s.settleGroup g).group g).running = false → ((s.settleGroup g).group g).queue.find? (fun k => k.handle == h) = some q →
      q.ctx = some c → c.gen = s.hst.gen →
      ∃ t, exec (.cancelPlacement r d) s = .next t ∧
        (t.group g).queue = ((s.settleGroup g).group g).queue.filter (fun k => k.handle != h) ∧
        (∀ k, k ≠ g → t.group k = s.group k) ∧ t.sto.sections = s.sto.sections ∧
        (s.cring c.ring ≠ s.cring r → s.completes t (s.ctxOf r d) .ok 0 ∧ s.completes t c .aborted 0) ∧
        (s.cring c.ring = s.cring r → (t.ring (s.cring r)).waiting =
          (s.ring (s.cring r)).waiting ++ [⟨c, Status.aborted.code, 0⟩, ⟨s.ctxOf r d, Status.ok.code, 0⟩]) ∧ s.took t r ∧ s.onlyIn t [.sto, .hst, .pcie])

/-- Whenever a section is stored, in a sound state: it holds as many pages of 64 KB as it needs, none twice, keeping those it
held from the first on, and a page that it takes is no page of another section; through its page table every strip stream
and every table that it holds reads back, byte for byte, from a 256-byte boundary of the section's own address space, the
strip streams in the order of planes and strips; every byte of DRAM outside its pages, every other section, and everything
else of the machine stays. (Which free pages are taken, and the places of the tables behind the streams, are the model's:
logs 133 and 134.) (02_raster_store (Storage in device DRAM), R51, R52) -/
def Obligations.SectionPagesHoldData : Prop :=
  ∀ (s : State) (n : Nat) (x : Section') (t : State), s.sound → t = s.setSection n x → ∃ y : Section', t.sto.sections.find? n = some y ∧ y = { x with table := y.table } ∧ y.table.length = x.need ∧ y.table.Nodup ∧
      (∀ h k, s.sto.sections.find? n = some h → k < x.need → k < h.table.length → y.table.getD k 0 = h.table.getD k 0) ∧
      (∀ m z k, m ≠ n → s.sto.sections.find? m = some z → k ∈ z.table → k ∈ y.table →
        ∃ h, s.sto.sections.find? n = some h ∧ k ∈ h.table) ∧
      (y.spots.map (·.2)).take x.streams.length = x.streams ∧
      (∀ e, e ∈ y.spots → e.1 % 256 = 0 ∧ t.sectionBytes y e.1 e.2.length = e.2) ∧
      (∀ a, (∀ k, k ∈ y.table → a < s.regionBase + k * 65536 ∨ s.regionBase + (k + 1) * 65536 ≤ a) →
        t.drm.mem.read Memory.dramFill a = s.drm.mem.read Memory.dramFill a) ∧
      (∀ m, m ≠ n → t.sto.sections.find? m = s.sto.sections.find? m) ∧ t.sto.groups = s.sto.groups ∧ s.onlyIn t [.sto, .mem]

/-- In a sound state without a twin role, with no change or load of the kind and target open, a LOAD_TABLE that ring r accepts
and whose image passes R599 completes OK with an epoch line E: (1) at NEXT while the device does not print, the table is in
force with its new value since the smallest line that none of the affected pipelines has begun, (2) at NEXT in PRINTING it
is pending for the epoch line of R33 and the table in force stays, (3) at AT with a line that no affected pipeline has begun
it is pending for that line. (4) WAITING_LOAD_COMMIT, with nothing ahead of the one load that waits, does (1) for it and no
load waits any more. Every other table stays. (03_transit_screening (Tables and epoch lines), R132, R135, R137, R599) -/
def Obligations.TableLoadsComplete : Prop :=
  ∀ (s : State) (k g : Nat), s.sound → s.twn.role = .none → s.twn.proposals = [] → s.twn.held = [] → s.dev.dev ≠ .held → k ≤ 6 → (s.tab k g).pend = none →
    (∀ r d image v ports, s.waits.any (fun x => x.kind == k && x.target == g) = false →
      s.accepts r d 5 → s.imageGood d image → byteAt image 0 = k → byteAt image 1 = g →
      v = loadValue k (s.tab k g).cur (leAt image 2 2) (image.drop 16) → ports = s.affected k g (s.tab k g).cur v →
      ((byteAt d 4).testBit 0 = true → s.printing = false →
        ∃ t, exec (.loadTable r d image) s = .next t ∧ t.tab k g = ⟨k, g, v, s.firstUnbegun ports, none⟩ ∧
          (∀ k' g', (k', g') ≠ (k, g) → t.tab k' g' = s.tab k' g') ∧
          s.answered t r d .ok (lineBits (s.ctxOf r d).v1 (s.firstUnbegun ports)) ∧ s.onlyIn t [.tabs, .pho, .hst, .pcie]) ∧
      ((byteAt d 4).testBit 0 = true → s.printing = true →
        ∃ t, exec (.loadTable r d image) s = .next t ∧
          t.tab k g = ⟨k, g, (s.tab k g).cur, (s.tab k g).since, some (s.epochLine, v)⟩ ∧
          (∀ k' g', (k', g') ≠ (k, g) → t.tab k' g' = s.tab k' g') ∧
          s.answered t r d .ok (lineBits (s.ctxOf r d).v1 s.epochLine) ∧ s.onlyIn t [.tabs, .pho, .hst, .pcie]) ∧
      ((byteAt d 4).testBit 0 = false → s.anyBegun ports (s.dLine (s.ctxOf r d).v1 d 8) = false →
        ∃ t, exec (.loadTable r d image) s = .next t ∧
          t.tab k g = ⟨k, g, (s.tab k g).cur, (s.tab k g).since, some (s.dLine (s.ctxOf r d).v1 d 8, v)⟩ ∧
          (∀ k' g', (k', g') ≠ (k, g) → t.tab k' g' = s.tab k' g') ∧
          s.answered t r d .ok (lineBits (s.ctxOf r d).v1 (s.dLine (s.ctxOf r d).v1 d 8)) ∧ s.onlyIn t [.tabs, .pho, .hst, .pcie])) ∧
    (∀ w c v, s.waits = [w] → w.kind = k → w.target = g → w.at' = none → w.loop = none → w.ctx = some c → c.gen = s.hst.gen → w.first < 65536 →
      k < 256 → g < 256 → s.printing = false → v = loadValue k (s.tab k g).cur w.first w.body →
      ∃ t, exec (.waitingLoadCommit k g) s = .next t ∧ t.waits = [] ∧
        t.tab k g = ⟨k, g, v, s.firstUnbegun (s.affected k g (s.tab k g).cur v), none⟩ ∧
        (∀ k' g', (k', g') ≠ (k, g) → t.tab k' g' = s.tab k' g') ∧
        s.completes t c .ok (lineBits c.v1 (s.firstUnbegun (s.affected k g (s.tab k g).cur v))) ∧
        s.onlyIn t [.tabs, .waits, .pho, .hst])

/-- In a sound state without a twin role, for a descriptor d that ring r accepts and, of a load, an image that passes R599 with
nothing of its kind and target open: (1) WAVE_LOAD for a port that is not ACTIVE, no longer than T_min, is in force at once
from the smallest line that the port has not sent, and completes OK with that line; (2) for an ACTIVE port the image is to
be written to the HDM into the bank not in use, and the descriptor stays in flight; (3) PHO_TABLE_LOAD is pending for the
next frame start and completes OK with 0; (4) READ_TABLE writes the image of the table in force to host memory, changes no
table, and completes OK with the line since which the table has been in force. (04_wick_waveforms (Load statuses),
07_photometer (Table loads), 03_transit_screening (Tables and epoch lines), R134, R155, R156, R308) -/
def Obligations.OtherLoadsComplete : Prop :=
  ∀ (s : State) (r : Nat) (d : Bytes), s.sound → s.twn.role = .none → s.twn.proposals = [] → s.twn.held = [] →
    (∀ image p, s.dev.dev ≠ .held → s.accepts r d 5 → s.imageGood d image → byteAt image 0 = 8 → byteAt image 1 = p →
      longestEntry (image.drop 16) ≤ s.tMin p → (s.tab 8 p).pend = none → (s.wick p).write = none → (s.wick p).bankFrom = none →
      s.waits.any (fun x => x.kind == 8 && x.target == p) = false → (byteAt d 4).testBit 0 = true →
      (s.active p = false → ∃ t, exec (.waveLoad r d image) s = .next t ∧
        t.tab 8 p = ⟨8, p, .body (image.drop 16), s.unsentLine p, none⟩ ∧ (t.wick p).loaded = true ∧
        (∀ k' g', (k', g') ≠ (8, p) → t.tab k' g' = s.tab k' g') ∧ (∀ q, q ≠ p → t.wick q = s.wick q) ∧
        s.answered t r d .ok (lineBits (s.ctxOf r d).v1 (s.unsentLine p)) ∧ s.onlyIn t [.tabs, .wck, .regs, .ltn, .hst, .pcie]) ∧
      (s.active p = true → ∃ t, exec (.waveLoad r d image) s = .next t ∧
        (t.wick p).write = some ⟨!(s.wick p).bank, image.drop 16, .load none (some (s.ctxOf r d)), false, none⟩ ∧
        (∀ q, q ≠ p → t.wick q = s.wick q) ∧ s.inFlight t r ∧ s.onlyIn t [.wck, .hst, .pcie])) ∧
    (∀ image k g, s.dev.dev ≠ .held → s.accepts r d 5 → s.imageGood d image → byteAt image 0 = k → 9 ≤ k → byteAt image 1 = g →
      (s.tab k g).pend = none → s.waits.any (fun x => x.kind == k && x.target == g) = false → (byteAt d 4).testBit 0 = true →
      ∃ t, exec (.phoTableLoad r d image) s = .next t ∧
        t.tab k g = ⟨k, g, (s.tab k g).cur, (s.tab k g).since, some (0, .body (image.drop 16))⟩ ∧
        (∀ k' g', (k', g') ≠ (k, g) → t.tab k' g' = s.tab k' g') ∧ s.answered t r d .ok 0 ∧ s.onlyIn t [.tabs, .hst, .pcie]) ∧
    (∀ image since, s.accepts r d 6 → readOk (byteAt d 4) (byteAt d 5) (leAt d 6 2) (leAt d 8 4) = true →
      s.readImage (byteAt d 4) (byteAt d 5) (leAt d 6 2) (leAt d 8 4) = (image, since) → image.length ≤ leAt d 20 4 →
      s.windowOk true (leAt d 12 8) image.length = true →
      ∃ t, exec (.readTable r d) s = .next t ∧ t.out = s.out ++ [.hostWrite (leAt d 12 8) image s.hst.cfg.relaxed] ∧ s.took t r ∧
        s.completes t (s.ctxOf r d) .ok (lineBits (s.ctxOf r d).v1 since) ∧ s.onlyIn t [.hst, .pcie, .out])

/-- In a sound state, on a head port p: (1) a good TEMP STAT on an ACTIVE port gives every head of the port its newest
temperature and restarts its time without a report; (2) TEMP_TIMEOUT after temp_timeout ms without a report makes the head
stale, blank from now, and raises WCK.TEMP_STALE where it was not; (3) WAVE_BANK_WRITE of a bank that is free sends the 22
WAVE frames of the table in order, four at once and the others queued; (4) WAVE_ACK with the bank, 22 chunks and the CRC of
the body ends the write after an exchange, and the bank is acknowledged; (5) WAVE_ACK_TIMEOUT 10 ms after the last WAVE
frame gives a load up with LINK. Wick's state of every other port stays. (04_wick_waveforms (Temperature bands and head
limits), 04_wick_waveforms (Load statuses), R154, R157, R162, R166, R246, R248) -/
def Obligations.WickCommandsComplete : Prop :=
  ∀ (s : State) (p : Nat), s.sound → p < 24 →
    (∀ frame, s.active p = true → statOf frame 1 32 = true → (s.heads p).heads ≤ 8 →
      ∃ t, exec (.tempReport p frame) s = .next t ∧
        (∀ h, h < (s.heads p).heads → (t.head p h).temp = BitVec.ofNat 16 (leAt (framePayload frame) (8 + 2 * h) 2) ∧
          (t.head p h).reportAt = s.clock) ∧ (∀ q, q ≠ p → t.wick q = s.wick q) ∧ s.onlyIn t [.wck, .regs, .ltn]) ∧
    (∀ h, s.active p = true → h < (s.heads p).heads → h < 8 → s.elapsed (s.head p h).reportAt (s.get .WCK_CTRL_temp_timeout * 1000000) = true →
      ∃ t, exec (.tempTimeout p h) s = .next t ∧ (t.head p h).stale = true ∧ (t.head p h).temp = 0x8000 ∧ (t.head p h).blank = true ∧
        (∀ i, i ≠ h → t.head p i = s.head p i) ∧ (∀ q, q ≠ p → t.wick q = s.wick q) ∧ s.onlyIn t [.wck, .ltn] ∧
        ((s.head p h).stale = false → ∃ x, x ∈ t.ltn.raises ∧ x.src = Src.wckTempStale.num ∧ x.cls = 2 ∧ x.inst0 = p ∧ x.inst1 = h ∧ x.detail = 1)) ∧
    (∀ w, (s.wick p).write = some w → w.sent = false → s.active p = true → s.bankFree p w.bank = true → s.actFind 5 p = none →
      (s.link p).unacked = [] → (s.link p).queued = [] → s.muted p = false →
      ∃ t w', exec (.waveBankWrite p) s = .next t ∧ (t.wick p).write = some w' ∧ w'.sent = true ∧ w'.bank = w.bank ∧ w'.body = w.body ∧
        (t.link p).unacked.map (·.frame) ++ (t.link p).queued = (List.range 22).map (waveFrame w.bank w.body) ∧
        (t.link p).unacked.length = 4 ∧ (∀ q, q ≠ p → t.link q = s.link q ∧ t.wick q = s.wick q) ∧ s.onlyIn t [.wck, .links, .out]) ∧
    (∀ w frame, (s.wick p).write = some w → w.lastAt.isSome = true → w.purpose = .afterCaps → s.active p = true → statOf frame 3 8 = true →
      byteAt (framePayload frame) 0 = w.bank.toNat → byteAt (framePayload frame) 1 = 22 →
      leAt (framePayload frame) 2 2 = (crc16 w.body).toNat →
      ∃ t, exec (.waveAck p frame) s = .next t ∧ (t.wick p).write = none ∧ (t.wick p).bankAcked = true ∧
        (t.wick p).heads = (s.wick p).heads ∧ (∀ q, q ≠ p → t.wick q = s.wick q) ∧ s.onlyIn t [.wck]) ∧
    (∀ w at' c x, (s.wick p).write = some w → w.purpose = .load at' (some c) → c.gen = s.hst.gen → w.lastAt = some x →
      s.elapsed x 10000000 = true →
      ∃ t, exec (.waveAckTimeout p) s = .next t ∧ (t.wick p).write = none ∧ s.completes t c .link 0 ∧ t.tabs = s.tabs ∧
        (∀ q, q ≠ p → t.wick q = s.wick q) ∧ s.onlyIn t [.wck, .hst])

/-- In a sound state, for an enabled encoder e: (1) ENC_TRANSITION gives samples of A and B, the first of them at a MONO time. A
state of the two lines counts its samples from the last change of either. Where it has not lasted N samples, or is the one
the filters show, the lands alone change. Where it has lasted N samples but fewer than 8, a free value says whether the
transition is lost (the model's choice: log 136); otherwise the filters follow, and a transition to the next or the previous
state of the sequence 00, 01, 11, 10 counts up or down, the other way round with invert set, by one count: of encoder 0 it
moves the web by the count's scale, at the time of the first sample, and the other encoder stays. (2) A transition of both
lines counts no position, counts one illegal event and raises MER.QUAD_ILLEGAL, class U where it brings the window's count
to the limit and C otherwise; (3) the end of its 10 ms window clears the count of illegal events; (4) ENC_INDEX samples Z:
levels that have not held for N samples, and a falling edge, change that land alone; a filtered rising edge at the expected
count, and in a module that is not paired or pairing, raises nothing and starts the next revolution; at another count of the
same direction it counts and raises MER.INDEX with the difference. (5) ESTIMATOR_TICK takes the tick's point; the web is
stopped where the newest point is older than stop_ms, and otherwise the estimate starts from that point. (6)
WEB_STOP_TIMEOUT with no point in the tick and the newest older than stop_ms stops the web. (05_meridian (Encoder inputs),
05_meridian (Speed and acceleration), R176, R178, R179, R180, R181, R182, R191) -/
def Obligations.EncoderCommandsComplete : Prop :=
  ∀ (s : State) (e : Nat), s.sound → e < 2 → s.on .MER_ENC_CTRL_en e = true →
    (∀ (a b : Bool) (held : Nat) (t' : Time) (la lb : Land) (pa pb : Bool) (run : Nat) (at' : Time) (d : Nat) (up : Bool),
      la = (s.enc e).a.take a held t' s.pos → lb = (s.enc e).b.take b held t' s.pos →
      run = (if a = (s.enc e).a.level ∧ b = (s.enc e).b.level then (s.enc e).run + held else held) →
      pa = (decide (s.encFilter e ≤ run) && a != la.out) → pb = (decide (s.encFilter e ≤ run) && b != lb.out) →
      at' = (if pa && (!pb || decide (0 ≤ sdiff la.since lb.since)) then la.since else lb.since) →
      d = (quadIndex (if pa then a else la.out) (if pb then b else lb.out) + 4 - quadIndex la.out lb.out) % 4 →
      up = ((d == 1) != s.on .MER_ENC_CTRL_invert e) →
      (pa = false → pb = false → ∃ t, exec (.encTransition e a b held t') s = .next t ∧ t.enc e = { s.enc e with a := la, b := lb, run := run } ∧
        t.enc (1 - e) = s.enc (1 - e) ∧ t.mer.pos = s.mer.pos ∧ s.onlyIn t [.mer]) ∧
      (pa = true ∨ pb = true → ∃ t, exec (.encTransition e a b held t') s = .next t ∧ t.enc (1 - e) = s.enc (1 - e) ∧
        (run < 8 ∧ s.fresh.1.getLsbD 0 = false → t.enc e = { s.enc e with a := la, b := lb, run := run } ∧ t.mer.pos = s.mer.pos ∧ s.onlyIn t [.mer, .free]) ∧
        (8 ≤ run ∨ s.fresh.1.getLsbD 0 = true → (t.enc e).a = (if pa then la.pass else la) ∧ (t.enc e).b = (if pb then lb.pass else lb) ∧ (t.enc e).run = run ∧
          (d = 1 ∨ d = 3 → (t.enc e).counts = (if up then (s.enc e).counts + 1 else (s.enc e).counts - 1) ∧
            (e = 0 → t.mer.pos = (if up then s.mer.pos + (s.rd .MER_ENC_SCALE 0).setWidth 64 else s.mer.pos - (s.rd .MER_ENC_SCALE 0).setWidth 64) ∧
              t.mer.tickPoint = some (at', t.mer.pos) ∧ s.onlyIn t [.mer, .sto, .pipes, .free]) ∧
            (e = 1 → t.mer.pos = s.mer.pos ∧ t.mer.tickPoint = s.mer.tickPoint ∧ s.onlyIn t [.mer, .free])) ∧
          (d = 2 → t.mer.pos = s.mer.pos ∧ (t.enc e).counts = (s.enc e).counts ∧
            (t.enc e).illegal = (s.enc e).illegal + 1 ∧ s.counted t .MER_ENC_ILLEGAL_CNT e ∧
            s.raised t .merQuadIllegal (if s.get .MER_ENC_CTRL_illegal_limit e ≠ 0 ∧ (s.enc e).illegal + 1 = s.get .MER_ENC_CTRL_illegal_limit e
              then 2 else 1) e 0xFF 0 (BitVec.ofNat 32 ((s.enc e).illegal + 1)) ∧
            s.regsOnlyAt t [Reg.MER_ENC_ILLEGAL_CNT.addr e 0 0] ∧ s.onlyIn t [.mer, .ltn, .regs, .free])))) ∧
    (s.elapsed (s.enc e).window 10000000 = true →
      ∃ t, exec (.quadWindowEnd e) s = .next t ∧ t.enc e = { s.enc e with illegal := 0, window := (s.enc e).window + 10000000 } ∧
        t.enc (1 - e) = s.enc (1 - e) ∧ t.mer.pos = s.mer.pos ∧ s.onlyIn t [.mer]) ∧
    (∀ (level : Bool) (held : Nat) (t' : Time) (z : Land), z = (s.enc e).z.take level held t' s.pos →
      (z.passes (s.encFilter e) = false → ∃ t, exec (.encIndex e level held t') s = .next t ∧ t.enc e = { s.enc e with z := z } ∧
        s.onlyIn t [.mer]) ∧
      (z.passes (s.encFilter e) = true → level = false → ∃ t, exec (.encIndex e level held t') s = .next t ∧
        t.enc e = { s.enc e with z := z.pass } ∧ s.onlyIn t [.mer]) ∧
      (∀ want, z.passes (s.encFilter e) = true → level = true → s.twn.pair ≠ .paired → s.twn.pair ≠ .pairing →
        want = s.get .MER_ENC_REV_counts e → want ≠ 0 → (s.enc e).lastUp = some true → (s.enc e).indexDir = some true →
        ∃ t, exec (.encIndex e level held t') s = .next t ∧ t.enc e = { s.enc e with z := z.pass, sinceIndex := 0 } ∧ t.mer.pos = s.mer.pos ∧
          ((s.enc e).sinceIndex = want → s.onlyIn t [.mer, .twn]) ∧
          ((s.enc e).sinceIndex ≠ want → s.counted t .MER_ENC_INDEX_CNT e ∧
            s.raised t .merIndex 1 e 0xFF 0 (BitVec.ofInt 32 ((s.enc e).sinceIndex - want)) ∧
            s.regsOnlyAt t [Reg.MER_ENC_INDEX_CNT.addr e 0 0] ∧ s.onlyIn t [.mer, .twn, .ltn, .regs]))) ∧
    (∀ p, s.mer.tickPoint = some p →
      ∃ t, exec .estimatorTick s = .next t ∧ t.mer.tickPoint = none ∧ t.mer.pos = s.mer.pos ∧ s.onlyIn t [.mer, .free] ∧
        ((s.stopNs : Int) < sdiff s.mono p.1 → t.mer.est.stopped = true ∧ t.mer.est.v = 0) ∧
        (sdiff s.mono p.1 ≤ s.stopNs → t.mer.est.stopped = false ∧ t.mer.est.t0 = p.1 ∧ t.mer.est.x0 = p.2)) ∧
    (∀ p older, s.mer.tickPoint = none → s.mer.points = p :: older → (s.stopNs : Int) < sdiff s.mono p.1 →
      ∃ t, exec .webStopTimeout s = .next t ∧ t.mer.est = ⟨true, p.1, p.2, 0, 0⟩ ∧ t.mer.pos = s.mer.pos ∧ t.mer.points = s.mer.points ∧
        s.onlyIn t [.mer])

/-- In a sound state: (1) SSI_REQUEST, in STANDBY or PRINTING with the port enabled, and SSI_PERIOD, once the period set has
passed since the last began, start a transfer where none runs, which keeps the position and the instant and drives the edges
of SSI_CLK, and otherwise hold one request; (2) SSI_HELD_START starts the request held once no transfer runs; (3)
SSI_READING, once the transfer's last sample is taken, ends it and samples SSI_DATA at the instants of R184: a good word
without a pending load is shown, binary where it was Gray-coded, and with ssi_chk set and no reference its difference from
the web position becomes the reference; one of wrong parity, or that fails zero_chk, is counted, raises MER.SSI_FAIL, and
leaves the word shown; with a load pending in STANDBY a good word, scaled and offset, becomes the web position, moved by
what the web has travelled since the start; (4) in STANDBY, POS_LOAD_NOW makes the register's value the web position,
POS_LOAD_SSI makes the next good reading load it, and POS_REBASE, in STANDBY and PRINTING, drops the slip reference; (5)
SLIP_WINDOW_END, once ENC0 has travelled the window, starts the next window, and counts and raises MER.SLIP exactly where
the two encoders differ by more than the tolerance. (05_meridian (The absolute sensor), 05_meridian (Slip checking), R177,
R185, R186, R187, R188, R189) -/
def Obligations.PositionCommandsComplete : Prop :=
  ∀ s : State, s.sound →
    (s.on .MER_SSI_CTRL_en = true → ∀ at' us, us = s.get .MER_SSI_TIMING_period → at' = s.mer.ssi.periodAt + us * 1000 →
      (s.reaches (Reg.MER_SSI_CMD.addr 0 0 0) = true → s.notStandbyPrinting = false →
        (s.ssiBusy = false → ∃ t, exec .ssiRequest s = .next t ∧ t.mer = { s.mer with ssi := { s.mer.ssi with
            busy := true, until' := s.clock + s.ssiLength + s.get .MER_SSI_TIMING_tm * 1000, held := false, startPos := s.mer.pos, startAt := s.clock } } ∧
          t.out = s.out ++ [.ssiClock s.ssiEdges] ∧ s.onlyIn t [.mer, .out, .pcie]) ∧
        (s.ssiBusy = true → ∃ t, exec .ssiRequest s = .next t ∧ t.mer = { s.mer with ssi := { s.mer.ssi with held := true } } ∧
          s.onlyIn t [.mer, .pcie])) ∧
      (us ≠ 0 → s.elapsed s.mer.ssi.periodAt (us * 1000) = true →
        (s.ssiBusy = false → ∃ t, exec .ssiPeriod s = .next t ∧ t.mer = { s.mer with ssi := { s.mer.ssi with
            busy := true, until' := s.clock + s.ssiLength + s.get .MER_SSI_TIMING_tm * 1000, held := false, startPos := s.mer.pos, startAt := s.clock,
            periodAt := at' } } ∧ t.out = s.out ++ [.ssiClock s.ssiEdges] ∧ s.onlyIn t [.mer, .out]) ∧
        (s.ssiBusy = true → ∃ t, exec .ssiPeriod s = .next t ∧
          t.mer = { s.mer with ssi := { s.mer.ssi with held := true, periodAt := at' } } ∧ s.onlyIn t [.mer]))) ∧
    (s.on .MER_SSI_CTRL_en = true → s.mer.ssi.held = true → s.ssiBusy = false →
      ∃ t, exec .ssiHeldStart s = .next t ∧ t.mer = { s.mer with ssi := { s.mer.ssi with
          busy := true, until' := s.clock + s.ssiLength + s.get .MER_SSI_TIMING_tm * 1000, held := false, startPos := s.mer.pos, startAt := s.clock } } ∧
        t.out = s.out ++ [.ssiClock s.ssiEdges] ∧ s.onlyIn t [.mer, .out]) ∧
    (∀ (init : Bool) (edges : List (Nat × Bool)) (n : Nat) (par zero odd fail : Bool) (sample : Nat → Bool) (raw w : Nat) (pos : Pos),
      n = s.get .MER_SSI_CTRL_bits → par = s.on .MER_SSI_CTRL_parity → zero = s.on .MER_SSI_CTRL_zero_chk → s.mer.ssi.busy = true →
      (zero = true → s.mer.ssi.until' ≤ s.clock) → (zero = false → s.elapsed s.mer.ssi.startAt s.ssiLength = true) →
      (∀ i, sample i = ssiLevel init edges (i * s.ssiPeriodNs + s.ssiDelay)) →
      raw = (List.range n).foldl (fun w i => 2 * w + (sample (i + 1)).toNat) 0 →
      odd = decide (((List.range (n + par.toNat)).filter fun i => sample (i + 1)).length % 2 = 1) →
      fail = (sample (n + par.toNat + 1) || !ssiLevel init edges (s.ssiLength + s.get .MER_SSI_TIMING_tm * 1000)) →
      w = (if s.on .MER_SSI_CTRL_gray then grayToBinary n raw else raw) →
      pos = BitVec.ofNat 48 (w * (s.rd .MER_SSI_SCALE).toNat / 65536) + ((s.rd .MER_SSI_OFS_HI).setWidth 16 ++ s.rd .MER_SSI_OFS_LO) →
      ((par = true ∧ odd = true) ∨ (zero = true ∧ fail = true) →
        ∃ t, exec (.ssiReading init edges) s = .next t ∧ t.mer = { s.mer with ssi := { s.mer.ssi with busy := false } } ∧
          s.counted t .MER_SSI_FAIL_CNT ∧ s.raised t .merSsiFail 2 0xFF 0xFF 12 (BitVec.ofNat 32 raw) ∧
          s.regsOnlyAt t [Reg.MER_SSI_FAIL_CNT.addr 0 0 0] ∧ s.onlyIn t [.mer, .ltn, .regs]) ∧
      ((par = false ∨ odd = false) → (zero = false ∨ fail = false) → (s.mer.ssi.loadPending = true → s.notStandby = true) →
        (s.on .MER_SLIP_CTRL_ssi_chk = false →
          ∃ t, exec (.ssiReading init edges) s = .next t ∧ t.mer.ssi = { s.mer.ssi with busy := false, raw := w } ∧
            t.mer.pos = s.mer.pos ∧ s.onlyIn t [.mer]) ∧
        (s.on .MER_SLIP_CTRL_ssi_chk = true → s.mer.ssi.dref = none →
          ∃ t, exec (.ssiReading init edges) s = .next t ∧ t.mer.ssi = { s.mer.ssi with
              busy := false, raw := w, dref := some (sdiff pos (s.mer.ssi.startPos.extractLsb' 16 48)) } ∧ t.mer.pos = s.mer.pos ∧ s.onlyIn t [.mer])) ∧
      ((par = false ∨ odd = false) → (zero = false ∨ fail = false) → s.mer.ssi.loadPending = true → s.notStandby = false →
        ∃ t, exec (.ssiReading init edges) s = .next t ∧ t.mer.pos = (pos.setWidth 64 <<< 16) + (s.mer.pos - s.mer.ssi.startPos) ∧
          t.mer.loaded = true ∧ t.mer.ssi.busy = false ∧ t.mer.ssi.loadPending = false ∧ t.mer.ssi.raw = w ∧ t.mer.ssi.dref = none ∧
          t.mer.points = [] ∧ t.mer.est.stopped = true ∧ s.onlyIn t [.mer])) ∧
    (s.reaches (Reg.MER_POS_CMD.addr 0 0 0) = true →
      (s.dev.dev = .standby → ∃ t, exec .posLoadNow s = .next t ∧
        t.mer.pos = ((s.rd .MER_POS_SET_HI).setWidth 16 ++ s.rd .MER_POS_SET_LO).setWidth 64 <<< 16 ∧ t.mer.loaded = true ∧
        t.mer.points = [] ∧ t.mer.est.stopped = true ∧ t.mer.ssi.dref = none ∧ t.mer.encs = s.mer.encs ∧ s.onlyIn t [.mer, .pcie]) ∧
      (s.dev.dev = .standby → ∃ t, exec .posLoadSsi s = .next t ∧ t.mer = { s.mer with ssi := { s.mer.ssi with loadPending := true } } ∧
        s.onlyIn t [.mer, .pcie]) ∧
      (s.notStandbyPrinting = false → ∃ t, exec .posRebase s = .next t ∧ t.mer = { s.mer with ssi := { s.mer.ssi with dref := none } } ∧
        s.onlyIn t [.mer, .pcie])) ∧
    (∀ d0 d1, d0 = (s.mer.pos - s.mer.slipStart).toInt → d1 = (s.mer.aux - s.mer.slipAux).toInt → s.on .MER_SLIP_CTRL_enc_chk = true →
      s.get .MER_SLIP_CTRL_window * 16384 * 65536 ≤ d0.natAbs →
      ∃ t, exec .slipWindowEnd s = .next t ∧ t.mer = { s.mer with slipStart := s.mer.pos, slipAux := s.mer.aux } ∧
        ((d1 - d0).natAbs ≤ s.get .MER_SLIP_CTRL_tol * 65536 → s.onlyIn t [.mer]) ∧
        (s.get .MER_SLIP_CTRL_tol * 65536 < (d1 - d0).natAbs → s.counted t .MER_SLIP_CNT ∧
          s.raised t .merSlip 2 0 0xFF 13 (BitVec.ofInt 32 ((d1 - d0) / 65536)) ∧ s.regsOnlyAt t [Reg.MER_SLIP_CNT.addr 0 0 0] ∧
          s.onlyIn t [.mer, .ltn, .regs]))

/-- In a sound state, for a latch unit n (the frames where its results are not posted): (1) LATCH_TRIGGER of a unit that selects
no LATCH_IN land records the oldest trigger that is due in the unit's queue where that holds fewer than four results, and
otherwise drops and counts it; of a unit that selects one, it takes samples of the land: those that the unit's filter does
not let pass, and an edge of another kind than the one selected, change the land alone; the selected edge records the web
position and the MONO time of its first sample (the model's choice: log 137); (2) LATCH_SOFT in STANDBY or PRINTING of an
enabled unit records its present position and MONO, under trigger number 31 (the model's choice: log 79); (3) a read of
MER_LATCH_TIME removes the oldest result; every other unit stays. (4) GEOM_COMMIT in STANDBY, with no port ACTIVE, makes the
shadow registers the active geometry where they pass the checks of R193, and otherwise leaves it, names the failing check
and its port, and is refused with reason 3. (05_meridian (Latch units), 05_meridian (Bar geometry), R193, R203, R204) -/
def Obligations.LatchCommandsComplete : Prop :=
  ∀ (s : State) (n : Nat), s.sound → n < 8 →
    (∀ post, post = s.on .MER_LATCH_CTRL_event n →
      (∀ x rest level held t', s.mer.latchDue.getD n [] = x :: rest → (∀ k, s.latchTrig n = some k → 4 ≤ k) →
        ∃ t, exec (.latchTrigger n level held t') s = .next t ∧ t.mer.latchDue.getD n [] = rest ∧
        (∀ m, m ≠ n → t.mer.latches.getD m [] = s.mer.latches.getD m []) ∧ t.mer.latchIn = s.mer.latchIn ∧ t.mer.pos = s.mer.pos ∧
        ((s.mer.latches.getD n []).length < 4 → t.mer.latches.getD n [] = s.mer.latches.getD n [] ++ [x] ∧ (post = false → s.onlyIn t [.mer])) ∧
        (4 ≤ (s.mer.latches.getD n []).length → t.mer.latches.getD n [] = s.mer.latches.getD n [] ∧
          (post = false → s.counted t .MER_LATCH_STATUS_ovf n ∧ s.regsOnlyAt t [Reg.MER_LATCH_STATUS.addr n 0 0] ∧ s.onlyIn t [.mer, .regs]))) ∧
      (∀ k level held t' l pass, s.mer.latchDue.getD n [] = [] → s.latchTrig n = some k → k < 4 →
        l = (s.mer.latchIn.getD n Land.reset).take level held t' s.pos → pass = l.passes (max 1 (s.get .MER_LATCH_CTRL_filt n)) →
        ∃ t, exec (.latchTrigger n level held t') s = .next t ∧ t.mer.latchIn = upd n (fun _ => if pass then l.pass else l) s.mer.latchIn ∧
          t.mer.pos = s.mer.pos ∧ (∀ m, m ≠ n → t.mer.latches.getD m [] = s.mer.latches.getD m []) ∧
          (pass = false ∨ s.latchEdge n level = false → t.mer.latches = s.mer.latches ∧ s.onlyIn t [.mer]) ∧
          (pass = true → s.latchEdge n level = true → (s.mer.latches.getD n []).length < 4 →
            t.mer.latches.getD n [] = s.mer.latches.getD n [] ++ [⟨k, l.pos, l.since⟩] ∧ (post = false → s.onlyIn t [.mer]))) ∧
      (s.reaches (Reg.MER_LATCH_CTRL.addr n 0 0) = true → s.notStandbyPrinting = false → (4 ≤ n → s.cameraOn (n - 4) = false) →
        s.on .MER_LATCH_CTRL_en n = true → s.get .MER_LATCH_CTRL_edge n ≠ 3 → trigKnown (s.get .MER_LATCH_CTRL_trig n) = true →
        (s.mer.latches.getD n []).length < 4 →
        ∃ t, exec (.latchSoft n) s = .next t ∧ t.mer.latches.getD n [] = s.mer.latches.getD n [] ++ [⟨31, s.pos, s.mono⟩] ∧
          (∀ m, m ≠ n → t.mer.latches.getD m [] = s.mer.latches.getD m []) ∧ t.mer.pos = s.mer.pos ∧
          (post = false → s.regsOnlyAt t [Reg.MER_LATCH_CTRL.addr n 0 0] ∧ s.onlyIn t [.mer, .regs, .pcie]))) ∧
    (s.dev.dev ≠ .dark → ∃ t, exec (.latchResultRead n) s = .next t ∧ t.mer.latches.getD n [] = (s.mer.latches.getD n []).drop 1 ∧
      (∀ m, m ≠ n → t.mer.latches.getD m [] = s.mer.latches.getD m []) ∧ t.mer.latchDue = s.mer.latchDue ∧ s.onlyIn t [.mer, .pcie]) ∧
    (s.dev.dev = .standby → s.reaches (Reg.MER_GEOM_COMMIT.addr 0 0 0) = true → s.activePorts = [] →
      ∃ t, exec .geomCommit s = .next t ∧
        (s.geomFault s.shadow = none → t.mer = { s.mer with geom := s.shadow } ∧ t.get .MER_GEOM_STATUS_fail = 0 ∧
          s.regsOnlyAt t [Reg.MER_GEOM_STATUS.addr 0 0 0] ∧ s.onlyIn t [.mer, .regs, .pcie]) ∧
        (∀ c p, s.geomFault s.shadow = some (c, p) → t.mer = s.mer ∧ s.counted t .GLB_REFUSED ∧ t.get .GLB_REFUSED_INFO_reason = 3 ∧
          s.regsOnlyAt t [Reg.MER_GEOM_STATUS.addr 0 0 0, Reg.GLB_REFUSED.addr 0 0 0, Reg.GLB_REFUSED_INFO.addr 0 0 0] ∧
          (c < 8 → t.get .MER_GEOM_STATUS_fail = c) ∧ (p < 32 → t.get .MER_GEOM_STATUS_port = p) ∧ s.onlyIn t [.regs, .pcie]))

/-- In a sound state, for a compare unit n: (1) CMP_ARM of a one-shot, or at an interval other than 0, in STANDBY or PRINTING
whose target lies above the web position stores the register and aims the unit at that target; a one-shot that lies at or
below it, without catchup, is missed: counted, raised as MER.CMP_MISSED, and disarmed; (2) CMP_DISARM stores the register
and leaves the unit without a target; (3) CMP_FIRE of a one-shot that the web has reached, with no output and no interrupt
selected, marks it fired and disarms it; of one at an interval it aims at the next target, where that still lies ahead; (4)
OUTPUT_PULSE_END, once the width of a STROBE or CAM_TRIG pulse has passed, drives the land inactive. Every other unit stays.
(05_meridian (Compare units), R206, R207, R208, R211) -/
def Obligations.CompareCommandsComplete : Prop :=
  ∀ (s : State) (n : Nat), s.sound → n < 16 →
    (∀ v tgt, v.msb = true → Fld.MER_CMP_CTRL_mode.of v = 0 ∨ Fld.MER_CMP_CTRL_mode.of v = 1 ∧ s.rd .MER_CMP_IVL n ≠ 0 → s.reaches (Reg.MER_CMP_CTRL.addr n 0 0) = true → s.notStandbyPrinting = false →
      tgt = (s.rd .MER_CMP_POS_HI n).setWidth 16 ++ s.rd .MER_CMP_POS n →
      (lineLe tgt s.pos = false → ∃ t, exec (.cmpArm n v) s = .next t ∧ t.rd .MER_CMP_CTRL n = Reg.MER_CMP_CTRL.stored (s.rd .MER_CMP_CTRL n) v ∧
        (t.cmp n).target = some tgt ∧ (t.cmp n).due = false ∧ (∀ m, m ≠ n → t.cmp m = s.cmp m) ∧ t.mer.pos = s.mer.pos ∧
        s.regsOnlyAt t [Reg.MER_CMP_CTRL.addr n 0 0] ∧ s.onlyIn t [.mer, .regs, .pcie]) ∧
      (lineLe tgt s.pos = true → Fld.MER_CMP_CTRL_mode.of v = 0 → Fld.MER_CMP_CTRL_catchup.of v = 0 → ∃ t, exec (.cmpArm n v) s = .next t ∧ t.armed n = false ∧
        t.on .MER_CMP_CTRL_missed n = true ∧ s.counted t .MER_CMP_MISSED_CNT ∧ s.raised t .merCmpMissed 1 n 0xFF 12 (tgt.setWidth 32) ∧
        (∀ m, m ≠ n → t.cmp m = s.cmp m) ∧ t.mer.pos = s.mer.pos ∧
        s.regsOnlyAt t [Reg.MER_CMP_CTRL.addr n 0 0, Reg.MER_CMP_MISSED_CNT.addr 0 0 0] ∧ s.onlyIn t [.mer, .regs, .ltn, .pcie])) ∧
    (∀ v, v.msb = false → s.reaches (Reg.MER_CMP_CTRL.addr n 0 0) = true → s.notStandbyPrinting = false →
      ∃ t, exec (.cmpDisarm n v) s = .next t ∧ t.rd .MER_CMP_CTRL n = Reg.MER_CMP_CTRL.stored (s.rd .MER_CMP_CTRL n) v ∧ t.armed n = false ∧
        (t.cmp n).target = none ∧ (t.cmp n).due = false ∧ (∀ m, m ≠ n → t.cmp m = s.cmp m) ∧ t.mer.pos = s.mer.pos ∧
        s.regsOnlyAt t [Reg.MER_CMP_CTRL.addr n 0 0] ∧ s.onlyIn t [.mer, .regs, .pcie]) ∧
    (∀ tgt, s.armed n = true → (s.cmp n).due = true → (s.cmp n).target = some tgt → s.get .MER_CMP_CTRL_strobe n = 0 →
      s.get .MER_CMP_CTRL_camtrig n = 0 → s.get .MER_CMP_CTRL_tpulse n = 0 → s.on .MER_CMP_CTRL_irq n = false →
      (s.get .MER_CMP_CTRL_mode n = 0 → ∃ t, exec (.cmpFire n) s = .next t ∧ t.on .MER_CMP_CTRL_fired n = true ∧ t.armed n = false ∧
        (t.cmp n).due = false ∧ (∀ m, m ≠ n → t.cmp m = s.cmp m) ∧ t.mer.pos = s.mer.pos ∧
        s.regsOnlyAt t [Reg.MER_CMP_CTRL.addr n 0 0] ∧ s.onlyIn t [.mer, .regs]) ∧
      (s.get .MER_CMP_CTRL_mode n = 1 → lineLe (tgt + (s.rd .MER_CMP_IVL n).setWidth 48) s.pos = false →
        ∃ t, exec (.cmpFire n) s = .next t ∧ (t.cmp n).target = some (tgt + (s.rd .MER_CMP_IVL n).setWidth 48) ∧ t.armed n = true ∧
          (t.cmp n).due = false ∧ (∀ m, m ≠ n → t.cmp m = s.cmp m) ∧ t.mer.pos = s.mer.pos ∧ s.onlyIn t [.mer])) ∧
    (∀ i t', i < 4 → s.mer.strobes.getD i none = some t' → s.elapsed t' (s.get .MER_STROBE_width i * 5) = true →
      ∃ t, exec (.outputPulseEnd (.strobe i)) s = .next t ∧ t.mer.strobes.getD i none = none ∧
        (∀ j, j ≠ i → t.mer.strobes.getD j none = s.mer.strobes.getD j none) ∧ t.mer.camtrigs = s.mer.camtrigs ∧
        t.mer.tpulses = s.mer.tpulses ∧ t.out = s.out ++ [.pin (.strobe i) (landLevel (s.on .MER_STROBE_pol i) false)] ∧
        s.onlyIn t [.mer, .out]) ∧
    (∀ i t', i < 4 → s.mer.camtrigs.getD i none = some t' → s.elapsed t' (s.get .MER_CAMTRIG_width i * 5) = true →
      ∃ t, exec (.outputPulseEnd (.camtrig i)) s = .next t ∧ t.mer.camtrigs.getD i none = none ∧
        (∀ j, j ≠ i → t.mer.camtrigs.getD j none = s.mer.camtrigs.getD j none) ∧ t.mer.strobes = s.mer.strobes ∧
        t.mer.tpulses = s.mer.tpulses ∧ t.out = s.out ++ [.pin (.camtrig i) (landLevel (s.on .MER_CAMTRIG_pol i) false)] ∧
        s.onlyIn t [.mer, .out])

/-- In a sound state with no Lamplighter activity running, for a head port p that is not BUSY, and a value that the write may
hold: (1) PORT_ENABLE of a port that is DOWN since the cold reset moves it to DETECT; (2) PORT_DISABLE of an enabled port
takes it DOWN with reason 1 (host), its output electrically idle, and raises nothing; (3) PORT_RETRAIN_CMD of an ACTIVE port
moves it to RETRAIN at its rate, counts and raises GHL.RETRAIN (C) with detail 1, makes the port BUSY and the activity run.
Each stores the fields of GHL_CTRL; the first enable takes First Light to step 10 (the step it shows is the model's choice:
logs 111 and 145). (4) DOWN_TIMEOUT moves an enabled link, a twin port too, that has been DOWN for 1 s to DETECT; (5)
DETECT_TEST with two good tests moves it to TRAIN at its first rate, sending TS-A. (06_gahild_links (Bring-up),
06_gahild_links (GHL registers), R226, R227, R228, R229) -/
def Obligations.PortCommandsComplete : Prop :=
  ∀ (s : State) (p : Nat), s.sound →
    (∀ v, p < 24 → s.lmp.running = [] → (s.link p).busy = false → s.reaches (Reg.GHL_CTRL.addr p 0 0) = true →
      Fld.GHL_CTRL_max_ver.of v = 1 ∨ Fld.GHL_CTRL_max_ver.of v = 2 → Fld.GHL_CTRL_stat_timeout.of v ≠ 0 →
      (v.msb = true → v.getLsbD 30 = false → s.on .GHL_CTRL_en p = false → (s.link p).st = .down → (s.link p).cold = true →
        ∃ t, exec (.portEnable p v) s = .next t ∧ (t.link p).st = .detect ∧ (t.link p).since = s.clock ∧ (∀ q, q ≠ p → t.link q = s.link q) ∧
          t.rd .GHL_CTRL p = v &&& 0x8CE0FF00 ∧ s.regsOnlyAt t [Reg.GHL_CTRL.addr p 0 0] ∧ t.dev = { s.dev with flStep := max 10 s.dev.flStep } ∧
          s.onlyIn t [.links, .regs, .dev, .pcie]) ∧
      (v.msb = false → v.getLsbD 30 = false → s.on .GHL_CTRL_en p = true →
        ∃ t, exec (.portDisable p v) s = .next t ∧ s.wentDown t p 1 ∧ t.rd .GHL_CTRL p = v &&& 0x8CE0FF00 ∧
          s.regsOnlyAt t [Reg.GHL_CTRL.addr p 0 0] ∧ s.onlyIn t [.links, .regs, .out, .clk, .wck, .hst, .pcie]) ∧
      (v.msb = true → v.getLsbD 30 = true → s.on .GHL_CTRL_en p = true → (s.link p).st = .active →
        ∃ t, exec (.portRetrainCmd p v) s = .next t ∧ s.trainsAt t p .retrain (s.link p).rate ∧ (t.link p).busy = true ∧
          t.lmp.running.map (fun a => (a.code, a.target)) = [(4, p)] ∧ s.counted t .GHL_RETRAIN_CNT p ∧
          s.raised t .ghlRetrain 1 p 0xFF 7 1 ∧ t.rd .GHL_CTRL p = v &&& 0x8CE0FF00 ∧ s.regsOnlyAt t [Reg.GHL_CTRL.addr p 0 0, Reg.GHL_RETRAIN_CNT.addr p 0 0] ∧
          s.onlyIn t [.links, .regs, .out, .wck, .hst, .pcie, .ltn, .lmp])) ∧
    (p < 26 → (s.link p).st = .down → s.linkEnabled p = true → s.elapsed (s.link p).since 1000000000 = true →
      ∃ t, exec (.downTimeout p) s = .next t ∧ (t.link p).st = .detect ∧ (t.link p).since = s.clock ∧
        (t.link p).reason = (s.link p).reason ∧ (∀ q, q ≠ p → t.link q = s.link q) ∧ s.onlyIn t [.links]) ∧
    (p < 26 → (s.link p).st = .detect →
      ∃ t, exec (.detectTest p true true) s = .next t ∧ s.trainsAt t p .train (firstRate p) ∧
        (t.link p).train.preset = s.firstPreset p ∧
        t.out = s.out ++ [.trainBlock p (tsA (firstRate p) (s.firstPreset p) 5 false)
          (laneBlock false (tsA (firstRate p) (s.firstPreset p) 5 false))] ∧ s.onlyIn t [.links, .out])

/-- In a sound state: (1) a TS-A of the rate received on a training link sets this end's preset to the one asked for and sends
one training block (that one leaves for each received is the model's choice: log 35); an invalid one breaks the runs of
consecutive blocks; (2) the TS-B that completes eight consecutive ones received and sixteen sent moves the link to LOCK; (3)
after 24 ms TRAIN falls back to DETECT with reason 2, and RETRAIN, at its first or second failure within 1 s, starts again
at the same rate; (4) BLOCK_LOCK_ACQUIRED, BLOCK_LOCK_LOST and LOCK_COMPLETE receive blocks, each run of equal ones behind
the other: on a link in LOCK the block that completes 64 valid sync headers gives block lock, and invalid blocks count
towards its loss from there, with 4,096 IDLE blocks not yet complete; on an ACTIVE head port an invalid block that makes 16
within 1,024 moves it to RETRAIN with GHL.RETRAIN raised, every invalid block counted; in LOCK with block lock the IDLE
block that completes 4,096 moves a head port to CAPS, where CAPS_OFFER leaves with control sequence number 0, and a twin
port to ACTIVE; (5) LOCK_TIMEOUT after 4 ms starts the training again at the first and second failure within 1 s, and at the
third takes a head port DOWN with reason 3 and raises GHL.DOWN (U). (06_gahild_links (Bring-up), R219, R222, R225, R226,
R231) -/
def Obligations.TrainingCommandsComplete : Prop :=
  ∀ (s : State) (p : Nat), s.sound → p < 26 →
    (∀ block ok want, (s.link p).training = true →
      (tsAOk (s.link p).rate block = true →
        ∃ t x, exec (.tsAReceived p block ok want) s = .next t ∧ (t.link p).train.preset = byteAt block 3 ∧ (t.link p).st = (s.link p).st ∧
          ((t.link p).train.ready = ((s.link p).train.ready || ok)) ∧ (∀ q, q ≠ p → t.link q = s.link q) ∧
          t.out = s.out ++ [.trainBlock p x (laneBlock false x)] ∧ x.length = 16 ∧ s.onlyIn t [.links, .out]) ∧
      (tsAOk (s.link p).rate block = false →
        ∃ t, exec (.tsAReceived p block ok want) s = .next t ∧
          t.link p = { s.link p with train := { (s.link p).train with readySeen := 0, tsbRecv := 0 } } ∧
          (p < 24 → s.counted t .GHL_SYNCHDR_CNT p) ∧ (∀ q, q ≠ p → t.link q = s.link q) ∧
          s.regsOnlyAt t [Reg.GHL_SYNCHDR_CNT.addr p 0 0] ∧ s.onlyIn t [.links, .regs])) ∧
    (∀ block, (s.link p).training = true → tsBOk (s.link p).rate block = true → (s.link p).train.final = true →
      7 ≤ (s.link p).train.tsbRecv → 15 ≤ (s.link p).train.tsbSent →
      ∃ t, exec (.tsBReceived p block) s = .next t ∧ (t.link p).st = .lock ∧ (t.link p).since = s.clock ∧ (t.link p).lock = false ∧
        (t.link p).rate = (s.link p).rate ∧ (∀ q, q ≠ p → t.link q = s.link q) ∧ s.regsOnlyAt t [Reg.GHL_EQ.addr p 0 0] ∧
        s.onlyIn t [.links, .out, .regs, .free]) ∧
    (s.elapsed (s.link p).since 24000000 = true → ∀ recent, recent = (s.link p).fails.filter (fun x => decide (s.clock < x + 1000000000)) →
      ((s.link p).st = .train → ∃ t, exec (.trainTimeout p) s = .next t ∧ (t.link p).st = .detect ∧ (t.link p).reason = 2 ∧
        (∀ q, q ≠ p → t.link q = s.link q) ∧ s.onlyIn t [.links]) ∧
      ((s.link p).st = .retrain → recent.length < 2 →
        ∃ t, exec (.trainTimeout p) s = .next t ∧ s.trainsAt t p .retrain (s.link p).rate ∧ (t.link p).fails = recent ++ [s.clock] ∧
          s.onlyIn t [.links, .out])) ∧
    (∀ c, c = Instr.blockLockAcquired p ∨ c = Instr.blockLockLost p ∨ c = Instr.lockComplete p →
      exec (c []) s = .next s ∧ (∀ x y u, exec (c x) s = .next u → exec (c (x ++ y)) s = exec (c y) u) ∧
      ∀ b n r, r = (s.link p).rx.take b n →
        ((s.link p).st = .lock → (s.link p).lock = false → blockValid b = true → (s.link p).rx.headers < 64 →
          (s.link p).rx.headers + n = 64 → r.idles < 4096 →
          ∃ t, exec (c [(b, n)]) s = .next t ∧ t.link p = { s.link p with lock := true, rx := { r with bad := [] } } ∧
            (∀ q, q ≠ p → t.link q = s.link q) ∧ s.onlyIn t [.links]) ∧
        (p < 24 → (s.link p).st = .active → (s.link p).lock = true → s.lmp.running = [] → blockValid b = false → 16 ≤ r.bad.length →
          (s.link p).rx.bad.length < 16 → (s.link p).rx.bad.length + n ≤ 16 →
          ∃ t, exec (c [(b, n)]) s = .next t ∧ s.trainsAt t p .retrain (s.link p).rate ∧
            t.get .GHL_SYNCHDR_CNT p = min (s.get .GHL_SYNCHDR_CNT p + n) (2 ^ 32 - 1) ∧ s.counted t .GHL_RETRAIN_CNT p ∧
            s.raised t .ghlRetrain 1 p 0xFF 7 0 ∧ s.regsOnlyAt t [Reg.GHL_SYNCHDR_CNT.addr p 0 0, Reg.GHL_RETRAIN_CNT.addr p 0 0] ∧
            s.onlyIn t [.links, .regs, .out, .wck, .hst, .ltn]) ∧
        ((s.link p).st = .lock → (s.link p).lock = true → isIdleBlock b = true → (s.link p).rx.idles < 4096 → (s.link p).rx.idles + n = 4096 →
          (s.link p).rx.bad.length < 16 →
          (p < 24 → ∃ t raw, exec (c [(b, n)]) s = .next t ∧ (t.link p).st = .caps ∧ (t.link p).version = 0 ∧ s.ctlSent t p 0 raw ∧
            byteAt raw 0 = 3 ∧ byteAt raw 8 = 1 ∧ (∀ q, q ≠ p → t.link q = s.link q) ∧ s.onlyIn t [.links, .out]) ∧
          (24 ≤ p → s.twn.pair ≠ .pairing → s.twn.waiting = [] → s.twn.proposals = [] →
            ∃ t, exec (c [(b, n)]) s = .next t ∧ (t.link p).st = .active ∧
            (t.link p).ctlNext = 0 ∧ (∀ q, q ≠ p → t.link q = s.link q) ∧ s.onlyIn t [.links]))) ∧
    ((s.link p).st = .lock → s.elapsed (s.link p).since 4000000 = true →
      ∀ recent, recent = (s.link p).fails.filter (fun x => decide (s.clock < x + 1000000000)) →
      (recent.length < 2 → ∃ t, exec (.lockTimeout p) s = .next t ∧ s.trainsAt t p .retrain (s.link p).rate ∧
        (t.link p).fails = recent ++ [s.clock] ∧ s.onlyIn t [.links, .out]) ∧
      (p < 24 → s.lmp.running = [] → (s.link p).busy = false → 2 ≤ recent.length →
        ∃ t, exec (.lockTimeout p) s = .next t ∧ s.wentDown t p 3 ∧ s.raised t .ghlDown 2 p 0xFF 8 3 ∧
          s.onlyIn t [.links, .out, .clk, .ltn]))

/-- In a sound state, for a head port p that is not BUSY, with no Lamplighter activity running, of a module that neither is
paired, pairs nor has taken over: (1) a good STAT CAPS of a port in CAPS that passes the checks of R234 settles version 2
where both ends offer it, and version 1 otherwise: where the port runs at that version's rate it takes its heads, rows,
nozzles and version and stays in CAPS, and otherwise it trains again at that rate, with the set kept; one that fails takes
the port DOWN with the reason of the check and raises GHL.DOWN. (2) The echo of the SYNC REQ that waits adds its
measurement, and after the first and the second a further REQ follows, under the next epoch identifier (an identifier of its
own for each REQ is the model's choice: log 138); the third in CAPS sets the epoch to the median measurement, and on an
ACTIVE port ends the exchange; the echo of a REQ that was sent again measures nothing, and a further REQ follows (log 138).
(3) A good STAT NULL on an ACTIVE port, in its turn, restarts its STAT time, its ctl_ack acknowledges every frame up to it,
and its line_ack is taken where it names a line that was sent. (4) CAPS_TIMEOUT after 20 ms takes the port DOWN with reason
6 and raises GHL.DOWN (U). (5) SYNC_PERIODIC sends a SYNC REQ every 100 ms. Every other link stays. (06_gahild_links
(Capability exchange and versions), 06_gahild_links (Time epoch), R231, R234, R238, R240, R252, R255) -/
def Obligations.ExchangeCommandsComplete : Prop :=
  ∀ (s : State) (p : Nat), s.sound → p < 24 → s.twn.pair ≠ .paired → s.twn.pair ≠ .pairing → s.twn.tookOver = none → s.lmp.running = [] →
    (s.link p).busy = false →
    (∀ frame c version rate, (s.link p).st = .caps → (s.link p).version = 0 → statOf frame 2 64 = true → c = framePayload frame →
      version = (if (s.link p).maxVer = 2 ∧ (byteAt c 0).testBit 1 = true then 2 else 1) → rate = (if version = 2 then 1 else 0) →
      (capsFault (s.link p).maxVer (s.link p).capsFirst c = none → (s.link p).rate = rate →
        ∃ t, exec (.statCaps p frame) s = .next t ∧ (t.link p).st = .caps ∧ (t.link p).version = version ∧ (t.link p).proto = version ∧
          (t.link p).geom = some ⟨byteAt c 1, byteAt c 2, leAt c 4 2⟩ ∧
          (t.link p).fireEff = min (leAt c 8 4) (linkBound rate version (byteAt c 1 * leAt c 4 2)) ∧ (∀ q, q ≠ p → t.link q = s.link q) ∧
          s.onlyIn t [.links, .out, .regs]) ∧
      (capsFault (s.link p).maxVer (s.link p).capsFirst c = none → (s.link p).rate ≠ rate →
        ∃ t, exec (.statCaps p frame) s = .next t ∧ s.trainsAt t p .retrain rate ∧ (t.link p).capsFirst = some c ∧ (t.link p).version = 0 ∧
          s.onlyIn t [.links, .out, .regs]) ∧
      (∀ why, capsFault (s.link p).maxVer (s.link p).capsFirst c = some why →
        ∃ t, exec (.statCaps p frame) s = .next t ∧ s.wentDown t p why ∧ (t.link p).capsBad = true ∧
          s.raised t .ghlDown 2 p 0xFF 8 (BitVec.ofNat 32 why) ∧ s.onlyIn t [.links, .out, .regs, .clk, .ltn])) ∧
    (∀ frame t4 id t1 void m e, (s.link p).st = .caps ∨ (s.link p).st = .active → statOf frame 4 16 = true →
      (s.link p).syncWait = some (id, t1, void) → byteAt (framePayload frame) 8 = id →
      m = epochOf t1 t4 (BitVec.ofNat 32 (leAt (framePayload frame) 0 4)) (BitVec.ofNat 32 (leAt (framePayload frame) 4 4)) →
      e = ((s.link p).epochId + 1) % 256 → (s.link p).unacked = [] → (s.link p).queued = [] → s.muted p = false →
      (void = true → ∃ t, exec (.syncEcho p frame t4) s = .next t ∧ (t.link p).syncs = (s.link p).syncs ∧
        s.ctlSent t p (s.link p).ctlNext (syncFrame 1 e 0) ∧ (∀ q, q ≠ p → t.link q = s.link q) ∧ s.onlyIn t [.links, .out]) ∧
      (void = false → (s.link p).syncs.length < 2 → ∃ t, exec (.syncEcho p frame t4) s = .next t ∧
        (t.link p).syncs = (s.link p).syncs ++ [m] ∧ (t.link p).syncWait = some (e, s.mono, false) ∧
        s.ctlSent t p (s.link p).ctlNext (syncFrame 1 e 0) ∧ (∀ q, q ≠ p → t.link q = s.link q) ∧ s.onlyIn t [.links, .out]) ∧
      (void = false → (s.link p).syncs.length = 2 → (s.link p).st = .caps → ∃ t, exec (.syncEcho p frame t4) s = .next t ∧
        (t.link p).epoch = (medianEpoch ((s.link p).syncs ++ [m])).2 ∧ t.rd .GHL_EPOCH p = (medianEpoch ((s.link p).syncs ++ [m])).2 ∧
        (t.link p).geomSent = true ∧ (t.link p).epochId = e ∧ (∀ q, q ≠ p → t.link q = s.link q) ∧
        s.regsOnlyAt t [Reg.GHL_EPOCH.addr p 0 0, Reg.GHL_DELAY.addr p 0 0] ∧ s.onlyIn t [.links, .out, .regs]) ∧
      (void = false → (s.link p).syncs.length = 2 → (s.link p).st = .active →
        (sdiff (medianEpoch ((s.link p).syncs ++ [m])).2 (s.link p).epoch).natAbs ≤ 4 → ∃ t, exec (.syncEcho p frame t4) s = .next t ∧
        t.link p = { s.link p with syncs := [], syncWait := none } ∧ (∀ q, q ≠ p → t.link q = s.link q) ∧ s.onlyIn t [.links])) ∧
    (∀ frame seq ack lack, (s.link p).st = .active → headerGood frame = true → payloadGood frame = true → byteAt frame 0 = 0x81 →
      byteAt frame 16 = 5 → byteAt frame 17 ≤ 1 → leAt frame 2 2 = 0 → seq = BitVec.ofNat 32 (leAt frame 4 4) →
      lack = BitVec.ofNat 32 (leAt frame 8 4) → ack = BitVec.ofNat 32 (leAt frame 12 4) → s.twn.entering = false →
      (∀ n, (s.link p).statNext = some n → 0 ≤ sdiff seq n) → (∀ b, (s.link p).lineAck = some b → 0 ≤ sdiff lack b) →
      (∀ b, (s.link p).ctlAck = some b → 0 ≤ sdiff ack b) → (s.link p).queued = [] → sdiff ack (s.link p).ctlNext < 0 →
      ∃ t, exec (.statAck p frame) s = .next t ∧ (t.link p).statAt = s.clock ∧ (t.link p).statNext = some (seq + 1) ∧
        (t.link p).unacked = (s.link p).unacked.filter (fun f => !lineLe f.seq ack) ∧ (t.link p).ctlAck = some ack ∧
        ((s.link p).sentActive = true → sdiff lack (s.link p).lastSeq ≤ 0 → (t.link p).lineAck = some lack ∧ t.rd .GHL_ACK p = lack) ∧
        ((s.link p).sentActive = false ∨ 0 < sdiff lack (s.link p).lastSeq → (t.link p).lineAck = (s.link p).lineAck) ∧
        (t.link p).st = .active ∧ (∀ q, q ≠ p → t.link q = s.link q) ∧ s.regsOnlyAt t [Reg.GHL_ACK.addr p 0 0] ∧
        s.onlyIn t [.links, .regs]) ∧
    ((s.link p).st = .caps → s.elapsed (s.link p).since 20000000 = true →
      ∃ t, exec (.capsTimeout p) s = .next t ∧ s.wentDown t p 6 ∧ s.raised t .ghlDown 2 p 0xFF 8 6 ∧
        s.onlyIn t [.links, .out, .clk, .ltn]) ∧
    ((s.link p).st = .active → s.muted p = false → s.elapsed (s.link p).syncAt 100000000 = true → (s.link p).unacked = [] →
      (s.link p).queued = [] →
      ∃ t, exec (.syncPeriodic p) s = .next t ∧ s.ctlSent t p (s.link p).ctlNext (syncFrame 1 (((s.link p).epochId + 1) % 256) 0) ∧
        (t.link p).syncAt = s.clock ∧ (t.link p).syncs = [] ∧ (t.link p).syncWait = some (((s.link p).epochId + 1) % 256, s.mono, false) ∧
        (∀ q, q ≠ p → t.link q = s.link q) ∧ s.onlyIn t [.links, .out])

/-- In a sound state with Lamplighter's schedule off, on a head port p: (1) on a port in CAPS or ACTIVE a good NAK, in its turn,
counts in GHL_NAK_CNT and towards the window; one with code 1 raises GHL.CRC (C) with the sequence number and sends every
unacknowledged control frame again, in order; one with code 2, or code 5 of a control frame, sends again the frames that
carry the number it names; one with code 3, or code 5 of a LINE frame, counts in GHL_LINE_NAK_CNT and sends nothing; one
with code 4 counts a violation, and a control frame that it names counts as accepted; one with code 6, or a code that R254
does not list (log 135), counts a violation and sends nothing; (2) on an ACTIVE port no STAT for stat_timeout ms counts a
violation, raises GHL.PARTNER (U) with the window's NAKs and violations, and restarts the time; (3) on an ACTIVE port the
window's end clears both counts, and raises GHL.PARTNER exactly where a limit that is set is passed; (4) once 100 µs have
passed since an unacknowledged control frame left, every unacknowledged frame leaves again, in order. Each frame sent again
is counted, a SYNC REQ carries the present MONO time, and GHL.PARTNER (U) is raised for each frame that is sent again for
the eighth time. Every other link stays. (06_gahild_links (When the partner misbehaves), R254, R255, R259) -/
def Obligations.LinkFaultCommandsComplete : Prop :=
  ∀ (s : State) (p : Nat), s.sound → p < 24 → s.on .LMP_CTRL_sched_en = false →
    (∀ frame code type seq l d, (s.link p).st = .caps ∨ (s.link p).st = .active → headerGood frame = true → byteAt frame 0 = 0x82 →
      code = byteAt frame 8 → type = byteAt frame 9 →
      seq = BitVec.ofNat 32 (leAt frame 12 4) → (∀ n, (s.link p).statNext = some n → 0 ≤ sdiff (BitVec.ofNat 32 (leAt frame 4 4)) n) →
      d = BitVec.ofNat 32 (min ((s.link p).naks + 1) 65535 + min (s.link p).viols 65535 * 65536) →
      (code = 1 → l = (s.link p).unacked → s.muted p = false →
        ∃ t, exec (.nak p frame) s = .next t ∧ (t.link p).naks = (s.link p).naks + 1 ∧ s.counted t .GHL_NAK_CNT p ∧ s.resent t p l ∧
        t.ltn = { s.ltn with raises := s.partnerRaises p l d (insertRaise
          ⟨Src.ghlCrc.num, 1, p, 0xFF, (srcDefaults.getD Src.ghlCrc.num (0, 0)).2, seq, false, s.clock⟩ s.ltn.raises) } ∧
        s.regsOnlyAt t [Reg.GHL_NAK_CNT.addr p 0 0, Reg.GHL_RESEND_CNT.addr p 0 0] ∧ s.onlyIn t [.links, .out, .regs, .wck, .ltn]) ∧
      (code = 2 ∨ code = 5 ∧ type ≠ 1 → l = (s.link p).unacked.filter (fun g => g.seq == seq) → s.muted p = false →
        ∃ t, exec (.nak p frame) s = .next t ∧ (t.link p).naks = (s.link p).naks + 1 ∧ s.counted t .GHL_NAK_CNT p ∧ s.resent t p l ∧
        t.ltn = { s.ltn with raises := s.partnerRaises p l d s.ltn.raises } ∧
        s.regsOnlyAt t [Reg.GHL_NAK_CNT.addr p 0 0, Reg.GHL_RESEND_CNT.addr p 0 0] ∧ s.onlyIn t [.links, .out, .regs, .wck, .ltn]) ∧
      (code = 3 ∨ code = 5 ∧ type = 1 → ∃ t, exec (.nak p frame) s = .next t ∧ (t.link p).naks = (s.link p).naks + 1 ∧
        (t.link p).unacked = (s.link p).unacked ∧ s.counted t .GHL_NAK_CNT p ∧ s.counted t .GHL_LINE_NAK_CNT p ∧
        (∀ q, q ≠ p → t.link q = s.link q) ∧
        s.regsOnlyAt t [Reg.GHL_NAK_CNT.addr p 0 0, Reg.GHL_LINE_NAK_CNT.addr p 0 0] ∧ s.onlyIn t [.links, .regs]) ∧
      (code = 4 → (s.link p).queued = [] → ∃ t, exec (.nak p frame) s = .next t ∧ (t.link p).naks = (s.link p).naks + 1 ∧
        (t.link p).viols = (s.link p).viols + 1 ∧ s.counted t .GHL_NAK_CNT p ∧ s.counted t .GHL_VIOL_CNT p ∧
        (type = 1 → (t.link p).unacked = (s.link p).unacked) ∧
        (type ≠ 1 → (t.link p).unacked = (s.link p).unacked.filter fun g => g.seq != seq) ∧ (∀ q, q ≠ p → t.link q = s.link q) ∧
        s.regsOnlyAt t [Reg.GHL_NAK_CNT.addr p 0 0, Reg.GHL_VIOL_CNT.addr p 0 0] ∧ s.onlyIn t [.links, .regs]) ∧
      (code = 0 ∨ 6 ≤ code → ∃ t, exec (.nak p frame) s = .next t ∧ (t.link p).naks = (s.link p).naks + 1 ∧
        (t.link p).viols = (s.link p).viols + 1 ∧ s.counted t .GHL_NAK_CNT p ∧ s.counted t .GHL_VIOL_CNT p ∧
        (t.link p).unacked = (s.link p).unacked ∧ (∀ q, q ≠ p → t.link q = s.link q) ∧
        s.regsOnlyAt t [Reg.GHL_NAK_CNT.addr p 0 0, Reg.GHL_VIOL_CNT.addr p 0 0] ∧ s.onlyIn t [.links, .regs])) ∧
    ((s.link p).st = .active → s.elapsed (s.link p).statAt (s.get .GHL_CTRL_stat_timeout p * 1000000) = true →
      ∃ t, exec (.statTimeout p) s = .next t ∧ (t.link p).statAt = s.clock ∧ (t.link p).viols = (s.link p).viols + 1 ∧
        (t.link p).st = .active ∧ s.counted t .GHL_VIOL_CNT p ∧
        s.raised t .ghlPartner 2 p 0xFF 7 (BitVec.ofNat 32 (min (s.link p).naks 65535 + min ((s.link p).viols + 1) 65535 * 65536)) ∧
        (∀ q, q ≠ p → t.link q = s.link q) ∧ s.regsOnlyAt t [Reg.GHL_VIOL_CNT.addr p 0 0] ∧ s.onlyIn t [.links, .regs, .ltn]) ∧
    ((s.link p).st = .active → s.elapsed (s.link p).windowAt (s.get .GHL_NAK_CTRL_window p * 1000000) = true → ∀ broken : Prop,
      (broken ↔ s.get .GHL_NAK_CTRL_nak_limit p ≠ 0 ∧ s.get .GHL_NAK_CTRL_nak_limit p < (s.link p).naks ∨
        s.get .GHL_NAK_CTRL_viol_limit p ≠ 0 ∧ s.get .GHL_NAK_CTRL_viol_limit p < (s.link p).viols) →
      ∃ t, exec (.partnerWindowEnd p) s = .next t ∧ (t.link p).naks = 0 ∧ (t.link p).viols = 0 ∧ (t.link p).windowAt = s.clock ∧
        (t.link p).st = .active ∧ (∀ q, q ≠ p → t.link q = s.link q) ∧ (¬ broken → s.onlyIn t [.links]) ∧
        (broken → s.raised t .ghlPartner 2 p 0xFF 7 (BitVec.ofNat 32 (min (s.link p).naks 65535 + min (s.link p).viols 65535 * 65536)) ∧
          s.onlyIn t [.links, .ltn])) ∧
    (∀ l d, (s.link p).st = .caps ∨ (s.link p).st = .active → l = (s.link p).unacked → (∃ f, f ∈ l ∧ s.elapsed f.sentAt 100000 = true) →
      s.muted p = false → d = BitVec.ofNat 32 (min (s.link p).naks 65535 + min (s.link p).viols 65535 * 65536) →
      ∃ t, exec (.ctlResendTimeout p) s = .next t ∧ s.resent t p l ∧ t.ltn = { s.ltn with raises := s.partnerRaises p l d s.ltn.raises } ∧
        s.regsOnlyAt t [Reg.GHL_RESEND_CNT.addr p 0 0] ∧ s.onlyIn t [.links, .out, .regs, .wck, .ltn])

/-- In a sound state, on an enabled camera port c and with a good header: (1) DESKEW deskews the port; (2) CSI_FRAME_START with
no camera frame open and S1 and S2 off opens one that carries the port's next number, the web position and MONO; (3)
CSI_PIXEL_DATA of the port's format, with as many samples as the port's width, adds one camera line of those samples cut to
the format's bits, flags as before, and one held back takes a place of the buffer of 4; one held back with the buffer full
closes a camera frame in no stream with the OVERFLOW and PARTIAL flags and raises PHO.OVERFLOW (U) with its number; (4)
CSI_FRAME_END of a camera frame with all its lines, in no stream, closes it without raising anything; (5) CSI_OTHER_PACKET
on another virtual channel is discarded and counted, and a line start is neither; (6) CAMERA_FRAME_TIMEOUT, 100 ms after the
last packet, closes such a frame with the SHORT and PARTIAL flags and raises PHO.SHORT (C) with its number. No other camera
changes. That a line not held back empties the buffer (logs 84 and 139) and that DESKEW changes nothing else (log 90) are
the model's choices. (07_photometer (Camera ports and the CSI-2 subset), 07_photometer (Camera frames that do not arrive as
configured), R264, R265, R272, R278, R279) -/
def Obligations.CameraPacketCommandsComplete : Prop :=
  ∀ (s : State) (c : Nat), s.sound → c < 4 → s.cameraOn c = true →
    (∃ t, exec (.deskew c) s = .next t ∧ t.cam c = { s.cam c with deskewed := true } ∧ (∀ k, k ≠ c → t.cam k = s.cam k) ∧ s.onlyIn t [.pho]) ∧
    ((s.cam c).frame = none → s.streamOn c 1 = false → s.streamOn c 2 = false →
      ∃ t f, exec (.csiFrameStart c .good) s = .next t ∧ (t.cam c).frame = some f ∧ f.number = (s.cam c).nextNo ∧ f.pfs = s.pos ∧
        f.mono = s.mono ∧ f.rows = [] ∧ f.s1 = none ∧ f.writeS2 = false ∧ (t.cam c).nextNo = (s.cam c).nextNo + 1 ∧
        (∀ k, k ≠ c → t.cam k = s.cam k) ∧ t.pho.loop = s.pho.loop ∧ t.mer.pos = s.mer.pos ∧ s.onlyIn t [.pho, .mer, .tabs]) ∧
    (∀ f samples hold, (s.cam c).frame = some f → f.rows.length < s.get .PHO_SIZE_height c →
      (samples.length = s.get .PHO_SIZE_width c → (hold = true → (s.cam c).held < 4) →
        ∃ t g, exec (.csiPixelData c (0x2B + s.get .PHO_CTRL_fmt c) .good samples hold) s = .next t ∧ (t.cam c).frame = some g ∧
          g.rows = f.rows ++ [samples.map fun v => v.toNat % 2 ^ sampleBits (s.get .PHO_CTRL_fmt c)] ∧ g.flags = f.flags ∧
          g.number = f.number ∧ g.lastAt = s.clock ∧ (t.cam c).held = (if hold then (s.cam c).held + 1 else 0) ∧
          (∀ k, k ≠ c → t.cam k = s.cam k) ∧ s.onlyIn t [.pho]) ∧
      (hold = true → 4 ≤ (s.cam c).held → f.s1 = none → f.writeS2 = false → s.streamOn c 3 = false → (s.cam c).black = none →
        ∃ t, exec (.csiPixelData c (0x2B + s.get .PHO_CTRL_fmt c) .good samples hold) s = .next t ∧ (t.cam c).frame = none ∧
          (t.cam c).lastFlags = f.flags ||| flagOverflow ||| flagPartial ∧
          s.raised t .phoOverflow 2 c 0xFF 5 (BitVec.ofNat 32 f.number.toNat) ∧ (∀ k, k ≠ c → t.cam k = s.cam k) ∧
          s.onlyIn t [.pho, .ltn])) ∧
    (∀ f, (s.cam c).frame = some f → f.s1 = none → f.writeS2 = false → s.streamOn c 3 = false → s.streamOn c 0 = false →
      (s.cam c).black = none →
      (s.get .PHO_SIZE_height c ≤ f.rows.length → ∃ t, exec (.csiFrameEnd c .good) s = .next t ∧ (t.cam c).frame = none ∧
        (t.cam c).lastFlags = f.flags ∧ (t.cam c).nextNo = (s.cam c).nextNo ∧ (∀ k, k ≠ c → t.cam k = s.cam k) ∧ s.onlyIn t [.pho]) ∧
      (s.elapsed f.lastAt 100000000 = true → f.shortRaised = false → ∃ t, exec (.cameraFrameTimeout c) s = .next t ∧ (t.cam c).frame = none ∧
        (t.cam c).lastFlags = f.flags ||| flagShort ||| flagPartial ∧ s.raised t .phoShort 1 c 0xFF 6 (BitVec.ofNat 32 f.number.toNat) ∧
        (∀ k, k ≠ c → t.cam k = s.cam k) ∧ s.onlyIn t [.pho, .ltn])) ∧
    ((s.cam c).frame = none → ∀ v,
      (v ≠ 0 → ∃ t, exec (.csiOtherPacket c v 0x2B .good) s = .next t ∧ s.counted t .PHO_DISCARD_CNT c ∧
        s.regsOnlyAt t [Reg.PHO_DISCARD_CNT.addr c 0 0] ∧ s.onlyIn t [.regs, .pho] ∧ ∀ k, t.cam k = s.cam k) ∧
      (∃ t, exec (.csiOtherPacket c 0 2 .good) s = .next t ∧ s.onlyIn t [.pho] ∧ ∀ k, t.cam k = s.cam k))

/-- In a sound state, for a camera port c: (1) EXP_COMMIT stores the register and makes the set with its identifier wait for a
frame start, behind those of earlier windows (the model's choice, logs 81 and 139); it replaces one committed in the same
window and counts it as superseded; (2) EXP_SET_WRITTEN ends the transfers of the set that is sent: one I2C write for each
entry, and the set is written; (3) I2C_NAK gives the set up, makes the exposure uncertain, counts, and raises PHO.I2C (C)
with the entry; (4) CAMERA_PORT_ENABLE of a disabled port numbers its camera frames from 0; (5) CAMERA_PORT_DISABLE of a
port without an open frame, its other fields kept, ends its deskew; both store the register, and the first enable takes
First Light to step 11 (the model's choice, logs 111 and 145); (6) CAPBUF puts the buffer that a CAPTURE ring reads next
behind those that wait; (7) CAM_BLACK of an enabled port starts its activity and commits the dark set, its descriptor in
flight; (8) CAM_BLACK_TIMEOUT after 2 s ends the activity with FAIL and commits the set that was active before. Every other
camera stays. (07_photometer (Exposure sets and camera frame numbers), 07_photometer (Black-level calibration), R271, R273,
R276, R288, R307, R309) -/
def Obligations.CameraSetCommandsComplete : Prop :=
  ∀ (s : State) (c : Nat), s.sound → c < 4 →
    (∀ v, s.dev.dev ≠ .dark → ∃ t, exec (.expCommit c v) s = .next t ∧ t.rd .PHO_EXP_COMMIT c = Reg.PHO_EXP_COMMIT.stored (s.rd .PHO_EXP_COMMIT c) v ∧
      (t.cam c).waiting = ((s.cam c).waiting.filter fun e => e.closed) ++ [⟨Fld.PHO_EXP_COMMIT_set.of v, Fld.PHO_EXP_COMMIT_id.of v, false⟩] ∧
      ((s.cam c).waiting.any (fun e => !e.closed) = true → s.counted t .PHO_EXP_SUPERSEDE_CNT c) ∧ (t.cam c).active = (s.cam c).active ∧
      (∀ k, k ≠ c → t.cam k = s.cam k) ∧ s.onlyIn t [.pho, .regs, .pcie] ∧
      s.regsOnlyAt t [Reg.PHO_EXP_COMMIT.addr c 0 0, Reg.PHO_EXP_SUPERSEDE_CNT.addr c 0 0]) ∧
    (∀ e, (s.cam c).sending = some e →
      (∃ t, exec (.expSetWritten c) s = .next t ∧ (t.cam c).sending = none ∧ (t.cam c).written = some e ∧
        t.out.length = s.out.length + s.expLen c e.set ∧ (∀ k, k ≠ c → t.cam k = s.cam k) ∧ s.onlyIn t [.pho, .out]) ∧
      (∀ n, ∃ t, exec (.i2cNak c n) s = .next t ∧ (t.cam c).sending = none ∧ (t.cam c).written = none ∧ (t.cam c).uncertain = true ∧
        t.out.length = s.out.length + min (n + 1) (s.expLen c e.set) ∧ s.counted t .PHO_I2C_NAK_CNT c ∧
        s.raised t .phoI2c 1 c e.set 12 (BitVec.ofNat 32 n) ∧ (∀ k, k ≠ c → t.cam k = s.cam k) ∧
        s.regsOnlyAt t [Reg.PHO_I2C_NAK_CNT.addr c 0 0] ∧ s.onlyIn t [.pho, .out, .regs, .ltn])) ∧
    (∀ v, s.reaches (Reg.PHO_CTRL.addr c 0 0) = true → Fld.PHO_CTRL_fmt.of v ≠ 3 →
      (v.msb = true → s.cameraOn c = false → ∃ t, exec (.cameraPortEnable c v) s = .next t ∧ t.cameraOn c = true ∧
        t.rd .PHO_CTRL c = Reg.PHO_CTRL.stored (s.rd .PHO_CTRL c) v ∧ (t.cam c).nextNo = 0 ∧ (t.cam c).started = false ∧
        t.dev = { s.dev with flStep := max 11 s.dev.flStep } ∧ (∀ k, k ≠ c → t.cam k = s.cam k) ∧
        s.regsOnlyAt t [Reg.PHO_CTRL.addr c 0 0] ∧ s.onlyIn t [.pho, .regs, .dev, .pcie]) ∧
      (v.msb = false → s.cameraOn c = true → (s.cam c).frame = none →
        s.rd .PHO_CTRL c &&& 0x7FFFFFFF = v &&& Reg.PHO_CTRL.maskOf [.rw] &&& 0x7FFFFFFF →
        ∃ t, exec (.cameraPortDisable c v) s = .next t ∧ t.cameraOn c = false ∧
          t.rd .PHO_CTRL c = Reg.PHO_CTRL.stored (s.rd .PHO_CTRL c) v ∧ (t.cam c).deskewed = false ∧
          (t.cam c).nextNo = (s.cam c).nextNo ∧ (∀ k, k ≠ c → t.cam k = s.cam k) ∧ s.regsOnlyAt t [Reg.PHO_CTRL.addr c 0 0] ∧
          s.onlyIn t [.pho, .regs, .clk, .pcie])) ∧
    (∀ r d, d.length = 32 → s.running r = true → s.ringKind r = 2 → (s.ring r).bufs.length < s.pendingEntries r → s.tim.rxWait = [] →
      ∃ t, exec (.capbuf r d) s = .next t ∧ t.ring r = { s.ring r with bufs := (s.ring r).bufs ++ [d] } ∧ s.ringsOnly t [r] ∧
        s.onlyIn t [.hst, .pcie]) ∧
    (∀ r d, s.accepts r d 8 → byteAt d 4 = 8 → byteAt d 5 = c → leAt d 16 4 = 0 → s.dev.dev = .standby ∨ s.dev.dev = .printing →
      s.cameraOn c = true → s.lmp.running = [] → (s.cam c).waiting.any (fun e => !e.closed) = false →
      ∃ t, exec (.camBlack r d) s = .next t ∧ t.lmp.running.map (fun a => (a.code, a.target)) = [(8, c)] ∧
        ((t.cam c).waiting.getLast?.map (·.set)) = some (s.get .PHO_BLACK_CTRL_dark_set c) ∧ (t.cam c).black.isSome = true ∧ (t.cam c).calib = true ∧
        (∀ k, k ≠ c → t.cam k = s.cam k) ∧ s.inFlight t r ∧ s.onlyIn t [.hst, .pcie, .lmp, .pho, .free]) ∧
    (∀ a b x, s.lmp.running = [a] → a.code = 8 → a.target = c → a.src = .maint x → x.gen = s.hst.gen → (s.cam c).black = some b →
      (s.cam c).waiting.any (fun e => !e.closed) = false → s.elapsed a.since 2000000000 = true →
      ∃ t, exec (.camBlackTimeout c) s = .next t ∧ t.lmp.running = [] ∧ s.completes t x .fail 0 ∧
        ((t.cam c).waiting.getLast?.map fun e => (e.set, e.id)) = some b.restore ∧ (∀ k, k ≠ c → t.cam k = s.cam k) ∧
        s.onlyIn t [.hst, .lmp, .pho])

/-- In a sound state: (1) LOOP_PERIOD_END of a loop that commits nothing (frozen, under a hold, in HELD, or of a standby or
secondary) starts the next period, drops the samples and loads nothing; a loop load that waits stays, with the number of its
own period, whose epoch line it will take (the model's choice, log 139); (2) one that steps, in STANDBY without a twin role,
with samples of one nozzle that R298 and R299 let step, loads its word with the gain stepped for that nozzle and leaves
every other table alone; (3) LOOP_GAIN_RESET and LOOP_TONE_RESET add their bars to those under reset; (4) LOOP_HOLD_END ends
exactly the holds whose source has been quiet for LTN_QUIET[1]. Nothing else of the Photometer changes. (07_photometer (The
loop), R298, R299, R302, R304, R412) -/
def Obligations.LoopCommandsComplete : Prop :=
  ∀ s : State, s.sound →
    (s.elapsed s.pho.loop.periodAt (s.get .PHO_LOOP_CTRL_period * 100000000) = true →
      (s.loopStill = true → ∃ t, exec .loopPeriodEnd s = .next t ∧
        t.pho = { s.pho with
          loop := { s.pho.loop with
            periodAt := s.clock, line := none, gains := [], tones := [], period := s.pho.loop.period + 1, limited := t.pho.loop.limited } } ∧
        (∀ n, n ∈ t.pho.loop.limited ↔ n ∈ s.pho.loop.limited ∧ ∃ w ∈ s.waits, w.loop.map (·.period) = some n) ∧ s.onlyIn t [.pho]) ∧
      (∀ x d, s.loopStill = false → s.twn.role = .none → s.printing = false → s.waits = [] → s.twn.proposals = [] → s.twn.held = [] →
        s.pho.loop.gains = [x] → s.pho.loop.tones = [] → s.pho.loop.gainReset = 0 → s.pho.loop.toneReset = 0 →
        s.get .PHO_LOOP_CTRL_tone_bars = 0 → (s.get .PHO_LOOP_CTRL_gain_bars).testBit (barOf x.port) = true → x.port < 24 → x.idx < 32768 →
        s.get .PHO_LOOP_CTRL_min_samples ≤ x.n → (∀ p, (s.tab 2 p).pend = none) → s.gainStep x = (d, false) → d ≠ 0 →
        ∃ t, exec .loopPeriodEnd s = .next t ∧ corrWord (t.tab 2 x.port).cur.words x.idx =
            withGain (corrWord (s.tab 2 x.port).cur.words x.idx) ((gainOf (corrWord (s.tab 2 x.port).cur.words x.idx) : Int) + d).toNat ∧
          t.pho.loop.periodAt = s.clock ∧
          t.pho.loop.gains = [] ∧ t.pho.cams = s.pho.cams ∧ (∀ k g, (k, g) ≠ (2, x.port) → t.tab k g = s.tab k g) ∧
          s.onlyIn t [.pho, .tabs])) ∧
    (∀ bars, s.dev.dev ≠ .dark →
      (∃ t, exec (.loopGainReset bars) s = .next t ∧
        t.pho = { s.pho with loop := { s.pho.loop with gainReset := s.pho.loop.gainReset ||| bars } } ∧ s.onlyIn t [.pho, .pcie]) ∧
      (∃ t, exec (.loopToneReset bars) s = .next t ∧
        t.pho = { s.pho with loop := { s.pho.loop with toneReset := s.pho.loop.toneReset ||| bars } } ∧ s.onlyIn t [.pho, .pcie])) ∧
    (s.get .LTN_QUIET_ms 1 ≠ 0 → ∃ t, exec .loopHoldEnd s = .next t ∧
      (∀ h, h ∈ t.pho.loop.holds ↔ h ∈ s.pho.loop.holds ∧ s.elapsed h.2 (s.get .LTN_QUIET_ms 1 * 1000000) = false) ∧
      t.pho.cams = s.pho.cams ∧ t.pho.loop.gains = s.pho.loop.gains ∧ s.onlyIn t [.pho])

/-- In a sound state, the device in STANDBY: (1) PAIR on an unpaired or detached module with no twin port ACTIVE starts pairing
at step 1; (2) UNPAIR while pairing, before anything was received, leaves the module as it was, which does not pair again by
itself, and a detached module will not rejoin; (3) the link, index and ready timeouts end pairing with reason 1, 5 and 7,
and what a joining module had before is put back: its sections and placements, geometry, loop state, and its own position;
(4) a HELLO of the same mode and with Twin 2 in both moves pairing to step 4 with the role that R311 gives where the digests
agree, and ends it with reason 4 where they do not, the partner's serial shown either way; one of another mode ends it with
reason 2; (5) JOIN of a joining module in MIRROR or DUAL at step 7 makes it PAIRED from the join line on, and in PRINTING
from that line where the partner prints and the module is ready; (6) REJOIN_TIMER starts pairing 1 s after a detach. The
model's choices: J stays in STANDBY with a partner that does not print (log 120), GIVE tells of an UNPAIR (log 36), and what
a command of TWN_CMD does in a state that has no use for it (log 123). (08_twin (Pairing), R311, R322, R323, R324, R345) -/
def Obligations.PairingCommandsComplete : Prop :=
  ∀ s : State, s.sound → s.dev.dev = .standby →
    (s.twn.pair = .unpaired ∨ s.twn.pair = .detached → s.twinActive 0 = false → s.twinActive 1 = false →
      ∃ t, exec .pair s = .next t ∧ t.twn.pair = .pairing ∧ t.twn.step = 1 ∧ t.twn.since = s.clock ∧ t.twn.role = s.twn.role ∧
        t.twn.prior = s.twn.role ∧ s.onlyIn t [.twn, .pcie]) ∧
    (s.twn.pair = .pairing → s.twn.before = none →
      (∃ t, exec .unpair s = .next t ∧ s.pairingFailed t s.twn.fail ∧ t.twn.noRejoin = true ∧
        (s.twinActive 0 = false → s.twinActive 1 = false →
          t.twn.waiting = TwMsg.frames (.give 2) (s.get .STO_CTRL_mirror_effort) ∧ s.onlyIn t [.twn, .pcie]) ∧ s.onlyIn t [.twn, .links, .out, .pcie]) ∧
      (s.twn.step = 1 → s.elapsed s.twn.since 1000000000 = true →
        ∃ t, exec .pairLinkTimeout s = .next t ∧ s.pairingFailed t 1 ∧ t.twn.waiting = [] ∧ s.onlyIn t [.twn]) ∧
      (s.twn.step = 4 → s.elapsed s.twn.since 1000000000 = true →
        ∃ t, exec .pairIndexTimeout s = .next t ∧ s.pairingFailed t 5 ∧ t.twn.waiting = [] ∧ s.onlyIn t [.twn]) ∧
      (s.twn.step = 7 → s.elapsed s.twn.since 10000000000 = true →
        ∃ t, exec .pairReadyTimeout s = .next t ∧ s.pairingFailed t 7 ∧ t.twn.waiting = [] ∧ s.onlyIn t [.twn])) ∧
    (s.twn.pair = .detached → ∃ t, exec .unpair s = .next t ∧ t.twn = { s.twn with noRejoin := true } ∧ s.onlyIn t [.twn, .pcie]) ∧
    (∀ b, s.twn.pair = .pairing → s.twn.step = 7 → s.twn.before = some b → s.elapsed s.twn.since 10000000000 = true →
      ∃ t, exec .pairReadyTimeout s = .next t ∧ s.pairingFailed t 7 ∧ t.twn.waiting = [] ∧ t.sto = b.sto ∧ t.mer.geom = b.geom ∧
        t.pho.loop.gref = b.gref ∧ t.pho.loop.delta = b.delta ∧ t.pho.loop.base = b.base ∧ t.mer.pos = s.mer.pos - b.shift ∧
        t.dev = s.dev ∧ t.waits = s.waits ∧ t.tim = s.tim ∧ t.eye = s.eye ∧ t.alm = s.alm) ∧
    (∀ k f h, s.twn.pair = .pairing → s.twn.step = 2 → s.twn.before = none → s.hears k 0x11 f → h = readHello (framePayload f) →
      (h.mode ≠ s.twinMode → ∃ t, exec (.hello k f) s = .next t ∧ s.pairingFailed t 2 ∧ s.heard t k ∧ s.onlyIn t [.twn, .links, .regs]) ∧
      (h.mode = s.twinMode → h.mode ≠ 0 → h.versions.testBit 1 = true → s.get .TWN_CTRL_max_ver ≠ 1 →
        ∀ first, primaryOf s.hello h = some first →
        ∃ t, exec (.hello k f) s = .next t ∧ t.rd .TWN_PARTNER_LO = h.serial.extractLsb' 0 32 ∧
          t.rd .TWN_PARTNER_HI = h.serial.extractLsb' 32 32 ∧ s.heard t k ∧
          s.regsOnlyAt t [Reg.TWN_PARTNER_LO.addr 0 0 0, Reg.TWN_PARTNER_HI.addr 0 0 0] ∧ s.onlyIn t [.twn, .links, .regs] ∧
          (h.digest = s.digest → t.twn.pair = .pairing ∧ t.twn.step = 4 ∧ t.twn.version = 2 ∧ t.twn.joining = !first ∧
            t.twn.role = if first then .primary else if s.twinMode = 3 then .secondary else .standby) ∧
          (h.digest ≠ s.digest → s.pairingFailed t 4))) ∧
    (∀ k f line, s.twn.pair = .pairing → s.twn.joining = true → s.twn.step = 7 → s.twinMode ≠ 1 →
      s.hears k 0x1B f → line = lineAt (framePayload f) 0 →
      ∃ t, exec (.join k f) s = .next t ∧ t.twn.pair = .paired ∧ t.twn.joinLine = some line ∧ t.twn.joinShown = line ∧
        t.twn.role = s.twn.role ∧ (s.twn.peerState ≠ 3 → s.heard t k ∧ s.onlyIn t [.twn, .links]) ∧
        (s.twn.peerState = 3 → s.ready = true → t.dev.dev = .printing ∧
          (t.link (24 + k)).ctlExpected = (s.link (24 + k)).ctlExpected + 1 ∧
          ∀ p < 24, (t.pipe p).running = true ∧ (t.pipe p).first = some (match (s.pipe p).passed with
            | some l => lineMax (s.evenUp line) (s.nextAfter l)
            | none => s.evenUp line))) ∧
    (s.twn.pair = .detached → s.on .TWN_CTRL_auto_rejoin = true → s.twn.noRejoin = false → s.elapsed s.twn.since 1000000000 = true →
      s.twinActive 0 = false → s.twinActive 1 = false →
      ∃ t, exec .rejoinTimer s = .next t ∧ t.twn.pair = .pairing ∧ t.twn.step = 1 ∧ t.twn.since = s.clock ∧ s.onlyIn t [.twn])

/-- In a sound state: (1) HB_SEND sends a heartbeat frame of this module's state, role, highest line, digest and acknowledgement
from an ACTIVE twin port, under no sequence number; (2) a good HB restarts the heartbeat time and acknowledges the port's
frames up to its number; one with another settings digest on a PAIRED follower in STANDBY raises TWN.DISAGREE (U) with
detail 3, counts it and detaches; one that says that the partner has detached makes the primary go on alone; (3) an edge on
TWIN_ALIVE_IN restarts its time; (4) TWIN_ALIVE_OUT toggles in FIRST_LIGHT, STANDBY and PRINTING and goes low in HELD; (5)
PARTNER_TIMEOUT with both paths silent makes a primary without changes under agreement go on alone and raises TWN.HEARTBEAT
(U) with detail 2; with one silent it counts and raises with detail 0 or 1; (6) GIVE of a failing partner on a MIRROR
standby, and ANNOUNCE_TIMEOUT on a DUAL secondary, take over: primary, unpaired, TWN.TAKEOVER (C) raised with the mode and
counted. The model's choices: the detached flag, the acknowledgement in header bytes 12 to 15 and the places in a payload
(log 140), UNPAIRED after a takeover (log 122), and the role a detached module keeps (log 127). (08_twin (Failure
detection), 08_twin (Takeover), R315, R318, R324, R327, R336, R339, R340, R345) -/
def Obligations.PartnerLifeCommandsComplete : Prop :=
  ∀ s : State, s.sound →
    (∀ k, s.twinActive k = true → ∃ t raw frame lane block lane', exec (.hbSend k) s = .next t ∧ TwMsg.frames (.hb (s.heartbeat k)) 0 = [raw] ∧
      frame = finishFrame raw 0 ∧ t.out = s.out ++ [.linkFrame (24 + k) frame lane, .idle (24 + k) block lane'] ∧
      byteAt frame 0 = 0x12 ∧ leAt frame 2 2 = 16 ∧ leAt frame 4 4 = 0 ∧ leAt frame 12 4 = ((s.link (24 + k)).ctlExpected - 1).toNat ∧
      byteAt frame 32 = s.dev.dev.code ∧ byteAt frame 33 = s.twn.role.code ∧ lineAt frame 35 = s.highestAll ∧
      leAt frame 40 2 = s.digest.toNat ∧ (t.link (24 + k)).ctlNext = (s.link (24 + k)).ctlNext ∧
      (t.link (24 + k)).unacked = (s.link (24 + k)).unacked ∧ (∀ q, q ≠ 24 + k → t.link q = s.link q) ∧ s.onlyIn t [.links, .out]) ∧
    (∀ k f h, s.hears k 0x12 f → h = readHb f → s.twn.pair = .paired → (s.link (24 + k)).queued = [] → s.twn.ckpt.building = none →
      (s.follower = true ∧ h.digest = s.digest ∨ s.follower = false ∧ h.detached = false → ∃ t, exec (.hb k f) s = .next t ∧
        t.twn = { s.twn with hbAt := s.clock, peerState := h.state, hbBroken := s.twn.hbBroken && s.aliveSilent } ∧
        t.link (24 + k) = { s.link (24 + k) with ctlAck := some h.ack, unacked := (s.link (24 + k)).unacked.filter fun f => !lineLe f.seq h.ack } ∧
        (∀ q, q ≠ 24 + k → t.link q = s.link q) ∧ s.onlyIn t [.twn, .links]) ∧
      (h.digest ≠ s.digest → s.follower = true → s.dev.dev = .standby → ∃ t, exec (.hb k f) s = .next t ∧ t.twn.pair = .detached ∧
        t.twn.since = s.clock ∧ t.twn.role = s.twn.role ∧ s.counted t .TWN_DISAGREE_CNT ∧ s.raised t .twnDisagree 2 0xFF 0xFF 14 3 ∧
        s.regsOnlyAt t [Reg.TWN_DISAGREE_CNT.addr 0 0 0] ∧ s.onlyIn t [.twn, .regs, .ltn, .links, .out]) ∧
      (h.detached = true → s.follower = false → s.twn.proposals = [] → s.lmp.running = [] → ∃ t, exec (.hb k f) s = .next t ∧
        t.twn.pair = .unpaired ∧ t.twn.role = s.twn.role ∧ t.twn.joinLine = none ∧ s.onlyIn t [.twn, .links])) ∧
    (∃ t, exec .twinAliveEdge s = .next t ∧
      t.twn = { s.twn with aliveAt := s.clock, edgeAt := some s.clock, hbBroken := s.twn.hbBroken && s.hbSilent } ∧ s.onlyIn t [.twn]) ∧
    (s.devIn [.firstLight, .standby, .printing] = true → ∃ t, exec .twinAliveToggle s = .next t ∧
      t.twn = { s.twn with aliveOut := !s.twn.aliveOut } ∧ t.out = s.out ++ [.twinAlive !s.twn.aliveOut] ∧ s.onlyIn t [.twn, .out]) ∧
    (s.dev.dev = .held → s.twn.aliveOut = true → ∃ t, exec .twinAliveToggle s = .next t ∧ t.twn = { s.twn with aliveOut := false } ∧
      t.out = s.out ++ [.twinAlive false] ∧ s.onlyIn t [.twn, .out]) ∧
    (s.twn.pair = .paired →
      (s.hbSilent = true → s.aliveSilent = true → s.twn.role = .primary → s.twn.proposals = [] → s.lmp.running = [] →
        ∃ t, exec .partnerTimeout s = .next t ∧ t.twn.pair = .unpaired ∧ t.twn.role = .primary ∧ t.twn.joinLine = none ∧
          s.raised t .twnHeartbeat 2 0xFF 0xFF 0 2 ∧ s.onlyIn t [.twn, .ltn]) ∧
      (s.hbSilent ≠ s.aliveSilent → s.twn.hbBroken = false → ∃ t, exec .partnerTimeout s = .next t ∧
        t.twn = { s.twn with hbBroken := true } ∧ s.counted t .TWN_HB_MISS_CNT ∧
        s.raised t .twnHeartbeat 2 0xFF 0xFF 0 (if s.hbSilent then 0 else 1) ∧ s.regsOnlyAt t [Reg.TWN_HB_MISS_CNT.addr 0 0 0] ∧
        s.onlyIn t [.twn, .regs, .ltn]) ∧
      (∀ k f, s.hears k 0x1A f → byteAt (framePayload f) 0 ≠ 2 → s.twinMode = 2 → s.twn.role = .standby → s.twn.held = [] →
        ∃ t, exec (.give k f) s = .next t ∧ t.twn.pair = .unpaired ∧ t.twn.role = .primary ∧ t.twn.tookOver = some .standby ∧
          s.counted t .TWN_TAKEOVER_CNT ∧ s.raised t .twnTakeover 1 0xFF 0xFF 0 2 ∧ s.heard t k ∧
          s.regsOnlyAt t [Reg.TWN_TAKEOVER_CNT.addr 0 0 0] ∧ s.onlyIn t [.twn, .links, .regs, .ltn]) ∧
      (∀ p a, p < 24 → s.twinMode = 3 → s.twn.role = .secondary → s.twn.held = [] → s.dev.dev = .printing → (s.pipe p).running = true →
        s.twn.anns.any (fun a => a.port == p) = false → (s.pipe p).openSince = some a → s.elapsed a 2500 = true →
        s.elapsed s.twn.aliveAt 2000 = true →
        ∃ t, exec (.announceTimeout p) s = .next t ∧ t.twn.pair = .unpaired ∧ t.twn.role = .primary ∧ t.twn.tookOver = some .secondary ∧
          s.counted t .TWN_TAKEOVER_CNT ∧ s.raised t .twnTakeover 1 0xFF 0xFF 0 3 ∧
          s.regsOnlyAt t [Reg.TWN_TAKEOVER_CNT.addr 0 0 0] ∧ s.onlyIn t [.twn, .regs, .ltn]))

/-- In a sound state of a PAIRED module in MIRROR or DUAL, each frame good and the next in order on its twin port: a follower
(1) keeps the announcements of a frame that it has neither passed nor taken; (2) at a CHANGE that one frame holds whole, of
an identifier not seen, votes yes where it passes its rules, its strips have arrived, and no pipeline of its own has begun
its epoch line, and keeps it; votes no on one that fails a CRC, and keeps nothing; (3) applies a SEAL that it kept at DECIDE
commit and drops it at DECIDE abort; (4) raises TWN.DISAGREE with detail 4 and detaches 2 ms after a yes vote without a
DECIDE. The primary, at a vote on its SEAL, (5) sends DECIDE commit and seals the section, its descriptor completing OK with
its pages; (6) at a no vote, or 1 ms without a vote, sends DECIDE abort, counts TWN_ABORT_CNT and completes the descriptor
with EPOCH_PAST; the section stays as it is. VOTE's reasons 0 and 1 and the places in CHANGE's chunk header are the model's
choice (log 140). (08_twin (Changes in MIRROR and DUAL), R328, R330, R331) -/
def Obligations.AgreementCommandsComplete : Prop :=
  ∀ s : State, s.sound → s.twn.pair = .paired → 2 ≤ s.twinMode →
    (s.follower = true →
      (∀ k f l, s.hears k 0x13 f → l = readAnnounce (framePayload f) → (∀ a, a ∈ l → s.newAnn a = true) →
        (l.map fun a => (a.port, a.seq)).Nodup → ∃ t, exec (.announce k f) s = .next t ∧ t.twn = { s.twn with anns := s.twn.anns ++ l } ∧
        s.heard t k ∧ s.onlyIn t [.twn, .links]) ∧
      (∀ f id seen, s.hears 0 0x14 f → s.twinOpen → s.twn.chunks = [] → leAt f 12 4 = 0 → leAt f 16 4 = leAt f 2 2 → id = leAt f 8 4 →
        id ∉ s.twn.seen → seen = (s.twn.seen ++ [id]).drop (s.twn.seen.length - 63) →
        (∀ n line body, readChangeRecord (framePayload f) = some (n, line, body) → s.changeIn body = true → s.changeOk body = true →
          (∀ e, line = some e → untimed body = true ∨ s.anyBegun (s.changeAffects body) e = false) →
          ∃ t, exec (.change 0 f) s = .next t ∧ s.twinSent t (.vote id true 0) ∧ (t.link 24).ctlExpected = (s.link 24).ctlExpected + 1 ∧
            t.twn = { s.twn with seen := seen, held := s.twn.held ++ [⟨id, line, body, s.clock, none, 0, none, false⟩] } ∧
            s.onlyIn t [.twn, .links, .out]) ∧
        (readChangeRecord (framePayload f) = none → ∃ t, exec (.change 0 f) s = .next t ∧ s.twinSent t (.vote id false 1) ∧
          (t.link 24).ctlExpected = (s.link 24).ctlExpected + 1 ∧ t.twn = { s.twn with seen := seen } ∧ s.onlyIn t [.twn, .links, .out])) ∧
      (∀ p n x, s.twn.held = [p] → p.body = .seal n → s.sto.sections.find? n = some x →
        (∀ k f, s.hears k 0x16 f → leAt (framePayload f) 0 4 = p.id →
          (byteAt (framePayload f) 4 = 1 → ∃ t, exec (.decide k f) s = .next t ∧ t.sto.sections.find? n = some { x with st := .sealed' } ∧
            (∀ m, m ≠ n → t.sto.sections.find? m = s.sto.sections.find? m) ∧ t.twn = { s.twn with held := [] } ∧ s.heard t k ∧
            s.onlyIn t [.twn, .sto, .links]) ∧
          (byteAt (framePayload f) 4 ≠ 1 → ∃ t, exec (.decide k f) s = .next t ∧ t.twn = { s.twn with held := [] } ∧ s.heard t k ∧
            s.onlyIn t [.twn, .links])) ∧
        (s.elapsed p.since 2000000 = true → s.dev.dev = .standby → ∃ t, exec .decideTimeout s = .next t ∧ t.twn.pair = .detached ∧
          t.twn.held = [] ∧ s.counted t .TWN_DISAGREE_CNT ∧ s.raised t .twnDisagree 2 0xFF 0xFF 14 4 ∧
          s.regsOnlyAt t [Reg.TWN_DISAGREE_CNT.addr 0 0 0] ∧ s.onlyIn t [.twn, .regs, .ltn, .links, .out]))) ∧
    (∀ p n x c, s.twn.role = .primary → s.twinOpen → s.twn.proposals = [p] → p.body = .seal n →
      p.ctx = some c → c.gen = s.hst.gen → s.sto.sections.find? n = some x →
      (∀ f, s.hears 0 0x15 f → leAt (framePayload f) 0 4 = p.id → byteAt (framePayload f) 4 = 1 →
        ∃ t, exec (.vote 0 f) s = .next t ∧ s.twinSent t (.decide p.id true) ∧ t.twn.proposals = [] ∧
          t.sto.sections.find? n = some { x with st := .sealed' } ∧ (∀ m, m ≠ n → t.sto.sections.find? m = s.sto.sections.find? m) ∧
          s.completes t c .ok x.pages ∧ s.ringsOnly t [s.cring c.ring] ∧ s.onlyIn t [.twn, .sto, .links, .out, .hst]) ∧
      ∀ i, (∃ f, i = Instr.vote 0 f ∧ s.hears 0 0x15 f ∧ leAt (framePayload f) 0 4 = p.id ∧ byteAt (framePayload f) 4 ≠ 1) ∨
          i = Instr.voteTimeout ∧ s.elapsed p.since 1000000 = true →
        ∃ t, exec i s = .next t ∧ s.twinSent t (.decide p.id false) ∧ t.twn.proposals = [] ∧ s.counted t .TWN_ABORT_CNT ∧
          s.completes t c .epochPast 0 ∧ s.ringsOnly t [s.cring c.ring] ∧ s.regsOnlyAt t [Reg.TWN_ABORT_CNT.addr 0 0 0] ∧
          s.onlyIn t [.twn, .regs, .links, .out, .hst])

/-- In a sound state of a PAIRED module, each frame good and the next in order on its twin port: on a follower, (1) DATA is kept
until its ingest is decided; (2) a CHANGE in COLD that one frame holds whole goes into the journal at its identifier; (3) in
COLD the CKPT frame that makes a checkpoint whole, with good CRCs, makes it the checkpoint held, drops from the journal the
changes that it holds, and is counted; one that fails a CRC is dropped whole, and a frame that leaves it incomplete is kept;
(4) CHECK POS within TWN_POS_TOL changes nothing, and one beyond it, in STANDBY, raises TWN.DISAGREE with detail 1 and
detaches; (5) in MIRROR and DUAL, CHECK_FIRE_SEND sends the newest send decision of the next port in turn. (6)
CHECKPOINT_NOW on the primary in COLD, with no activity running or waiting, starts one that sends a checkpoint numbered one
above the last, in chunks of at most 4,096 bytes of which four go at once; (7) MAINT TWIN_CKPT does the same, its descriptor
in flight. The chunk headers and the places in DATA and CKPT headers (log 140) and what a checkpoint holds (log 121) are the
model's choices. (08_twin (Checkpoints and the journal), 08_twin (Pairing), R318, R326, R330, R334, R335) -/
def Obligations.CheckpointCommandsComplete : Prop :=
  ∀ s : State, s.sound → s.twn.pair = .paired →
    (s.follower = true →
      (∀ k f d, s.hears k 0x17 f → d = (leAt f 8 2, leAt f 10 2, leAt f 12 4, leAt f 16 4, framePayload f) → s.twn.unvoted = [] →
        s.twn.ckpt.building = none → ∃ t, exec (.data k f) s = .next t ∧ t.twn = { s.twn with staged := s.twn.staged ++ [d] } ∧
        s.onlyIn t [.twn]) ∧
      (∀ k f id n line body, s.twinMode = 1 → s.hears k 0x14 f → s.twn.chunks = [] → leAt f 12 4 = 0 → leAt f 16 4 = leAt f 2 2 →
        id = leAt f 8 4 → id ∉ s.twn.seen → readChangeRecord (framePayload f) = some (n, line, body) →
        ∃ t, exec (.change k f) s = .next t ∧ t.twn.ckpt.journal = journalPut s.twn.ckpt.journal (id, line, body) ∧
          t.twn.ckpt.journalBytes = s.twn.ckpt.journalBytes + (changeRecord id line body).length ∧
          t.twn.ckpt.body = s.twn.ckpt.body ∧ t.twn.held = s.twn.held ∧ s.heard t k ∧ s.onlyIn t [.twn, .links]) ∧
      (∀ k f u, s.twinMode = 1 → s.hears k 0x18 f →
        (∀ bytes b, s.collect 0x18 f = (u, some bytes) → readCkpt bytes = some b →
          ∃ t, exec (.ckpt k f) s = .next t ∧ t.twn.ckpt.body = some b ∧ t.twn.ckptLine = b.line ∧
            t.twn.ckpt.journal = s.twn.ckpt.journal.filter (fun e => decide (leAt f 20 4 < e.1)) ∧ t.twn.chunks = u.twn.chunks ∧
            s.heard t k ∧ s.counted t .TWN_CKPT_CNT ∧ s.regsOnlyAt t [Reg.TWN_CKPT_CNT.addr 0 0 0] ∧ s.onlyIn t [.twn, .links, .regs]) ∧
        (∀ bytes, s.collect 0x18 f = (u, some bytes) → readCkpt bytes = none →
          ∃ t, exec (.ckpt k f) s = .next t ∧ t.twn = { s.twn with chunks := u.twn.chunks } ∧ s.heard t k ∧ s.onlyIn t [.twn, .links]) ∧
        (s.collect 0x18 f = (u, none) →
          ∃ t, exec (.ckpt k f) s = .next t ∧ t.twn = { s.twn with chunks := u.twn.chunks } ∧ s.heard t k ∧ s.onlyIn t [.twn, .links])) ∧
      (∀ k f q own at', s.hears k 0x19 f → readCheck (framePayload f) = some (.pos q) → s.twn.index = some (own, at') →
        ((sdiff own q).natAbs ≤ s.get .TWN_POS_TOL_tol → ∃ t, exec (.check k f) s = .next t ∧ s.heard t k ∧ s.onlyIn t [.links]) ∧
        (s.get .TWN_POS_TOL_tol < (sdiff own q).natAbs → s.dev.dev = .standby →
          ∃ t, exec (.check k f) s = .next t ∧ t.twn.pair = .detached ∧ s.counted t .TWN_DISAGREE_CNT ∧
            s.raised t .twnDisagree 2 0xFF 0xFF 14 1 ∧ s.regsOnlyAt t [Reg.TWN_DISAGREE_CNT.addr 0 0 0] ∧
            s.onlyIn t [.twn, .regs, .ltn, .links, .out]))) ∧
    (∀ e, 2 ≤ s.twinMode → s.twinOpen → (s.twn.fires.find? fun x => x.1 == s.twn.firePort) = some e →
      ∃ t, exec .checkFireSend s = .next t ∧ s.twinSent t (.check (.fire s.twn.firePort e.2.1 e.2.2.1 e.2.2.2)) ∧
        t.twn = { s.twn with firePort := (s.twn.firePort + 1) % 24 } ∧ s.onlyIn t [.twn, .links, .out]) ∧
    (∀ i frames b m, s.coldPrimary = true → s.twinOpen → (s.link 24).unacked = [] → s.dev.dev = .standby ∨ s.dev.dev = .printing →
      s.lmp.running = [] → s.lmp.queue = [] → b = s.checkpoint s.epochLine (s.twn.ckpt.number + 1) →
      frames = TwMsg.frames (.ckpt b s.twn.lastId) (s.get .STO_CTRL_mirror_effort) →
      m = CkptBody.mismatches b (s.get .STO_CTRL_mirror_effort) →
      i = Instr.checkpointNow ∨ (∃ r d, i = Instr.twinCkpt r d ∧ s.accepts r d 8 ∧ byteAt d 4 = 7 ∧ byteAt d 5 = 0 ∧ leAt d 16 4 = 0) →
      ∃ t, exec i s = .next t ∧ t.twn.ckpt.building = some b ∧ t.twn.ckpt.number = s.twn.ckpt.number + 1 ∧
        t.twn.ckpt.body = s.twn.ckpt.body ∧ (t.link 24).unacked.map (·.frame) = frames.take 4 ∧ (t.link 24).queued = frames.drop 4 ∧
        (∀ q, q ≠ 24 → t.link q = s.link q) ∧ t.lmp.running.map (·.code) = [7] ∧
        t.get .STO_VERIFY_CNT = min (s.get .STO_VERIFY_CNT + m) 0xFFFFFFFF ∧ s.regsOnlyAt t [Reg.STO_VERIFY_CNT.addr 0 0 0] ∧
        s.onlyIn t ([.twn, .links, .out, .lmp, .pcie, .hst] ++ if m = 0 then [] else [.regs, .ltn, .free]) ∧
        (i = .checkpointNow → t.hst = s.hst) ∧ (∀ r d, i = .twinCkpt r d → s.inFlight t r))

/-- For every frame of every message a module sends (an ANNOUNCE of 1 to 8 entries, DATA of 1 to 4,096 bytes), with any sequence
number: its header passes the control CRC-16, and carries the number; its pay_crc is the control CRC-16 of its payload, or 0
on DATA; the section, plane, strip and offset of DATA stand in the header bytes that hdr_crc covers; the frame is a good one
of its type with the payload length of that type. A frame received on a twin port that fails its header CRC, or but for DATA
its payload CRC, has no effect, whatever it would do. (The places of the fields inside a payload are the model's: log 140.)
(R319) -/
def Obligations.TwinFramesCarryCrcs : Prop :=
  (∀ (m : TwMsg) (effort : Nat) (seq : BitVec 32) (raw f : Bytes), raw ∈ TwMsg.frames m effort → f = finishFrame raw seq →
    (∀ l, m = .announce l → 1 ≤ l.length ∧ l.length ≤ 8) →
    (∀ sec plane strip off b, m = .data sec plane strip off b → 1 ≤ b.length ∧ b.length ≤ 4096) →
    headerGood f = true ∧ BitVec.ofNat 32 (leAt f 4 4) = seq ∧ byteAt f 0 = byteAt raw 0 ∧ twinFrameOk (byteAt raw 0) f = true ∧
      framePayload f = raw.drop 32 ∧
      (byteAt f 0 ≠ 0x17 → leAt f 28 2 = (crc16 (framePayload f)).toNat) ∧ (byteAt f 0 = 0x17 → leAt f 28 2 = 0) ∧
      (∀ sec plane strip off b, m = .data sec plane strip off b → sec < 4096 → plane < 8 → strip < 2 ^ 32 → off < 2 ^ 32 →
        byteAt f 0 = 0x17 ∧ leAt f 8 2 = sec ∧ leAt f 10 2 = plane ∧ leAt f 12 4 = strip ∧ leAt f 16 4 = off ∧ framePayload f = b)) ∧
    (∀ (s : State) (k type : Nat) (f : Bytes) (act : State → State),
      (headerGood f = false ∨ (type ≠ 0x17 ∧ payloadGood f = false)) → s.takeTwin k type f act = s)

/-- In a sound state: (1) PCIE_LINK_LOSS of a link that is up stops every ring that is not DISABLED with reason 6, abandons what
was in flight, the buffer of an open camera frame with it, and in STANDBY, PRINTING and HELD raises HST.LINK_DOWN (F) with
the cause; (2) L1_ENTRY where R348 allows it, the link idle for 10 µs, enters L1; (3) PCIE_LINK_UP, with no vector pending,
serves the configuration again, and does nothing while the endpoint answers with Configuration Request Retry Status; (4)
KICK is counted; with no ring RUNNING it does nothing else, with one and the doorbell block inside a window it reads the
block, and while a read is in flight it asks for one more; (5) DOORBELL_POLL reads it after its period; (6) DOORBELL_READ
gives a RUNNING ring its new index and kick_seq where the entry's CRC holds and the index lies in the ring, and otherwise
leaves them and, once for each kick_seq value, raises HST.DOORBELL_RANGE (C) with the index, bit 31 set where the CRC
failed, and counts it in HST_DBRANGE_CNT; every other entry leaves its ring as it was; a failed read changes no ring. The
model's choices: what a link loss clears (log 25), and what becomes of work begun for the rings (log 42). (09_host_rings
(The PCI Express endpoint), 09_host_rings (Doorbell block and status block), R348, R349, R350, R353, R366, R367) -/
def Obligations.HostLinkCommandsComplete : Prop :=
  ∀ s : State, s.sound →
    (∀ cause, s.hst.dlUp = true → (s.hst.d3hot = true → cause ≠ .d3hot) →
      ∃ t, exec (.pcieLinkLoss cause) s = .next t ∧ t.hst.dlUp = (cause == .d3hot) ∧ t.hst.d3hot = (cause == .d3hot) ∧ t.hst.l1 = false ∧
        t.hst.gen = s.hst.gen + 1 ∧ t.hst.reading = false ∧
        (∀ r, r < 64 → (t.ring r).inflight = 0 ∧ (t.ring r).waiting = [] ∧ (t.ring r).bufs = [] ∧ (t.ring r).dev = (s.ring r).dev ∧
          ((s.ring r).st = .disabled → (t.ring r).st = .disabled) ∧
          ((s.ring r).st ≠ .disabled → (t.ring r).st = .stopped ∧ (t.ring r).reason = 6)) ∧
        t.waits = s.waits.filter (fun w => w.ctx.isNone) ∧ t.tim = { s.tim with tx := [] } ∧ t.lmp.running = s.lmp.running ∧
        (∀ c, c < 4 → t.cam c = { s.cam c with frame := (s.cam c).frame.map fun f => { f with s1 := none } }) ∧ t.pho.loop = s.pho.loop ∧
        (s.devIn [.standby, .printing, .held] = true → s.raised t .hstLinkDown 3 0xFF 0xFF 21 (BitVec.ofNat 32 (lossCode cause))) ∧
        (s.devIn [.standby, .printing, .held] = false → t.ltn = s.ltn) ∧
        (cause ≠ .hotReset → t.clk = s.clk) ∧ s.onlyIn t [.hst, .pcie, .waits, .lmp, .tim, .ltn, .pho, .clk]) ∧
    (s.hst.cfg.l1En = true → s.hst.dlUp = true → s.hst.d3hot = false → s.printing = false → s.hst.reading = false →
      (∀ g, g ∈ s.hst.rings → g.inflight = 0) → s.elapsed s.hst.busyAt 10000 = true →
      ∃ t, exec .l1Entry s = .next t ∧ t.hst = { s.hst with l1 := true } ∧ s.onlyIn t [.pcie]) ∧
    (∀ cfg, (s.configRetry = true → exec (.pcieLinkUp cfg) s = .next s) ∧
      (s.configRetry = false → s.rd .HST_MSIX_PBA 0 = 0 → s.rd .HST_MSIX_PBA 1 = 0 →
        ∃ t, exec (.pcieLinkUp cfg) s = .next t ∧
          t.hst = { s.hst with dlUp := true, d3hot := false, l1 := false, busyAt := s.clock, cfg := cfg } ∧ s.onlyIn t [.hst, .pcie])) ∧
    (s.dev.dev ≠ .dark →
      (s.anyRunning = false → ∃ t, exec .kick s = .next t ∧ s.counted t .HST_KICK_CNT ∧
        s.regsOnlyAt t [Reg.HST_KICK_CNT.addr 0 0 0] ∧ s.onlyIn t [.regs, .pcie]) ∧
      (s.anyRunning = true → s.hst.reading = true → ∃ t, exec .kick s = .next t ∧ s.counted t .HST_KICK_CNT ∧
        t.hst = { s.hst with again := true, l1 := false, busyAt := s.clock } ∧ s.regsOnlyAt t [Reg.HST_KICK_CNT.addr 0 0 0] ∧
        s.onlyIn t [.regs, .hst, .pcie]) ∧
      (s.anyRunning = true → s.hst.reading = false → s.windowOk false s.dbBase 512 = true → ∃ t, exec .kick s = .next t ∧
        s.counted t .HST_KICK_CNT ∧ t.hst = { s.hst with pollAt := s.clock, l1 := false, busyAt := s.clock, reading := true } ∧
        t.out = s.out ++ [.hostRead s.dbBase 512] ∧ s.regsOnlyAt t [Reg.HST_KICK_CNT.addr 0 0 0] ∧
        s.onlyIn t [.regs, .hst, .pcie, .out])) ∧
    (s.get .HST_CTRL_poll_us ≠ 0 → s.anyRunning = true → s.hst.reading = false →
      s.elapsed s.hst.pollAt (s.get .HST_CTRL_poll_us * 1000) = true → s.windowOk false s.dbBase 512 = true →
      ∃ t, exec .doorbellPoll s = .next t ∧ t.hst = { s.hst with pollAt := s.clock, l1 := false, busyAt := s.clock, reading := true } ∧
        t.out = s.out ++ [.hostRead s.dbBase 512] ∧ s.onlyIn t [.hst, .pcie, .out]) ∧
    (s.hst.reading = true → s.hst.again = false →
      (∃ t, exec (.doorbellRead none) s = .next t ∧ t.hst = { s.hst with reading := false, l1 := false, busyAt := s.clock } ∧
        s.onlyIn t [.hst, .pcie]) ∧
      (∀ b, b.length = 512 → ∃ t, exec (.doorbellRead (some b)) s = .next t ∧ t.hst.reading = false ∧
        t.ltn.raises = ((List.range 64).filter (s.badDoorbell b)).foldl (fun l r => insertRaise (s.doorbellRaise b r) l) s.ltn.raises ∧
        t.get .HST_DBRANGE_CNT = min (s.get .HST_DBRANGE_CNT + ((List.range 64).filter (s.badDoorbell b)).length) 0xFFFFFFFF ∧
        s.regsOnlyAt t [Reg.HST_DBRANGE_CNT.addr 0 0 0] ∧ s.onlyIn t [.hst, .pcie, .regs, .ltn, .pho] ∧
        ∀ r e i k, r < 64 → e = (b.drop (8 * r)).take 8 → i = leAt e 0 2 → k = BitVec.ofNat 32 (leAt e 4 4) →
          ((s.ring r).st ≠ .running ∨ i = (s.ring r).acc ∧ k = (s.ring r).kick → t.ring r = s.ring r) ∧
          ((s.ring r).st = .running → (i ≠ (s.ring r).acc ∨ k ≠ (s.ring r).kick) →
            (crc16 (e.take 2 ++ e.drop 4) = BitVec.ofNat 16 (leAt e 2 2) → i < s.ringSize r →
              t.ring r = { s.ring r with acc := i, kick := k, dirty := true }) ∧
            (crc16 (e.take 2 ++ e.drop 4) ≠ BitVec.ofNat 16 (leAt e 2 2) ∨ s.ringSize r ≤ i →
              t.ring r = { s.ring r with badKick := some k }))))

/-- In a sound state, for a ring r: (1) RING_ENABLE of a DISABLED ring that R359 lets start stores the configuration and makes
the ring RUNNING, from entry 0 and phase 1, completions that wait for it kept, while no class's newest FAULT record stands
in it any more (the model's choice, log 144), nor its kick_seq and accepted index (log 24); one that R359 does not let start
is refused and counted with reason 3, and HST_RING_STATUS shows why; (2) RING_DISABLE of a ring that no enabled ring names,
with nothing waiting to begin, clears en and makes it DISABLED; (3) a NOP on a CAPTURE ring waits behind the entries read;
(4) STATUS_BLOCK_WRITE writes the ring's device index, state and kick_seq at its place in the status block; (5)
RING_IRQ_TIMER of a COMPLETE or EVENT ring, its time passed, writes the entry first where it is due and then signals the
vector. (09_host_rings (Rings), 09_host_rings (Doorbell block and status block), R359, R360, R362, R363, R369, R387) -/
def Obligations.RingCommandsComplete : Prop :=
  ∀ (s : State) (r : Nat), s.sound → r < 64 →
    (∀ v, s.reaches (Reg.HST_RING_CFG.addr r 0 0) = true → v.msb = true → (s.ring r).st = .disabled →
      (s.enableReason r v = 0 → ∃ t, exec (.ringEnable r v) s = .next t ∧
        t.rd .HST_RING_CFG r = Reg.HST_RING_CFG.stored (s.rd .HST_RING_CFG r) v ∧
        t.ring r = { s.ring r with st := .running, reason := 0, dev := 0, acc := 0, kick := 0, phase := true, written := 0, bufs := [],
                                   dirty := true, badKick := none } ∧
        t.ltn = { s.ltn with classes := s.ltn.classes.map fun c => { c with newest := c.newest.filter fun q => q.1 != r } } ∧
        s.ringsOnly t [r] ∧ s.regsOnlyAt t [Reg.HST_RING_CFG.addr r 0 0] ∧ s.onlyIn t [.hst, .pcie, .regs, .ltn]) ∧
      (s.enableReason r v ≠ 0 → ∃ t, exec (.ringEnable r v) s = .next t ∧ t.ring r = { s.ring r with reason := s.enableReason r v } ∧
        s.counted t .GLB_REFUSED ∧ t.get .GLB_REFUSED_INFO_reason = 3 ∧ t.get .GLB_REFUSED_INFO_offset = Reg.HST_RING_CFG.addr r 0 0 ∧
        s.ringsOnly t [r] ∧ s.regsOnlyAt t [Reg.GLB_REFUSED.addr 0 0 0, Reg.GLB_REFUSED_INFO.addr 0 0 0] ∧ s.onlyIn t [.hst, .pcie, .regs])) ∧
    (∀ v, s.reaches (Reg.HST_RING_CFG.addr r 0 0) = true → v.msb = false → (s.ring r).st = .running →
      (s.rd .HST_RING_CFG r ^^^ v) &&& Reg.HST_RING_CFG.maskOf [.rw] &&& 0x7FFFFFFF = 0 → s.namedRing r = false →
      s.waits = [] → s.lmp.queue = [] → s.tim.tx = [] →
      ∃ t, exec (.ringDisable r v) s = .next t ∧ t.on .HST_RING_CFG_en r = false ∧
        t.ring r = { s.ring r with st := .disabled, reason := 0, bufs := [], dirty := true } ∧
        s.ringsOnly t [r] ∧ s.regsOnlyAt t [Reg.HST_RING_CFG.addr r 0 0] ∧ s.onlyIn t [.hst, .pcie, .regs]) ∧
    (∀ d, d.length = 32 → s.running r = true → s.ringKind r = 2 → (s.ring r).bufs.length < s.pendingEntries r → s.tim.rxWait = [] →
      ∃ t, exec (.nop r d) s = .next t ∧ t.ring r = { s.ring r with bufs := (s.ring r).bufs ++ [d] } ∧ s.ringsOnly t [r] ∧
        s.onlyIn t [.hst, .pcie]) ∧
    (∀ w, w = Output.hostWrite (s.sbBase + 8 * r)
        (toLe 2 (s.ring r).dev ++ [BitVec.ofNat 8 (s.ring r).st.code, 0] ++ toLe 4 (s.ring r).kick.toNat) false →
      s.windowOk true (s.sbBase + 8 * r) 8 = true → (s.ring r).st = .running → (s.ring r).dirty = true →
      (∃ t, exec (.statusBlockWrite r) s = .next t ∧ t.ring r = { s.ring r with dirty := false } ∧ t.out = s.out ++ [w] ∧
        (∀ q, q ≠ r → t.ring q = s.ring q) ∧ s.onlyIn t [.hst, .pcie, .out]) ∧
      (s.ringSignals r = true → s.get .HST_RING_IRQ_time_us r ≠ 0 → (s.ring r).unsignalled ≠ 0 →
        s.elapsed (s.ring r).unsigAt (s.get .HST_RING_IRQ_time_us r * 1000) = true → s.hst.cfg.msixEn = true → s.hst.dlUp = true →
        s.hst.d3hot = false → s.hst.cfg.msixMask = false →
        (s.rd .HST_MSIX_TABLE (s.get .HST_RING_IRQ_vector r) 3).getLsbD 0 = false →
        ∃ t, exec (.ringIrqTimer r) s = .next t ∧ t.ring r = { s.ring r with dirty := false, unsignalled := 0 } ∧
          t.out = s.out ++ [w, .msix (s.rd .HST_MSIX_TABLE (s.get .HST_RING_IRQ_vector r) 1 ++
            s.rd .HST_MSIX_TABLE (s.get .HST_RING_IRQ_vector r) 0) (s.rd .HST_MSIX_TABLE (s.get .HST_RING_IRQ_vector r) 2)] ∧
          (∀ q, q ≠ r → t.ring q = s.ring q) ∧ s.onlyIn t [.hst, .pcie, .out]))

/-- In a sound state, for an accepted descriptor: (1) NOP on a SUBMIT ring completes OK with result 0; (2) CHECKPOINT, the DRAM
ready, completes OK with the checkpoint's line once its header and its records are written into the host's buffer, each
block that the coder stored RAW after a mismatch counted in STO_VERIFY_CNT, or with TOO_SMALL where the buffer is shorter
than they are. (3) COMPLETION_POST on a RUNNING COMPLETE ring with room, its entry inside a window and its interrupt off,
writes the first completion that waits, with the ring's phase, at its device index, which advances; the ring of the
descriptor has one fewer in flight. (09_host_rings (Completions), 09_host_rings (Descriptors), R353, R362, R363, R372, R375,
R377, R380, R381) -/
def Obligations.CompletionCommandsComplete : Prop :=
  ∀ s : State, s.sound →
    (∀ r d, s.accepts r d 0 → s.ringKind r = 0 → ∃ t, exec (.nop r d) s = .next t ∧ s.answered t r d .ok 0 ∧ s.onlyIn t [.hst, .pcie]) ∧
    (∀ r d b bytes m, s.accepts r d 7 → s.drm.ready = true → b = s.checkpoint s.epochLine (s.twn.ckpt.number + 1) →
      bytes = CkptBody.bytes b (s.get .STO_CTRL_mirror_effort) → m = CkptBody.mismatches b (s.get .STO_CTRL_mirror_effort) →
      (leAt d 16 4 < bytes.length → ∃ t, exec (.checkpoint r d) s = .next t ∧ s.answered t r d .tooSmall 0 ∧ s.onlyIn t [.hst, .pcie]) ∧
      (bytes.length ≤ leAt d 16 4 → s.windowOk true (leAt d 8 8) bytes.length = true →
        ∃ t, exec (.checkpoint r d) s = .next t ∧ s.took t r ∧
          s.completes t (s.ctxOf r d) .ok (lineBits (s.ctxOf r d).v1 s.epochLine) ∧
          t.out = s.out ++ [.hostWrite (leAt d 8 8) bytes s.hst.cfg.relaxed] ∧
          t.twn = { s.twn with ckpt := { s.twn.ckpt with number := s.twn.ckpt.number + 1 } } ∧
          (m = 0 → s.onlyIn t [.hst, .pcie, .out, .twn]) ∧ t.get .STO_VERIFY_CNT = min (s.get .STO_VERIFY_CNT + m) 0xFFFFFFFF ∧
          s.regsOnlyAt t [Reg.STO_VERIFY_CNT.addr 0 0 0] ∧ s.onlyIn t [.hst, .pcie, .out, .twn, .regs, .ltn, .free])) ∧
    (∀ k x tl, s.running k = true → s.ringKind k = 1 → s.ringFull k = false → (s.ring k).waiting = x :: tl → x.ctx.ring ≠ k →
      s.on .HST_RING_IRQ_en k = false → s.windowOk true (s.ringBase k + 16 * (s.ring k).dev) 16 = true →
      ∃ t, exec (.completionPost k) s = .next t ∧ (t.ring k).waiting = tl ∧
        t.out = s.out ++ [.hostWrite (s.ringBase k + 16 * (s.ring k).dev) (x.bytes (s.ring k).phase) false] ∧
        (t.ring k).dev = (if (s.ring k).dev + 1 = s.ringSize k then 0 else (s.ring k).dev + 1) ∧
        (t.ring k).phase = ((s.ring k).phase != ((s.ring k).dev + 1 == s.ringSize k)) ∧
        (t.ring k).written = (s.ring k).written + 1 ∧
        t.ring x.ctx.ring = { s.ring x.ctx.ring with inflight := (s.ring x.ctx.ring).inflight - 1 } ∧
        (∀ q, q ≠ k → q ≠ x.ctx.ring → t.ring q = s.ring q) ∧ s.onlyIn t [.hst, .pcie, .out])

/-- Once First Light has loaded the factory record, or the link has been up before, the 16-bit words of the configuration space
header are Vendor ID 0x1E6B, Device ID 0x8824, Revision ID the stepping of GLB_REV, class code 0x11_8000, Subsystem vendor
ID 0x1E6B, Subsystem ID 0x0801 and Interrupt Pin 0; BAR0 and BAR2 are 64-bit and not prefetchable, of 16 MB and 4 KB, and
BAR4, BAR5 and the expansion ROM are not implemented; until then the endpoint gives no value. The places of the registers in
the header are those of the PCI header (log 145). (18_address_map (PCI Express identity), R351, R424, R587) -/
def Obligations.ConfigurationHeader : Prop :=
  ∀ s : State, s.sound →
    (s.configRetry = true → ∀ o, s.configHeader o = none) ∧
    (s.configRetry = false → s.configHeader 0x00 = some 0x1E6B ∧ s.configHeader 0x02 = some 0x8824 ∧
      (∀ w, s.configHeader 0x08 = some w → (w &&& 0xFF).toNat = s.get .GLB_REV_stepping ∧ w >>> 8 = 0) ∧ (s.configHeader 0x08).isSome = true ∧
      s.configHeader 0x0A = some 0x1180 ∧ s.configHeader 0x2C = some 0x1E6B ∧ s.configHeader 0x2E = some 0x0801 ∧
      s.configHeader 0x3C = some 0 ∧ s.configHeader 0x10 = some 4 ∧ s.configHeader 0x18 = some 4 ∧
      (∀ o, o ∈ [0x12, 0x14, 0x16, 0x1A, 0x1C, 0x1E, 0x20, 0x22, 0x24, 0x26, 0x30, 0x32] → s.configHeader o = some 0)) ∧
    barMask 0 = 0xFF000000 ∧ barMask 1 = 0xFFFFFFFF ∧ barMask 2 = 0xFFFFF000 ∧ barMask 3 = 0xFFFFFFFF ∧ barMask 4 = 0 ∧ barMask 5 = 0

/-- In a sound state: (1) FAULT_HANDLE, with no acknowledgement of its instant waiting behind it (that those waiting in the
queue are of this instant is the model's choice, log 144), takes the first raise: its class, raised to the source's
min_class and one higher where that class is RAISED already, becomes RAISED; the source is counted, F-HOLD follows an
escalated F, and a raise handled as F takes STANDBY to HELD while any other leaves the device as it was; (2) FATAL_QUIESCE
of a device that did not print sends CTRL QUIESCE and IDLE on each ACTIVE port; (3) FAULT_ACK clears exactly the classes of
its bits that have not been acknowledged at this instant already, F not in F-HOLD; (4) QUIET_RECOVERY clears a RAISED class
after LTN_QUIET, counts it, and sets its interrupt bit; (5) RECORD_CLEAR empties the records of its classes; (6) FAULT_FORCE
raises the source with its default class and detail 0, marked forced. (10_lantern_faults (Raises and classes), R392, R394,
R395, R396, R397, R399, R400, R405, R413, R414) -/
def Obligations.FaultCommandsComplete : Prop :=
  ∀ s : State, s.sound →
    (∀ x tl cls, s.ltn.raises = x :: tl → 1 ≤ x.cls → x.cls ≤ 3 → x.src < 45 → (∀ i, i ∈ s.pending → s.acksOf i = 0) → cls = (s.handledClass x).1 →
      ∃ t, exec .faultHandle s = .next t ∧ (t.ltn.classes.getD (cls - 1) ClassState.reset).raised = true ∧
        (∀ c, c < 3 → c ≠ cls - 1 →
          (t.ltn.classes.getD c ClassState.reset).raised = (s.ltn.classes.getD c ClassState.reset).raised) ∧
        ((s.classRaised (s.baseClass x) = false → cls = s.baseClass x) ∧
          (s.classRaised (s.baseClass x) = true → cls = min 3 (s.baseClass x + 1))) ∧
        s.counted t .LTN_SRC_CNT x.src ∧ t.ltn.fHold = (s.ltn.fHold || (s.classRaised (s.baseClass x) && s.baseClass x == 3)) ∧
        (cls ≠ 3 → t.dev = s.dev ∧ s.onlyIn t [.regs, .ltn, .hst, .pcie, .out, .pho, .lmp, .tim, .waits]) ∧
        (cls = 3 → s.dev.dev = .standby → t.dev = { s.dev with dev := .held } ∧ t.ltn.fatalAt = some s.clock ∧
          s.onlyIn t [.regs, .ltn, .hst, .pcie, .out, .dev, .twn, .links, .wck, .pho, .lmp, .tim, .waits])) ∧
    (∀ a, s.dev.dev = .held → s.ltn.fatalAt = some a → s.ltn.fatalPrinting = false →
      ∃ t, exec .fatalQuiesce s = .next t ∧ t.ltn = { s.ltn with fatalAt := none } ∧ s.onlyIn t [.ltn, .links, .out, .wck, .regs] ∧
        ∀ p, p < 24 → s.active p = true → (s.link p).unacked = [] → (s.link p).queued = [] →
          s.ctlSent t p (s.link p).ctlNext (quiesceFrame true) ∧ (t.link p).quiesced = true ∧
          ∃ lane, .linkFrame p (finishFrame (quiesceFrame true) (s.link p).ctlNext) lane ∈ t.out) ∧
    (∀ v, s.dev.dev ≠ .dark → ∃ t, exec (.faultAck v) s = .next t ∧ s.onlyIn t [.ltn, .pho, .pcie] ∧ t.ltn.raises = s.ltn.raises ∧
      t.ltn.fHold = s.ltn.fHold ∧ ∀ c, c < 3 → t.ltn.classes.getD c ClassState.reset =
        if (v &&& ~~~s.ackedEarly).getLsbD c && !(c == 2 && s.ltn.fHold) then
          { s.ltn.classes.getD c ClassState.reset with raised := false, dropped := false }
        else s.ltn.classes.getD c ClassState.reset) ∧
    (∀ c, c < 3 → (s.ltn.classes.getD c ClassState.reset).raised = true → s.get .LTN_QUIET_ms c ≠ 0 →
      s.elapsed (s.ltn.classes.getD c ClassState.reset).since (s.get .LTN_QUIET_ms c * 1000000) = true → (c = 2 → s.ltn.fHold = false) →
      ∃ t, exec (.quietRecovery c) s = .next t ∧ (t.ltn.classes.getD c ClassState.reset).raised = false ∧
        (∀ k, k ≠ c → t.ltn.classes.getD k ClassState.reset = s.ltn.classes.getD k ClassState.reset) ∧ s.counted t .LTN_RECOVER c ∧
        (t.rd .LTN_INT_STATUS).getLsbD 4 = true ∧ s.onlyIn t [.ltn, .regs, .hst, .pcie, .out]) ∧
    (∀ v, s.dev.dev ≠ .dark → ∃ t, exec (.recordClear v) s = .next t ∧ s.onlyIn t [.regs, .pcie] ∧
      ∀ c k w, c < 3 → k < 2 → w < 8 → t.rd .LTN_REC c k w = if v.getLsbD c then 0 else s.rd .LTN_REC c k w) ∧
    (∀ x v d, x < 45 → v.msb = true → Fld.LTN_SRC_CFG_min_class.of v ≠ 3 → s.reaches (Reg.LTN_SRC_CFG.addr x 0 0) = true →
      srcDefaults.getD x (0, 0) = d →
      ∃ t, exec (.faultForce x v) s = .next t ∧ t.rd .LTN_SRC_CFG x = v &&& 0x00FFFF33 ∧
        t.ltn = { s.ltn with raises := insertRaise ⟨x, d.1, field v 15 8, field v 23 16, d.2, 0, true, s.clock⟩ s.ltn.raises } ∧
        s.regsOnlyAt t [Reg.LTN_SRC_CFG.addr x 0 0] ∧ s.onlyIn t [.regs, .ltn, .pcie])

/-- In a sound state with no flash write under way: PWR_EN_RISE and UNDERVOLTAGE_LOCKOUT_RELEASE start the rails from off, V3P3
first and VDDQ last, and wait for the end of a ramp-down; PGOOD_RISE ends the rise and holds the die in reset; RAIL_TIMEOUT
and RAIL_RETRY stop a rise, VDDQ first, and start it again; RAIL_FAULT and POWER_DOWN drop PGOOD and start the block cold
with cause 0, the rails rising, or falling in the reverse order; RAMP_DOWN_END ends the ramp-down, and starts a rise that
was held off; COLD_RESET drives the block cold with cause 1; CLOCK_LOSS starts a clock-loss reset with cause 3 that keeps
the records of LTN_REC and their numbering. Until a cold start, each changes the supply state and the outputs alone. Cause 0
for a rail fault (log 115) and the extent of the working state that a cold start clears (log 14) are the model's choices.
(17_module_power (Sequencing), 13_clocks_crossings (Resets), R430, R475, R492, R563, R567, R568, R569, R570) -/
def Obligations.PowerCommandsComplete : Prop :=
  ∀ (s : State) (up down : List Output), s.sound → s.alm.job = none →
    up = [.v3p3, .vdd1, .vdd2h, .vdd2l, .core, .memory, .serdes, .vddq].map (Output.rail · true) →
    down = [.vddq, .serdes, .memory, .core, .vdd2l, .vdd2h, .vdd1, .v3p3].map (Output.rail · false) →
    (s.pwr.pwrEn = false → s.pwr.vinUp = true →
      (s.pwr.rails = .off → ∃ t, exec .pwrEnRise s = .next t ∧ t.pwr = { s.pwr with pwrEn := true, rails := .rising } ∧
        t.out = s.out ++ up ∧ s.onlyIn t [.pwr, .out]) ∧
      (s.pwr.rails = .falling → ∃ t, exec .pwrEnRise s = .next t ∧ t.pwr = { s.pwr with pwrEn := true, riseHeld := true } ∧
        s.onlyIn t [.pwr])) ∧
    (s.pwr.vinUp = false → s.pwr.rails = .off →
      (∃ t, exec (.undervoltageLockoutRelease true) s = .next t ∧ t.pwr = { s.pwr with vinUp := true, pwrEn := true, rails := .rising } ∧
        t.out = s.out ++ up ∧ s.onlyIn t [.pwr, .out]) ∧
      (∃ t, exec (.undervoltageLockoutRelease false) s = .next t ∧ t.pwr = { s.pwr with vinUp := true, pwrEn := false } ∧
        s.onlyIn t [.pwr])) ∧
    (s.pwr.rails = .rising →
      (∃ t, exec .pgoodRise s = .next t ∧ t.pwr = { s.pwr with rails := .inWindow, pgood := true, dieHeld := true } ∧
        t.out = s.out ++ [.pgood true] ∧ s.onlyIn t [.pwr, .out]) ∧
      (∃ t, exec .railTimeout s = .next t ∧ t.pwr = { s.pwr with rails := .retryWait } ∧ t.out = s.out ++ down ∧
        s.onlyIn t [.pwr, .out])) ∧
    (s.pwr.rails = .retryWait → s.pwr.pwrEn = true → s.pwr.vinUp = true →
      ∃ t, exec .railRetry s = .next t ∧ t.pwr = { s.pwr with rails := .rising } ∧ t.out = s.out ++ up ∧ s.onlyIn t [.pwr, .out]) ∧
    (s.pwr.rails = .inWindow → s.pwr.pgood = true →
      (∃ t, exec .railFault s = .next t ∧ s.coldStart t 0 ∧ t.pwr.rails = .rising ∧ t.pwr.pgood = false ∧ t.pwr.dieHeld = true ∧
        .pgood false ∈ t.out) ∧
      (∀ fell, (if fell then s.pwr.pwrEn else s.pwr.vinUp) = true → ∃ t, exec (.powerDown fell) s = .next t ∧ s.coldStart t 0 ∧
        t.pwr.rails = .falling ∧ t.pwr.pgood = false ∧ t.pwr.pwrEn = (s.pwr.pwrEn && !fell) ∧ t.pwr.vinUp = (s.pwr.vinUp && fell) ∧
        .pgood false ∈ t.out ∧ ∃ l, t.out = l ++ down)) ∧
    (s.pwr.rails = .falling → s.pwr.pwrEn = true → s.pwr.vinUp = true →
      ∃ t, exec .rampDownEnd s = .next t ∧ t.out = s.out ++ (if s.pwr.riseHeld then up else []) ∧ t.pwr = { s.pwr with rails := (if s.pwr.riseHeld then .rising else .off), riseHeld := false } ∧
        s.onlyIn t [.pwr, .out]) ∧
    (s.pwr.resetN = true → s.pwr.rails = .inWindow →
      ∃ t, exec .coldReset s = .next t ∧ s.coldStart t 1 ∧ t.pwr.resetN = false ∧ t.pwr.rails = .inWindow ∧ t.pwr.pgood = s.pwr.pgood) ∧
    (s.pwr.rails = .inWindow → s.pwr.resetN = true → s.pwr.dieHeld = false → s.dev.lossReset = false →
      ∃ t, exec .clockLoss s = .next t ∧ t.dev = { State.reset.dev with dev := .dark, lossReset := true } ∧
        t.get .GLB_RESET_CAUSE_cause = 3 ∧ t.ltn = { State.reset.ltn with seq := s.ltn.seq } ∧ t.pwr.rails = .inWindow ∧
        (∀ c k w, c < 3 → k < 2 → w < 8 → t.rd .LTN_REC c k w = s.rd .LTN_REC c k w) ∧ Part.flash.same s t ∧ Part.pending.same s t ∧
        State.reset.onlyIn t [.regs, .dev, .pwr, .hst, .ltn, .flash, .out, .free, .pending])

/-- In a sound state: (1) RESET_RELEASE, DIE_RESET_HOLD_END and CLOCK_RECOVERED take a DARK device that nothing else holds to
FIRST_LIGHT; (2) PLL_LOCK starts MONO and the factory load; (3) PCIE_RESET_RELEASE brings the endpoint up; (4)
FACTORY_LOAD_DONE ends the load; (5) FINISH of a module without a twin locks the configuration and enters STANDBY; (6)
WARM_RESET with its key, in STANDBY and in HELD outside F-HOLD, makes the device DARK with cause 2 and keeps the lock, MONO,
NET and every byte of the DRAM, its self-refresh counted; (7) WARM_RESET_END goes on with First Light at the factory load,
the memory out of self-refresh. The instants at which fl_step reads 3, 5, 6, 7 and 9 (log 111) and the reset causes of the
supply (log 115) are the model's choices. (11_first_light (The start-up sequence), 11_first_light (Resets), R424, R425,
R426, R430, R431, R432, R475, R481, R568) -/
def Obligations.StartUpCommandsComplete : Prop :=
  ∀ s : State, s.sound →
    (∀ i, s.dev.dev = .dark → s.pwr.rails = .inWindow → s.pwr.pgood = true → s.dev.warm = false →
      (i = Instr.resetRelease ∧ s.pwr.dieHeld = false ∧ s.dev.lossReset = false ∨
        i = Instr.dieResetHoldEnd ∧ s.pwr.dieHeld = true ∧ s.pwr.resetN = true ∧ s.dev.lossReset = false ∨
        i = Instr.clockRecovered ∧ s.pwr.dieHeld = false ∧ s.pwr.resetN = true ∧ s.dev.lossReset = true) →
      ∃ t, exec i s = .next t ∧ t.dev = { s.dev with dev := .firstLight, flStep := 3, lossReset := false } ∧
        t.pwr = { s.pwr with resetN := true, dieHeld := false } ∧ (i = Instr.clockRecovered → s.counted t .CLK_LOSS_CNT) ∧
        s.regsOnlyAt t [Reg.CLK_LOSS_CNT.addr 0 0 0] ∧ s.onlyIn t [.dev, .pwr, .regs]) ∧
    (s.dev.dev ≠ .dark → s.clk.rootLock = false →
      ∃ t, exec .pllLock s = .next t ∧ t.clk = { s.clk with rootLock := true, refOk := true } ∧
        t.dev = { s.dev with factoryLoading := true, flStep := max 5 s.dev.flStep } ∧ s.onlyIn t [.clk, .dev]) ∧
    (s.dev.dev ≠ .dark → s.clk.pcieUp = false →
      ∃ t, exec .pcieResetRelease s = .next t ∧ t.clk = { s.clk with pcieUp := true } ∧
        t.dev = { s.dev with flStep := max 6 s.dev.flStep } ∧ s.onlyIn t [.clk, .dev]) ∧
    (s.dev.factoryLoading = true →
      ∃ t, exec .factoryLoadDone s = .next t ∧ t.dev.factoryLoading = false ∧ t.dev.factoryLoaded = true ∧ t.dev.dev = s.dev.dev ∧
        t.dev.flStep = max 7 s.dev.flStep ∧ (t.rd .GLB_INT_STATUS).getLsbD 0 = true ∧
        s.onlyIn t [.dev, .regs, .tabs, .pho, .alm, .hst, .pcie, .out]) ∧
    (s.dev.dev = .firstLight → s.dev.factoryLoaded = true → s.drm.ready = true → s.dev.factoryOk = true → s.twinMode = 0 →
      s.reaches (Reg.GLB_CMD.addr 0 0 0) = true →
      ∃ t, exec .finish s = .next t ∧ t.dev = { s.dev with dev := .standby, locked := true, stoReady := true, flStep := 9 } ∧
        (t.rd .GLB_INT_STATUS).getLsbD 1 = true ∧ s.onlyIn t [.dev, .regs, .hst, .pcie, .out]) ∧
    (∀ v, s.dev.dev = .standby ∨ s.dev.dev = .held → s.ltn.fHold = false → Fld.GLB_RESET_key.of v = 0xA5 → v.getLsbD 0 = true → s.reaches (Reg.GLB_RESET.addr 0 0 0) = true →
      s.alm.job = none →
      ∃ t, exec (.warmReset v) s = .next t ∧
        t.dev = { State.reset.dev with dev := .dark, locked := s.dev.locked, flStep := 5, warm := true } ∧
        t.get .GLB_RESET_CAUSE_cause = 2 ∧ t.tim = s.tim ∧ t.pwr = s.pwr.kept ∧ Part.mem.same s t ∧ Part.flash.same s t ∧
        t.drm.sr = .inside ∧ t.get .DRM_SR_CNT = (if s.drm.sr = .inside then 0 else 1) ∧ t.ltn = { State.reset.ltn with seq := s.ltn.seq } ∧ t.sto = State.reset.sto ∧ t.tabs = State.reset.tabs ∧
        t.links = State.reset.links ∧ t.twn = State.reset.twn ∧ t.mer = State.reset.mer ∧ t.pending = s.pending) ∧
    (s.dev.warm = true → s.dev.dev = .dark →
      ∃ t, exec .warmResetEnd s = .next t ∧ t.drm = { s.drm with sr := .active } ∧
        t.dev = { s.dev with dev := .firstLight, warm := false, factoryLoading := true, flStep := max 5 s.dev.flStep } ∧
        s.onlyIn t [.dev, .drm])

/-- In a sound state of a module without a twin, a GLB_CMD write that nothing in its crossing delays: (1) PRINT in STANDBY,
every block ready, enters PRINTING with every pipeline running and priming, the interrupt bit of entry set, and self-refresh
ending; (2) PRINT outside STANDBY, or in STANDBY without readiness, is refused with reason 2 and changes nothing else; (3)
STOP in PRINTING fixes the stop line at the epoch line that R33 gives and goes on printing; a second one changes nothing
(the model's choice, log 113); (4) STOP outside PRINTING is refused with reason 2. (11_first_light (Device states), R41,
R419, R421, R422, R428) -/
def Obligations.PrintCommandsComplete : Prop :=
  ∀ s : State, s.sound → s.twn.role = .none → s.twn.pair = .unpaired → s.reaches (Reg.GLB_CMD.addr 0 0 0) = true →
    (s.dev.dev = .standby → s.ready = true →
      ∃ t, exec .print s = .next t ∧ t.dev = { s.dev with dev := .printing } ∧
        (∀ p, p < 24 → (t.pipe p).running = true ∧ (t.pipe p).priming = true ∧ (t.pipe p).begun = []) ∧
        (t.rd .GLB_INT_STATUS).getLsbD 2 = true ∧ t.twn = { s.twn with entering := false } ∧
        t.drm = (if s.drm.sr = .inside then { s.drm with sr := .exiting } else s.drm) ∧
        s.onlyIn t [.dev, .pipes, .links, .ltn, .regs, .hst, .pcie, .out, .twn, .drm]) ∧
    (s.dev.dev ≠ .standby ∨ s.ready = false → ∃ t, exec .print s = .next t ∧ s.refusedAt t (Reg.GLB_CMD.addr 0 0 0) 2) ∧
    (s.printing = true → s.dev.stopLine = none →
      ∃ t, exec .stop s = .next t ∧ t.dev = { s.dev with stopLine := some s.epochLine, stopShown := s.epochLine } ∧ s.onlyIn t [.dev, .pcie]) ∧
    (s.printing = true → s.dev.stopLine.isSome = true → ∃ t, exec .stop s = .next t ∧ s.onlyIn t [.pcie]) ∧
    (s.printing = false → ∃ t, exec .stop s = .next t ∧ s.refusedAt t (Reg.GLB_CMD.addr 0 0 0) 2)

/-- In a sound state, for an accepted MAINT of code k and target x without a parameter: (1) in HELD each of the six completes
with STATE and changes nothing else; in STANDBY with nothing running: (2) DRM_RETRAIN of a channel starts on it; (3) DRM_ZQ
of all channels sends each the calibration command; (4) DRM_SELFREF with no RT source active makes the memory enter self-
refresh; (5) LINK_RETRAIN of an ACTIVE port moves it to RETRAIN at its rate, with GHL.RETRAIN counted and raised; (6)
WAVE_RELOAD of an ACTIVE port whose bank is free writes the table in force into the bank not in use; (7) TWIN_CKPT of a
module that is no PAIRED primary in COLD completes with STATE. (8) DRM_ZQ of a channel whose calibration runs already
completes with CONFLICT, counted and raised with both codes. An activity that starts leaves its descriptor in flight.
(11_first_light (Lamplighter), R226, R335, R434, R435, R437, R467, R468, R469) -/
def Obligations.MaintCommandsComplete : Prop :=
  ∀ (s : State) (r : Nat) (d : Bytes) (x : Nat), s.sound → s.accepts r d 8 → byteAt d 5 = x → leAt d 16 4 = 0 →
    (∀ i k, (i, k) ∈ [(Instr.drmRetrain r d, 1), (.drmZq r d, 2), (.drmSelfref r d, 3), (.linkRetrain r d, 4), (.waveReload r d, 5),
        (.twinCkpt r d, 7)] → byteAt d 4 = k → s.dev.dev = .held →
      ∃ t, exec i s = .next t ∧ s.answered t r d .state 0 ∧ s.onlyIn t [.hst, .pcie]) ∧
    (s.dev.dev = .standby → s.lmp.running = [] →
      (byteAt d 4 = 1 → x < 4 → ∃ t, exec (.drmRetrain r d) s = .next t ∧ t.lmp.running.map (fun a => (a.code, a.target, a.left)) = [(1, x, x)] ∧
        t.chan x = { s.chan x with lastSlice := none } ∧ (∀ c, c ≠ x → t.chan c = s.chan c) ∧ s.inFlight t r ∧ s.onlyIn t [.hst, .lmp, .drm, .pcie]) ∧
      (byteAt d 4 = 2 → x = 0xFF → ∃ t, exec (.drmZq r d) s = .next t ∧ t.lmp.running.map (fun a => (a.code, a.target)) = [(2, x)] ∧
        (∀ c, c < 4 → t.chan c = { s.chan c with zqPending := some s.clock }) ∧
        t.out = s.out ++ (List.range 4).map (fun c => .dramCommand c 12 2 0) ∧ s.inFlight t r ∧ s.onlyIn t [.hst, .lmp, .drm, .out, .pcie]) ∧
      (byteAt d 4 = 3 → x = 0 → s.rtActive = false → ∃ t, exec (.drmSelfref r d) s = .next t ∧ t.drm = { s.drm with sr := .entering } ∧
        t.lmp.running.map (fun a => (a.code, a.target)) = [(3, x)] ∧ s.inFlight t r ∧ s.onlyIn t [.hst, .lmp, .drm, .pcie]) ∧
      (byteAt d 4 = 4 → x < 24 → (s.link x).st = .active → ∃ t, exec (.linkRetrain r d) s = .next t ∧
        s.trainsAt t x .retrain (s.link x).rate ∧ t.lmp.running.map (fun a => (a.code, a.target)) = [(4, x)] ∧
        s.counted t .GHL_RETRAIN_CNT x ∧ s.raised t .ghlRetrain 1 x 0xFF 7 2 ∧ s.took t r ∧
        s.regsOnlyAt t [Reg.GHL_RETRAIN_CNT.addr x 0 0] ∧ s.onlyIn t [.hst, .lmp, .links, .regs, .ltn, .out, .wck, .pcie]) ∧
      (byteAt d 4 = 5 → x < 24 → (s.link x).st = .active → (s.wick x).write = none → (s.wick x).bankFrom = none →
        ∃ t, exec (.waveReload r d) s = .next t ∧ t.lmp.running.map (fun a => (a.code, a.target)) = [(5, x)] ∧
          t.wick x = { s.wick x with spare := none, write := some ⟨!(s.wick x).bank, s.wave x, .reload none, false, none⟩ } ∧
          (∀ p, p ≠ x → t.wick p = s.wick p) ∧ s.inFlight t r ∧ s.onlyIn t [.hst, .lmp, .wck, .pcie]) ∧
      (byteAt d 4 = 7 → x = 0 → s.coldPrimary = false →
        ∃ t, exec (.twinCkpt r d) s = .next t ∧ s.answered t r d .state 0 ∧ s.onlyIn t [.hst, .pcie])) ∧
    (∀ a, s.dev.dev = .standby → byteAt d 4 = 2 → x < 4 → s.lmp.running = [a] → a.code = 2 → a.target = x →
      ∃ t, exec (.drmZq r d) s = .next t ∧ s.answered t r d .conflict 0 ∧ s.counted t .LMP_CONFLICT_CNT ∧
        t.get .LMP_LAST_CONFLICT_refused = 2 ∧ t.get .LMP_LAST_CONFLICT_blocking = 2 ∧ s.raised t .lmpConflict 1 2 0xFF 9 0x202 ∧
        s.regsOnlyAt t [Reg.LMP_CONFLICT_CNT.addr 0 0 0, Reg.LMP_LAST_CONFLICT.addr 0 0 0] ∧ s.onlyIn t [.hst, .regs, .ltn, .pcie])

/-- In a sound state: (1) SPIT in PRINTING, outside agreement, with a good parameter and a group whose running placement leaves
a gap, runs from the epoch line with its gap lines to print; (2) STRIP, its section SEALED and fitting the gap, runs from
the epoch line under that placement; (3) DEFERRED_START starts the one activity deferred where the matrix now gives R, and
leaves it where it does not; (4) DEFER_TIMEOUT completes one that waited for defer_ms with CONFLICT, counted and raised;
with the schedule on and nothing running, (5) SCHEDULED_ZQ calibrates every channel when its period has passed since the
last, (6) SCHEDULED_RETRAIN retrains the next channel in turn when its period has passed, (7) SCHEDULED_CHECKPOINT on the
primary in COLD sends a checkpoint when the period has passed since the last or the journal has reached its limit; (8)
before its period has passed, neither of the first two does anything; (9) SPIT and STRIP on a standby or secondary complete
with ROLE. The model's choices: a schedule's period runs from the last activity (log 49), the timeout writes
LMP_LAST_CONFLICT (log 70), the order of the codes in the detail (log 45), and a strip bound to a handle (log 69).
(11_first_light (Lamplighter), R335, R434, R438, R439, R440) -/
def Obligations.ScheduleCommandsComplete : Prop :=
  ∀ s : State, s.sound →
    (∀ r d q m p, s.accepts r d 8 → byteAt d 4 = 9 → byteAt d 5 = m → leAt d 16 4 = 8 → q.length = 8 → crcOk q = true →
      s.windowOk false (leAt d 8 8) 8 = true → s.dev.dev = .printing → s.twn.role = .none → s.spitOk m q = true → s.lmp.running = [] →
      s.runningPlacement (byteAt q 4) = some p → s.heightOf p.sec < p.pitch →
      ∃ t, exec (.spit r d q) s = .next t ∧ s.inFlight t r ∧ s.onlyIn t [.hst, .lmp, .pcie] ∧
        t.lmp.running.map (fun a => (a.code, a.target, a.line, a.left)) = [(9, m, some s.epochLine, leAt q 0 2)]) ∧
    (∀ r d q m p x, s.accepts r d 8 → byteAt d 4 = 10 → byteAt d 5 = m → leAt d 16 4 = 20 → q.length = 20 → crcOk q = true →
      s.windowOk false (leAt d 8 8) 20 = true → s.dev.dev = .printing → s.twn.role = .none → s.stripOk m q = true → s.lmp.running = [] →
      s.section (stripSection q) = some x → x.st = .sealed' → s.runningPlacement (byteAt q 2) = some p →
      s.heightOf p.sec ≤ leAt q 4 4 → leAt q 4 4 + x.height ≤ p.pitch →
      ∃ t, exec (.strip r d q) s = .next t ∧ s.inFlight t r ∧ s.onlyIn t [.hst, .lmp, .pcie] ∧
        t.lmp.running.map (fun a => (a.code, a.target, a.line, a.left)) = [(10, m, some s.epochLine, p.handle)]) ∧
    (∀ a, s.lmp.queue = [a] →
      ((s.verdict a.code a.target).1 ≠ .run → exec .deferredStart s = .next s) ∧
      ((s.verdict a.code a.target).1 = .run → a.code = 2 → a.target < 4 → s.dev.dev = .standby →
        ∃ t, exec .deferredStart s = .next t ∧ t.lmp.queue = [] ∧ t.lmp.running = s.lmp.running ++ [{ a with since := s.clock }] ∧
          t.chan a.target = { s.chan a.target with zqPending := some s.clock } ∧ t.out = s.out ++ [.dramCommand a.target 12 2 0] ∧
          (∀ c, c ≠ a.target → t.chan c = s.chan c) ∧ s.onlyIn t [.lmp, .drm, .out]) ∧
      (∀ c, a.src = .maint c → c.gen = s.hst.gen → s.elapsed a.since (s.get .LMP_CTRL_defer_ms * 1000000) = true → a.code < 16 →
        ∃ t, exec .deferTimeout s = .next t ∧ t.lmp = { s.lmp with queue := [] } ∧ s.completes t c .conflict 0 ∧
          s.counted t .LMP_TIMEOUT_CNT ∧ t.get .LMP_LAST_CONFLICT_refused = a.code ∧
          s.raised t .lmpConflict 1 a.code 0xFF 9 (BitVec.ofNat 32 (a.code + 256 * (s.verdict a.code a.target).2)) ∧
          s.ringsOnly t [s.cring c.ring] ∧ s.onlyIn t [.lmp, .hst, .regs, .ltn, .pcie])) ∧
    (s.scheduleOn = true → s.lmp.running = [] →
      (s.on .LMP_SCHED_zq_ms = true → s.elapsed s.lmp.zqAt (s.get .LMP_SCHED_zq_ms * 1000000) = true → ∃ t, exec .scheduledZq s = .next t ∧
        t.lmp = { s.lmp with zqAt := s.clock, running := [⟨2, 0xFF, .schedule, s.clock, false, none, [], 0, 0⟩] } ∧
        (∀ c, c < 4 → t.chan c = { s.chan c with zqPending := some s.clock }) ∧
        t.out = s.out ++ (List.range 4).map (fun c => .dramCommand c 12 2 0) ∧ s.onlyIn t [.lmp, .drm, .out]) ∧
      (s.on .LMP_SCHED_retrain_s = true → s.elapsed s.lmp.retrainAt (s.get .LMP_SCHED_retrain_s * 1000000000) = true → s.lmp.retrainNext < 4 →
        ∃ t, exec .scheduledRetrain s = .next t ∧
        t.lmp.retrainNext = (s.lmp.retrainNext + 1) % 4 ∧ t.lmp.retrainAt = s.clock ∧
        t.lmp.running.map (fun a => (a.code, a.target, a.left)) = [(1, s.lmp.retrainNext, s.lmp.retrainNext)] ∧
        t.chan s.lmp.retrainNext = { s.chan s.lmp.retrainNext with lastSlice := none } ∧ t.lmp.queue = s.lmp.queue ∧
        s.onlyIn t [.lmp, .drm]) ∧
      (∀ frames b m, s.coldPrimary = true → s.twinOpen → (s.link 24).unacked = [] → s.lmp.queue = [] →
        (s.elapsed s.twn.ckpt.at' (s.get .TWN_CKPT_period * 1000000000) = true ∨
          s.get .TWN_CKPT_journal_mb * 1048576 ≤ s.twn.ckpt.journalBytes) →
        b = s.checkpoint s.epochLine (s.twn.ckpt.number + 1) →
        frames = TwMsg.frames (.ckpt b s.twn.lastId) (s.get .STO_CTRL_mirror_effort) →
        m = CkptBody.mismatches b (s.get .STO_CTRL_mirror_effort) →
        ∃ t, exec .scheduledCheckpoint s = .next t ∧ t.twn.ckpt.building = some b ∧ t.twn.ckpt.number = s.twn.ckpt.number + 1 ∧
          t.twn.ckpt.at' = s.clock ∧ (t.link 24).unacked.map (·.frame) = frames.take 4 ∧ (t.link 24).queued = frames.drop 4 ∧
          (∀ q, q ≠ 24 → t.link q = s.link q) ∧ t.lmp.running.map (fun a => (a.code, a.since)) = [(7, s.clock)] ∧
          t.get .STO_VERIFY_CNT = min (s.get .STO_VERIFY_CNT + m) 0xFFFFFFFF ∧ s.regsOnlyAt t [Reg.STO_VERIFY_CNT.addr 0 0 0] ∧
          s.onlyIn t ([.lmp, .twn, .links, .out] ++ if m = 0 then [] else [.regs, .ltn, .free])) ∧
      ((s.elapsed s.lmp.zqAt (s.get .LMP_SCHED_zq_ms * 1000000) = false → exec .scheduledZq s = .next s) ∧
        (s.elapsed s.lmp.retrainAt (s.get .LMP_SCHED_retrain_s * 1000000000) = false → exec .scheduledRetrain s = .next s))) ∧
    (∀ i r d q n k, (i, k, n) ∈ [(Instr.spit r d q, 9, 8), (.strip r d q, 10, 20)] → s.accepts r d 8 → byteAt d 4 = k → leAt d 16 4 = n →
      s.follower = true → s.devIn [.firstLight, .standby, .printing] = true →
      ∃ t, exec i s = .next t ∧ s.answered t r d .role 0 ∧ s.onlyIn t [.hst, .pcie])

/-- In a sound state, for a channel c: (1) in FIRST_LIGHT, the channel not trained and no step running, a write of DRM_TRAIN_CMD
with go and the step's op makes the channel run that step, its status RUNNING, the command sent to the memory; (2)
TRAIN_STEP_END of a memory that does not answer ends the step with TIMEOUT once the longest time of the step has passed, and
does nothing before; where it answers, with DONE: (3) MRR shows what MRW wrote to that mode register, or else the memory's
answer (the model's reading, log 159); (4) MRW writes the mode register of the rank; (5) WRITE of one burst of the user
pattern to one rank writes those 64 bytes and no other byte; (6) COMMIT leaves the PRBS in a row of every bank; without a
mismatch it makes the channel trained, with one raises DRM.TRAIN_FAIL (F) with detail 11. Every end sets the BUSY-done
interrupt bit. (12_dram (Training), R427, R462, R463, R464) -/
def Obligations.TrainingStepsComplete : Prop :=
  ∀ (s : State) (c : Nat), s.sound → c < 4 →
    (∀ i op v, (i, op) ∈ [(Instr.trainInit c v, 1), (.trainMrw c v, 2), (.trainMrr c v, 3), (.trainCbt c v, 4), (.trainWckLevel c v, 5),
        (.trainWrite c v, 6), (.trainRead c v, 7), (.trainClear c v, 8), (.trainZq c v, 9), (.trainVerify c v, 10), (.trainCommit c v, 11)] →
      Fld.DRM_TRAIN_CMD_op.of v = op → Fld.DRM_TRAIN_CMD_go.of v = 1 → Fld.DRM_TRAIN_CMD_rank.of v ≠ 3 → s.dev.dev = .firstLight →
      (s.chan c).trained = false → s.drmBusy = false → s.reaches (Reg.DRM_TRAIN_CMD.addr c 0 0) = true →
      ∃ t, exec i s = .next t ∧ t.chan c = { s.chan c with running := some (op, Fld.DRM_TRAIN_CMD_rank.of v, s.clock) } ∧
        (∀ k, k ≠ c → t.chan k = s.chan k) ∧ t.get .DRM_TRAIN_CMD_status c = 3 ∧ t.get .DRM_TRAIN_CMD_op c = op ∧
        t.out = s.out ++ [.dramCommand c op (Fld.DRM_TRAIN_CMD_rank.of v) (s.stepArg c op)] ∧
        s.regsOnlyAt t [Reg.DRM_TRAIN_CMD.addr c 0 0] ∧ s.onlyIn t [.regs, .drm, .out, .pcie]) ∧
    (∀ op rank since, (s.chan c).running = some (op, rank, since) → ∀ w errors,
      (s.elapsed since (stepLongest op) = false → exec (.trainStepEnd c false w errors) s = .next s) ∧
      (s.elapsed since (stepLongest op) = true → ∃ t, exec (.trainStepEnd c false w errors) s = .next t ∧ t.get .DRM_TRAIN_CMD_status c = 2 ∧ (t.chan c).running = none ∧
        (t.chan c).trained = (s.chan c).trained ∧ (t.rd .GLB_INT_STATUS).getLsbD 0 = true ∧ (∀ k, k ≠ c → t.chan k = s.chan k) ∧
        s.onlyIn t [.regs, .drm, .hst, .out, .pcie]) ∧
      (op = 3 → ∃ t, exec (.trainStepEnd c true w errors) s = .next t ∧ t.get .DRM_TRAIN_CMD_status c = 1 ∧ (t.rd .GLB_INT_STATUS).getLsbD 0 = true ∧ t.rd .DRM_TRAIN_RESULT c = s.modeRead c rank w ∧
        t.chan c = { s.chan c with running := none } ∧ (∀ k, k ≠ c → t.chan k = s.chan k) ∧ s.onlyIn t [.regs, .drm, .hst, .out, .pcie]) ∧
      (op = 2 → rank < 2 → ∃ t, exec (.trainStepEnd c true w errors) s = .next t ∧
        t.get .DRM_TRAIN_CMD_status c = 1 ∧ (t.rd .GLB_INT_STATUS).getLsbD 0 = true ∧
        (t.chan c).modes.find? (128 * rank + s.get .DRM_MR_addr c) = some (BitVec.ofNat 8 (s.get .DRM_MR_data c)) ∧
        (∀ a, a ≠ 128 * rank + s.get .DRM_MR_addr c → (t.chan c).modes.find? a = (s.chan c).modes.find? a) ∧
        (t.chan c).running = none ∧ (∀ k, k ≠ c → t.chan k = s.chan k) ∧ s.onlyIn t [.regs, .drm, .hst, .out, .pcie]) ∧
      (∀ a, op = 6 → rank < 2 → s.get .DRM_PAT_CTRL_kind c = 3 → s.get .DRM_TRAIN_ADDR_count c = 0 →
        a = dAddress c (s.get .DRM_TRAIN_ADDR_addr c * 64 % 2 ^ 32 + rank * 2 ^ 32) →
        ∃ t, exec (.trainStepEnd c true w errors) s = .next t ∧ t.get .DRM_TRAIN_CMD_status c = 1 ∧ (t.rd .GLB_INT_STATUS).getLsbD 0 = true ∧
          (∀ j, j < 64 → t.drm.mem.read Memory.dramFill (a + j) = (s.patternBytes c 0).getD j 0) ∧
          (∀ b, b < a ∨ a + 64 ≤ b → t.drm.mem.read Memory.dramFill b = s.drm.mem.read Memory.dramFill b) ∧
          t.chan c = { s.chan c with running := none } ∧ s.onlyIn t [.regs, .drm, .mem, .hst, .out, .pcie]) ∧
      (op = 11 → s.drm.ready = false →
        (w &&& 0xFFFF = 0 → ∃ t, exec (.trainStepEnd c true w errors) s = .next t ∧ t.get .DRM_TRAIN_CMD_status c = 1 ∧ (t.rd .GLB_INT_STATUS).getLsbD 0 = true ∧
          t.chan c = { s.chan c with running := none, trained := true } ∧ (∀ k, k ≠ c → t.chan k = s.chan k) ∧
          t.drm.ready = (List.range 4).all (fun k => k == c || (s.chan k).trained) ∧ t.drm.mem = (s.verifyRows c).drm.mem ∧
          s.onlyIn t [.regs, .drm, .mem, .hst, .out, .pcie]) ∧
        (w &&& 0xFFFF ≠ 0 → ∃ t, exec (.trainStepEnd c true w errors) s = .next t ∧ t.get .DRM_TRAIN_CMD_status c = 1 ∧ (t.rd .GLB_INT_STATUS).getLsbD 0 = true ∧
          (t.chan c).trained = (s.chan c).trained ∧ t.rd .DRM_TRAIN_RESULT c = w &&& 0xFFFF ∧
          s.raised t .drmTrainFail 3 c 0xFF 21 11 ∧ t.drm.mem = (s.verifyRows c).drm.mem ∧
          s.onlyIn t [.regs, .drm, .mem, .hst, .out, .ltn, .pcie])))

/-- In a sound state with the memory active: (1) a well-formed write with room in its queue (of the Eyepiece, a line that it
fetches) is queued, and its 64 bytes a burst read back at once at its addresses while every other byte stays; (2) such a
read is queued and keeps the bytes that it returns, and changes no byte; (3) REFRESH_DUE of a bank pair that is not due at
its place in the interval does nothing; one that is due, without an RT request that hits an open row of it closes the pair's
two banks, takes the refresh off their activate counts and leaves their trackers and every other bank; with RT requests that
hit an open row of it, it is postponed, counted up to 7, and closes nothing; (4) DRAM_TEMP_POLL does nothing before
temp_poll has passed since the last, and then shows the hotter rank's temperature; a lower band takes effect at the second
reading that reports it, after band 5 not before the 250th, and a higher one waits for a refresh; (5) RH_WINDOW_START, once
the window has run, empties every tracker and lifts every throttle. The model's choices: read data are those at acceptance
(log 92), and which banks a pair is (log 44). (12_dram (Sources, classes and order), 12_dram (Refresh and temperature),
R444, R445, R447, R455, R456, R457, R458, R460, R471) -/
def Obligations.DramServiceCommandsComplete : Prop :=
  ∀ s : State, s.sound → s.drm.sr = .active →
    (∀ src write a n b, requestOk src write a n = true → src ≠ 24 ∨ s.eyeFetches a = true →
      (write = true → (s.chan (dChannel a)).writes.length < 64 → b.length = 64 * n →
        ∃ t, exec (.dramRequest src true a n b) s = .next t ∧ t.drm.next = s.drm.next + 1 ∧ t.drm.returns = s.drm.returns ∧
          t.chan (dChannel a) = { s.chan (dChannel a) with
            writes := (s.chan (dChannel a)).writes ++ [⟨s.drm.next, src, true, a, n, b, s.clock⟩] } ∧
          (∀ c, c ≠ dChannel a → t.chan c = s.chan c) ∧
          (∀ j, j < 64 * n → t.drm.mem.read Memory.dramFill (a + j) = b.getD j 0) ∧
          (∀ x, x < a ∨ a + 64 * n ≤ x → t.drm.mem.read Memory.dramFill x = s.drm.mem.read Memory.dramFill x) ∧
          s.onlyIn t [.drm, .mem]) ∧
      (write = false → (s.chan (dChannel a)).reads.length < 64 → ∀ data, data = Memory.reads Memory.dramFill s.drm.mem a (64 * n) →
        ∃ t, exec (.dramRequest src false a n b) s = .next t ∧ t.drm.next = s.drm.next + 1 ∧
          t.drm.returns = s.drm.returns ++ [⟨s.drm.next, src, data, false⟩] ∧
          t.chan (dChannel a) = { s.chan (dChannel a) with
            reads := (s.chan (dChannel a)).reads ++ [⟨s.drm.next, src, false, a, n, data, s.clock⟩] } ∧
          (∀ c, c ≠ dChannel a → t.chan c = s.chan c) ∧ s.onlyIn t [.drm])) ∧
    (∀ c rank pair i, c < 4 → rank < 2 → pair < 8 → i = 8 * rank + pair →
      (s.refreshFalls c i = false → exec (.refreshDue c rank pair) s = .next s) ∧
      (s.refreshFalls c i = true → (pairBanks i).any (s.chan c).rtHit = false → (s.chan c).bandUp = none →
        ∃ t, exec (.refreshDue c rank pair) s = .next t ∧ (t.chan c).refreshedAt.getD i none = some s.clock ∧
          (t.chan c).dueAt = some s.clock ∧ (t.chan c).round = (s.chan c).roundNow ++ [i] ∧
          (∀ b, b ∈ pairBanks i → ((t.chan c).bank b).openRow = none ∧
            ((t.chan c).bank b).acts = ((s.chan c).bank b).acts - Config.rfmRefresh ∧ ((t.chan c).bank b).tracker = ((s.chan c).bank b).tracker) ∧
          (∀ b, b ∉ pairBanks i → (t.chan c).bank b = (s.chan c).bank b) ∧ (t.chan c).postponed = (s.chan c).postponed ∧
          (t.chan c).reads = (s.chan c).reads ∧ (t.chan c).writes = (s.chan c).writes ∧ (∀ k, k ≠ c → t.chan k = s.chan k) ∧ s.onlyIn t [.drm]) ∧
      (s.refreshFalls c i = true → (pairBanks i).any (s.chan c).rtHit = true → (s.chan c).postponed.getD i 0 < 7 →
        ∃ t, exec (.refreshDue c rank pair) s = .next t ∧ (t.chan c).dueAt = some s.clock ∧ (t.chan c).round = (s.chan c).roundNow ++ [i] ∧ (t.chan c).postponed.getD i 0 = (s.chan c).postponed.getD i 0 + 1 ∧
          (t.chan c).banks = (s.chan c).banks ∧ (∀ k, k ≠ c → t.chan k = s.chan k) ∧
          t.get .DRM_CH_STATUS_max_postponed c =
            max ((s.chan c).postponed.getD i 0 + 1) (s.get .DRM_CH_STATUS_max_postponed c) ∧
          s.regsOnlyAt t [Reg.DRM_CH_STATUS.addr c 0 0] ∧ s.onlyIn t [.drm, .regs])) ∧
    (∀ c r0 r1, c < 4 → (s.chan c).polledAt.all (fun at' => s.elapsed at' (s.get .DRM_CTRL_temp_poll * 1000000)) = false →
      exec (.dramTempPoll c r0 r1) s = .next s) ∧
    (∀ c r0 r1 b, c < 4 → (s.chan c).polledAt.all (fun at' => s.elapsed at' (s.get .DRM_CTRL_temp_poll * 1000000)) = true → (hotterRank r0 r1).band = b → b ≤ 5 →
      ∃ t, exec (.dramTempPoll c r0 r1) s = .next t ∧ (t.chan c).polledAt = some s.clock ∧
        t.get .DRM_CH_STATUS_temp c = (BitVec.ofInt 8 (hotterRank r0 r1).temp).toNat ∧
        t.get .DRM_CH_STATUS_rfm_req c = (r0.rfm || r1.rfm).toNat ∧ (t.chan c).banks = (s.chan c).banks ∧
        (∀ k, k ≠ c → t.chan k = s.chan k) ∧ s.regsOnlyAt t [Reg.DRM_CH_STATUS.addr c 0 0] ∧ s.onlyIn t [.drm, .regs] ∧
        (s.get .DRM_CH_STATUS_band c < b → (t.chan c).bandUp = some b ∧ t.get .DRM_CH_STATUS_band c = s.get .DRM_CH_STATUS_band c) ∧
        (b = 5 → s.get .DRM_CH_STATUS_band c = 5 → (t.chan c).hotLeft = 250 ∧ t.get .DRM_CH_STATUS_band c = 5) ∧
        (b < s.get .DRM_CH_STATUS_band c → (t.chan c).hotLeft = (s.chan c).hotLeft - 1) ∧
        (b < s.get .DRM_CH_STATUS_band c → (s.chan c).lowRun ≠ b + 1 ∨ 1 < (s.chan c).hotLeft →
          (t.chan c).lowRun = b + 1 ∧ t.get .DRM_CH_STATUS_band c = s.get .DRM_CH_STATUS_band c) ∧
        (b < s.get .DRM_CH_STATUS_band c → (s.chan c).lowRun = b + 1 → (s.chan c).hotLeft ≤ 1 → t.get .DRM_CH_STATUS_band c = b)) ∧
    (s.elapsed s.drm.windowAt (s.get .DRM_RH_window_ms * 1000000) = false → exec .rhWindowStart s = .next s) ∧
    (s.elapsed s.drm.windowAt (s.get .DRM_RH_window_ms * 1000000) = true →
      ∃ t, exec .rhWindowStart s = .next t ∧ t.drm.windowAt = s.clock ∧ s.onlyIn t [.drm, .regs] ∧ ∀ c, c < 4 → t.get .DRM_THROTTLE_banks c = 0 ∧
      (t.chan c).banks = (s.chan c).banks.map (fun b => { b with tracker := [], throttled := [] }) ∧
      (t.chan c).reads = (s.chan c).reads ∧ (t.chan c).writes = (s.chan c).writes)

/-- In a sound state: (1) a slice of a channel's retrain, 25 us or more after the last, not its last one, closes the next bank
in turn and is noted with its time; the last one that passes writes the new centres into the delays, counts, and ends the
retrain of that channel; one that fails counts, ends it with FAIL and raises DRM.TRAIN_FAIL (F) with detail 0x100; (2)
ZQ_LATCH, 1 us after the start, closes the channel's rows and ends the calibration whose last latch it is; (3) SELFREF_ENTRY
with every queue empty and no RT source puts the memory into self-refresh and completes its descriptor OK, the activity
running on; (4) SELFREF_TIMEOUT with a queue not empty after 100 ms gives up with FAIL; (5) SELFREF_EXIT makes the memory
active and ends the activity. (12_dram (Training), 12_dram (Self-refresh), R435, R467, R468, R469, R470) -/
def Obligations.DramMaintenanceCommandsComplete : Prop :=
  ∀ s : State, s.sound →
    (∀ c a rd wr wck, c < 4 → s.lmp.running = [a] → a.code = 1 → a.target = c → a.left = c → a.src = .register → s.drm.sr = .active →
      (∀ at', (s.chan c).lastSlice = some at' → s.elapsed at' 25000 = true) →
      (∃ t, exec (.retrainSlice c false true rd wr wck) s = .next t ∧
        t.chan c = { s.chan c with banks := upd ((s.chan c).slices % 32) Bank.close (s.chan c).banks, slices := (s.chan c).slices + 1,
                                   lastSlice := some s.clock } ∧
        (∀ k, k ≠ c → t.chan k = s.chan k) ∧ s.onlyIn t [.drm]) ∧
      (rd.length = 16 → wr.length = 16 → wck.length = 2 → (∀ v, v ∈ rd ++ wr ++ wck → v < 512) →
        ∃ t, exec (.retrainSlice c true true rd wr wck) s = .next t ∧ t.lmp.running = [] ∧ s.counted t .DRM_RETRAIN_CNT ∧
          (∀ b, b < 16 → t.get .DRM_DLY_RD_step c b = rd.getD b 0 ∧ t.get .DRM_DLY_WR_step c b = wr.getD b 0) ∧
          (∀ y, y < 2 → t.get .DRM_DLY_BYTE_wck c y = wck.getD y 0) ∧ s.onlyIn t [.drm, .regs, .lmp]) ∧
      (∃ t, exec (.retrainSlice c true false rd wr wck) s = .next t ∧ t.lmp.running = [] ∧ s.raised t .drmTrainFail 3 c 0xFF 21 0x100 ∧
        s.counted t .DRM_RETRAIN_CNT ∧ s.regsOnlyAt t [Reg.DRM_RETRAIN_CNT.addr 0 0 0] ∧ s.onlyIn t [.drm, .regs, .lmp, .ltn])) ∧
    (∀ c a x, c < 4 → ∀ at', (s.chan c).zqPending = some at' → s.elapsed at' 1000 = true → s.lmp.running = [a] → a.code = 2 → a.target = c → a.src = .maint x → a.line = none →
      a.deferred = false → x.gen = s.hst.gen →
      ∃ t, exec (.zqLatch c) s = .next t ∧ t.chan c = { s.chan c with zqPending := none, banks := (s.chan c).banks.map Bank.close } ∧
        (∀ k, k ≠ c → t.chan k = s.chan k) ∧ t.lmp.running = [] ∧ s.completes t x .ok 0 ∧ s.ringsOnly t [s.cring x.ring] ∧
        s.onlyIn t [.drm, .lmp, .hst, .pcie]) ∧
    (∀ a x, s.lmp.running = [a] → a.code = 3 → a.target = 0 → a.src = .maint x → a.line = none → a.deferred = false →
      x.gen = s.hst.gen →
      (s.drm.sr = .entering → s.queuesEmpty = true → s.rtActive = false →
        ∃ t, exec .selfrefEntry s = .next t ∧ t.drm.sr = .inside ∧ s.completes t x .ok 0 ∧ s.counted t .DRM_SR_CNT ∧
          t.lmp.running = [{ a with src := .schedule }] ∧
          (∀ c, c < 4 → t.chan c = { s.chan c with banks := (s.chan c).banks.map Bank.close }) ∧ s.ringsOnly t [s.cring x.ring] ∧
          s.onlyIn t [.drm, .regs, .lmp, .hst, .pcie]) ∧
      (s.drm.sr = .entering → s.queuesEmpty = false → s.elapsed a.since 100000000 = true →
        ∃ t, exec .selfrefTimeout s = .next t ∧ t.drm = { s.drm with sr := .active } ∧ t.lmp.running = [] ∧ s.completes t x .fail 0 ∧
          s.ringsOnly t [s.cring x.ring] ∧ s.onlyIn t [.drm, .lmp, .hst, .pcie])) ∧
    (∀ a, s.lmp.running = [a] → a.code = 3 → a.target = 0 → a.src = .schedule → s.drm.sr = .exiting →
      ∃ t, exec .selfrefExit s = .next t ∧ t.drm = { s.drm with sr := .active } ∧ t.lmp.running = [] ∧ s.onlyIn t [.drm, .lmp])

/-- In a sound state: (1) CROSSING_WRITE_APPLY of a crossing that carries traffic takes the oldest pending write off it and
gives the register the whole word, no other register but the pending bits of interrupts that are met with it; a write of a
register with a command of its own does what the command does; (2) CROSSING_TIMEOUT of a register write pending for 4,096
cycles, or of an event or of stream words that wait there, discards the pending writes and counts their values, counts the
timeout, names crossing, domain (FAB for a write, else one of its two) and event 1 in CLK_XING_LAST, raises CDC.TIMEOUT (U),
and the crossing resynchronises; with nothing pending, and on a camera port's crossing whose clock lane is in low power, it
does nothing; (3) CROSSING_RESYNC, once both clocks run, lets it carry traffic again, and is recorded as event 2 where no
timeout came before; words that a timeout discarded count as a flush; (4) PIX_PLL_ENABLE with n and div in range stores the
word, one that leaves en at 1 is refused with reason 2, and one that clears en stops the PIX domain; (5) PIX_PLL_LOCK takes
the PIX domain out of reset, its crossing resynchronising, and scan-out goes on where it is enabled. The model's choices:
stopping PIX drops the framebuffer in force and the pending commit, and a write that clears en alone is taken (logs 116,
117); 4,096 cycles are 7,448 ns in domain FAB, and the free bits of a timeout and a flush (log 52). (13_clocks_crossings
(Crossings), 13_clocks_crossings (When the other side stops or resets), 13_clocks_crossings (The nine domains), R428, R479,
R481, R484, R488, R490) -/
def Obligations.CrossingCommandsComplete : Prop :=
  ∀ s : State, s.sound →
    (∀ x w rest r l, x < 40 → (s.xing x).sync = .running → (s.xing x).writes = w :: rest → s.xingOf w.off = some x →
      Reg.ofOffset w.off = some (r, l) →
      ((ruleOf r ownWrites).isNone = true →
        ∃ t, exec (.crossingWriteApply x) s = .next t ∧ t.xing x = { s.xing x with writes := rest } ∧ (∀ y, y ≠ x → t.xing y = s.xing y) ∧
          t.rd r (l.getD 0 0) (l.getD 1 0) (l.getD 2 0) = r.stored (s.rd r (l.getD 0 0) (l.getD 1 0) (l.getD 2 0)) w.value ∧
          s.regsOnlyAt t [r.addr (l.getD 0 0) (l.getD 1 0) (l.getD 2 0), Reg.HST_MSIX_PBA.addr 0 0 0, Reg.HST_MSIX_PBA.addr 1 0 0] ∧
          (s.hst.pend = [] → t.hst = s.hst ∧ s.regsOnlyAt t [r.addr (l.getD 0 0) (l.getD 1 0) (l.getD 2 0)]) ∧
          s.onlyIn t [.clk, .regs, .mer, .hst]) ∧
      (∀ i u, (w.off, i) ∈ [(Reg.TIM_NET_STEP.addr 0 0 0, Instr.netStep w.value), (Reg.TIM_NET_LOAD.addr 0 0 0, .netLoad w.value),
          (Reg.TIM_SEC_LO.addr 0 0 0, .secondsCommit w.value)] →
        exec i (s.updXing x fun k => { k with writes := [] }) = .next u → (u.xing x).sync = .running →
        ∃ t, exec (.crossingWriteApply x) s = .next t ∧ (t.xing x).writes = rest ++ (u.xing x).writes ∧ u.onlyIn t [.clk])) ∧
    (∀ x side, x < 38 → (s.xing x).sync = .running → side.clockLow = false ∨ x < 30 ∨ 34 ≤ x →
      (s.writeStuck x = true ∨ side.event = true ∨ side.words ≠ 0 →
        ∃ t, exec (.crossingTimeout x side) s = .next t ∧ t.xing x = ⟨[], side.words, .waiting, true⟩ ∧ (∀ y, y ≠ x → t.xing y = s.xing y) ∧
          t.get .CLK_XING_LOST_CNT = min (s.get .CLK_XING_LOST_CNT + (s.xing x).values.length) (2 ^ 32 - 1) ∧
          s.counted t .CLK_XING_TIMEOUT_CNT ∧ t.get .CLK_XING_LAST_crossing = x ∧ t.get .CLK_XING_LAST_event = 1 ∧
          (∃ d, t.get .CLK_XING_LAST_domain = d ∧ s.raised t .cdcTimeout 2 x 0xFF 19 (BitVec.ofNat 32 d) ∧
            (s.writeStuck x = true → d = 1) ∧ (d = (xingDomains x).1 ∨ d = (xingDomains x).2)) ∧
          s.regsOnlyAt t [Reg.CLK_XING_LOST_CNT.addr 0 0 0, Reg.CLK_XING_TIMEOUT_CNT.addr 0 0 0, Reg.CLK_XING_LAST.addr 0 0 0] ∧
          s.onlyIn t [.clk, .regs, .ltn, .free]) ∧
      (s.writeStuck x = false → side.event = false → side.words = 0 → exec (.crossingTimeout x side) s = .next s)) ∧
    (∀ x side, 30 ≤ x → x < 34 → side.clockLow = true → exec (.crossingTimeout x side) s = .next s) ∧
    (∀ x, x < 40 → (s.xing x).sync = .waiting →
      (s.clocksRun x = false → exec (.crossingResync x) s = .next s) ∧
      (s.clocksRun x = true → ∃ t, exec (.crossingResync x) s = .next t ∧ t.xing x = ⟨(s.xing x).writes, 0, .running, false⟩ ∧
        (∀ y, y ≠ x → t.xing y = s.xing y) ∧
        ((s.xing x).afterTimeout = false → t.get .CLK_XING_LAST_crossing = x ∧ t.get .CLK_XING_LAST_event = 2) ∧
        ((s.xing x).afterTimeout = true → t.rd .CLK_XING_LAST = s.rd .CLK_XING_LAST ∧ t.free = s.free ∧
          ((s.xing x).words = 0 → t.get .CLK_XING_FLUSH_CNT = s.get .CLK_XING_FLUSH_CNT) ∧
          ((s.xing x).words ≠ 0 → s.counted t .CLK_XING_FLUSH_CNT)) ∧
        s.regsOnlyAt t [Reg.CLK_XING_LAST.addr 0 0 0, Reg.CLK_XING_FLUSH_CNT.addr 0 0 0] ∧ s.onlyIn t [.clk, .regs, .free])) ∧
    (∀ v, s.reaches (Reg.CLK_PIX_CTRL.addr 0 0 0) = true →
      pixOk (Fld.CLK_PIX_CTRL_n.of v) (Fld.CLK_PIX_CTRL_div.of v) (s.get .CLK_PIX_FRAC_frac) v.msb = true →
      (s.on .CLK_PIX_CTRL_en = false → ∃ t, exec (.pixPllEnable v) s = .next t ∧
        t.rd .CLK_PIX_CTRL = Reg.CLK_PIX_CTRL.stored (s.rd .CLK_PIX_CTRL) v ∧ s.regsOnlyAt t [Reg.CLK_PIX_CTRL.addr 0 0 0] ∧
        s.onlyIn t [.regs, .pcie]) ∧
      (s.on .CLK_PIX_CTRL_en = true → v.msb = true →
        ∃ t, exec (.pixPllEnable v) s = .next t ∧ s.refusedAt t (Reg.CLK_PIX_CTRL.addr 0 0 0) 2) ∧
      (s.on .CLK_PIX_CTRL_en = true → v.msb = false → Fld.CLK_PIX_CTRL_n.of v = s.get .CLK_PIX_CTRL_n →
        Fld.CLK_PIX_CTRL_div.of v = s.get .CLK_PIX_CTRL_div →
        ∃ t, exec (.pixPllEnable v) s = .next t ∧ t.on .CLK_PIX_CTRL_en = false ∧ t.clk.pixLock = false ∧
          t.xing 34 = ⟨[], 0, .waiting, false⟩ ∧ (∀ y, y ≠ 34 → t.xing y = s.xing y) ∧ t.eye.shown = none ∧ t.eye.pending = none ∧
          s.regsOnlyAt t [Reg.CLK_PIX_CTRL.addr 0 0 0] ∧ s.onlyIn t [.regs, .clk, .eye, .out, .pcie])) ∧
    (s.on .CLK_PIX_CTRL_en = true → s.clk.rootLock = true → s.clk.pixLock = false → s.dev.dev ≠ .dark →
      ∃ t, exec .pixPllLock s = .next t ∧ t.clk.pixLock = true ∧ t.clk.rootLock = true ∧ t.xing 34 = ⟨[], 0, .waiting, false⟩ ∧
        (∀ y, y ≠ 34 → t.xing y = s.xing y) ∧ t.out = s.out ++ (if s.on .EYE_CTRL_en then [.display true s.dispIdle] else []) ∧
        t.drm = (if s.drm.sr = .inside ∧ (s.on .EYE_CTRL_en = true ∨ s.rtActive = true) then { s.drm with sr := .exiting } else s.drm) ∧
        s.onlyIn t [.clk, .out, .drm])

/-- In a sound state with TIME records not routed: (1) NET_RATE_WRITE stores the rate; (2) NET_STEP by at most max_ns, and
NET_LOAD of a value at most max_ns away, move NET with no pulse generator armed, make it valid and set the step bit, and
with TIM_CTRL.override set also clear sec_valid and set stepped of every generator (that a step within max_ns is one under
override then is the model's choice, log 109); a step above max_ns, outside override and with NET valid, is refused: NET
stays, TIM_STEP_REFUSED_CNT counts, and TIM.JUMP_REFUSED (C) is raised with the step; (3) TIME_SNAPSHOT copies MONO and NET
of one cycle; (4) MONO_WRAP and NET_WRAP post the oldest wrap that waits, once, and set the wrap bit; (5) SECONDS_COMMIT
takes base and seconds and makes them valid; (6) SECOND_ROLLOVER moves both, and the registers that show them, by one second
where NET lies a second or more past base (over what was written there and not committed: the model's choice, log 108).
(14_time_network (MONO and NET), 14_time_network (Steps), 14_time_network (Wrap and extension), R499, R500, R501, R502,
R504, R519) -/
def Obligations.TimeCommandsComplete : Prop :=
  ∀ s : State, s.sound → s.on .HST_EVT_ROUTE_tim_en = false →
    (∀ v, s.reaches (Reg.TIM_NET_RATE.addr 0 0 0) = true →
      ∃ t, exec (.netRateWrite v) s = .next t ∧ t.rd .TIM_NET_RATE = Reg.TIM_NET_RATE.stored (s.rd .TIM_NET_RATE) v ∧
        s.regsOnlyAt t [Reg.TIM_NET_RATE.addr 0 0 0] ∧ s.onlyIn t [.regs, .pcie]) ∧
    (∀ i v d net, (i = Instr.netStep v ∧ d = v.toInt ∧ net = s.tim.net + (v ++ (0 : BitVec 40)) ∧
          s.reaches (Reg.TIM_NET_STEP.addr 0 0 0) = true ∨
        i = Instr.netLoad v ∧ d = (v - s.net).toInt ∧ net = v ++ (0 : BitVec 40) ∧ s.reaches (Reg.TIM_NET_LOAD.addr 0 0 0) = true) →
      (d.natAbs ≤ s.get .TIM_STEP_MAX_max_ns → (∀ g, g ∈ s.tim.gens → g.armed = false) →
        ∃ t, exec i s = .next t ∧ t.tim.net = net ∧ t.tim.netValid = true ∧ t.tim.mono = s.tim.mono ∧ t.tim.gens = s.tim.gens ∧
          t.tim.secValid = (s.tim.secValid && !s.on .TIM_CTRL_override) ∧ t.tim.base = s.tim.base ∧ t.tim.secs = s.tim.secs ∧
          (s.on .TIM_CTRL_override = true → ∀ n, n < 8 → t.on .TIM_PULSE_CTRL_stepped n = true) ∧
          (t.rd .TIM_INT_STATUS).getLsbD 8 = true ∧ s.onlyIn t [.tim, .regs, .hst, .out, .pcie]) ∧
      (s.get .TIM_STEP_MAX_max_ns < d.natAbs → s.on .TIM_CTRL_override = false → s.tim.netValid = true →
        ∃ t, exec i s = .next t ∧ s.counted t .TIM_STEP_REFUSED_CNT ∧
          s.raised t .timJumpRefused 1 0xFF 0xFF 9 (BitVec.ofInt 32 d) ∧ (t.rd .TIM_INT_STATUS).getLsbD 8 = true ∧
          s.onlyIn t [.regs, .ltn, .hst, .out, .pcie])) ∧
    (s.reaches (Reg.TIM_SNAP_CMD.addr 0 0 0) = true →
      ∃ t, exec .timeSnapshot s = .next t ∧ t.rd .TIM_SNAP_MONO = s.mono ∧ t.rd .TIM_SNAP_NET = s.net ∧
        s.regsOnlyAt t [Reg.TIM_SNAP_MONO.addr 0 0 0, Reg.TIM_SNAP_NET.addr 0 0 0] ∧ s.onlyIn t [.regs, .pcie]) ∧
    (∀ w rest, s.tim.monoWraps = w :: rest →
      ∃ t, exec .monoWrap s = .next t ∧ t.tim = { s.tim with monoWraps := rest } ∧ (t.rd .TIM_INT_STATUS).getLsbD 9 = true ∧
        s.onlyIn t [.tim, .regs, .hst, .out, .pcie]) ∧
    (∀ w rest, s.tim.netWraps = w :: rest →
      ∃ t, exec .netWrap s = .next t ∧ t.tim = { s.tim with netWraps := rest } ∧ (t.rd .TIM_INT_STATUS).getLsbD 9 = true ∧
        s.onlyIn t [.tim, .regs, .hst, .out, .pcie]) ∧
    (∀ v, s.reaches (Reg.TIM_SEC_LO.addr 0 0 0) = true →
      ∃ t, exec (.secondsCommit v) s = .next t ∧
        t.tim = { s.tim with base := s.rd .TIM_SEC_BASE, secs := (s.rd .TIM_SEC_HI).setWidth 16 ++ v, secValid := true } ∧
        s.regsOnlyAt t [Reg.TIM_SEC_LO.addr 0 0 0] ∧ s.onlyIn t [.tim, .regs, .pcie]) ∧
    (s.tim.secValid = true →
      (1000000000 ≤ sdiff s.net s.tim.base → ∃ t, exec .secondRollover s = .next t ∧
        t.tim = { s.tim with base := s.tim.base + 1000000000, secs := s.tim.secs + 1 } ∧ t.rd .TIM_SEC_BASE = s.tim.base + 1000000000 ∧
        t.rd .TIM_SEC_LO = (s.tim.secs + 1).setWidth 32 ∧ t.rd .TIM_SEC_HI = ((s.tim.secs + 1).extractLsb' 32 16).setWidth 32 ∧
        s.regsOnlyAt t [Reg.TIM_SEC_BASE.addr 0 0 0, Reg.TIM_SEC_LO.addr 0 0 0, Reg.TIM_SEC_HI.addr 0 0 0] ∧ s.onlyIn t [.tim, .regs]) ∧
      (0 ≤ sdiff s.net s.tim.base → sdiff s.net s.tim.base < 1000000000 → exec .secondRollover s = .next s))

/-- In a sound state, for a pulse generator n without event or CAM_TRIG outputs: (1) PULSE_ARM of a ONESHOT pulse with a width
and a target ahead of NET arms it with that target; one whose target is behind is not fired but marked missed, counted and
disarmed; arm 0 disarms it; arm with width 0 is refused with reason 3; (2) PULSE_FIRE of an armed generator whose target NET
has reached drives its land to its active level and sets its interrupt bit; a ONESHOT one disarms, a periodic one with its
next target ahead moves to it and stays armed; (3) PULSE_WIDTH_END after the width lets the land go inactive unless a
compare drives it. (14_time_network (Pulse generators), R505, R507, R508, R509, R511) -/
def Obligations.PulseCommandsComplete : Prop :=
  ∀ (s : State) (n : Nat), s.sound → n < 8 →
    (∀ v, s.reaches (Reg.TIM_PULSE_CTRL.addr n 0 0) = true →
      (v.msb = true → v.getLsbD 30 = false → Fld.TIM_PULSE_CTRL_width.of v ≠ 0 →
        (sdiff s.net (s.rd .TIM_PULSE_START n) ≤ 0 → ∃ t, exec (.pulseArm n v) s = .next t ∧
          t.gen n = { s.gen n with armed := true, target := s.rd .TIM_PULSE_START n, period := (s.rd .TIM_PULSE_PERIOD n).toNat } ∧
          t.rd .TIM_PULSE_CTRL n = Reg.TIM_PULSE_CTRL.stored (s.rd .TIM_PULSE_CTRL n) v ∧ (∀ k, k ≠ n → t.gen k = s.gen k) ∧
          s.regsOnlyAt t [Reg.TIM_PULSE_CTRL.addr n 0 0] ∧ s.onlyIn t [.tim, .regs, .pcie]) ∧
        (0 < sdiff s.net (s.rd .TIM_PULSE_START n) → ∃ t, exec (.pulseArm n v) s = .next t ∧ (t.gen n).armed = false ∧
          (t.gen n).active = (s.gen n).active ∧ t.get .TIM_PULSE_CTRL_missed n = 1 ∧ t.on .TIM_PULSE_CTRL_arm n = false ∧
          s.counted t .TIM_PULSE_MISSED_CNT ∧ (∀ k, k ≠ n → t.gen k = s.gen k) ∧
          s.regsOnlyAt t [Reg.TIM_PULSE_CTRL.addr n 0 0, Reg.TIM_PULSE_MISSED_CNT.addr 0 0 0] ∧ s.onlyIn t [.tim, .regs, .pcie])) ∧
      (v.msb = false → ∃ t, exec (.pulseArm n v) s = .next t ∧ t.gen n = { s.gen n with armed := false } ∧
        t.on .TIM_PULSE_CTRL_arm n = false ∧ (∀ k, k ≠ n → t.gen k = s.gen k) ∧ s.regsOnlyAt t [Reg.TIM_PULSE_CTRL.addr n 0 0] ∧
        s.onlyIn t [.tim, .regs, .pcie]) ∧
      (v.msb = true → Fld.TIM_PULSE_CTRL_width.of v = 0 →
        ∃ t, exec (.pulseArm n v) s = .next t ∧ s.refusedAt t (Reg.TIM_PULSE_CTRL.addr n 0 0) 3)) ∧
    ((s.gen n).armed = true → 0 ≤ s.netAfter n → s.get .TIM_PULSE_CTRL_camtrig n = 0 → s.on .TIM_PULSE_CTRL_event n = false →
      ∃ t, exec (.pulseFire n) s = .next t ∧ (t.gen n).active = some s.clock ∧
        .pin (.tpulse n) (landLevel (s.on .TIM_PULSE_CTRL_pol n) true) ∈ t.out ∧ (t.rd .TIM_INT_STATUS).getLsbD n = true ∧
        (∀ k, k ≠ n → t.gen k = s.gen k) ∧ s.onlyIn t [.tim, .regs, .out, .hst, .pcie] ∧
        (s.on .TIM_PULSE_CTRL_mode n = false → (t.gen n).armed = false ∧ t.on .TIM_PULSE_CTRL_arm n = false) ∧
        (s.on .TIM_PULSE_CTRL_mode n = true → sdiff s.net ((s.gen n).target + BitVec.ofNat 32 (s.gen n).period) ≤ 0 →
          (t.gen n).armed = true ∧ (t.gen n).target = (s.gen n).target + BitVec.ofNat 32 (s.gen n).period)) ∧
    (∀ a, (s.gen n).active = some a → s.elapsed a (s.get .TIM_PULSE_CTRL_width n * 8) = true →
      ∃ t, exec (.pulseWidthEnd n) s = .next t ∧ t.gen n = { s.gen n with active := none } ∧ (∀ k, k ≠ n → t.gen k = s.gen k) ∧
        t.out = s.out ++ [.pin (.tpulse n) (landLevel (s.on .TIM_PULSE_CTRL_pol n) (s.mer.tpulses.getD n none).isSome)] ∧
        s.onlyIn t [.tim, .out])

/-- In a sound state: (1) NET_TX of 60 to 9,216 bytes with nothing to send begins at once where the link is up and tx_en set,
its descriptor in flight, and completes with LINK where it is not; one of another length completes with RANGE; (2)
NET_TX_DONE sends the frame with its FCS, completes OK, and queues the timestamp that was asked for; (3) NET_RXBUF waits
behind the buffers read where no frame waits; (4) NET_RX_FRAME that the MAC accepts, with no buffer ready, waits with its
timestamp, one that the MAC does not accept changes nothing, and one with a bad FCS is counted; (5) TXTS_READ removes the
oldest timestamp, and TXTS_POST does so where the TIME ring has room; (6) NET_LINK_CHANGE brings the link up where an SGMII
PHY reports 1000 Mbit/s full duplex, or a 1000BASE-X partner advertises full duplex, and takes it down otherwise; a change
sets its interrupt bit. (14_time_network (The network port), 14_time_network (Timestamps and IEEE 1588), R376, R382, R512,
R514, R515, R516, R517, R518, R520) -/
def Obligations.NetworkCommandsComplete : Prop :=
  ∀ s : State, s.sound →
    (∀ r d f, s.accepts r d 0x0A → f.length = leAt d 16 2 → byteAt d 4 = 0 → s.tim.tx = [] →
      (60 ≤ leAt d 16 2 → leAt d 16 2 ≤ 9216 → s.windowOk false (leAt d 8 8) (leAt d 16 2) = true →
        (s.tim.link = true → s.on .TIM_CTRL_tx_en = true → ∃ t, exec (.netTx r d f) s = .next t ∧
          t.tim = { s.tim with tx := [⟨s.ctxOf r d, f, false, false, leAt d 6 2,
            some (s.net + BitVec.ofNat 32 (s.get .TIM_NET_LAT_tx_lat))⟩] } ∧ s.inFlight t r ∧ s.onlyIn t [.hst, .tim, .pcie]) ∧
        (s.tim.link = false ∨ s.on .TIM_CTRL_tx_en = false → ∃ t, exec (.netTx r d f) s = .next t ∧ s.answered t r d .link 0 ∧
          s.onlyIn t [.hst, .pcie])) ∧
      (leAt d 16 2 < 60 ∨ 9216 < leAt d 16 2 → ∃ t, exec (.netTx r d f) s = .next t ∧ s.answered t r d .range 0 ∧ s.onlyIn t [.hst, .pcie])) ∧
    (∀ f a, s.tim.tx = [f] → f.stamp = some a → f.ctx.gen = s.hst.gen → s.tim.txq.length < 16 →
      ∃ t, exec .netTxDone s = .next t ∧ t.out = s.out ++ [.netFrame (f.frame ++ frameFcs f.frame)] ∧ s.completes t f.ctx .ok 0 ∧
        t.tim = { s.tim with tx := [], txq := s.tim.txq ++ (if f.ts then [(f.ctx.tag, a)] else []) } ∧
        s.ringsOnly t [s.cring f.ctx.ring] ∧ s.onlyIn t [.out, .tim, .hst, .pcie]) ∧
    (∀ r d, d.length = 32 → s.running r = true → s.ringKind r = 2 → (s.ring r).bufs.length < s.pendingEntries r → s.tim.rxWait = [] →
      ∃ t, exec (.netRxbuf r d) s = .next t ∧ t.ring r = { s.ring r with bufs := (s.ring r).bufs ++ [d] } ∧ s.ringsOnly t [r] ∧
        s.onlyIn t [.hst, .pcie]) ∧
    (∀ f, s.on .TIM_CTRL_rx_en = true → s.tim.link = true →
      (60 ≤ f.length → f.length ≤ 9216 →
        (s.macAccepts f = true → ((s.tim.rxWait.map fun x => x.1.length).sum + f.length ≤ 32768) →
          (s.ring (s.get .TIM_CTRL_rx_ring)).bufs = [] → ∃ t, exec (.netRxFrame f true) s = .next t ∧
          t.tim = { s.tim with
            rxWait := s.tim.rxWait ++ [(f, s.net - BitVec.ofNat 32 (s.get .TIM_NET_LAT_rx_lat), s.tim.netValid)] } ∧ s.onlyIn t [.tim]) ∧
        (s.macAccepts f = false → exec (.netRxFrame f true) s = .next s)) ∧
      (∃ t, exec (.netRxFrame f false) s = .next t ∧ s.counted t .TIM_RX_BAD_CNT ∧ s.regsOnlyAt t [Reg.TIM_RX_BAD_CNT.addr 0 0 0] ∧
        s.onlyIn t [.regs])) ∧
    (∀ x rest, s.tim.txq = x :: rest →
      (s.dev.dev ≠ .dark → ∃ t, exec .txtsRead s = .next t ∧ t.tim = { s.tim with txq := rest } ∧ s.onlyIn t [.tim, .pcie]) ∧
      (∀ r, r = s.get .HST_EVT_ROUTE_tim_ring → s.on .HST_EVT_ROUTE_tim_en = true → s.ringKind r = 3 → s.running r = true →
        s.ringFull r = false → s.windowOk true (s.ringBase r + 32 * (s.ring r).dev) 32 = true →
        ∃ t, exec .txtsPost s = .next t ∧ t.tim = { s.tim with txq := rest } ∧ (t.ring r).written = (s.ring r).written + 1 ∧
          (∃ b, .hostWrite (s.ringBase r + 32 * (s.ring r).dev) b false ∈ t.out ∧ b.length = 32 ∧ byteAt b 0 = 3) ∧
          (∀ q, q ≠ r → t.ring q = s.ring q) ∧ s.onlyIn t [.tim, .hst, .out, .regs, .pcie])) ∧
    (s.clk.rootLock = true → ∀ (x : NetExchange) (up : Bool), (up = true ↔ s.get .TIM_CTRL_mode = 1 ∧ x = .inBand 1000 true ∨
        s.get .TIM_CTRL_mode = 2 ∧ ∃ pause, x = .clause37 ⟨true, pause⟩) →
      (up ≠ s.tim.link → ∃ t, exec (.netLinkChange x) s = .next t ∧ t.tim = { s.tim with link := up } ∧
        (t.rd .TIM_INT_STATUS).getLsbD 11 = true ∧ s.onlyIn t [.tim, .regs, .hst, .out, .pcie]) ∧
      (up = s.tim.link → exec (.netLinkChange x) s = .next s))

/-- In a sound state: (1) EYE_ENABLE with the output off, timing that satisfies R524 and PIX on stores EYE_CTRL and starts a
scan that shows nothing yet, its first display frame to begin at line 0; with other timing, or PIX off, it is refused with
reason 3. (2) EYE_DISABLE of a scan that changes no other field stores EYE_CTRL and ends the scan, the display lands going
to their inactive levels with the data at 0; a write that would change nothing while the output is on is refused with reason
2. (3) EYE_COMMIT with the host as source makes the framebuffer of the registers wait: for the next line 0, or for the one
after once the commit point has passed; where a commit waits already it replaces it and EYE_SUPERSEDE_CNT counts. Otherwise
it changes nothing. (4) COMMIT_POINT, on the last active line of a display frame, puts the signature into EYE_SIG and sets
done; the run of equal signatures goes on, begins again or ends, and EYE.FREEZE is raised with the signature where the live
source has shown it EYE_FREEZE times and it has not been raised since the last change. (15_eyepiece (Framebuffers and pixel
formats), R428, R524, R525, R528, R531, R532, R535, R536, R537, R538) -/
def Obligations.DisplayCommandsComplete : Prop :=
  ∀ s : State, s.sound →
    (∀ v, v.msb = true → s.on .EYE_CTRL_en = false → s.reaches (Reg.EYE_CTRL.addr 0 0 0) = true →
      (s.eyeTimingOk = true → s.on .CLK_PIX_CTRL_en = true → ∃ t, exec (.eyeEnable v) s = .next t ∧ t.rd .EYE_CTRL = v &&& 0xC00000F7 ||| s.rd .EYE_CTRL &&& 0x3FFFFF08 ∧
        t.eye = { s.eye with line := 0, fresh := true, shown := none, pending := none, pastCommit := false, fetched := none } ∧
        t.out = s.out ++ (if s.clk.pixLock then [.display true t.dispIdle] else []) ∧
        t.drm = (if s.drm.sr = .inside ∧ t.rtActive = true then { s.drm with sr := .exiting } else s.drm) ∧
        s.regsOnlyAt t [Reg.EYE_CTRL.addr 0 0 0] ∧ s.onlyIn t [.regs, .eye, .out, .pcie, .drm]) ∧
      ((s.eyeTimingOk && s.on .CLK_PIX_CTRL_en) = false → ∃ t, exec (.eyeEnable v) s = .next t ∧ s.refusedAt t (Reg.EYE_CTRL.addr 0 0 0) 3)) ∧
    (∀ v, v.msb = false → s.on .EYE_CTRL_en = true → s.reaches (Reg.EYE_CTRL.addr 0 0 0) = true → (s.rd .EYE_CTRL ^^^ v) &&& 0xF7 = 0 →
      ∃ t, exec (.eyeDisable v) s = .next t ∧ t.rd .EYE_CTRL = v &&& 0xC00000F7 ||| s.rd .EYE_CTRL &&& 0x3FFFFF08 ∧ t.scanning = false ∧
        t.eye = { s.eye with line := 0, fresh := true, shown := none, pending := none, pastCommit := false, fetched := none } ∧
        t.out = s.out ++ (if s.clk.pixLock then [.display false ⟨[0, 0, 0], s.on .EYE_CTRL_de_pol, s.on .EYE_CTRL_hs_pol, s.on .EYE_CTRL_vs_pol⟩]
          else []) ∧ t.drm = (if s.drm.sr = .inside ∧ t.rtActive = true then { s.drm with sr := .exiting } else s.drm) ∧
        s.regsOnlyAt t [Reg.EYE_CTRL.addr 0 0 0] ∧ s.onlyIn t [.regs, .eye, .out, .pcie, .drm]) ∧
    (∀ v, v.msb = true → s.on .EYE_CTRL_en = true → s.reaches (Reg.EYE_CTRL.addr 0 0 0) = true → (s.rd .EYE_CTRL ^^^ v) &&& 0x400000F7 = 0 →
      ∃ t, exec (.eyeEnable v) s = .next t ∧ s.refusedAt t (Reg.EYE_CTRL.addr 0 0 0) 2) ∧
    (∀ f, s.reaches (Reg.EYE_COMMIT.addr 0 0 0) = true →
      f = FrameBuf.mk ((s.rd .EYE_FB_ADDR).toNat * 16) (s.get .EYE_FB_STRIDE) (s.get .EYE_FMT_fmt) (s.on .EYE_FMT_swap) (s.get .EYE_HTIM_lo)
        (s.get .EYE_VTIM_lo) →
      ((s.on .EYE_CTRL_src || !s.scanning) = true → ∃ t, exec .eyeCommit s = .next t ∧ s.onlyIn t [.pcie]) ∧
      (s.on .EYE_CTRL_src = false → s.scanning = true → ∃ t, exec .eyeCommit s = .next t ∧
        t.eye = { s.eye with pending := some (f, if s.eye.pastCommit then 2 else 1) } ∧
        (s.eye.pending = none → s.onlyIn t [.eye, .pcie]) ∧
        (s.eye.pending ≠ none → s.counted t .EYE_SUPERSEDE_CNT ∧ s.regsOnlyAt t [Reg.EYE_SUPERSEDE_CNT.addr 0 0 0] ∧
          s.onlyIn t [.eye, .regs, .pcie]))) ∧
    (∀ same, s.scanning = true → s.eye.fresh = false → s.eye.pastCommit = false → s.eye.line + 1 = s.get .EYE_VTIM_lo → s.rd .EYE_INT_EN = 0 →
      same = (if (s.eye.bordered || s.eye.underran) = true then 0 else if s.eye.lastSig = some s.eye.crc then s.eye.same + 1 else 1) →
      ∃ t, exec .commitPoint s = .next t ∧ t.rd .EYE_SIG = s.eye.crc ∧ t.rd .EYE_INT_STATUS = s.rd .EYE_INT_STATUS ||| 4 ∧
        s.regsOnlyAt t [Reg.EYE_SIG.addr 0 0 0, Reg.EYE_INT_STATUS.addr 0 0 0] ∧ s.onlyIn t [.eye, .regs, .ltn] ∧
        t.eye.pastCommit = true ∧ t.eye.same = same ∧ t.eye.lastSig = some s.eye.crc ∧ t.eye.pending = s.eye.pending ∧
        t.eye.shown = s.eye.shown ∧ t.eye.line = s.eye.line ∧
        (s.eyeLive = true → s.get .EYE_FREEZE ≠ 0 → s.get .EYE_FREEZE ≤ same → (s.eye.frozen = false ∨ s.eye.lastSig ≠ some s.eye.crc) →
          s.raised t .eyeFreeze 2 0xFF 0xFF 0 s.eye.crc ∧ t.eye.frozen = true) ∧
        ((s.eyeLive = false ∨ s.get .EYE_FREEZE = 0 ∨ same < s.get .EYE_FREEZE ∨ (s.eye.frozen = true ∧ s.eye.lastSig = some s.eye.crc)) →
          t.ltn = s.ltn))

/-- In a sound state that scans, its Eyepiece interrupts disabled, y the line that begins (0 after the enable, then one more,
from v_total round to 0): (1) a blank line drives its clocks with data 0, the next line is fetched, and vblank is set at
line v_active and line at EYE_LINE_MATCH; (2) at line 0 a commit that waits for it comes into force, with commit set, one
that waits for the line 0 after goes on waiting, and the frame is counted but after the enable (the model's choice, log
160); at every other line the framebuffer in force stays; (3) every line has h_total clocks, with DE on the active pixels,
HS and VS in their ranges and each at its polarity; an active line drives one colour for each pixel clock: inside the shown
area the pixel, as its line was fetched from DRAM, under the format and swap in force, elsewhere EYE_BORDER; the signature
takes every byte; (4) where the fetch delivers no pixel from m on, m inside the shown area, each clock from m on repeats the
last pixel driven on the line (EYE_BORDER where there is none), the line counts in EYE_UNDERRUN_CNT, and the first such line
of the display frame raises EYE.UNDERRUN and sets underrun. (15_eyepiece (Underrun), R522, R523, R526, R530, R527, R529,
R531, R534, R535, R537) -/
def Obligations.DisplayLinesComplete : Prop :=
  ∀ (s : State) (y : Nat) (lands : List Nat → DispLine), s.sound → s.scanning = true → s.rd .EYE_INT_EN = 0 → 1 ≤ s.get .EYE_VTIM_hi →
    (∀ rgb, lands rgb = ⟨s.on .EYE_CTRL_pclk_edge, (List.range (s.get .EYE_HTIM_hi)).map fun x =>
        ⟨if x < s.get .EYE_HTIM_lo ∧ y < s.get .EYE_VTIM_lo then (rgb.drop (3 * x)).take 3 else [0, 0, 0],
          (decide (x < s.get .EYE_HTIM_lo) && decide (y < s.get .EYE_VTIM_lo)) != s.on .EYE_CTRL_de_pol,
          (decide (s.get .EYE_HSYNC_hi ≤ x) && decide (x < s.get .EYE_HSYNC_hi + s.get .EYE_HSYNC_lo)) != s.on .EYE_CTRL_hs_pol,
          (decide (s.get .EYE_VSYNC_hi ≤ y) && decide (y < s.get .EYE_VSYNC_hi + s.get .EYE_VSYNC_lo)) != s.on .EYE_CTRL_vs_pol⟩⟩) →
    y = (if s.eye.fresh then 0 else (s.eye.line + 1) % s.get .EYE_VTIM_hi) →
    (∀ missing, 0 < s.get .EYE_VTIM_lo → s.get .EYE_VTIM_lo ≤ y → ∃ t, exec (.displayLineStart missing) s = .next t ∧ t.eye = { s.eye with line := y, fetched := t.eye.fetched } ∧
      t.eye.fetched = t.nextLine.map (fun x => (x.1.addr + x.2 * x.1.stride,
        Memory.reads Memory.dramFill s.drm.mem (x.1.addr + x.2 * x.1.stride) (s.lineLength x.1))) ∧
      t.out = s.out ++ [.displayLine s.eye.frame.toNat y [] (lands [])] ∧
      t.rd .EYE_INT_STATUS = (s.rd .EYE_INT_STATUS ||| (if y = s.get .EYE_VTIM_lo then 1 else 0)) |||
        (if y = s.get .EYE_LINE_MATCH then 2 else 0) ∧
      s.regsOnlyAt t [Reg.EYE_INT_STATUS.addr 0 0 0] ∧ s.onlyIn t [.eye, .regs, .out]) ∧
    (∀ missing : Option Nat, (∀ m, missing = some m → s.get .EYE_HTIM_lo ≤ m) → y < s.get .EYE_VTIM_lo →
      ∃ t rgb, exec (.displayLineStart missing) s = .next t ∧ t.out = s.out ++ [.displayLine t.eye.frame.toNat y rgb (lands rgb)] ∧
        rgb.length = 3 * s.get .EYE_HTIM_lo ∧ t.eye.line = y ∧ t.eye.fresh = false ∧
        t.eye.crc = sigBytes (if y = 0 then 0xFFFFFFFF else s.eye.crc) rgb ∧
        s.regsOnlyAt t [Reg.EYE_INT_STATUS.addr 0 0 0] ∧ s.onlyIn t [.eye, .regs, .out] ∧
        (y ≠ 0 → t.eye.shown = s.eye.shown ∧ t.eye.pending = s.eye.pending ∧ t.eye.frame = s.eye.frame ∧ t.eye.pastCommit = s.eye.pastCommit) ∧
        (y = 0 → t.eye.frame = (if s.eye.fresh then s.eye.frame else s.eye.frame + 1) ∧ t.eye.pastCommit = false ∧
          (s.eye.pending = none → t.eye.shown = s.eye.shown ∧ t.eye.pending = none) ∧
          (∀ f, s.eye.pending = some (f, 1) → t.eye.shown = some f ∧ t.eye.pending = none ∧ t.on .EYE_INT_STATUS_commit = true) ∧
          (∀ f, s.eye.pending = some (f, 2) → t.eye.shown = s.eye.shown ∧ t.eye.pending = some (f, 1))) ∧
        (∀ x, x < s.get .EYE_HTIM_lo →
          (t.eye.shown = none → (rgb.drop (3 * x)).take 3 = s.border) ∧
          (∀ f, t.eye.shown = some f →
            (f.width ≤ x ∨ f.height ≤ y → (rgb.drop (3 * x)).take 3 = s.border) ∧
            (x < f.width → y < f.height → ∀ b : Nat → Nat, (∀ k, b k = byteAt (s.lineBytes f y) (x *
                (if f.fmt = 0 then 2 else if f.fmt = 1 then 3 else 4) + k)) →
              (f.fmt = 2 → f.swap = false → (rgb.drop (3 * x)).take 3 = [b 2, b 1, b 0]) ∧
              (f.fmt = 2 → f.swap = true → (rgb.drop (3 * x)).take 3 = [b 1, b 2, b 3]) ∧
              (f.fmt = 1 → f.swap = false → (rgb.drop (3 * x)).take 3 = [b 2, b 1, b 0]) ∧
              (f.fmt = 1 → f.swap = true → (rgb.drop (3 * x)).take 3 = [b 0, b 1, b 2]) ∧
              (∀ r5 g6 b5, f.fmt = 0 → r5 < 32 → g6 < 64 → b5 < 32 →
                (if f.swap then b 0 * 256 + b 1 else b 1 * 256 + b 0) = r5 * 2048 + g6 * 32 + b5 →
                (rgb.drop (3 * x)).take 3 = [r5 * 8 + r5 / 4, g6 * 4 + g6 / 16, b5 * 8 + b5 / 4]))))) ∧
    (∀ m f, y ≠ 0 → y < s.get .EYE_VTIM_lo → s.eye.shown = some f → m < f.width → m < s.get .EYE_HTIM_lo → y < f.height →
      ∃ t rgb, exec (.displayLineStart (some m)) s = .next t ∧ t.out = s.out ++ [.displayLine s.eye.frame.toNat y rgb (lands rgb)] ∧
        rgb.length = 3 * s.get .EYE_HTIM_lo ∧ s.counted t .EYE_UNDERRUN_CNT ∧ t.eye.underran = true ∧
        (∀ x, m ≤ x → x < f.width → x < s.get .EYE_HTIM_lo →
          (rgb.drop (3 * x)).take 3 = (if m = 0 then s.border else (rgb.drop (3 * (m - 1))).take 3)) ∧
        (s.eye.underran = true → t.ltn = s.ltn) ∧
        (s.eye.underran = false → s.raised t .eyeUnderrun 1 0xFF 0xFF 20 (BitVec.ofNat 32 y) ∧ t.on .EYE_INT_STATUS_underrun = true) ∧
        s.regsOnlyAt t [Reg.EYE_INT_STATUS.addr 0 0 0, Reg.EYE_UNDERRUN_CNT.addr 0 0 0] ∧ s.onlyIn t [.eye, .regs, .out, .ltn])

/-- For every pixel of a framebuffer in RGB565, with R, G and B of 5, 6 and 5 bits, the Eyepiece drives R8 = (r5 << 3) | (r5 >>
2), G8 = (g6 << 2) | (g6 >> 4) and B8 = (b5 << 3) | (b5 >> 2); with swap the same for the two bytes in the reverse order.
(R527) -/
def Obligations.Rgb565Widens : Prop :=
  ∀ r5 g6 b5 : Nat, r5 < 32 → g6 < 64 → b5 < 32 → ∀ l : Bytes, l = toLe 2 (r5 * 2048 + g6 * 32 + b5) →
    pixelRgb 0 false l = [r5 <<< 3 ||| r5 >>> 2, g6 <<< 2 ||| g6 >>> 4, b5 <<< 3 ||| b5 >>> 2] ∧
      pixelRgb 0 true l.reverse = pixelRgb 0 false l

/-- In a sound state: (1) ALM_WRITE in STANDBY or PRINTING with nothing running: a record that fails the checks of R546
completes with RANGE, ALM_STATUS saying so; a good one is given the next sequence number of its region and its new header
CRC, and the lowest erased slot, or without one the lowest reclaimable one, and stays in flight; a region with neither
completes with FAIL and last_err 1. (2) ALM_WR_GO does the same from the registers in STANDBY and PRINTING, putting ALM into
BUSY; a bad record is refused with reason 3, and a start in FIRST_LIGHT or HELD, of no record read, with reason 2. None of
these changes a byte of the flash. (3) ALM_WRITE_DONE of a record programmed and read back as written: the slot reads as the
record and then as erased flash, every byte outside the slot reads as before, ALM_WRITE_CNT counts, ALM_STATUS says OK and
the descriptor completes with OK; where the flash did not answer, or read back differently, it completes with FAIL and
last_err 3 or 2, bytes outside the slot as before. (4) ALM_READ_DATA moves ALM_RD_ADDR on by 4; while ALM is BUSY it sets
rd_void instead. (16_almanac_sensing (Writing records), R427, R437, R539, R541, R545, R546, R547) -/
def Obligations.AlmanacCommandsComplete : Prop :=
  ∀ s : State, s.sound →
    (∀ r d q x k n, s.accepts r d 8 → byteAt d 4 = 6 → byteAt d 5 = 0 → leAt d 16 4 = n → 16 ≤ n → n ≤ 65536 → q.length = n →
      s.windowOk false (leAt d 8 8) n = true → (s.dev.dev = .standby ∨ s.dev.dev = .printing) → s.lmp.running = [] →
      k = (recKind q == 9) → x = q.take 8 ++ toLe 4 (((s.validRecords k).map fun e => recSeq e.2).foldl max 0 + 1) ++ (q.drop 12).take 2 →
      ((writeCheck q = false ∨ recLength q ≠ n) → ∃ t, exec (.almWrite r d q) s = .next t ∧ s.answered t r d .range 0 ∧
        t.get .ALM_STATUS_last_result = 2 ∧ t.get .ALM_STATUS_last_err = 0 ∧ s.regsOnlyAt t [Reg.ALM_STATUS.addr 0 0 0] ∧
        s.onlyIn t [.hst, .regs, .pcie]) ∧
      (writeCheck q = true → recLength q = n →
        (∀ i, i < slotCount k → (s.slotErased k i = true ∨ (s.slotReclaimable k i = true ∧ ∀ j, j < slotCount k → s.slotErased k j = false)) →
          (∀ j, j < i → s.slotErased k j = false ∧ (s.slotErased k i = false → s.slotReclaimable k j = false)) →
          ∃ t, exec (.almWrite r d q) s = .next t ∧ s.inFlight t r ∧ t.lmp.running.map (fun a => (a.code, a.target)) = [(6, 0)] ∧
            t.alm = { s.alm with job := some (x ++ toLe 2 (crc16 x).toNat ++ q.drop 16, (if k then 0x700000 else 0x100000) + 0x10000 * i) } ∧
            s.onlyIn t [.hst, .lmp, .alm, .pcie]) ∧
        (s.alm.busy = false → (∀ j, j < slotCount k → s.slotErased k j = false ∧ s.slotReclaimable k j = false) →
          ∃ t, exec (.almWrite r d q) s = .next t ∧ s.answered t r d .fail 0 ∧ t.get .ALM_STATUS_last_result = 3 ∧
            t.get .ALM_STATUS_last_err = 1 ∧ t.lmp.running = [] ∧ t.alm.job = none ∧ t.alm.busy = false ∧
            s.regsOnlyAt t [Reg.ALM_STATUS.addr 0 0 0] ∧ s.onlyIn t [.hst, .regs, .alm, .pcie]))) ∧
    (∀ q k i, s.reaches (Reg.ALM_WR_CMD.addr 0 0 0) = true → s.almBusy = false → (s.rd .ALM_WR_LEN).toNat = q.length → 16 ≤ q.length →
      q.length ≤ 65536 → s.windowOk false ((s.rd .ALM_WR_ADDR_LO).toNat + (s.rd .ALM_WR_ADDR_HI).toNat * 2 ^ 32) q.length = true →
      s.lmp.running = [] → k = (recKind q == 9) → (s.dev.dev = .standby ∨ s.dev.dev = .printing) →
      (writeCheck q = false → ∃ t, exec (.almWrGo q) s = .next t ∧ t.get .ALM_STATUS_last_result = 2 ∧ s.counted t .GLB_REFUSED ∧
        t.get .GLB_REFUSED_INFO_reason = 3 ∧
        s.regsOnlyAt t [Reg.ALM_STATUS.addr 0 0 0, Reg.GLB_REFUSED.addr 0 0 0, Reg.GLB_REFUSED_INFO.addr 0 0 0] ∧ s.onlyIn t [.regs, .pcie]) ∧
      (writeCheck q = true → i < slotCount k → s.slotErased k i = true → (∀ j, j < i → s.slotErased k j = false) →
        ∃ t, exec (.almWrGo q) s = .next t ∧ t.almBusy = true ∧ t.alm = { s.alm with busy := true, job := some (s.stamped q, slotAddr k i) } ∧
          t.lmp.running.map (fun a => (a.code, a.target)) = [(6, 0)] ∧ s.onlyIn t [.lmp, .alm, .pcie])) ∧
    (∀ q, s.reaches (Reg.ALM_WR_CMD.addr 0 0 0) = true → s.almBusy = false → s.dev.dev = .firstLight ∨ s.dev.dev = .held →
      (s.rd .ALM_WR_LEN).toNat < 16 ∨ 65536 < (s.rd .ALM_WR_LEN).toNat →
      ∃ t, exec (.almWrGo q) s = .next t ∧ s.refusedAt t (Reg.ALM_WR_CMD.addr 0 0 0) 2) ∧
    (s.alm.job = none → ∀ p b, exec (.almWriteDone p b) s = .next s) ∧
    (∀ r a x c p b, s.alm.job = some (r, a) → r.length ≤ 0x10000 → s.alm.busy = false → s.lmp.running = [x] → x.code = 6 → x.target = 0 →
      x.deferred = false → x.line = none → x.src = .maint c → c.gen = s.hst.gen →
      ∃ t, exec (.almWriteDone p b) s = .next t ∧ t.alm = { s.alm with flash := t.alm.flash, job := none, busy := false } ∧ t.lmp.running = [] ∧
        (∀ y, y < a ∨ a + 0x10000 ≤ y → t.alm.flash.read Memory.flashFill y = s.alm.flash.read Memory.flashFill y) ∧
        s.ringsOnly t [s.cring c.ring] ∧ s.regsOnlyAt t [Reg.ALM_STATUS.addr 0 0 0, Reg.ALM_WRITE_CNT.addr 0 0 0] ∧
        s.onlyIn t [.alm, .flash, .lmp, .hst, .regs, .pcie] ∧
        (p = true → b = true → s.completes t c .ok 0 ∧ s.counted t .ALM_WRITE_CNT ∧ t.get .ALM_STATUS_last_result = 1 ∧
          t.get .ALM_STATUS_last_err = 0 ∧
          ∀ y, a ≤ y → y < a + 0x10000 → t.alm.flash.read Memory.flashFill y = if y < a + r.length then r.getD (y - a) 0 else 0xFF) ∧
        (p = false → s.completes t c .fail 0 ∧ t.get .ALM_STATUS_last_result = 3 ∧ t.get .ALM_STATUS_last_err = 3 ∧
          t.get .ALM_WRITE_CNT = s.get .ALM_WRITE_CNT) ∧
        (p = true → b = false → s.completes t c .fail 0 ∧ t.get .ALM_STATUS_last_result = 3 ∧ t.get .ALM_STATUS_last_err = 2 ∧
          t.get .ALM_WRITE_CNT = s.get .ALM_WRITE_CNT)) ∧
    (s.dev.dev ≠ .dark →
      (s.almBusy = false → ∃ t, exec .almReadData s = .next t ∧
        t.rd .ALM_RD_ADDR = BitVec.ofNat 32 (((s.rd .ALM_RD_ADDR).toNat + 4) % 0x800000) ∧ s.regsOnlyAt t [Reg.ALM_RD_ADDR.addr 0 0 0] ∧
        s.onlyIn t [.regs, .pcie]) ∧
      (s.almBusy = true → ∃ t, exec .almReadData s = .next t ∧ t.get .ALM_STATUS_rd_void = 1 ∧ t.rd .ALM_RD_ADDR = s.rd .ALM_RD_ADDR ∧
        s.regsOnlyAt t [Reg.ALM_STATUS.addr 0 0 0] ∧ s.onlyIn t [.regs, .pcie]))

/-- In a sound state outside DARK, a sample 1 ms or more after the last (an earlier one does nothing): (1) DIE_TEMP_SAMPLE
without suspicion before or after: the trimmed reading D is the temperature in force T, shown with source 0; PWR_STAGE_TEMP
and the neighbours take their readings; the die band rises at once by as many edges as T has reached, or falls by one below
its lower figure, and the preset follows where none is forced; SENSE.TJ_HIGH is raised when T reaches ALM_TJ.high and again
only after T has been below high - 5 C; SENSE.TJ_FATAL is raised at the second sample in a row of 115 C or more. (2) At the
thousandth sample in a row with D more than 12 C from the median of the valid neighbours the diode becomes suspect, is
counted and raised once; while it is suspect, T is a neighbour valid and within 12 C of the median, the highest of them, or
with no valid neighbour D with band 4. (3) VIN_SAMPLE shows VIN to 5 mV, counts a low one, and raises PWR.VIN_LOW at the
fourth low sample in a row, again only after 100 at or above limit + 100 mV. (16_almanac_sensing (Die temperature),
16_almanac_sensing (Supply monitor), R493, R548, R549, R550, R551, R552, R553) -/
def Obligations.SensorSamplesComplete : Prop :=
  ∀ s : State, s.sound → s.dev.dev ≠ .dark →
    (∀ x at', s.alm.sampledAt = some at' → s.elapsed at' 1000000 = false → exec (.dieTempSample x) s = .next s) ∧
    (∀ raw at', s.pwr.vinAt = some at' → s.elapsed at' 1000000 = false → exec (.vinSample raw) s = .next s) ∧
    (∀ x d nb m2, (∀ at', s.alm.sampledAt = some at' → s.elapsed at' 1000000 = true) → d = (2 * (x.raw * s.alm.diodeTrim.2 / 32768 + s.alm.diodeTrim.1) + 64) / 128 → nb = s.neighboursOf x →
      m2 = median2 ((nb.filter (·.2)).map (·.1)) →
      ∃ t, exec (.dieTempSample x) s = .next t ∧ t.alm.sampledAt = some s.clock ∧ t.rd .PWR_STAGE_TEMP = (BitVec.ofInt 16 x.stage).setWidth 32 ∧
        t.get .ALM_TEMP_d = (BitVec.ofInt 16 d).toNat ∧
        (∀ i, i < 3 → t.rd .ALM_NEIGH i = (BitVec.ofInt 16 (nb.getD i (0, false)).1).setWidth 32 ∧
          (t.get .ALM_SENSE_STATUS_valid).testBit i = (nb.getD i (0, false)).2) ∧
        s.regsOnlyAt t [Reg.PWR_STAGE_TEMP.addr 0 0 0, Reg.ALM_TEMP.addr 0 0 0, Reg.ALM_NEIGH.addr 0 0 0, Reg.ALM_NEIGH.addr 1 0 0,
          Reg.ALM_NEIGH.addr 2 0 0, Reg.ALM_SENSE_STATUS.addr 0 0 0, Reg.CLK_MARGIN.addr 0 0 0, Reg.ALM_SUSPECT_CNT.addr 0 0 0] ∧
        s.onlyIn t [.regs, .alm, .ltn] ∧ (s.on .CLK_MARGIN_force_en = false → t.get .CLK_MARGIN_preset = t.get .ALM_SENSE_STATUS_band) ∧
        (s.alm.suspect = false → (s.alm.badRun < 999 ∨ ∀ m, m2 = some m → (2 * d - m).natAbs ≤ 96) →
          t.get .ALM_TEMP_t = (BitVec.ofInt 16 d).toNat ∧ t.get .ALM_SENSE_STATUS_src = 0 ∧ t.get .ALM_SENSE_STATUS_suspect = 0 ∧
          (∀ b up low, b = s.get .ALM_SENSE_STATUS_band → b ≤ 4 → up = (if 360 ≤ d then 4 else if 260 ≤ d then 3 else if 140 ≤ d then 2 else if 0 ≤ d then 1 else 0) →
            low = (if b = 4 then 348 else if b = 3 then 248 else if b = 2 then 128 else (-12 : Int)) →
            t.get .ALM_SENSE_STATUS_band = if b < up then up else if 0 < b ∧ d < low then b - 1 else b) ∧
          (∀ h, h = 4 * (s.get .ALM_TJ_high : Int) →
            (d < h → d < 460 → t.ltn = s.ltn ∧ (d < h - 20 → t.alm.high = false) ∧ (h - 20 ≤ d → t.alm.high = s.alm.high)) ∧
            (h ≤ d → d < 460 → t.alm.high = true ∧ (s.alm.high = true → t.ltn = s.ltn) ∧
              (s.alm.high = false → s.raised t .senseTjHigh 2 0xFF 0xFF 0 (BitVec.ofInt 32 d))) ∧
            (460 ≤ d → s.alm.high = true → h ≤ d → (s.alm.fatalRun = 1 → s.raised t .senseTjFatal 3 0xFF 0xFF 21 (BitVec.ofInt 32 d)) ∧
              (s.alm.fatalRun ≠ 1 → t.ltn = s.ltn)))) ∧
        (s.alm.suspect = false → s.alm.badRun = 999 → (∀ m, m2 = some m → 96 < (2 * d - m).natAbs → s.alm.high = false →
            (∀ e, e ∈ nb → e.1 < 460 ∧ e.1 < 4 * (s.get .ALM_TJ_high : Int)) →
          (∃ e, e ∈ nb ∧ e.2 = true ∧ (2 * e.1 - m).natAbs ≤ 96) → t.alm.suspect = true ∧ s.counted t .ALM_SUSPECT_CNT ∧
          t.get .ALM_SENSE_STATUS_suspect = 1 ∧ s.raised t .senseDiodeSuspect 2 0xFF 0xFF 18 (BitVec.ofNat 32 ((2 * d - m).natAbs / 2)))) ∧
        (s.alm.suspect = true → (s.alm.goodRun < 999 ∨ ∀ m, m2 = some m → 80 < (2 * d - m).natAbs) → s.alm.goodRun < 999 ∨ m2 ≠ none →
          (∀ m, m2 = some m → (∃ e, e ∈ nb ∧ e.2 = true ∧ (2 * e.1 - m).natAbs ≤ 96) →
            ∃ e, e ∈ nb ∧ e.2 = true ∧ (2 * e.1 - m).natAbs ≤ 96 ∧ t.get .ALM_TEMP_t = (BitVec.ofInt 16 e.1).toNat ∧
              ∀ e', e' ∈ nb → e'.2 = true → (2 * e'.1 - m).natAbs ≤ 96 → e'.1 ≤ e.1) ∧
          (m2 = none → t.get .ALM_TEMP_t = (BitVec.ofInt 16 d).toNat ∧ t.get .ALM_SENSE_STATUS_src = 4 ∧
            t.get .ALM_SENSE_STATUS_band = 4))) ∧
    (∀ raw v lim, (∀ at', s.pwr.vinAt = some at' → s.elapsed at' 1000000 = true) → v = ((max 0 (min 65535 (raw * s.alm.vinTrim.2 / 32768 + s.alm.vinTrim.1))).toNat + 2) / 5 * 5 → lim = s.get .PWR_VIN_LOW_limit →
      ∃ t, exec (.vinSample raw) s = .next t ∧ t.pwr.vinAt = some s.clock ∧ t.get .PWR_VIN = v ∧ s.regsOnlyAt t [Reg.PWR_VIN.addr 0 0 0, Reg.PWR_VIN_LOW_CNT.addr 0 0 0] ∧
        s.onlyIn t [.regs, .pwr, .ltn] ∧
        (v < lim → s.counted t .PWR_VIN_LOW_CNT ∧ t.pwr.vinLowRun = min 4 (s.pwr.vinLowRun + 1) ∧ t.pwr.vinOkRun = 0) ∧
        (lim ≤ v → t.get .PWR_VIN_LOW_CNT = s.get .PWR_VIN_LOW_CNT ∧ t.pwr.vinLowRun = 0) ∧
        (lim + 100 ≤ v → t.pwr.vinOkRun = min 100 (s.pwr.vinOkRun + 1) ∧ (99 ≤ s.pwr.vinOkRun → t.pwr.vinLowRaised = false)) ∧
        (v < lim → 3 ≤ s.pwr.vinLowRun → s.pwr.vinLowRaised = false →
          s.raised t .pwrVinLow 2 0xFF 0xFF 0 (BitVec.ofNat 32 v) ∧ t.pwr.vinLowRaised = true) ∧
        ((lim ≤ v ∨ s.pwr.vinLowRun < 3 ∨ s.pwr.vinLowRaised = true) → t.ltn = s.ltn))

/-- In a sound state that is not DARK: (1) a write at a reserved offset changes nothing; one that covers part of a register is
refused with reason 3, or with 1 or 2 where that holds too; one of 8 bytes is two writes of 32 bits in ascending order, each
taken or refused on its own. (2) A whole write of a register without an effect of its own, for which no reason of R428
holds: in the domain of FAB every RW, RWS or RWL field takes its bits of the value, every RO field stays, and each W1C field
loses the bits that the value sets; no other register changes, but the pending bits of MSI-X vectors whose interrupts the
write has met; in another domain the write waits in its empty crossing. (3) A write for which reasons hold is refused and
counted with the lowest, and its register keeps its value; once the device is locked a write of the RWL register GLB_CTRL is
refused with reason 6 whatever its value. (4) LO_CAPTURE_READ puts the upper half of the line of a pipeline, of the web
position, of the join line or of the oldest latch result into its _HI register; at a reserved offset it changes nothing. (5)
CH_STATUS_READ clears max_postponed of its channel and no other field. A write that crosses is judged by the registers as
the writes ahead of it will leave them (the model's reading, log 50). (18_address_map (Access rules), 11_first_light (Device
states), R428, R484, R590, R591, R592, R593) -/
def Obligations.RegisterCommandsComplete : Prop :=
  ∀ s : State, s.sound → s.dev.dev ≠ .dark →
    (∀ off v e, Reg.ofOffset (off / 4 * 4) = none → e.extractLsb' 4 4 = 0#4 ∨ Reg.ofOffset (off / 4 * 4 + 4) = none →
      exec (.registerWrite off v e) s = .next s ∧
      ∃ t, exec (.loCaptureRead off) s = .next t ∧ s.onlyIn t [.pcie]) ∧
    (∀ off r l v (e : BitVec 4), Reg.ofOffset off = some (r, l) → off % 4 = 0 → e ≠ 0 → e ≠ 15 →
      ∃ t n, exec (.registerWrite off v (e.setWidth 8)) s = .next t ∧ s.refusedAt t off n ∧ 1 ≤ n ∧ n ≤ 3 ∧
        (r.maskOf [.rw, .rws, .rwl, .w1c, .w1s, .wo] = 0 → n = if s.blockBusy off then 1 else 3)) ∧
    (∀ off r l i j k (v : Word), Reg.ofOffset off = some (r, l) → i = l.getD 0 0 → j = l.getD 1 0 → k = l.getD 2 0 → off % 4 = 0 → s.reaches off = true →
      r.maskOf [.rw, .rws, .rwl, .w1c, .w1s, .wo] ≠ 0 → ruleOf r ownWrites = none → ruleOf r writeEffects = none →
      r.base ≠ Reg.HST_MSIX_TABLE.base → r.base ≠ Reg.HST_RING_IRQ.base →
      ((∀ c, c ∈ (s.ahead off).writeChecks r i j k v → c.2 = false) →
        (s.xingOf off = none → ∃ t, exec (.registerWrite off (v.setWidth 64) 15) s = .next t ∧
          (s.hst.pend = [] → s.regsOnlyAt t [off] ∧ s.onlyIn t [.regs, .pcie]) ∧
          ((∀ e, e ∈ s.hst.pend → e.1 < 64) →
            s.regsOnlyAt t [off, Reg.HST_MSIX_PBA.addr 0 0 0, Reg.HST_MSIX_PBA.addr 1 0 0] ∧ s.onlyIn t [.regs, .hst, .pcie]) ∧
          ∀ f, f ∈ r.fields →
            (f.acc = .rw ∨ f.acc = .rws ∨ f.acc = .rwl → field (t.rd r i j k) f.hi f.lo = field v f.hi f.lo) ∧
            (f.acc = .ro → field (t.rd r i j k) f.hi f.lo = field (s.rd r i j k) f.hi f.lo) ∧
            (f.acc = .w1c → field (t.rd r i j k) f.hi f.lo = field (s.rd r i j k &&& ~~~v) f.hi f.lo)) ∧
        (∀ x, s.xingOf off = some x → ∃ t, exec (.registerWrite off (v.setWidth 64) 15) s = .next t ∧ t.xing x = { s.xing x with writes := [⟨off, v, s.clock⟩] } ∧
          (∀ y, y ≠ x → t.xing y = s.xing y) ∧ s.onlyIn t [.clk, .pcie])) ∧
      (∀ n, (n, true) ∈ (s.ahead off).writeChecks r i j k v → (∀ m, (m, true) ∈ (s.ahead off).writeChecks r i j k v → n ≤ m) → n < 8 → off < 0x200000 →
        ∃ t, exec (.registerWrite off (v.setWidth 64) 15) s = .next t ∧ s.refusedAt t off n)) ∧
    (∀ v : Word, s.dev.locked = true → ∃ t, exec (.registerWrite (Reg.GLB_CTRL.addr 0 0 0) (v.setWidth 64) 15) s = .next t ∧
      s.refusedAt t (Reg.GLB_CTRL.addr 0 0 0) 6) ∧
    (∀ off v e, off % 4 = 0 → ∃ u t, exec (.registerWrite off v e) s = .next t ∧
      exec (.registerWrite off (v.setWidth 32 |>.setWidth 64) (e.setWidth 4 |>.setWidth 8)) s = .next u ∧
      exec (.registerWrite (off + 4) ((v.extractLsb' 32 32).setWidth 64) ((e.extractLsb' 4 4).setWidth 8)) u = .next t) ∧
    (∀ p, p < 24 → ∃ t, exec (.loCaptureRead (Reg.TRN_LINE_LO.addr p 0 0)) s = .next t ∧
      t.rd .TRN_LINE_HI p = BitVec.ofNat 32 (((s.pipe p).highest.getD 0).toNat / 2 ^ 32) ∧
      s.regsOnlyAt t [Reg.TRN_LINE_HI.addr p 0 0] ∧ s.onlyIn t [.regs, .pcie]) ∧
    (∃ t, exec (.loCaptureRead (Reg.MER_POS_LO.addr 0 0 0)) s = .next t ∧ t.rd .MER_POS_HI = BitVec.ofNat 32 (s.pos.toNat / 2 ^ 32) ∧
      s.regsOnlyAt t [Reg.MER_POS_HI.addr 0 0 0] ∧ s.onlyIn t [.regs, .pcie]) ∧
    (∃ t, exec (.loCaptureRead (Reg.TWN_JOIN_LO.addr 0 0 0)) s = .next t ∧ t.rd .TWN_JOIN_HI = BitVec.ofNat 32 (s.twn.joinShown.toNat / 2 ^ 32) ∧
      s.regsOnlyAt t [Reg.TWN_JOIN_HI.addr 0 0 0] ∧ s.onlyIn t [.regs, .pcie]) ∧
    (∀ n x rest, n < 8 → s.mer.latches.getD n [] = x :: rest → ∃ t, exec (.loCaptureRead (Reg.MER_LATCH_POS_LO.addr n 0 0)) s = .next t ∧
      t.rd .MER_LATCH_POS_HI n = BitVec.ofNat 32 (x.pos.toNat / 2 ^ 32) ∧ t.rd .MER_LATCH_TIME n = x.mono ∧
      s.regsOnlyAt t [Reg.MER_LATCH_POS_HI.addr n 0 0, Reg.MER_LATCH_TIME.addr n 0 0] ∧ s.onlyIn t [.regs, .pcie]) ∧
    (∀ c, c < 4 → ∃ t, exec (.chStatusRead c) s = .next t ∧ t.get .DRM_CH_STATUS_max_postponed c = 0 ∧
      t.rd .DRM_CH_STATUS c = s.rd .DRM_CH_STATUS c &&& 0xFFFFFFF0 ∧ s.regsOnlyAt t [Reg.DRM_CH_STATUS.addr c 0 0] ∧ s.onlyIn t [.regs, .pcie])

/-- In a sound state that is not DARK: with key 0xA5 and warm set, in STANDBY or HELD outside F-HOLD, WARM_RESET takes the
device to DARK in a warm reset, shown as the cause of the reset; in FIRST_LIGHT, in PRINTING and in F-HOLD it is refused
with reason 2; with any other key, in every device state, it is refused and counted with reason 3. A refused write changes
nothing but the record of its refusal. (R431) -/
def Obligations.WarmResetNeedsKeyAndState : Prop :=
  ∀ (s : State) (v : Word), s.sound → s.dev.dev ≠ .dark →
    (Fld.GLB_RESET_key.of v = 0xA5 → v.getLsbD 0 = true →
      ((s.dev.dev = .standby ∨ s.dev.dev = .held) → s.ltn.fHold = false →
        ∃ t, exec (.warmReset v) s = .next t ∧ t.dev.dev = .dark ∧ t.dev.warm = true ∧ t.get .GLB_RESET_CAUSE_cause = 2) ∧
      ((s.dev.dev = .firstLight ∨ s.dev.dev = .printing ∨ s.ltn.fHold = true) →
        ∃ t, exec (.warmReset v) s = .next t ∧ s.refusedAt t (Reg.GLB_RESET.addr 0 0 0) 2)) ∧
    (Fld.GLB_RESET_key.of v ≠ 0xA5 → ∃ t, exec (.warmReset v) s = .next t ∧ s.refusedAt t (Reg.GLB_RESET.addr 0 0 0) 3)

/-- In a sound state that is not DARK, with ALM_RD_ADDR at a word below the last of the flash: while ALM is not BUSY a read of
ALM_RD_DATA gives the 4 bytes of flash at that address, least significant byte first, and ALM_READ_DATA, its side effect,
advances ALM_RD_ADDR by 4; while ALM is BUSY the read gives 0, and its side effect sets ALM_STATUS.rd_void and leaves the
address. (R547) -/
def Obligations.FlashReadsAdvance : Prop :=
  ∀ (s : State) (a : Nat), s.sound → s.dev.dev ≠ .dark → (s.rd .ALM_RD_ADDR).toNat = a → a + 4 < 0x800000 →
    (s.almBusy = false → (∃ w, s.readReg (Reg.ALM_RD_DATA.addr 0 0 0) = some w ∧
        ∀ i, i < 4 → w >>> (8 * i) &&& 0xFF = (s.alm.flash.read Memory.flashFill (a + i)).setWidth 32) ∧
      ∃ t, exec .almReadData s = .next t ∧ (t.rd .ALM_RD_ADDR).toNat = a + 4 ∧ s.regsOnlyAt t [Reg.ALM_RD_ADDR.addr 0 0 0] ∧
        s.onlyIn t [.regs, .pcie]) ∧
    (s.almBusy = true → s.readReg (Reg.ALM_RD_DATA.addr 0 0 0) = some 0 ∧
      ∃ t, exec .almReadData s = .next t ∧ t.get .ALM_STATUS_rd_void = 1 ∧ t.rd .ALM_RD_ADDR = s.rd .ALM_RD_ADDR ∧
        s.regsOnlyAt t [Reg.ALM_STATUS.addr 0 0 0] ∧ s.onlyIn t [.regs, .pcie])
end

