-- ==== Sys2Proof/Laws/Crc.lean ====
section
/-! SUPPORT. The control CRC-16 on numbers, one byte at a time: the form that evaluates quickly on long structures. -/

namespace Sys2Proof.Machine

/-- One bit of the CRC-16 on numbers. -/
def crcNatBit (r : Nat) (b : Bool) : Nat :=
  if (decide (32768 ≤ r)) != b then ((r * 2) % 65536) ^^^ 0x1021 else (r * 2) % 65536

/-- One byte of the CRC-16 on numbers. -/
def crcNatByte (r : Nat) (b : Byte) : Nat := (byteBits b).foldl crcNatBit r

/-- A function applied to a number that is evaluated first. -/
def force {α : Type} (f : Nat → α) : Nat → α
  | 0 => f 0
  | n + 1 => f (n + 1)

theorem force_eq {α : Type} (f : Nat → α) (n : Nat) : force f n = f n := by cases n <;> rfl

/-- The CRC-16 on numbers; the accumulator is evaluated before the next byte. -/
def crcNat : Bytes → Nat → Nat
  | [], r => r
  | b :: t, r => force (crcNat t) (crcNatByte r b)

theorem crcNat_cons (b : Byte) (t : Bytes) (r : Nat) : crcNat (b :: t) r = crcNat t (crcNatByte r b) := force_eq _ _

theorem crc16Bit_nat (r : BitVec 16) (b : Bool) : (crc16Bit r b).toNat = crcNatBit r.toNat b := by
  have hm : r.msb = decide (32768 ≤ r.toNat) := by simp [BitVec.msb_eq_decide]
  unfold crc16Bit crcNatBit
  rw [hm]
  split <;> simp [BitVec.toNat_xor, BitVec.toNat_shiftLeft, Nat.shiftLeft_eq]

theorem crc16_byte_nat (l : List Bool) (r : BitVec 16) : (l.foldl crc16Bit r).toNat = l.foldl crcNatBit r.toNat := by
  induction l generalizing r with
  | nil => rfl
  | cons b t ih => simp only [List.foldl_cons, ih, crc16Bit_nat]

theorem crc16_from_nat (l : Bytes) (r : BitVec 16) :
    (l.foldl (fun r b => (byteBits b).foldl crc16Bit r) r).toNat = crcNat l r.toNat := by
  induction l generalizing r with
  | nil => rfl
  | cons b t ih => rw [List.foldl_cons, ih, crcNat_cons, crc16_byte_nat]; rfl

/-- The CRC-16 as a number. -/
theorem crc16_toNat (l : Bytes) : (crc16 l).toNat = crcNat l 0xFFFF := crc16_from_nat l 0xFFFF

/-- A structure with its CRC appended passes the check. -/
theorem crcOk_withCrc (l : Bytes) : crcOk (withCrc l) = true := by
  have h : ∀ n, n < 65536 → le (toLe 2 n) = n := by
    intro n hn
    simp only [toLe, le, BitVec.toNat_ofNat]
    omega
  have h2 : (toLe 2 (crc16 l).toNat).length = 2 := rfl
  unfold crcOk withCrc
  simp only [List.length_append, h2, Nat.add_sub_cancel, List.take_left, leAt, List.drop_left, List.take_of_length_le (Nat.le_of_eq h2),
    h _ (crc16 l).isLt]
  simp

end Sys2Proof.Machine
end

