-- ==== Sys2Proof/Laws/Maps.lean ====
section
/-! SUPPORT. Laws of sparse maps, memories and lists: what a write leaves, and that every operation keeps the canonical form. -/

namespace Sys2Proof.Machine


theorem length_upd {α : Type} (i : Nat) (f : α → α) (l : List α) : (upd i f l).length = l.length := by
  induction l generalizing i with
  | nil => cases i <;> simp [upd]
  | cons a t ih => cases i <;> simp [upd, ih]

theorem SMap.sorted_cons {α : Type} (e : Nat × α) (m : SMap α) :
    SMap.sorted (e :: m) = true ↔ (∀ x ∈ m, e.1 < x.1) ∧ SMap.sorted m = true := by
  induction m generalizing e with
  | nil => simp [SMap.sorted]
  | cons x t ih =>
    simp only [SMap.sorted, Bool.and_eq_true, decide_eq_true_eq, List.forall_mem_cons]
    rw [ih x]
    constructor
    · rintro ⟨h, h1, h2⟩
      exact ⟨⟨h, fun y hy => lt_trans h (h1 y hy)⟩, h1, h2⟩
    · rintro ⟨⟨h, _⟩, h2⟩
      exact ⟨h, h2⟩

theorem SMap.mem_del {α : Type} (k : Nat) (m : SMap α) {x : Nat × α} (h : x ∈ m.del k) : x ∈ m := by
  induction m with
  | nil => simp [SMap.del] at h
  | cons e t ih =>
    simp only [SMap.del] at h
    split at h
    · exact List.mem_cons_of_mem _ h
    · rcases List.mem_cons.mp h with h | h
      · simp [h]
      · exact List.mem_cons_of_mem _ (ih h)

theorem SMap.mem_ins {α : Type} (k : Nat) (v : α) (m : SMap α) {x : Nat × α} (h : x ∈ m.ins k v) : x = (k, v) ∨ x ∈ m := by
  induction m with
  | nil => simpa [SMap.ins] using h
  | cons e t ih =>
    simp only [SMap.ins] at h
    split at h
    · rcases List.mem_cons.mp h with h | h
      · exact .inl h
      · exact .inr h
    · split at h
      · rcases List.mem_cons.mp h with h | h
        · exact .inl h
        · exact .inr (List.mem_cons_of_mem _ h)
      · rcases List.mem_cons.mp h with h | h
        · exact .inr (by simp [h])
        · rcases ih h with h | h
          · exact .inl h
          · exact .inr (List.mem_cons_of_mem _ h)

theorem SMap.sorted_del {α : Type} (k : Nat) (m : SMap α) (h : m.sorted = true) : (m.del k).sorted = true := by
  induction m with
  | nil => simpa [SMap.del] using h
  | cons e t ih =>
    rw [SMap.sorted_cons] at h
    simp only [SMap.del]
    split
    · exact h.2
    · rw [SMap.sorted_cons]
      exact ⟨fun x hx => h.1 x (SMap.mem_del k t hx), ih h.2⟩

theorem SMap.sorted_ins {α : Type} (k : Nat) (v : α) (m : SMap α) (h : m.sorted = true) : (m.ins k v).sorted = true := by
  induction m with
  | nil => simp [SMap.ins, SMap.sorted]
  | cons e t ih =>
    have h' := (SMap.sorted_cons e t).mp h
    simp only [SMap.ins]
    split
    · rename_i hk
      rw [SMap.sorted_cons]
      refine ⟨?_, h⟩
      simp only [List.forall_mem_cons]
      exact ⟨hk, fun x hx => lt_trans hk (h'.1 x hx)⟩
    · split
      · rename_i hj
        rw [SMap.sorted_cons]
        exact ⟨fun x hx => hj ▸ h'.1 x hx, h'.2⟩
      · rename_i hk hj
        rw [SMap.sorted_cons]
        refine ⟨fun x hx => ?_, ih h'.2⟩
        rcases SMap.mem_ins k v t hx with hx | hx
        · subst hx
          show e.1 < k
          omega
        · exact h'.1 x hx

theorem SMap.sorted_put {α : Type} [DecidableEq α] (d : α) (k : Nat) (v : α) (m : SMap α) (h : m.sorted = true) :
    (m.put d k v).sorted = true := by
  unfold SMap.put
  split
  · exact SMap.sorted_del k m h
  · exact SMap.sorted_ins k v m h

theorem SMap.wf_put {α : Type} [DecidableEq α] (d : α) (k : Nat) (v : α) (m : SMap α) (h : m.wf d = true) :
    (m.put d k v).wf d = true := by
  simp only [SMap.wf, Bool.and_eq_true, List.all_eq_true, decide_eq_true_eq] at h ⊢
  refine ⟨SMap.sorted_put d k v m h.1, fun x hx => ?_⟩
  unfold SMap.put at hx
  split at hx
  · exact h.2 x (SMap.mem_del k m hx)
  · rename_i hv
    rcases SMap.mem_ins k v m hx with hx | hx
    · subst hx
      exact hv
    · exact h.2 x hx

theorem Memory.wf_write (fill : Byte) (m : Memory) (a : Nat) (b : Byte) (h : m.wf fill = true) : (m.write fill a b).wf fill = true :=
  SMap.wf_put fill a b m h

theorem Memory.wf_writes (fill : Byte) (l : Bytes) (m : Memory) (a : Nat) (h : m.wf fill = true) :
    (m.writes fill a l).wf fill = true := by
  induction l generalizing m a with
  | nil => simpa [Memory.writes] using h
  | cons b t ih => exact ih _ _ (Memory.wf_write fill m a b h)

theorem SMap.sorted_filter {α : Type} (q : Nat × α → Bool) (m : SMap α) (h : m.sorted = true) : SMap.sorted (m.filter q) = true := by
  induction m with
  | nil => simpa using h
  | cons e t ih =>
    rw [SMap.sorted_cons] at h
    rw [List.filter_cons]
    split
    · rw [SMap.sorted_cons]
      exact ⟨fun x hx => h.1 x (List.mem_filter.mp hx).1, ih h.2⟩
    · exact ih h.2

theorem Memory.wf_filter (fill : Byte) (q : Nat × Byte → Bool) (m : Memory) (h : m.wf fill = true) :
    Memory.wf fill (m.filter q) = true := by
  simp only [Memory.wf, SMap.wf, Bool.and_eq_true, List.all_eq_true, decide_eq_true_eq] at h ⊢
  exact ⟨SMap.sorted_filter q m h.1, fun x hx => h.2 x (List.mem_filter.mp hx).1⟩

theorem Memory.wf_foldl {α : Type} (fill : Byte) (f : Memory → α → Memory) (hf : ∀ m a, m.wf fill = true → (f m a).wf fill = true)
    (l : List α) (m : Memory) (h : m.wf fill = true) : (l.foldl f m).wf fill = true := by
  induction l generalizing m with
  | nil => exact h
  | cons a t ih => exact ih _ (hf m a h)

theorem SMap.sorted_foldl {α β : Type} (f : SMap β → α → SMap β) (hf : ∀ m a, m.sorted = true → (f m a).sorted = true)
    (l : List α) (m : SMap β) (h : m.sorted = true) : (l.foldl f m).sorted = true := by
  induction l generalizing m with
  | nil => exact h
  | cons a t ih => exact ih _ (hf m a h)

end Sys2Proof.Machine
end

