-- ==== Sys2Proof/WellFormed.lean ====
section
/-! DEFINITION. Which commands are well formed: every operand names something that the spec gives the block, and every
descriptor at most the length of one. `exec` is total: an ill-formed command has no effect, or that of the rule that governs its
operands. -/

namespace Sys2Proof

/-- A head port (R9). -/
def headPortOk (p : Nat) : Bool := decide (p < 24)

/-- A link: a head port or a twin port (R212, R314). -/
def linkOk (p : Nat) : Bool := decide (p < 26)

/-- A head of a port (R99). -/
def headOk (h : Nat) : Bool := decide (h < 8)

/-- A host ring (R357). -/
def ringOk (r : Nat) : Bool := decide (r < 64)

/-- What the read of a descriptor on a host ring gives: its 32 bytes, or fewer where the read fails (R356, R371). -/
def descOk (r : Nat) (d : Bytes) : Bool := ringOk r && decide (d.length ≤ 32)

/-- An encoder input (R178). -/
def encoderOk (e : Nat) : Bool := decide (e < 2)

/-- A latch unit (R203). -/
def latchOk (n : Nat) : Bool := decide (n < 8)

/-- A compare unit (R206). -/
def compareOk (n : Nat) : Bool := decide (n < 16)

/-- An output of R211: STROBE[0..3], CAM_TRIG[0..3], TPULSE[0..7]. -/
def outPinOk : OutPin → Bool
  | .strobe i => decide (i < 4)
  | .camtrig i => decide (i < 4)
  | .tpulse i => decide (i < 8)

/-- A camera port (R263). -/
def cameraOk (c : Nat) : Bool := decide (c < 4)

/-- An entry of an exposure set (R271). -/
def entryOk (n : Nat) : Bool := decide (n < 16)

/-- A DRAM channel (R442). -/
def channelOk (c : Nat) : Bool := decide (c < 4)

/-- A rank and a bank pair of a channel (R455). -/
def bankPairOk (rank pair : Nat) : Bool := decide (rank < 2) && decide (pair < 8)

/-- A request of a source of R446: 1 to 4 bursts within an aligned block of 256 bytes of the memory; Transit and the Eyepiece read whole
blocks, and cameras write (R443 to R446). -/
def requestWf (src : Nat) (write : Bool) (addr bursts : Nat) : Bool :=
  (!decide (src ≤ 24) || (bursts == 4 && !write)) && (!(decide (35 ≤ src) && decide (src ≤ 38)) || write) && decide (src ≤ 41) && decide (addr < 2 ^ 35) && decide (1 ≤ bursts) && addr % 64 == 0 && decide (addr % 256 + 64 * bursts ≤ 256)

/-- A bar group (R64). -/
def groupOk (g : Nat) : Bool := decide (g < 4)

/-- A table kind that can wait, and its target (R131, R136). -/
def tableOk (kind target : Nat) : Bool := decide (1 ≤ kind) && decide (kind ≤ 10) && decide (target < 24)

/-- A twin port (R314). -/
def twinPortOk (t : Nat) : Bool := decide (t < 2)

/-- A fault class: 0 C, 1 U, 2 F (R390). -/
def classOk (c : Nat) : Bool := decide (c < 3)

/-- An entry of LTN_SRC_CFG. -/
def sourceOk (x : Nat) : Bool := decide (x < 64)

/-- A crossing of R489. -/
def crossingOk (x : Nat) : Bool := decide (x < 40)

/-- A pulse generator (R507). -/
def generatorOk (n : Nat) : Bool := decide (n < 8)

/-- An offset in BAR0, which is 16 MB (R588). -/
def offsetOk (off : Nat) : Bool := decide (off < 0x1000000)

/-- A command is well formed. -/
def Instr.wf : Instr → Bool
  | .sendDecision p | .lineBegin p | .overspeedEpisodeEnd p | .linePacked p | .primingDone p => headPortOk p
  | .ingestHeader r d _ | .ingestPlaneRaw r d _ | .ingestPlaneIbrik r d _ | .seal r d | .cancelSection r d | .place r d
  | .cancelPlacement r d => descOk r d
  | .placementResolve g => groupOk g
  | .loadTable r d _ | .waveLoad r d _ | .phoTableLoad r d _ | .readTable r d => descOk r d
  | .waitingLoadCommit k t => tableOk k t
  | .tempReport p _ | .waveBankWrite p | .waveAck p _ | .waveAckTimeout p => headPortOk p
  | .tempTimeout p h => headPortOk p && headOk h
  | .encTransition e _ _ _ _ | .quadWindowEnd e | .encIndex e _ _ _ => encoderOk e
  | .estimatorTick | .webStopTimeout | .ssiRequest | .ssiPeriod | .ssiHeldStart | .ssiReading _ _ => true
  | .posLoadNow | .posLoadSsi | .posRebase | .slipWindowEnd | .geomCommit => true
  | .latchTrigger n _ _ _ | .latchSoft n | .latchResultRead n => latchOk n
  | .cmpArm n _ | .cmpDisarm n _ | .cmpFire n => compareOk n
  | .outputPulseEnd pin => outPinOk pin
  | .portEnable p _ | .portDisable p _ | .portRetrainCmd p _ => headPortOk p
  | .downTimeout p | .detectTest p _ _ | .tsAReceived p _ _ _ | .tsBReceived p _ | .trainTimeout p | .blockLockAcquired p _
  | .blockLockLost p _ | .lockComplete p _ | .lockTimeout p => linkOk p
  | .statCaps p _ | .syncEcho p _ _ | .statAck p _ | .capsTimeout p | .syncPeriodic p | .nak p _ | .statTimeout p
  | .partnerWindowEnd p | .ctlResendTimeout p => linkOk p
  | .deskew c | .csiFrameStart c _ | .csiPixelData c _ _ _ _ | .csiFrameEnd c _ | .csiOtherPacket c _ _ _
  | .cameraFrameTimeout c | .expCommit c _ | .expSetWritten c | .cameraPortDisable c _ | .cameraPortEnable c _
  | .camBlackTimeout c => cameraOk c
  | .i2cNak c n => cameraOk c && entryOk n
  | .capbuf r d | .camBlack r d => descOk r d
  | .loopPeriodEnd | .loopGainReset _ | .loopToneReset _ | .loopHoldEnd => true
  | .pair | .unpair | .checkpointNow | .pairLinkTimeout | .pairIndexTimeout | .pairReadyTimeout | .checkFireSend => true
  | .hello t _ | .hb t _ | .hbSend t | .announce t _ | .change t _ | .vote t _ | .decide t _ | .data t _ | .ckpt t _ | .check t _
  | .give t _ | .join t _ => twinPortOk t
  | .twinAliveEdge | .twinAliveToggle | .partnerTimeout | .voteTimeout | .decideTimeout | .rejoinTimer => true
  | .announceTimeout p => headPortOk p
  | .pcieLinkLoss _ | .pcieLinkUp _ | .l1Entry | .kick | .doorbellPoll | .doorbellRead _ => true
  | .ringEnable r _ | .ringDisable r _ | .completionPost r | .statusBlockWrite r | .ringIrqTimer r => ringOk r
  | .nop r d | .checkpoint r d => descOk r d
  | .drmRetrain r d | .drmZq r d | .drmSelfref r d | .linkRetrain r d | .waveReload r d | .almWrite r d _ | .twinCkpt r d
  | .spit r d _ | .strip r d _ => descOk r d
  | .deferredStart | .deferTimeout | .scheduledZq | .scheduledRetrain | .scheduledCheckpoint => true
  | .faultHandle | .fatalQuiesce | .faultAck _ | .recordClear _ => true
  | .quietRecovery c => classOk c
  | .faultForce x _ => sourceOk x
  | .pwrEnRise | .pgoodRise | .railTimeout | .railRetry | .railFault | .powerDown _ | .rampDownEnd | .coldReset | .resetRelease
  | .pllLock | .undervoltageLockoutRelease _ | .dieResetHoldEnd => true
  | .factoryLoadDone | .pcieResetRelease | .finish | .print | .stop | .warmReset _ | .warmResetEnd | .clockLoss
  | .clockRecovered => true
  | .trainInit c _ | .trainMrw c _ | .trainMrr c _ | .trainCbt c _ | .trainWckLevel c _ | .trainWrite c _ | .trainRead c _
  | .trainClear c _ | .trainZq c _ | .trainVerify c _ | .trainCommit c _ | .trainStepEnd c _ _ _ => channelOk c
  | .dramRequest src write addr bursts _ => requestWf src write addr bursts
  | .refreshDue c rank bp => channelOk c && bankPairOk rank bp
  | .dramTempPoll c _ _ | .retrainSlice c _ _ _ _ _ | .zqLatch c | .chStatusRead c => channelOk c
  | .rhWindowStart | .selfrefEntry | .selfrefTimeout | .selfrefExit => true
  | .crossingWriteApply x | .crossingTimeout x _ | .crossingResync x => crossingOk x
  | .pixPllEnable _ | .pixPllLock => true
  | .netRateWrite _ | .netStep _ | .netLoad _ | .timeSnapshot | .monoWrap | .netWrap | .secondsCommit _ | .secondRollover => true
  | .pulseArm n _ | .pulseFire n | .pulseWidthEnd n => generatorOk n
  | .netTx r d _ | .netRxbuf r d => descOk r d
  | .netTxDone | .netRxFrame _ _ | .netLinkChange _ | .txtsPost | .txtsRead => true
  | .eyeEnable _ | .eyeDisable _ | .eyeCommit | .displayLineStart _ | .commitPoint => true
  | .dieTempSample _ | .vinSample _ | .almWrGo _ | .almWriteDone _ _ | .almReadData => true
  | .loCaptureRead off | .registerWrite off _ _ => offsetOk off

end Sys2Proof
end

