-- ==== Sys2Proof/Laws/PerInstr.lean ====
section
/-! SUPPORT. What holds of each command as syntax: a well-formed command that a descriptor carries has a host ring and no more than the
32 bytes of a descriptor (R357, R371). One lemma per command. -/

namespace Sys2Proof.Laws.WellFormed

/-- The host ring and the descriptor of a command that the 8824 takes from a ring. -/
def descriptorOf : Instr → Option (Nat × Bytes)
  | .ingestHeader ring d _ => some (ring, d)
  | .ingestPlaneRaw ring d _ => some (ring, d)
  | .ingestPlaneIbrik ring d _ => some (ring, d)
  | .seal ring d => some (ring, d)
  | .cancelSection ring d => some (ring, d)
  | .place ring d => some (ring, d)
  | .cancelPlacement ring d => some (ring, d)
  | .loadTable ring d _ => some (ring, d)
  | .waveLoad ring d _ => some (ring, d)
  | .phoTableLoad ring d _ => some (ring, d)
  | .readTable ring d => some (ring, d)
  | .capbuf ring d => some (ring, d)
  | .camBlack ring d => some (ring, d)
  | .nop ring d => some (ring, d)
  | .checkpoint ring d => some (ring, d)
  | .drmRetrain ring d => some (ring, d)
  | .drmZq ring d => some (ring, d)
  | .drmSelfref ring d => some (ring, d)
  | .linkRetrain ring d => some (ring, d)
  | .waveReload ring d => some (ring, d)
  | .almWrite ring d _ => some (ring, d)
  | .twinCkpt ring d => some (ring, d)
  | .spit ring d _ => some (ring, d)
  | .strip ring d _ => some (ring, d)
  | .netTx ring d _ => some (ring, d)
  | .netRxbuf ring d => some (ring, d)
  | _ => none

/-- The family's statement. -/
def Statement (i : Instr) : Prop := i.wf = true → ∀ x, descriptorOf i = some x → x.1 < 64 ∧ x.2.length ≤ 32

/-- The check of a descriptor, read back. -/
theorem of_descOk {r : Nat} {d : Bytes} (h : descOk r d = true) : ∀ x, some (r, d) = some x → x.1 < 64 ∧ x.2.length ≤ 32 := by
  intro x e
  cases e
  simpa [descOk, ringOk] using h

/-- A command without a descriptor. -/
theorem of_none {i : Instr} (h : descriptorOf i = none) : Statement i := fun _ x e => by simp [h] at e

theorem sendDecision (p : Nat) : Statement (.sendDecision p) := of_none rfl
theorem lineBegin (p : Nat) : Statement (.lineBegin p) := of_none rfl
theorem overspeedEpisodeEnd (p : Nat) : Statement (.overspeedEpisodeEnd p) := of_none rfl
theorem linePacked (p : Nat) : Statement (.linePacked p) := of_none rfl
theorem primingDone (p : Nat) : Statement (.primingDone p) := of_none rfl
theorem ingestHeader (ring : Nat) (d record : Bytes) : Statement (.ingestHeader ring d record) := of_descOk
theorem ingestPlaneRaw (ring : Nat) (d band : Bytes) : Statement (.ingestPlaneRaw ring d band) := of_descOk
theorem ingestPlaneIbrik (ring : Nat) (d container : Bytes) : Statement (.ingestPlaneIbrik ring d container) := of_descOk
theorem cancelSection (ring : Nat) (d : Bytes) : Statement (.cancelSection ring d) := of_descOk
theorem place (ring : Nat) (d : Bytes) : Statement (.place ring d) := of_descOk
theorem cancelPlacement (ring : Nat) (d : Bytes) : Statement (.cancelPlacement ring d) := of_descOk
theorem placementResolve (g : Nat) : Statement (.placementResolve g) := of_none rfl
theorem loadTable (ring : Nat) (d image : Bytes) : Statement (.loadTable ring d image) := of_descOk
theorem waveLoad (ring : Nat) (d image : Bytes) : Statement (.waveLoad ring d image) := of_descOk
theorem phoTableLoad (ring : Nat) (d image : Bytes) : Statement (.phoTableLoad ring d image) := of_descOk
theorem waitingLoadCommit (kind target : Nat) : Statement (.waitingLoadCommit kind target) := of_none rfl
theorem readTable (ring : Nat) (d : Bytes) : Statement (.readTable ring d) := of_descOk
theorem tempReport (p : Nat) (frame : Bytes) : Statement (.tempReport p frame) := of_none rfl
theorem tempTimeout (p h : Nat) : Statement (.tempTimeout p h) := of_none rfl
theorem waveBankWrite (p : Nat) : Statement (.waveBankWrite p) := of_none rfl
theorem waveAck (p : Nat) (frame : Bytes) : Statement (.waveAck p frame) := of_none rfl
theorem waveAckTimeout (p : Nat) : Statement (.waveAckTimeout p) := of_none rfl
theorem encTransition (e : Nat) (a b : Bool) (held : Nat) (t : Time) : Statement (.encTransition e a b held t) := of_none rfl
theorem quadWindowEnd (e : Nat) : Statement (.quadWindowEnd e) := of_none rfl
theorem encIndex (e : Nat) (level : Bool) (held : Nat) (t : Time) : Statement (.encIndex e level held t) := of_none rfl
theorem estimatorTick : Statement .estimatorTick := of_none rfl
theorem webStopTimeout : Statement .webStopTimeout := of_none rfl
theorem ssiRequest : Statement .ssiRequest := of_none rfl
theorem ssiPeriod : Statement .ssiPeriod := of_none rfl
theorem ssiHeldStart : Statement .ssiHeldStart := of_none rfl
theorem ssiReading (init : Bool) (edges : List (Nat × Bool)) : Statement (.ssiReading init edges) := of_none rfl
theorem posLoadNow : Statement .posLoadNow := of_none rfl
theorem posLoadSsi : Statement .posLoadSsi := of_none rfl
theorem posRebase : Statement .posRebase := of_none rfl
theorem slipWindowEnd : Statement .slipWindowEnd := of_none rfl
theorem geomCommit : Statement .geomCommit := of_none rfl
theorem latchTrigger (n : Nat) (level : Bool) (held : Nat) (t : Time) : Statement (.latchTrigger n level held t) := of_none rfl
theorem latchSoft (n : Nat) : Statement (.latchSoft n) := of_none rfl
theorem latchResultRead (n : Nat) : Statement (.latchResultRead n) := of_none rfl
theorem cmpArm (n : Nat) (v : Word) : Statement (.cmpArm n v) := of_none rfl
theorem cmpDisarm (n : Nat) (v : Word) : Statement (.cmpDisarm n v) := of_none rfl
theorem cmpFire (n : Nat) : Statement (.cmpFire n) := of_none rfl
theorem outputPulseEnd (pin : OutPin) : Statement (.outputPulseEnd pin) := of_none rfl
theorem portEnable (p : Nat) (v : Word) : Statement (.portEnable p v) := of_none rfl
theorem portDisable (p : Nat) (v : Word) : Statement (.portDisable p v) := of_none rfl
theorem portRetrainCmd (p : Nat) (v : Word) : Statement (.portRetrainCmd p v) := of_none rfl
theorem downTimeout (p : Nat) : Statement (.downTimeout p) := of_none rfl
theorem detectTest (p : Nat) (first second : Bool) : Statement (.detectTest p first second) := of_none rfl
theorem tsAReceived (p : Nat) (block : Bytes) (satisfied : Bool) (want : Nat) :
    Statement (.tsAReceived p block satisfied want) := of_none rfl
theorem tsBReceived (p : Nat) (block : Bytes) : Statement (.tsBReceived p block) := of_none rfl
theorem trainTimeout (p : Nat) : Statement (.trainTimeout p) := of_none rfl
theorem blockLockAcquired (p : Nat) (blocks : List (BitVec 130 × Nat)) : Statement (.blockLockAcquired p blocks) := of_none rfl
theorem blockLockLost (p : Nat) (blocks : List (BitVec 130 × Nat)) : Statement (.blockLockLost p blocks) := of_none rfl
theorem lockComplete (p : Nat) (blocks : List (BitVec 130 × Nat)) : Statement (.lockComplete p blocks) := of_none rfl
theorem lockTimeout (p : Nat) : Statement (.lockTimeout p) := of_none rfl
theorem statCaps (p : Nat) (frame : Bytes) : Statement (.statCaps p frame) := of_none rfl
theorem syncEcho (p : Nat) (frame : Bytes) (t4 : Time) : Statement (.syncEcho p frame t4) := of_none rfl
theorem statAck (p : Nat) (frame : Bytes) : Statement (.statAck p frame) := of_none rfl
theorem capsTimeout (p : Nat) : Statement (.capsTimeout p) := of_none rfl
theorem syncPeriodic (p : Nat) : Statement (.syncPeriodic p) := of_none rfl
theorem nak (p : Nat) (frame : Bytes) : Statement (.nak p frame) := of_none rfl
theorem statTimeout (p : Nat) : Statement (.statTimeout p) := of_none rfl
theorem partnerWindowEnd (p : Nat) : Statement (.partnerWindowEnd p) := of_none rfl
theorem ctlResendTimeout (p : Nat) : Statement (.ctlResendTimeout p) := of_none rfl
theorem deskew (c : Nat) : Statement (.deskew c) := of_none rfl
theorem csiFrameStart (c : Nat) (ecc : Ecc) : Statement (.csiFrameStart c ecc) := of_none rfl
theorem csiPixelData (c : Nat) (dataType : Nat) (ecc : Ecc) (samples : List (BitVec 14)) (heldBack : Bool) :
    Statement (.csiPixelData c dataType ecc samples heldBack) := of_none rfl
theorem csiFrameEnd (c : Nat) (ecc : Ecc) : Statement (.csiFrameEnd c ecc) := of_none rfl
theorem csiOtherPacket (c channel dataType : Nat) (ecc : Ecc) : Statement (.csiOtherPacket c channel dataType ecc) := of_none rfl
theorem cameraFrameTimeout (c : Nat) : Statement (.cameraFrameTimeout c) := of_none rfl
theorem expCommit (c : Nat) (v : Word) : Statement (.expCommit c v) := of_none rfl
theorem expSetWritten (c : Nat) : Statement (.expSetWritten c) := of_none rfl
theorem i2cNak (c entry : Nat) : Statement (.i2cNak c entry) := of_none rfl
theorem cameraPortDisable (c : Nat) (v : Word) : Statement (.cameraPortDisable c v) := of_none rfl
theorem capbuf (ring : Nat) (d : Bytes) : Statement (.capbuf ring d) := of_descOk
theorem loopPeriodEnd : Statement .loopPeriodEnd := of_none rfl
theorem loopGainReset (bars : BitVec 8) : Statement (.loopGainReset bars) := of_none rfl
theorem loopToneReset (bars : BitVec 8) : Statement (.loopToneReset bars) := of_none rfl
theorem loopHoldEnd : Statement .loopHoldEnd := of_none rfl
theorem camBlack (ring : Nat) (d : Bytes) : Statement (.camBlack ring d) := of_descOk
theorem camBlackTimeout (c : Nat) : Statement (.camBlackTimeout c) := of_none rfl
theorem pair : Statement .pair := of_none rfl
theorem unpair : Statement .unpair := of_none rfl
theorem checkpointNow : Statement .checkpointNow := of_none rfl
theorem pairLinkTimeout : Statement .pairLinkTimeout := of_none rfl
theorem pairIndexTimeout : Statement .pairIndexTimeout := of_none rfl
theorem pairReadyTimeout : Statement .pairReadyTimeout := of_none rfl
theorem hello (t : Nat) (frame : Bytes) : Statement (.hello t frame) := of_none rfl
theorem hb (t : Nat) (frame : Bytes) : Statement (.hb t frame) := of_none rfl
theorem hbSend (t : Nat) : Statement (.hbSend t) := of_none rfl
theorem announce (t : Nat) (frame : Bytes) : Statement (.announce t frame) := of_none rfl
theorem change (t : Nat) (frame : Bytes) : Statement (.change t frame) := of_none rfl
theorem vote (t : Nat) (frame : Bytes) : Statement (.vote t frame) := of_none rfl
theorem decide (t : Nat) (frame : Bytes) : Statement (.decide t frame) := of_none rfl
theorem data (t : Nat) (frame : Bytes) : Statement (.data t frame) := of_none rfl
theorem ckpt (t : Nat) (frame : Bytes) : Statement (.ckpt t frame) := of_none rfl
theorem check (t : Nat) (frame : Bytes) : Statement (.check t frame) := of_none rfl
theorem checkFireSend : Statement .checkFireSend := of_none rfl
theorem give (t : Nat) (frame : Bytes) : Statement (.give t frame) := of_none rfl
theorem join (t : Nat) (frame : Bytes) : Statement (.join t frame) := of_none rfl
theorem twinAliveEdge : Statement .twinAliveEdge := of_none rfl
theorem twinAliveToggle : Statement .twinAliveToggle := of_none rfl
theorem partnerTimeout : Statement .partnerTimeout := of_none rfl
theorem announceTimeout (p : Nat) : Statement (.announceTimeout p) := of_none rfl
theorem voteTimeout : Statement .voteTimeout := of_none rfl
theorem decideTimeout : Statement .decideTimeout := of_none rfl
theorem rejoinTimer : Statement .rejoinTimer := of_none rfl
theorem pcieLinkLoss (cause : LinkLoss) : Statement (.pcieLinkLoss cause) := of_none rfl
theorem l1Entry : Statement .l1Entry := of_none rfl
theorem kick : Statement .kick := of_none rfl
theorem doorbellPoll : Statement .doorbellPoll := of_none rfl
theorem doorbellRead (block : Option Bytes) : Statement (.doorbellRead block) := of_none rfl
theorem ringEnable (r : Nat) (v : Word) : Statement (.ringEnable r v) := of_none rfl
theorem ringDisable (r : Nat) (v : Word) : Statement (.ringDisable r v) := of_none rfl
theorem nop (ring : Nat) (d : Bytes) : Statement (.nop ring d) := of_descOk
theorem checkpoint (ring : Nat) (d : Bytes) : Statement (.checkpoint ring d) := of_descOk
theorem completionPost (cring : Nat) : Statement (.completionPost cring) := of_none rfl
theorem statusBlockWrite (r : Nat) : Statement (.statusBlockWrite r) := of_none rfl
theorem ringIrqTimer (r : Nat) : Statement (.ringIrqTimer r) := of_none rfl
theorem drmRetrain (ring : Nat) (d : Bytes) : Statement (.drmRetrain ring d) := of_descOk
theorem drmZq (ring : Nat) (d : Bytes) : Statement (.drmZq ring d) := of_descOk
theorem drmSelfref (ring : Nat) (d : Bytes) : Statement (.drmSelfref ring d) := of_descOk
theorem linkRetrain (ring : Nat) (d : Bytes) : Statement (.linkRetrain ring d) := of_descOk
theorem waveReload (ring : Nat) (d : Bytes) : Statement (.waveReload ring d) := of_descOk
theorem almWrite (ring : Nat) (d record : Bytes) : Statement (.almWrite ring d record) := of_descOk
theorem twinCkpt (ring : Nat) (d : Bytes) : Statement (.twinCkpt ring d) := of_descOk
theorem spit (ring : Nat) (d param : Bytes) : Statement (.spit ring d param) := of_descOk
theorem strip (ring : Nat) (d param : Bytes) : Statement (.strip ring d param) := of_descOk
theorem deferredStart : Statement .deferredStart := of_none rfl
theorem deferTimeout : Statement .deferTimeout := of_none rfl
theorem scheduledZq : Statement .scheduledZq := of_none rfl
theorem scheduledRetrain : Statement .scheduledRetrain := of_none rfl
theorem scheduledCheckpoint : Statement .scheduledCheckpoint := of_none rfl
theorem faultHandle : Statement .faultHandle := of_none rfl
theorem fatalQuiesce : Statement .fatalQuiesce := of_none rfl
theorem faultAck (v : Word) : Statement (.faultAck v) := of_none rfl
theorem quietRecovery (c : Nat) : Statement (.quietRecovery c) := of_none rfl
theorem recordClear (v : Word) : Statement (.recordClear v) := of_none rfl
theorem faultForce (src : Nat) (v : Word) : Statement (.faultForce src v) := of_none rfl
theorem pwrEnRise : Statement .pwrEnRise := of_none rfl
theorem pgoodRise : Statement .pgoodRise := of_none rfl
theorem railTimeout : Statement .railTimeout := of_none rfl
theorem railFault : Statement .railFault := of_none rfl
theorem powerDown (pwrEnFell : Bool) : Statement (.powerDown pwrEnFell) := of_none rfl
theorem rampDownEnd : Statement .rampDownEnd := of_none rfl
theorem coldReset : Statement .coldReset := of_none rfl
theorem resetRelease : Statement .resetRelease := of_none rfl
theorem pllLock : Statement .pllLock := of_none rfl
theorem factoryLoadDone : Statement .factoryLoadDone := of_none rfl
theorem pcieResetRelease : Statement .pcieResetRelease := of_none rfl
theorem finish : Statement .finish := of_none rfl
theorem print : Statement .print := of_none rfl
theorem stop : Statement .stop := of_none rfl
theorem warmReset (v : Word) : Statement (.warmReset v) := of_none rfl
theorem warmResetEnd : Statement .warmResetEnd := of_none rfl
theorem clockLoss : Statement .clockLoss := of_none rfl
theorem clockRecovered : Statement .clockRecovered := of_none rfl
theorem trainInit (c : Nat) (v : Word) : Statement (.trainInit c v) := of_none rfl
theorem trainMrw (c : Nat) (v : Word) : Statement (.trainMrw c v) := of_none rfl
theorem trainMrr (c : Nat) (v : Word) : Statement (.trainMrr c v) := of_none rfl
theorem trainCbt (c : Nat) (v : Word) : Statement (.trainCbt c v) := of_none rfl
theorem trainWckLevel (c : Nat) (v : Word) : Statement (.trainWckLevel c v) := of_none rfl
theorem trainWrite (c : Nat) (v : Word) : Statement (.trainWrite c v) := of_none rfl
theorem trainRead (c : Nat) (v : Word) : Statement (.trainRead c v) := of_none rfl
theorem trainClear (c : Nat) (v : Word) : Statement (.trainClear c v) := of_none rfl
theorem trainZq (c : Nat) (v : Word) : Statement (.trainZq c v) := of_none rfl
theorem trainVerify (c : Nat) (v : Word) : Statement (.trainVerify c v) := of_none rfl
theorem trainCommit (c : Nat) (v : Word) : Statement (.trainCommit c v) := of_none rfl
theorem trainStepEnd (c : Nat) (answered : Bool) (result : Word) (errors : List Nat) :
    Statement (.trainStepEnd c answered result errors) := of_none rfl
theorem dramRequest (src : Nat) (write : Bool) (addr bursts : Nat) (payload : Bytes) :
    Statement (.dramRequest src write addr bursts payload) := of_none rfl
theorem refreshDue (c rank pair : Nat) : Statement (.refreshDue c rank pair) := of_none rfl
theorem dramTempPoll (c : Nat) (r0 r1 : RankReading) : Statement (.dramTempPoll c r0 r1) := of_none rfl
theorem rhWindowStart : Statement .rhWindowStart := of_none rfl
theorem retrainSlice (c : Nat) (last pass : Bool) (rd wr wck : List Nat) : Statement (.retrainSlice c last pass rd wr wck) := of_none rfl
theorem zqLatch (c : Nat) : Statement (.zqLatch c) := of_none rfl
theorem selfrefEntry : Statement .selfrefEntry := of_none rfl
theorem selfrefTimeout : Statement .selfrefTimeout := of_none rfl
theorem selfrefExit : Statement .selfrefExit := of_none rfl
theorem crossingWriteApply (x : Nat) : Statement (.crossingWriteApply x) := of_none rfl
theorem crossingTimeout (x : Nat) (side : XingSide) : Statement (.crossingTimeout x side) := of_none rfl
theorem crossingResync (x : Nat) : Statement (.crossingResync x) := of_none rfl
theorem pixPllEnable (v : Word) : Statement (.pixPllEnable v) := of_none rfl
theorem pixPllLock : Statement .pixPllLock := of_none rfl
theorem netRateWrite (v : Word) : Statement (.netRateWrite v) := of_none rfl
theorem netStep (v : Word) : Statement (.netStep v) := of_none rfl
theorem netLoad (v : Word) : Statement (.netLoad v) := of_none rfl
theorem timeSnapshot : Statement .timeSnapshot := of_none rfl
theorem monoWrap : Statement .monoWrap := of_none rfl
theorem netWrap : Statement .netWrap := of_none rfl
theorem secondsCommit (v : Word) : Statement (.secondsCommit v) := of_none rfl
theorem secondRollover : Statement .secondRollover := of_none rfl
theorem pulseArm (n : Nat) (v : Word) : Statement (.pulseArm n v) := of_none rfl
theorem pulseFire (n : Nat) : Statement (.pulseFire n) := of_none rfl
theorem pulseWidthEnd (n : Nat) : Statement (.pulseWidthEnd n) := of_none rfl
theorem netTx (ring : Nat) (d frame : Bytes) : Statement (.netTx ring d frame) := of_descOk
theorem netTxDone : Statement .netTxDone := of_none rfl
theorem netRxbuf (ring : Nat) (d : Bytes) : Statement (.netRxbuf ring d) := of_descOk
theorem netRxFrame (frame : Bytes) (fcsOk : Bool) : Statement (.netRxFrame frame fcsOk) := of_none rfl
theorem netLinkChange (exchange : NetExchange) : Statement (.netLinkChange exchange) := of_none rfl
theorem txtsPost : Statement .txtsPost := of_none rfl
theorem txtsRead : Statement .txtsRead := of_none rfl
theorem eyeEnable (v : Word) : Statement (.eyeEnable v) := of_none rfl
theorem eyeDisable (v : Word) : Statement (.eyeDisable v) := of_none rfl
theorem eyeCommit : Statement .eyeCommit := of_none rfl
theorem displayLineStart (missing : Option Nat) : Statement (.displayLineStart missing) := of_none rfl
theorem commitPoint : Statement .commitPoint := of_none rfl
theorem dieTempSample (x : DieSample) : Statement (.dieTempSample x) := of_none rfl
theorem vinSample (raw : Int) : Statement (.vinSample raw) := of_none rfl
theorem almWrGo (record : Bytes) : Statement (.almWrGo record) := of_none rfl
theorem almWriteDone (programmed readBackOk : Bool) : Statement (.almWriteDone programmed readBackOk) := of_none rfl
theorem almReadData : Statement .almReadData := of_none rfl
theorem loCaptureRead (off : Nat) : Statement (.loCaptureRead off) := of_none rfl
theorem chStatusRead (c : Nat) : Statement (.chStatusRead c) := of_none rfl
theorem registerWrite (off : Nat) (v : BitVec 64) (enables : BitVec 8) : Statement (.registerWrite off v enables) := of_none rfl
theorem cameraPortEnable (c : Nat) (v : Word) : Statement (.cameraPortEnable c v) := of_none rfl
theorem pcieLinkUp (cfg : PcieCfg) : Statement (.pcieLinkUp cfg) := of_none rfl
theorem undervoltageLockoutRelease (pwrEn : Bool) : Statement (.undervoltageLockoutRelease pwrEn) := of_none rfl
theorem dieResetHoldEnd : Statement .dieResetHoldEnd := of_none rfl
theorem railRetry : Statement .railRetry := of_none rfl

end Sys2Proof.Laws.WellFormed

theorem Sys2Proof.Laws.WellFormed.seal (ring : Nat) (d : Sys2Proof.Bytes) : Sys2Proof.Laws.WellFormed.Statement (.seal ring d) :=
  Sys2Proof.Laws.WellFormed.of_descOk
end

