-- ==== Sys2Proof/Laws/State.lean ====
section
/-! SUPPORT. What each update of the state leaves alone: one lemma for each field and each update. -/

namespace Sys2Proof.Machine

/-! #### wr -/

@[simp] theorem State.wr_dev (s : State) (r : Reg) (v : Word) (i : Nat) (j : Nat) (k : Nat) : (State.wr s r v i j k).dev = s.dev := rfl
@[simp] theorem State.wr_pwr (s : State) (r : Reg) (v : Word) (i : Nat) (j : Nat) (k : Nat) : (State.wr s r v i j k).pwr = s.pwr := rfl
@[simp] theorem State.wr_clk (s : State) (r : Reg) (v : Word) (i : Nat) (j : Nat) (k : Nat) : (State.wr s r v i j k).clk = s.clk := rfl
@[simp] theorem State.wr_ltn (s : State) (r : Reg) (v : Word) (i : Nat) (j : Nat) (k : Nat) : (State.wr s r v i j k).ltn = s.ltn := rfl
@[simp] theorem State.wr_lmp (s : State) (r : Reg) (v : Word) (i : Nat) (j : Nat) (k : Nat) : (State.wr s r v i j k).lmp = s.lmp := rfl
@[simp] theorem State.wr_hst (s : State) (r : Reg) (v : Word) (i : Nat) (j : Nat) (k : Nat) : (State.wr s r v i j k).hst = s.hst := rfl
@[simp] theorem State.wr_sto (s : State) (r : Reg) (v : Word) (i : Nat) (j : Nat) (k : Nat) : (State.wr s r v i j k).sto = s.sto := rfl
@[simp] theorem State.wr_tabs (s : State) (r : Reg) (v : Word) (i : Nat) (j : Nat) (k : Nat) : (State.wr s r v i j k).tabs = s.tabs := rfl
@[simp] theorem State.wr_waits (s : State) (r : Reg) (v : Word) (i : Nat) (j : Nat) (k : Nat) : (State.wr s r v i j k).waits = s.waits := rfl
@[simp] theorem State.wr_pipes (s : State) (r : Reg) (v : Word) (i : Nat) (j : Nat) (k : Nat) : (State.wr s r v i j k).pipes = s.pipes := rfl
@[simp] theorem State.wr_wck (s : State) (r : Reg) (v : Word) (i : Nat) (j : Nat) (k : Nat) : (State.wr s r v i j k).wck = s.wck := rfl
@[simp] theorem State.wr_mer (s : State) (r : Reg) (v : Word) (i : Nat) (j : Nat) (k : Nat) : (State.wr s r v i j k).mer = s.mer := rfl
@[simp] theorem State.wr_links (s : State) (r : Reg) (v : Word) (i : Nat) (j : Nat) (k : Nat) : (State.wr s r v i j k).links = s.links := rfl
@[simp] theorem State.wr_twn (s : State) (r : Reg) (v : Word) (i : Nat) (j : Nat) (k : Nat) : (State.wr s r v i j k).twn = s.twn := rfl
@[simp] theorem State.wr_pho (s : State) (r : Reg) (v : Word) (i : Nat) (j : Nat) (k : Nat) : (State.wr s r v i j k).pho = s.pho := rfl
@[simp] theorem State.wr_drm (s : State) (r : Reg) (v : Word) (i : Nat) (j : Nat) (k : Nat) : (State.wr s r v i j k).drm = s.drm := rfl
@[simp] theorem State.wr_tim (s : State) (r : Reg) (v : Word) (i : Nat) (j : Nat) (k : Nat) : (State.wr s r v i j k).tim = s.tim := rfl
@[simp] theorem State.wr_eye (s : State) (r : Reg) (v : Word) (i : Nat) (j : Nat) (k : Nat) : (State.wr s r v i j k).eye = s.eye := rfl
@[simp] theorem State.wr_alm (s : State) (r : Reg) (v : Word) (i : Nat) (j : Nat) (k : Nat) : (State.wr s r v i j k).alm = s.alm := rfl
@[simp] theorem State.wr_out (s : State) (r : Reg) (v : Word) (i : Nat) (j : Nat) (k : Nat) : (State.wr s r v i j k).out = s.out := rfl
@[simp] theorem State.wr_free (s : State) (r : Reg) (v : Word) (i : Nat) (j : Nat) (k : Nat) : (State.wr s r v i j k).free = s.free := rfl
@[simp] theorem State.wr_pending (s : State) (r : Reg) (v : Word) (i : Nat) (j : Nat) (k : Nat) : (State.wr s r v i j k).pending = s.pending := rfl

/-! #### emit -/

@[simp] theorem State.emit_regs (s : State) (o : Output) : (State.emit s o).regs = s.regs := rfl
@[simp] theorem State.emit_dev (s : State) (o : Output) : (State.emit s o).dev = s.dev := rfl
@[simp] theorem State.emit_pwr (s : State) (o : Output) : (State.emit s o).pwr = s.pwr := rfl
@[simp] theorem State.emit_clk (s : State) (o : Output) : (State.emit s o).clk = s.clk := rfl
@[simp] theorem State.emit_ltn (s : State) (o : Output) : (State.emit s o).ltn = s.ltn := rfl
@[simp] theorem State.emit_lmp (s : State) (o : Output) : (State.emit s o).lmp = s.lmp := rfl
@[simp] theorem State.emit_hst (s : State) (o : Output) : (State.emit s o).hst = s.hst := rfl
@[simp] theorem State.emit_sto (s : State) (o : Output) : (State.emit s o).sto = s.sto := rfl
@[simp] theorem State.emit_tabs (s : State) (o : Output) : (State.emit s o).tabs = s.tabs := rfl
@[simp] theorem State.emit_waits (s : State) (o : Output) : (State.emit s o).waits = s.waits := rfl
@[simp] theorem State.emit_pipes (s : State) (o : Output) : (State.emit s o).pipes = s.pipes := rfl
@[simp] theorem State.emit_wck (s : State) (o : Output) : (State.emit s o).wck = s.wck := rfl
@[simp] theorem State.emit_mer (s : State) (o : Output) : (State.emit s o).mer = s.mer := rfl
@[simp] theorem State.emit_links (s : State) (o : Output) : (State.emit s o).links = s.links := rfl
@[simp] theorem State.emit_twn (s : State) (o : Output) : (State.emit s o).twn = s.twn := rfl
@[simp] theorem State.emit_pho (s : State) (o : Output) : (State.emit s o).pho = s.pho := rfl
@[simp] theorem State.emit_drm (s : State) (o : Output) : (State.emit s o).drm = s.drm := rfl
@[simp] theorem State.emit_tim (s : State) (o : Output) : (State.emit s o).tim = s.tim := rfl
@[simp] theorem State.emit_eye (s : State) (o : Output) : (State.emit s o).eye = s.eye := rfl
@[simp] theorem State.emit_alm (s : State) (o : Output) : (State.emit s o).alm = s.alm := rfl
@[simp] theorem State.emit_free (s : State) (o : Output) : (State.emit s o).free = s.free := rfl
@[simp] theorem State.emit_pending (s : State) (o : Output) : (State.emit s o).pending = s.pending := rfl

/-! #### raise -/

@[simp] theorem State.raise_regs (s : State) (x : Src) (detail : Word) (inst0 : Nat) (inst1 : Nat) (cls : Option Nat) (action : Option Nat) : (State.raise s x detail inst0 inst1 cls action).regs = s.regs := rfl
@[simp] theorem State.raise_dev (s : State) (x : Src) (detail : Word) (inst0 : Nat) (inst1 : Nat) (cls : Option Nat) (action : Option Nat) : (State.raise s x detail inst0 inst1 cls action).dev = s.dev := rfl
@[simp] theorem State.raise_pwr (s : State) (x : Src) (detail : Word) (inst0 : Nat) (inst1 : Nat) (cls : Option Nat) (action : Option Nat) : (State.raise s x detail inst0 inst1 cls action).pwr = s.pwr := rfl
@[simp] theorem State.raise_clk (s : State) (x : Src) (detail : Word) (inst0 : Nat) (inst1 : Nat) (cls : Option Nat) (action : Option Nat) : (State.raise s x detail inst0 inst1 cls action).clk = s.clk := rfl
@[simp] theorem State.raise_lmp (s : State) (x : Src) (detail : Word) (inst0 : Nat) (inst1 : Nat) (cls : Option Nat) (action : Option Nat) : (State.raise s x detail inst0 inst1 cls action).lmp = s.lmp := rfl
@[simp] theorem State.raise_hst (s : State) (x : Src) (detail : Word) (inst0 : Nat) (inst1 : Nat) (cls : Option Nat) (action : Option Nat) : (State.raise s x detail inst0 inst1 cls action).hst = s.hst := rfl
@[simp] theorem State.raise_sto (s : State) (x : Src) (detail : Word) (inst0 : Nat) (inst1 : Nat) (cls : Option Nat) (action : Option Nat) : (State.raise s x detail inst0 inst1 cls action).sto = s.sto := rfl
@[simp] theorem State.raise_tabs (s : State) (x : Src) (detail : Word) (inst0 : Nat) (inst1 : Nat) (cls : Option Nat) (action : Option Nat) : (State.raise s x detail inst0 inst1 cls action).tabs = s.tabs := rfl
@[simp] theorem State.raise_waits (s : State) (x : Src) (detail : Word) (inst0 : Nat) (inst1 : Nat) (cls : Option Nat) (action : Option Nat) : (State.raise s x detail inst0 inst1 cls action).waits = s.waits := rfl
@[simp] theorem State.raise_pipes (s : State) (x : Src) (detail : Word) (inst0 : Nat) (inst1 : Nat) (cls : Option Nat) (action : Option Nat) : (State.raise s x detail inst0 inst1 cls action).pipes = s.pipes := rfl
@[simp] theorem State.raise_wck (s : State) (x : Src) (detail : Word) (inst0 : Nat) (inst1 : Nat) (cls : Option Nat) (action : Option Nat) : (State.raise s x detail inst0 inst1 cls action).wck = s.wck := rfl
@[simp] theorem State.raise_mer (s : State) (x : Src) (detail : Word) (inst0 : Nat) (inst1 : Nat) (cls : Option Nat) (action : Option Nat) : (State.raise s x detail inst0 inst1 cls action).mer = s.mer := rfl
@[simp] theorem State.raise_links (s : State) (x : Src) (detail : Word) (inst0 : Nat) (inst1 : Nat) (cls : Option Nat) (action : Option Nat) : (State.raise s x detail inst0 inst1 cls action).links = s.links := rfl
@[simp] theorem State.raise_twn (s : State) (x : Src) (detail : Word) (inst0 : Nat) (inst1 : Nat) (cls : Option Nat) (action : Option Nat) : (State.raise s x detail inst0 inst1 cls action).twn = s.twn := rfl
@[simp] theorem State.raise_pho (s : State) (x : Src) (detail : Word) (inst0 : Nat) (inst1 : Nat) (cls : Option Nat) (action : Option Nat) : (State.raise s x detail inst0 inst1 cls action).pho = s.pho := rfl
@[simp] theorem State.raise_drm (s : State) (x : Src) (detail : Word) (inst0 : Nat) (inst1 : Nat) (cls : Option Nat) (action : Option Nat) : (State.raise s x detail inst0 inst1 cls action).drm = s.drm := rfl
@[simp] theorem State.raise_tim (s : State) (x : Src) (detail : Word) (inst0 : Nat) (inst1 : Nat) (cls : Option Nat) (action : Option Nat) : (State.raise s x detail inst0 inst1 cls action).tim = s.tim := rfl
@[simp] theorem State.raise_eye (s : State) (x : Src) (detail : Word) (inst0 : Nat) (inst1 : Nat) (cls : Option Nat) (action : Option Nat) : (State.raise s x detail inst0 inst1 cls action).eye = s.eye := rfl
@[simp] theorem State.raise_alm (s : State) (x : Src) (detail : Word) (inst0 : Nat) (inst1 : Nat) (cls : Option Nat) (action : Option Nat) : (State.raise s x detail inst0 inst1 cls action).alm = s.alm := rfl
@[simp] theorem State.raise_out (s : State) (x : Src) (detail : Word) (inst0 : Nat) (inst1 : Nat) (cls : Option Nat) (action : Option Nat) : (State.raise s x detail inst0 inst1 cls action).out = s.out := rfl
@[simp] theorem State.raise_free (s : State) (x : Src) (detail : Word) (inst0 : Nat) (inst1 : Nat) (cls : Option Nat) (action : Option Nat) : (State.raise s x detail inst0 inst1 cls action).free = s.free := rfl
@[simp] theorem State.raise_pending (s : State) (x : Src) (detail : Word) (inst0 : Nat) (inst1 : Nat) (cls : Option Nat) (action : Option Nat) : (State.raise s x detail inst0 inst1 cls action).pending = s.pending := rfl

/-! #### updRing -/

@[simp] theorem State.updRing_regs (s : State) (r : Nat) (f : Ring → Ring) : (State.updRing s r f).regs = s.regs := rfl
@[simp] theorem State.updRing_dev (s : State) (r : Nat) (f : Ring → Ring) : (State.updRing s r f).dev = s.dev := rfl
@[simp] theorem State.updRing_pwr (s : State) (r : Nat) (f : Ring → Ring) : (State.updRing s r f).pwr = s.pwr := rfl
@[simp] theorem State.updRing_clk (s : State) (r : Nat) (f : Ring → Ring) : (State.updRing s r f).clk = s.clk := rfl
@[simp] theorem State.updRing_ltn (s : State) (r : Nat) (f : Ring → Ring) : (State.updRing s r f).ltn = s.ltn := rfl
@[simp] theorem State.updRing_lmp (s : State) (r : Nat) (f : Ring → Ring) : (State.updRing s r f).lmp = s.lmp := rfl
@[simp] theorem State.updRing_sto (s : State) (r : Nat) (f : Ring → Ring) : (State.updRing s r f).sto = s.sto := rfl
@[simp] theorem State.updRing_tabs (s : State) (r : Nat) (f : Ring → Ring) : (State.updRing s r f).tabs = s.tabs := rfl
@[simp] theorem State.updRing_waits (s : State) (r : Nat) (f : Ring → Ring) : (State.updRing s r f).waits = s.waits := rfl
@[simp] theorem State.updRing_pipes (s : State) (r : Nat) (f : Ring → Ring) : (State.updRing s r f).pipes = s.pipes := rfl
@[simp] theorem State.updRing_wck (s : State) (r : Nat) (f : Ring → Ring) : (State.updRing s r f).wck = s.wck := rfl
@[simp] theorem State.updRing_mer (s : State) (r : Nat) (f : Ring → Ring) : (State.updRing s r f).mer = s.mer := rfl
@[simp] theorem State.updRing_links (s : State) (r : Nat) (f : Ring → Ring) : (State.updRing s r f).links = s.links := rfl
@[simp] theorem State.updRing_twn (s : State) (r : Nat) (f : Ring → Ring) : (State.updRing s r f).twn = s.twn := rfl
@[simp] theorem State.updRing_pho (s : State) (r : Nat) (f : Ring → Ring) : (State.updRing s r f).pho = s.pho := rfl
@[simp] theorem State.updRing_drm (s : State) (r : Nat) (f : Ring → Ring) : (State.updRing s r f).drm = s.drm := rfl
@[simp] theorem State.updRing_tim (s : State) (r : Nat) (f : Ring → Ring) : (State.updRing s r f).tim = s.tim := rfl
@[simp] theorem State.updRing_eye (s : State) (r : Nat) (f : Ring → Ring) : (State.updRing s r f).eye = s.eye := rfl
@[simp] theorem State.updRing_alm (s : State) (r : Nat) (f : Ring → Ring) : (State.updRing s r f).alm = s.alm := rfl
@[simp] theorem State.updRing_out (s : State) (r : Nat) (f : Ring → Ring) : (State.updRing s r f).out = s.out := rfl
@[simp] theorem State.updRing_free (s : State) (r : Nat) (f : Ring → Ring) : (State.updRing s r f).free = s.free := rfl
@[simp] theorem State.updRing_pending (s : State) (r : Nat) (f : Ring → Ring) : (State.updRing s r f).pending = s.pending := rfl

/-! #### updPipe -/

@[simp] theorem State.updPipe_regs (s : State) (p : Nat) (f : Pipe → Pipe) : (State.updPipe s p f).regs = s.regs := rfl
@[simp] theorem State.updPipe_dev (s : State) (p : Nat) (f : Pipe → Pipe) : (State.updPipe s p f).dev = s.dev := rfl
@[simp] theorem State.updPipe_pwr (s : State) (p : Nat) (f : Pipe → Pipe) : (State.updPipe s p f).pwr = s.pwr := rfl
@[simp] theorem State.updPipe_clk (s : State) (p : Nat) (f : Pipe → Pipe) : (State.updPipe s p f).clk = s.clk := rfl
@[simp] theorem State.updPipe_ltn (s : State) (p : Nat) (f : Pipe → Pipe) : (State.updPipe s p f).ltn = s.ltn := rfl
@[simp] theorem State.updPipe_lmp (s : State) (p : Nat) (f : Pipe → Pipe) : (State.updPipe s p f).lmp = s.lmp := rfl
@[simp] theorem State.updPipe_hst (s : State) (p : Nat) (f : Pipe → Pipe) : (State.updPipe s p f).hst = s.hst := rfl
@[simp] theorem State.updPipe_sto (s : State) (p : Nat) (f : Pipe → Pipe) : (State.updPipe s p f).sto = s.sto := rfl
@[simp] theorem State.updPipe_tabs (s : State) (p : Nat) (f : Pipe → Pipe) : (State.updPipe s p f).tabs = s.tabs := rfl
@[simp] theorem State.updPipe_waits (s : State) (p : Nat) (f : Pipe → Pipe) : (State.updPipe s p f).waits = s.waits := rfl
@[simp] theorem State.updPipe_wck (s : State) (p : Nat) (f : Pipe → Pipe) : (State.updPipe s p f).wck = s.wck := rfl
@[simp] theorem State.updPipe_mer (s : State) (p : Nat) (f : Pipe → Pipe) : (State.updPipe s p f).mer = s.mer := rfl
@[simp] theorem State.updPipe_links (s : State) (p : Nat) (f : Pipe → Pipe) : (State.updPipe s p f).links = s.links := rfl
@[simp] theorem State.updPipe_twn (s : State) (p : Nat) (f : Pipe → Pipe) : (State.updPipe s p f).twn = s.twn := rfl
@[simp] theorem State.updPipe_pho (s : State) (p : Nat) (f : Pipe → Pipe) : (State.updPipe s p f).pho = s.pho := rfl
@[simp] theorem State.updPipe_drm (s : State) (p : Nat) (f : Pipe → Pipe) : (State.updPipe s p f).drm = s.drm := rfl
@[simp] theorem State.updPipe_tim (s : State) (p : Nat) (f : Pipe → Pipe) : (State.updPipe s p f).tim = s.tim := rfl
@[simp] theorem State.updPipe_eye (s : State) (p : Nat) (f : Pipe → Pipe) : (State.updPipe s p f).eye = s.eye := rfl
@[simp] theorem State.updPipe_alm (s : State) (p : Nat) (f : Pipe → Pipe) : (State.updPipe s p f).alm = s.alm := rfl
@[simp] theorem State.updPipe_out (s : State) (p : Nat) (f : Pipe → Pipe) : (State.updPipe s p f).out = s.out := rfl
@[simp] theorem State.updPipe_free (s : State) (p : Nat) (f : Pipe → Pipe) : (State.updPipe s p f).free = s.free := rfl
@[simp] theorem State.updPipe_pending (s : State) (p : Nat) (f : Pipe → Pipe) : (State.updPipe s p f).pending = s.pending := rfl

/-! #### updLink -/

@[simp] theorem State.updLink_regs (s : State) (p : Nat) (f : Link → Link) : (State.updLink s p f).regs = s.regs := rfl
@[simp] theorem State.updLink_dev (s : State) (p : Nat) (f : Link → Link) : (State.updLink s p f).dev = s.dev := rfl
@[simp] theorem State.updLink_pwr (s : State) (p : Nat) (f : Link → Link) : (State.updLink s p f).pwr = s.pwr := rfl
@[simp] theorem State.updLink_clk (s : State) (p : Nat) (f : Link → Link) : (State.updLink s p f).clk = s.clk := rfl
@[simp] theorem State.updLink_ltn (s : State) (p : Nat) (f : Link → Link) : (State.updLink s p f).ltn = s.ltn := rfl
@[simp] theorem State.updLink_lmp (s : State) (p : Nat) (f : Link → Link) : (State.updLink s p f).lmp = s.lmp := rfl
@[simp] theorem State.updLink_hst (s : State) (p : Nat) (f : Link → Link) : (State.updLink s p f).hst = s.hst := rfl
@[simp] theorem State.updLink_sto (s : State) (p : Nat) (f : Link → Link) : (State.updLink s p f).sto = s.sto := rfl
@[simp] theorem State.updLink_tabs (s : State) (p : Nat) (f : Link → Link) : (State.updLink s p f).tabs = s.tabs := rfl
@[simp] theorem State.updLink_waits (s : State) (p : Nat) (f : Link → Link) : (State.updLink s p f).waits = s.waits := rfl
@[simp] theorem State.updLink_pipes (s : State) (p : Nat) (f : Link → Link) : (State.updLink s p f).pipes = s.pipes := rfl
@[simp] theorem State.updLink_wck (s : State) (p : Nat) (f : Link → Link) : (State.updLink s p f).wck = s.wck := rfl
@[simp] theorem State.updLink_mer (s : State) (p : Nat) (f : Link → Link) : (State.updLink s p f).mer = s.mer := rfl
@[simp] theorem State.updLink_twn (s : State) (p : Nat) (f : Link → Link) : (State.updLink s p f).twn = s.twn := rfl
@[simp] theorem State.updLink_pho (s : State) (p : Nat) (f : Link → Link) : (State.updLink s p f).pho = s.pho := rfl
@[simp] theorem State.updLink_drm (s : State) (p : Nat) (f : Link → Link) : (State.updLink s p f).drm = s.drm := rfl
@[simp] theorem State.updLink_tim (s : State) (p : Nat) (f : Link → Link) : (State.updLink s p f).tim = s.tim := rfl
@[simp] theorem State.updLink_eye (s : State) (p : Nat) (f : Link → Link) : (State.updLink s p f).eye = s.eye := rfl
@[simp] theorem State.updLink_alm (s : State) (p : Nat) (f : Link → Link) : (State.updLink s p f).alm = s.alm := rfl
@[simp] theorem State.updLink_out (s : State) (p : Nat) (f : Link → Link) : (State.updLink s p f).out = s.out := rfl
@[simp] theorem State.updLink_free (s : State) (p : Nat) (f : Link → Link) : (State.updLink s p f).free = s.free := rfl
@[simp] theorem State.updLink_pending (s : State) (p : Nat) (f : Link → Link) : (State.updLink s p f).pending = s.pending := rfl

/-! #### updWick -/

@[simp] theorem State.updWick_regs (s : State) (p : Nat) (f : WickPort → WickPort) : (State.updWick s p f).regs = s.regs := rfl
@[simp] theorem State.updWick_dev (s : State) (p : Nat) (f : WickPort → WickPort) : (State.updWick s p f).dev = s.dev := rfl
@[simp] theorem State.updWick_pwr (s : State) (p : Nat) (f : WickPort → WickPort) : (State.updWick s p f).pwr = s.pwr := rfl
@[simp] theorem State.updWick_clk (s : State) (p : Nat) (f : WickPort → WickPort) : (State.updWick s p f).clk = s.clk := rfl
@[simp] theorem State.updWick_ltn (s : State) (p : Nat) (f : WickPort → WickPort) : (State.updWick s p f).ltn = s.ltn := rfl
@[simp] theorem State.updWick_lmp (s : State) (p : Nat) (f : WickPort → WickPort) : (State.updWick s p f).lmp = s.lmp := rfl
@[simp] theorem State.updWick_hst (s : State) (p : Nat) (f : WickPort → WickPort) : (State.updWick s p f).hst = s.hst := rfl
@[simp] theorem State.updWick_sto (s : State) (p : Nat) (f : WickPort → WickPort) : (State.updWick s p f).sto = s.sto := rfl
@[simp] theorem State.updWick_tabs (s : State) (p : Nat) (f : WickPort → WickPort) : (State.updWick s p f).tabs = s.tabs := rfl
@[simp] theorem State.updWick_waits (s : State) (p : Nat) (f : WickPort → WickPort) : (State.updWick s p f).waits = s.waits := rfl
@[simp] theorem State.updWick_pipes (s : State) (p : Nat) (f : WickPort → WickPort) : (State.updWick s p f).pipes = s.pipes := rfl
@[simp] theorem State.updWick_mer (s : State) (p : Nat) (f : WickPort → WickPort) : (State.updWick s p f).mer = s.mer := rfl
@[simp] theorem State.updWick_links (s : State) (p : Nat) (f : WickPort → WickPort) : (State.updWick s p f).links = s.links := rfl
@[simp] theorem State.updWick_twn (s : State) (p : Nat) (f : WickPort → WickPort) : (State.updWick s p f).twn = s.twn := rfl
@[simp] theorem State.updWick_pho (s : State) (p : Nat) (f : WickPort → WickPort) : (State.updWick s p f).pho = s.pho := rfl
@[simp] theorem State.updWick_drm (s : State) (p : Nat) (f : WickPort → WickPort) : (State.updWick s p f).drm = s.drm := rfl
@[simp] theorem State.updWick_tim (s : State) (p : Nat) (f : WickPort → WickPort) : (State.updWick s p f).tim = s.tim := rfl
@[simp] theorem State.updWick_eye (s : State) (p : Nat) (f : WickPort → WickPort) : (State.updWick s p f).eye = s.eye := rfl
@[simp] theorem State.updWick_alm (s : State) (p : Nat) (f : WickPort → WickPort) : (State.updWick s p f).alm = s.alm := rfl
@[simp] theorem State.updWick_out (s : State) (p : Nat) (f : WickPort → WickPort) : (State.updWick s p f).out = s.out := rfl
@[simp] theorem State.updWick_free (s : State) (p : Nat) (f : WickPort → WickPort) : (State.updWick s p f).free = s.free := rfl
@[simp] theorem State.updWick_pending (s : State) (p : Nat) (f : WickPort → WickPort) : (State.updWick s p f).pending = s.pending := rfl

/-! #### updXing -/

@[simp] theorem State.updXing_regs (s : State) (x : Nat) (f : Crossing → Crossing) : (State.updXing s x f).regs = s.regs := rfl
@[simp] theorem State.updXing_dev (s : State) (x : Nat) (f : Crossing → Crossing) : (State.updXing s x f).dev = s.dev := rfl
@[simp] theorem State.updXing_pwr (s : State) (x : Nat) (f : Crossing → Crossing) : (State.updXing s x f).pwr = s.pwr := rfl
@[simp] theorem State.updXing_ltn (s : State) (x : Nat) (f : Crossing → Crossing) : (State.updXing s x f).ltn = s.ltn := rfl
@[simp] theorem State.updXing_lmp (s : State) (x : Nat) (f : Crossing → Crossing) : (State.updXing s x f).lmp = s.lmp := rfl
@[simp] theorem State.updXing_hst (s : State) (x : Nat) (f : Crossing → Crossing) : (State.updXing s x f).hst = s.hst := rfl
@[simp] theorem State.updXing_sto (s : State) (x : Nat) (f : Crossing → Crossing) : (State.updXing s x f).sto = s.sto := rfl
@[simp] theorem State.updXing_tabs (s : State) (x : Nat) (f : Crossing → Crossing) : (State.updXing s x f).tabs = s.tabs := rfl
@[simp] theorem State.updXing_waits (s : State) (x : Nat) (f : Crossing → Crossing) : (State.updXing s x f).waits = s.waits := rfl
@[simp] theorem State.updXing_pipes (s : State) (x : Nat) (f : Crossing → Crossing) : (State.updXing s x f).pipes = s.pipes := rfl
@[simp] theorem State.updXing_wck (s : State) (x : Nat) (f : Crossing → Crossing) : (State.updXing s x f).wck = s.wck := rfl
@[simp] theorem State.updXing_mer (s : State) (x : Nat) (f : Crossing → Crossing) : (State.updXing s x f).mer = s.mer := rfl
@[simp] theorem State.updXing_links (s : State) (x : Nat) (f : Crossing → Crossing) : (State.updXing s x f).links = s.links := rfl
@[simp] theorem State.updXing_twn (s : State) (x : Nat) (f : Crossing → Crossing) : (State.updXing s x f).twn = s.twn := rfl
@[simp] theorem State.updXing_pho (s : State) (x : Nat) (f : Crossing → Crossing) : (State.updXing s x f).pho = s.pho := rfl
@[simp] theorem State.updXing_drm (s : State) (x : Nat) (f : Crossing → Crossing) : (State.updXing s x f).drm = s.drm := rfl
@[simp] theorem State.updXing_tim (s : State) (x : Nat) (f : Crossing → Crossing) : (State.updXing s x f).tim = s.tim := rfl
@[simp] theorem State.updXing_eye (s : State) (x : Nat) (f : Crossing → Crossing) : (State.updXing s x f).eye = s.eye := rfl
@[simp] theorem State.updXing_alm (s : State) (x : Nat) (f : Crossing → Crossing) : (State.updXing s x f).alm = s.alm := rfl
@[simp] theorem State.updXing_out (s : State) (x : Nat) (f : Crossing → Crossing) : (State.updXing s x f).out = s.out := rfl
@[simp] theorem State.updXing_free (s : State) (x : Nat) (f : Crossing → Crossing) : (State.updXing s x f).free = s.free := rfl
@[simp] theorem State.updXing_pending (s : State) (x : Nat) (f : Crossing → Crossing) : (State.updXing s x f).pending = s.pending := rfl

/-! #### updGroup -/

@[simp] theorem State.updGroup_regs (s : State) (g : Nat) (f : Group → Group) : (State.updGroup s g f).regs = s.regs := rfl
@[simp] theorem State.updGroup_dev (s : State) (g : Nat) (f : Group → Group) : (State.updGroup s g f).dev = s.dev := rfl
@[simp] theorem State.updGroup_pwr (s : State) (g : Nat) (f : Group → Group) : (State.updGroup s g f).pwr = s.pwr := rfl
@[simp] theorem State.updGroup_clk (s : State) (g : Nat) (f : Group → Group) : (State.updGroup s g f).clk = s.clk := rfl
@[simp] theorem State.updGroup_ltn (s : State) (g : Nat) (f : Group → Group) : (State.updGroup s g f).ltn = s.ltn := rfl
@[simp] theorem State.updGroup_lmp (s : State) (g : Nat) (f : Group → Group) : (State.updGroup s g f).lmp = s.lmp := rfl
@[simp] theorem State.updGroup_hst (s : State) (g : Nat) (f : Group → Group) : (State.updGroup s g f).hst = s.hst := rfl
@[simp] theorem State.updGroup_tabs (s : State) (g : Nat) (f : Group → Group) : (State.updGroup s g f).tabs = s.tabs := rfl
@[simp] theorem State.updGroup_waits (s : State) (g : Nat) (f : Group → Group) : (State.updGroup s g f).waits = s.waits := rfl
@[simp] theorem State.updGroup_pipes (s : State) (g : Nat) (f : Group → Group) : (State.updGroup s g f).pipes = s.pipes := rfl
@[simp] theorem State.updGroup_wck (s : State) (g : Nat) (f : Group → Group) : (State.updGroup s g f).wck = s.wck := rfl
@[simp] theorem State.updGroup_mer (s : State) (g : Nat) (f : Group → Group) : (State.updGroup s g f).mer = s.mer := rfl
@[simp] theorem State.updGroup_links (s : State) (g : Nat) (f : Group → Group) : (State.updGroup s g f).links = s.links := rfl
@[simp] theorem State.updGroup_twn (s : State) (g : Nat) (f : Group → Group) : (State.updGroup s g f).twn = s.twn := rfl
@[simp] theorem State.updGroup_pho (s : State) (g : Nat) (f : Group → Group) : (State.updGroup s g f).pho = s.pho := rfl
@[simp] theorem State.updGroup_drm (s : State) (g : Nat) (f : Group → Group) : (State.updGroup s g f).drm = s.drm := rfl
@[simp] theorem State.updGroup_tim (s : State) (g : Nat) (f : Group → Group) : (State.updGroup s g f).tim = s.tim := rfl
@[simp] theorem State.updGroup_eye (s : State) (g : Nat) (f : Group → Group) : (State.updGroup s g f).eye = s.eye := rfl
@[simp] theorem State.updGroup_alm (s : State) (g : Nat) (f : Group → Group) : (State.updGroup s g f).alm = s.alm := rfl
@[simp] theorem State.updGroup_out (s : State) (g : Nat) (f : Group → Group) : (State.updGroup s g f).out = s.out := rfl
@[simp] theorem State.updGroup_free (s : State) (g : Nat) (f : Group → Group) : (State.updGroup s g f).free = s.free := rfl
@[simp] theorem State.updGroup_pending (s : State) (g : Nat) (f : Group → Group) : (State.updGroup s g f).pending = s.pending := rfl

/-! #### updCmp -/

@[simp] theorem State.updCmp_regs (s : State) (n : Nat) (f : Compare → Compare) : (State.updCmp s n f).regs = s.regs := rfl
@[simp] theorem State.updCmp_dev (s : State) (n : Nat) (f : Compare → Compare) : (State.updCmp s n f).dev = s.dev := rfl
@[simp] theorem State.updCmp_pwr (s : State) (n : Nat) (f : Compare → Compare) : (State.updCmp s n f).pwr = s.pwr := rfl
@[simp] theorem State.updCmp_clk (s : State) (n : Nat) (f : Compare → Compare) : (State.updCmp s n f).clk = s.clk := rfl
@[simp] theorem State.updCmp_ltn (s : State) (n : Nat) (f : Compare → Compare) : (State.updCmp s n f).ltn = s.ltn := rfl
@[simp] theorem State.updCmp_lmp (s : State) (n : Nat) (f : Compare → Compare) : (State.updCmp s n f).lmp = s.lmp := rfl
@[simp] theorem State.updCmp_hst (s : State) (n : Nat) (f : Compare → Compare) : (State.updCmp s n f).hst = s.hst := rfl
@[simp] theorem State.updCmp_sto (s : State) (n : Nat) (f : Compare → Compare) : (State.updCmp s n f).sto = s.sto := rfl
@[simp] theorem State.updCmp_tabs (s : State) (n : Nat) (f : Compare → Compare) : (State.updCmp s n f).tabs = s.tabs := rfl
@[simp] theorem State.updCmp_waits (s : State) (n : Nat) (f : Compare → Compare) : (State.updCmp s n f).waits = s.waits := rfl
@[simp] theorem State.updCmp_pipes (s : State) (n : Nat) (f : Compare → Compare) : (State.updCmp s n f).pipes = s.pipes := rfl
@[simp] theorem State.updCmp_wck (s : State) (n : Nat) (f : Compare → Compare) : (State.updCmp s n f).wck = s.wck := rfl
@[simp] theorem State.updCmp_links (s : State) (n : Nat) (f : Compare → Compare) : (State.updCmp s n f).links = s.links := rfl
@[simp] theorem State.updCmp_twn (s : State) (n : Nat) (f : Compare → Compare) : (State.updCmp s n f).twn = s.twn := rfl
@[simp] theorem State.updCmp_pho (s : State) (n : Nat) (f : Compare → Compare) : (State.updCmp s n f).pho = s.pho := rfl
@[simp] theorem State.updCmp_drm (s : State) (n : Nat) (f : Compare → Compare) : (State.updCmp s n f).drm = s.drm := rfl
@[simp] theorem State.updCmp_tim (s : State) (n : Nat) (f : Compare → Compare) : (State.updCmp s n f).tim = s.tim := rfl
@[simp] theorem State.updCmp_eye (s : State) (n : Nat) (f : Compare → Compare) : (State.updCmp s n f).eye = s.eye := rfl
@[simp] theorem State.updCmp_alm (s : State) (n : Nat) (f : Compare → Compare) : (State.updCmp s n f).alm = s.alm := rfl
@[simp] theorem State.updCmp_out (s : State) (n : Nat) (f : Compare → Compare) : (State.updCmp s n f).out = s.out := rfl
@[simp] theorem State.updCmp_free (s : State) (n : Nat) (f : Compare → Compare) : (State.updCmp s n f).free = s.free := rfl
@[simp] theorem State.updCmp_pending (s : State) (n : Nat) (f : Compare → Compare) : (State.updCmp s n f).pending = s.pending := rfl

/-! #### updCam -/

@[simp] theorem State.updCam_regs (s : State) (c : Nat) (f : Camera → Camera) : (State.updCam s c f).regs = s.regs := rfl
@[simp] theorem State.updCam_dev (s : State) (c : Nat) (f : Camera → Camera) : (State.updCam s c f).dev = s.dev := rfl
@[simp] theorem State.updCam_pwr (s : State) (c : Nat) (f : Camera → Camera) : (State.updCam s c f).pwr = s.pwr := rfl
@[simp] theorem State.updCam_clk (s : State) (c : Nat) (f : Camera → Camera) : (State.updCam s c f).clk = s.clk := rfl
@[simp] theorem State.updCam_ltn (s : State) (c : Nat) (f : Camera → Camera) : (State.updCam s c f).ltn = s.ltn := rfl
@[simp] theorem State.updCam_lmp (s : State) (c : Nat) (f : Camera → Camera) : (State.updCam s c f).lmp = s.lmp := rfl
@[simp] theorem State.updCam_hst (s : State) (c : Nat) (f : Camera → Camera) : (State.updCam s c f).hst = s.hst := rfl
@[simp] theorem State.updCam_sto (s : State) (c : Nat) (f : Camera → Camera) : (State.updCam s c f).sto = s.sto := rfl
@[simp] theorem State.updCam_tabs (s : State) (c : Nat) (f : Camera → Camera) : (State.updCam s c f).tabs = s.tabs := rfl
@[simp] theorem State.updCam_waits (s : State) (c : Nat) (f : Camera → Camera) : (State.updCam s c f).waits = s.waits := rfl
@[simp] theorem State.updCam_pipes (s : State) (c : Nat) (f : Camera → Camera) : (State.updCam s c f).pipes = s.pipes := rfl
@[simp] theorem State.updCam_wck (s : State) (c : Nat) (f : Camera → Camera) : (State.updCam s c f).wck = s.wck := rfl
@[simp] theorem State.updCam_mer (s : State) (c : Nat) (f : Camera → Camera) : (State.updCam s c f).mer = s.mer := rfl
@[simp] theorem State.updCam_links (s : State) (c : Nat) (f : Camera → Camera) : (State.updCam s c f).links = s.links := rfl
@[simp] theorem State.updCam_twn (s : State) (c : Nat) (f : Camera → Camera) : (State.updCam s c f).twn = s.twn := rfl
@[simp] theorem State.updCam_drm (s : State) (c : Nat) (f : Camera → Camera) : (State.updCam s c f).drm = s.drm := rfl
@[simp] theorem State.updCam_tim (s : State) (c : Nat) (f : Camera → Camera) : (State.updCam s c f).tim = s.tim := rfl
@[simp] theorem State.updCam_eye (s : State) (c : Nat) (f : Camera → Camera) : (State.updCam s c f).eye = s.eye := rfl
@[simp] theorem State.updCam_alm (s : State) (c : Nat) (f : Camera → Camera) : (State.updCam s c f).alm = s.alm := rfl
@[simp] theorem State.updCam_out (s : State) (c : Nat) (f : Camera → Camera) : (State.updCam s c f).out = s.out := rfl
@[simp] theorem State.updCam_free (s : State) (c : Nat) (f : Camera → Camera) : (State.updCam s c f).free = s.free := rfl
@[simp] theorem State.updCam_pending (s : State) (c : Nat) (f : Camera → Camera) : (State.updCam s c f).pending = s.pending := rfl

/-! #### updClass -/

@[simp] theorem State.updClass_regs (s : State) (c : Nat) (f : ClassState → ClassState) : (State.updClass s c f).regs = s.regs := rfl
@[simp] theorem State.updClass_dev (s : State) (c : Nat) (f : ClassState → ClassState) : (State.updClass s c f).dev = s.dev := rfl
@[simp] theorem State.updClass_pwr (s : State) (c : Nat) (f : ClassState → ClassState) : (State.updClass s c f).pwr = s.pwr := rfl
@[simp] theorem State.updClass_clk (s : State) (c : Nat) (f : ClassState → ClassState) : (State.updClass s c f).clk = s.clk := rfl
@[simp] theorem State.updClass_lmp (s : State) (c : Nat) (f : ClassState → ClassState) : (State.updClass s c f).lmp = s.lmp := rfl
@[simp] theorem State.updClass_hst (s : State) (c : Nat) (f : ClassState → ClassState) : (State.updClass s c f).hst = s.hst := rfl
@[simp] theorem State.updClass_sto (s : State) (c : Nat) (f : ClassState → ClassState) : (State.updClass s c f).sto = s.sto := rfl
@[simp] theorem State.updClass_tabs (s : State) (c : Nat) (f : ClassState → ClassState) : (State.updClass s c f).tabs = s.tabs := rfl
@[simp] theorem State.updClass_waits (s : State) (c : Nat) (f : ClassState → ClassState) : (State.updClass s c f).waits = s.waits := rfl
@[simp] theorem State.updClass_pipes (s : State) (c : Nat) (f : ClassState → ClassState) : (State.updClass s c f).pipes = s.pipes := rfl
@[simp] theorem State.updClass_wck (s : State) (c : Nat) (f : ClassState → ClassState) : (State.updClass s c f).wck = s.wck := rfl
@[simp] theorem State.updClass_mer (s : State) (c : Nat) (f : ClassState → ClassState) : (State.updClass s c f).mer = s.mer := rfl
@[simp] theorem State.updClass_links (s : State) (c : Nat) (f : ClassState → ClassState) : (State.updClass s c f).links = s.links := rfl
@[simp] theorem State.updClass_twn (s : State) (c : Nat) (f : ClassState → ClassState) : (State.updClass s c f).twn = s.twn := rfl
@[simp] theorem State.updClass_pho (s : State) (c : Nat) (f : ClassState → ClassState) : (State.updClass s c f).pho = s.pho := rfl
@[simp] theorem State.updClass_drm (s : State) (c : Nat) (f : ClassState → ClassState) : (State.updClass s c f).drm = s.drm := rfl
@[simp] theorem State.updClass_tim (s : State) (c : Nat) (f : ClassState → ClassState) : (State.updClass s c f).tim = s.tim := rfl
@[simp] theorem State.updClass_eye (s : State) (c : Nat) (f : ClassState → ClassState) : (State.updClass s c f).eye = s.eye := rfl
@[simp] theorem State.updClass_alm (s : State) (c : Nat) (f : ClassState → ClassState) : (State.updClass s c f).alm = s.alm := rfl
@[simp] theorem State.updClass_out (s : State) (c : Nat) (f : ClassState → ClassState) : (State.updClass s c f).out = s.out := rfl
@[simp] theorem State.updClass_free (s : State) (c : Nat) (f : ClassState → ClassState) : (State.updClass s c f).free = s.free := rfl
@[simp] theorem State.updClass_pending (s : State) (c : Nat) (f : ClassState → ClassState) : (State.updClass s c f).pending = s.pending := rfl

/-! #### updLoop -/

@[simp] theorem State.updLoop_regs (s : State) (f : Loop → Loop) : (State.updLoop s f).regs = s.regs := rfl
@[simp] theorem State.updLoop_dev (s : State) (f : Loop → Loop) : (State.updLoop s f).dev = s.dev := rfl
@[simp] theorem State.updLoop_pwr (s : State) (f : Loop → Loop) : (State.updLoop s f).pwr = s.pwr := rfl
@[simp] theorem State.updLoop_clk (s : State) (f : Loop → Loop) : (State.updLoop s f).clk = s.clk := rfl
@[simp] theorem State.updLoop_ltn (s : State) (f : Loop → Loop) : (State.updLoop s f).ltn = s.ltn := rfl
@[simp] theorem State.updLoop_lmp (s : State) (f : Loop → Loop) : (State.updLoop s f).lmp = s.lmp := rfl
@[simp] theorem State.updLoop_hst (s : State) (f : Loop → Loop) : (State.updLoop s f).hst = s.hst := rfl
@[simp] theorem State.updLoop_sto (s : State) (f : Loop → Loop) : (State.updLoop s f).sto = s.sto := rfl
@[simp] theorem State.updLoop_tabs (s : State) (f : Loop → Loop) : (State.updLoop s f).tabs = s.tabs := rfl
@[simp] theorem State.updLoop_waits (s : State) (f : Loop → Loop) : (State.updLoop s f).waits = s.waits := rfl
@[simp] theorem State.updLoop_pipes (s : State) (f : Loop → Loop) : (State.updLoop s f).pipes = s.pipes := rfl
@[simp] theorem State.updLoop_wck (s : State) (f : Loop → Loop) : (State.updLoop s f).wck = s.wck := rfl
@[simp] theorem State.updLoop_mer (s : State) (f : Loop → Loop) : (State.updLoop s f).mer = s.mer := rfl
@[simp] theorem State.updLoop_links (s : State) (f : Loop → Loop) : (State.updLoop s f).links = s.links := rfl
@[simp] theorem State.updLoop_twn (s : State) (f : Loop → Loop) : (State.updLoop s f).twn = s.twn := rfl
@[simp] theorem State.updLoop_drm (s : State) (f : Loop → Loop) : (State.updLoop s f).drm = s.drm := rfl
@[simp] theorem State.updLoop_tim (s : State) (f : Loop → Loop) : (State.updLoop s f).tim = s.tim := rfl
@[simp] theorem State.updLoop_eye (s : State) (f : Loop → Loop) : (State.updLoop s f).eye = s.eye := rfl
@[simp] theorem State.updLoop_alm (s : State) (f : Loop → Loop) : (State.updLoop s f).alm = s.alm := rfl
@[simp] theorem State.updLoop_out (s : State) (f : Loop → Loop) : (State.updLoop s f).out = s.out := rfl
@[simp] theorem State.updLoop_free (s : State) (f : Loop → Loop) : (State.updLoop s f).free = s.free := rfl
@[simp] theorem State.updLoop_pending (s : State) (f : Loop → Loop) : (State.updLoop s f).pending = s.pending := rfl

/-! #### updChan -/

@[simp] theorem State.updChan_regs (s : State) (c : Nat) (f : Channel → Channel) : (State.updChan s c f).regs = s.regs := rfl
@[simp] theorem State.updChan_dev (s : State) (c : Nat) (f : Channel → Channel) : (State.updChan s c f).dev = s.dev := rfl
@[simp] theorem State.updChan_pwr (s : State) (c : Nat) (f : Channel → Channel) : (State.updChan s c f).pwr = s.pwr := rfl
@[simp] theorem State.updChan_clk (s : State) (c : Nat) (f : Channel → Channel) : (State.updChan s c f).clk = s.clk := rfl
@[simp] theorem State.updChan_ltn (s : State) (c : Nat) (f : Channel → Channel) : (State.updChan s c f).ltn = s.ltn := rfl
@[simp] theorem State.updChan_lmp (s : State) (c : Nat) (f : Channel → Channel) : (State.updChan s c f).lmp = s.lmp := rfl
@[simp] theorem State.updChan_hst (s : State) (c : Nat) (f : Channel → Channel) : (State.updChan s c f).hst = s.hst := rfl
@[simp] theorem State.updChan_sto (s : State) (c : Nat) (f : Channel → Channel) : (State.updChan s c f).sto = s.sto := rfl
@[simp] theorem State.updChan_tabs (s : State) (c : Nat) (f : Channel → Channel) : (State.updChan s c f).tabs = s.tabs := rfl
@[simp] theorem State.updChan_waits (s : State) (c : Nat) (f : Channel → Channel) : (State.updChan s c f).waits = s.waits := rfl
@[simp] theorem State.updChan_pipes (s : State) (c : Nat) (f : Channel → Channel) : (State.updChan s c f).pipes = s.pipes := rfl
@[simp] theorem State.updChan_wck (s : State) (c : Nat) (f : Channel → Channel) : (State.updChan s c f).wck = s.wck := rfl
@[simp] theorem State.updChan_mer (s : State) (c : Nat) (f : Channel → Channel) : (State.updChan s c f).mer = s.mer := rfl
@[simp] theorem State.updChan_links (s : State) (c : Nat) (f : Channel → Channel) : (State.updChan s c f).links = s.links := rfl
@[simp] theorem State.updChan_twn (s : State) (c : Nat) (f : Channel → Channel) : (State.updChan s c f).twn = s.twn := rfl
@[simp] theorem State.updChan_pho (s : State) (c : Nat) (f : Channel → Channel) : (State.updChan s c f).pho = s.pho := rfl
@[simp] theorem State.updChan_tim (s : State) (c : Nat) (f : Channel → Channel) : (State.updChan s c f).tim = s.tim := rfl
@[simp] theorem State.updChan_eye (s : State) (c : Nat) (f : Channel → Channel) : (State.updChan s c f).eye = s.eye := rfl
@[simp] theorem State.updChan_alm (s : State) (c : Nat) (f : Channel → Channel) : (State.updChan s c f).alm = s.alm := rfl
@[simp] theorem State.updChan_out (s : State) (c : Nat) (f : Channel → Channel) : (State.updChan s c f).out = s.out := rfl
@[simp] theorem State.updChan_free (s : State) (c : Nat) (f : Channel → Channel) : (State.updChan s c f).free = s.free := rfl
@[simp] theorem State.updChan_pending (s : State) (c : Nat) (f : Channel → Channel) : (State.updChan s c f).pending = s.pending := rfl

/-! #### updEnc -/

@[simp] theorem State.updEnc_regs (s : State) (e : Nat) (f : Encoder → Encoder) : (State.updEnc s e f).regs = s.regs := rfl
@[simp] theorem State.updEnc_dev (s : State) (e : Nat) (f : Encoder → Encoder) : (State.updEnc s e f).dev = s.dev := rfl
@[simp] theorem State.updEnc_pwr (s : State) (e : Nat) (f : Encoder → Encoder) : (State.updEnc s e f).pwr = s.pwr := rfl
@[simp] theorem State.updEnc_clk (s : State) (e : Nat) (f : Encoder → Encoder) : (State.updEnc s e f).clk = s.clk := rfl
@[simp] theorem State.updEnc_ltn (s : State) (e : Nat) (f : Encoder → Encoder) : (State.updEnc s e f).ltn = s.ltn := rfl
@[simp] theorem State.updEnc_lmp (s : State) (e : Nat) (f : Encoder → Encoder) : (State.updEnc s e f).lmp = s.lmp := rfl
@[simp] theorem State.updEnc_hst (s : State) (e : Nat) (f : Encoder → Encoder) : (State.updEnc s e f).hst = s.hst := rfl
@[simp] theorem State.updEnc_sto (s : State) (e : Nat) (f : Encoder → Encoder) : (State.updEnc s e f).sto = s.sto := rfl
@[simp] theorem State.updEnc_tabs (s : State) (e : Nat) (f : Encoder → Encoder) : (State.updEnc s e f).tabs = s.tabs := rfl
@[simp] theorem State.updEnc_waits (s : State) (e : Nat) (f : Encoder → Encoder) : (State.updEnc s e f).waits = s.waits := rfl
@[simp] theorem State.updEnc_pipes (s : State) (e : Nat) (f : Encoder → Encoder) : (State.updEnc s e f).pipes = s.pipes := rfl
@[simp] theorem State.updEnc_wck (s : State) (e : Nat) (f : Encoder → Encoder) : (State.updEnc s e f).wck = s.wck := rfl
@[simp] theorem State.updEnc_links (s : State) (e : Nat) (f : Encoder → Encoder) : (State.updEnc s e f).links = s.links := rfl
@[simp] theorem State.updEnc_twn (s : State) (e : Nat) (f : Encoder → Encoder) : (State.updEnc s e f).twn = s.twn := rfl
@[simp] theorem State.updEnc_pho (s : State) (e : Nat) (f : Encoder → Encoder) : (State.updEnc s e f).pho = s.pho := rfl
@[simp] theorem State.updEnc_drm (s : State) (e : Nat) (f : Encoder → Encoder) : (State.updEnc s e f).drm = s.drm := rfl
@[simp] theorem State.updEnc_tim (s : State) (e : Nat) (f : Encoder → Encoder) : (State.updEnc s e f).tim = s.tim := rfl
@[simp] theorem State.updEnc_eye (s : State) (e : Nat) (f : Encoder → Encoder) : (State.updEnc s e f).eye = s.eye := rfl
@[simp] theorem State.updEnc_alm (s : State) (e : Nat) (f : Encoder → Encoder) : (State.updEnc s e f).alm = s.alm := rfl
@[simp] theorem State.updEnc_out (s : State) (e : Nat) (f : Encoder → Encoder) : (State.updEnc s e f).out = s.out := rfl
@[simp] theorem State.updEnc_free (s : State) (e : Nat) (f : Encoder → Encoder) : (State.updEnc s e f).free = s.free := rfl
@[simp] theorem State.updEnc_pending (s : State) (e : Nat) (f : Encoder → Encoder) : (State.updEnc s e f).pending = s.pending := rfl

/-! #### updTim -/

@[simp] theorem State.updTim_regs (s : State) (f : TimeBlock → TimeBlock) : (State.updTim s f).regs = s.regs := rfl
@[simp] theorem State.updTim_dev (s : State) (f : TimeBlock → TimeBlock) : (State.updTim s f).dev = s.dev := rfl
@[simp] theorem State.updTim_pwr (s : State) (f : TimeBlock → TimeBlock) : (State.updTim s f).pwr = s.pwr := rfl
@[simp] theorem State.updTim_clk (s : State) (f : TimeBlock → TimeBlock) : (State.updTim s f).clk = s.clk := rfl
@[simp] theorem State.updTim_ltn (s : State) (f : TimeBlock → TimeBlock) : (State.updTim s f).ltn = s.ltn := rfl
@[simp] theorem State.updTim_lmp (s : State) (f : TimeBlock → TimeBlock) : (State.updTim s f).lmp = s.lmp := rfl
@[simp] theorem State.updTim_hst (s : State) (f : TimeBlock → TimeBlock) : (State.updTim s f).hst = s.hst := rfl
@[simp] theorem State.updTim_sto (s : State) (f : TimeBlock → TimeBlock) : (State.updTim s f).sto = s.sto := rfl
@[simp] theorem State.updTim_tabs (s : State) (f : TimeBlock → TimeBlock) : (State.updTim s f).tabs = s.tabs := rfl
@[simp] theorem State.updTim_waits (s : State) (f : TimeBlock → TimeBlock) : (State.updTim s f).waits = s.waits := rfl
@[simp] theorem State.updTim_pipes (s : State) (f : TimeBlock → TimeBlock) : (State.updTim s f).pipes = s.pipes := rfl
@[simp] theorem State.updTim_wck (s : State) (f : TimeBlock → TimeBlock) : (State.updTim s f).wck = s.wck := rfl
@[simp] theorem State.updTim_mer (s : State) (f : TimeBlock → TimeBlock) : (State.updTim s f).mer = s.mer := rfl
@[simp] theorem State.updTim_links (s : State) (f : TimeBlock → TimeBlock) : (State.updTim s f).links = s.links := rfl
@[simp] theorem State.updTim_twn (s : State) (f : TimeBlock → TimeBlock) : (State.updTim s f).twn = s.twn := rfl
@[simp] theorem State.updTim_pho (s : State) (f : TimeBlock → TimeBlock) : (State.updTim s f).pho = s.pho := rfl
@[simp] theorem State.updTim_drm (s : State) (f : TimeBlock → TimeBlock) : (State.updTim s f).drm = s.drm := rfl
@[simp] theorem State.updTim_eye (s : State) (f : TimeBlock → TimeBlock) : (State.updTim s f).eye = s.eye := rfl
@[simp] theorem State.updTim_alm (s : State) (f : TimeBlock → TimeBlock) : (State.updTim s f).alm = s.alm := rfl
@[simp] theorem State.updTim_out (s : State) (f : TimeBlock → TimeBlock) : (State.updTim s f).out = s.out := rfl
@[simp] theorem State.updTim_free (s : State) (f : TimeBlock → TimeBlock) : (State.updTim s f).free = s.free := rfl
@[simp] theorem State.updTim_pending (s : State) (f : TimeBlock → TimeBlock) : (State.updTim s f).pending = s.pending := rfl

/-! #### updPwr -/

@[simp] theorem State.updPwr_regs (s : State) (f : Power → Power) : (State.updPwr s f).regs = s.regs := rfl
@[simp] theorem State.updPwr_dev (s : State) (f : Power → Power) : (State.updPwr s f).dev = s.dev := rfl
@[simp] theorem State.updPwr_clk (s : State) (f : Power → Power) : (State.updPwr s f).clk = s.clk := rfl
@[simp] theorem State.updPwr_ltn (s : State) (f : Power → Power) : (State.updPwr s f).ltn = s.ltn := rfl
@[simp] theorem State.updPwr_lmp (s : State) (f : Power → Power) : (State.updPwr s f).lmp = s.lmp := rfl
@[simp] theorem State.updPwr_hst (s : State) (f : Power → Power) : (State.updPwr s f).hst = s.hst := rfl
@[simp] theorem State.updPwr_sto (s : State) (f : Power → Power) : (State.updPwr s f).sto = s.sto := rfl
@[simp] theorem State.updPwr_tabs (s : State) (f : Power → Power) : (State.updPwr s f).tabs = s.tabs := rfl
@[simp] theorem State.updPwr_waits (s : State) (f : Power → Power) : (State.updPwr s f).waits = s.waits := rfl
@[simp] theorem State.updPwr_pipes (s : State) (f : Power → Power) : (State.updPwr s f).pipes = s.pipes := rfl
@[simp] theorem State.updPwr_wck (s : State) (f : Power → Power) : (State.updPwr s f).wck = s.wck := rfl
@[simp] theorem State.updPwr_mer (s : State) (f : Power → Power) : (State.updPwr s f).mer = s.mer := rfl
@[simp] theorem State.updPwr_links (s : State) (f : Power → Power) : (State.updPwr s f).links = s.links := rfl
@[simp] theorem State.updPwr_twn (s : State) (f : Power → Power) : (State.updPwr s f).twn = s.twn := rfl
@[simp] theorem State.updPwr_pho (s : State) (f : Power → Power) : (State.updPwr s f).pho = s.pho := rfl
@[simp] theorem State.updPwr_drm (s : State) (f : Power → Power) : (State.updPwr s f).drm = s.drm := rfl
@[simp] theorem State.updPwr_tim (s : State) (f : Power → Power) : (State.updPwr s f).tim = s.tim := rfl
@[simp] theorem State.updPwr_eye (s : State) (f : Power → Power) : (State.updPwr s f).eye = s.eye := rfl
@[simp] theorem State.updPwr_alm (s : State) (f : Power → Power) : (State.updPwr s f).alm = s.alm := rfl
@[simp] theorem State.updPwr_out (s : State) (f : Power → Power) : (State.updPwr s f).out = s.out := rfl
@[simp] theorem State.updPwr_free (s : State) (f : Power → Power) : (State.updPwr s f).free = s.free := rfl
@[simp] theorem State.updPwr_pending (s : State) (f : Power → Power) : (State.updPwr s f).pending = s.pending := rfl

/-! #### set -/

@[simp] theorem State.set_dev (s : State) (f : Fld) (v : Nat) (i : Nat) (j : Nat) (k : Nat) : (State.set s f v i j k).dev = s.dev := rfl
@[simp] theorem State.set_pwr (s : State) (f : Fld) (v : Nat) (i : Nat) (j : Nat) (k : Nat) : (State.set s f v i j k).pwr = s.pwr := rfl
@[simp] theorem State.set_clk (s : State) (f : Fld) (v : Nat) (i : Nat) (j : Nat) (k : Nat) : (State.set s f v i j k).clk = s.clk := rfl
@[simp] theorem State.set_ltn (s : State) (f : Fld) (v : Nat) (i : Nat) (j : Nat) (k : Nat) : (State.set s f v i j k).ltn = s.ltn := rfl
@[simp] theorem State.set_lmp (s : State) (f : Fld) (v : Nat) (i : Nat) (j : Nat) (k : Nat) : (State.set s f v i j k).lmp = s.lmp := rfl
@[simp] theorem State.set_hst (s : State) (f : Fld) (v : Nat) (i : Nat) (j : Nat) (k : Nat) : (State.set s f v i j k).hst = s.hst := rfl
@[simp] theorem State.set_sto (s : State) (f : Fld) (v : Nat) (i : Nat) (j : Nat) (k : Nat) : (State.set s f v i j k).sto = s.sto := rfl
@[simp] theorem State.set_tabs (s : State) (f : Fld) (v : Nat) (i : Nat) (j : Nat) (k : Nat) : (State.set s f v i j k).tabs = s.tabs := rfl
@[simp] theorem State.set_waits (s : State) (f : Fld) (v : Nat) (i : Nat) (j : Nat) (k : Nat) : (State.set s f v i j k).waits = s.waits := rfl
@[simp] theorem State.set_pipes (s : State) (f : Fld) (v : Nat) (i : Nat) (j : Nat) (k : Nat) : (State.set s f v i j k).pipes = s.pipes := rfl
@[simp] theorem State.set_wck (s : State) (f : Fld) (v : Nat) (i : Nat) (j : Nat) (k : Nat) : (State.set s f v i j k).wck = s.wck := rfl
@[simp] theorem State.set_mer (s : State) (f : Fld) (v : Nat) (i : Nat) (j : Nat) (k : Nat) : (State.set s f v i j k).mer = s.mer := rfl
@[simp] theorem State.set_links (s : State) (f : Fld) (v : Nat) (i : Nat) (j : Nat) (k : Nat) : (State.set s f v i j k).links = s.links := rfl
@[simp] theorem State.set_twn (s : State) (f : Fld) (v : Nat) (i : Nat) (j : Nat) (k : Nat) : (State.set s f v i j k).twn = s.twn := rfl
@[simp] theorem State.set_pho (s : State) (f : Fld) (v : Nat) (i : Nat) (j : Nat) (k : Nat) : (State.set s f v i j k).pho = s.pho := rfl
@[simp] theorem State.set_drm (s : State) (f : Fld) (v : Nat) (i : Nat) (j : Nat) (k : Nat) : (State.set s f v i j k).drm = s.drm := rfl
@[simp] theorem State.set_tim (s : State) (f : Fld) (v : Nat) (i : Nat) (j : Nat) (k : Nat) : (State.set s f v i j k).tim = s.tim := rfl
@[simp] theorem State.set_eye (s : State) (f : Fld) (v : Nat) (i : Nat) (j : Nat) (k : Nat) : (State.set s f v i j k).eye = s.eye := rfl
@[simp] theorem State.set_alm (s : State) (f : Fld) (v : Nat) (i : Nat) (j : Nat) (k : Nat) : (State.set s f v i j k).alm = s.alm := rfl
@[simp] theorem State.set_out (s : State) (f : Fld) (v : Nat) (i : Nat) (j : Nat) (k : Nat) : (State.set s f v i j k).out = s.out := rfl
@[simp] theorem State.set_free (s : State) (f : Fld) (v : Nat) (i : Nat) (j : Nat) (k : Nat) : (State.set s f v i j k).free = s.free := rfl
@[simp] theorem State.set_pending (s : State) (f : Fld) (v : Nat) (i : Nat) (j : Nat) (k : Nat) : (State.set s f v i j k).pending = s.pending := rfl

/-! #### count -/

@[simp] theorem State.count_dev (s : State) (f : Fld) (i : Nat) (j : Nat) (k : Nat) (n : Nat) : (State.count s f i j k n).dev = s.dev := rfl
@[simp] theorem State.count_pwr (s : State) (f : Fld) (i : Nat) (j : Nat) (k : Nat) (n : Nat) : (State.count s f i j k n).pwr = s.pwr := rfl
@[simp] theorem State.count_clk (s : State) (f : Fld) (i : Nat) (j : Nat) (k : Nat) (n : Nat) : (State.count s f i j k n).clk = s.clk := rfl
@[simp] theorem State.count_ltn (s : State) (f : Fld) (i : Nat) (j : Nat) (k : Nat) (n : Nat) : (State.count s f i j k n).ltn = s.ltn := rfl
@[simp] theorem State.count_lmp (s : State) (f : Fld) (i : Nat) (j : Nat) (k : Nat) (n : Nat) : (State.count s f i j k n).lmp = s.lmp := rfl
@[simp] theorem State.count_hst (s : State) (f : Fld) (i : Nat) (j : Nat) (k : Nat) (n : Nat) : (State.count s f i j k n).hst = s.hst := rfl
@[simp] theorem State.count_sto (s : State) (f : Fld) (i : Nat) (j : Nat) (k : Nat) (n : Nat) : (State.count s f i j k n).sto = s.sto := rfl
@[simp] theorem State.count_tabs (s : State) (f : Fld) (i : Nat) (j : Nat) (k : Nat) (n : Nat) : (State.count s f i j k n).tabs = s.tabs := rfl
@[simp] theorem State.count_waits (s : State) (f : Fld) (i : Nat) (j : Nat) (k : Nat) (n : Nat) : (State.count s f i j k n).waits = s.waits := rfl
@[simp] theorem State.count_pipes (s : State) (f : Fld) (i : Nat) (j : Nat) (k : Nat) (n : Nat) : (State.count s f i j k n).pipes = s.pipes := rfl
@[simp] theorem State.count_wck (s : State) (f : Fld) (i : Nat) (j : Nat) (k : Nat) (n : Nat) : (State.count s f i j k n).wck = s.wck := rfl
@[simp] theorem State.count_mer (s : State) (f : Fld) (i : Nat) (j : Nat) (k : Nat) (n : Nat) : (State.count s f i j k n).mer = s.mer := rfl
@[simp] theorem State.count_links (s : State) (f : Fld) (i : Nat) (j : Nat) (k : Nat) (n : Nat) : (State.count s f i j k n).links = s.links := rfl
@[simp] theorem State.count_twn (s : State) (f : Fld) (i : Nat) (j : Nat) (k : Nat) (n : Nat) : (State.count s f i j k n).twn = s.twn := rfl
@[simp] theorem State.count_pho (s : State) (f : Fld) (i : Nat) (j : Nat) (k : Nat) (n : Nat) : (State.count s f i j k n).pho = s.pho := rfl
@[simp] theorem State.count_drm (s : State) (f : Fld) (i : Nat) (j : Nat) (k : Nat) (n : Nat) : (State.count s f i j k n).drm = s.drm := rfl
@[simp] theorem State.count_tim (s : State) (f : Fld) (i : Nat) (j : Nat) (k : Nat) (n : Nat) : (State.count s f i j k n).tim = s.tim := rfl
@[simp] theorem State.count_eye (s : State) (f : Fld) (i : Nat) (j : Nat) (k : Nat) (n : Nat) : (State.count s f i j k n).eye = s.eye := rfl
@[simp] theorem State.count_alm (s : State) (f : Fld) (i : Nat) (j : Nat) (k : Nat) (n : Nat) : (State.count s f i j k n).alm = s.alm := rfl
@[simp] theorem State.count_out (s : State) (f : Fld) (i : Nat) (j : Nat) (k : Nat) (n : Nat) : (State.count s f i j k n).out = s.out := rfl
@[simp] theorem State.count_free (s : State) (f : Fld) (i : Nat) (j : Nat) (k : Nat) (n : Nat) : (State.count s f i j k n).free = s.free := rfl
@[simp] theorem State.count_pending (s : State) (f : Fld) (i : Nat) (j : Nat) (k : Nat) (n : Nat) : (State.count s f i j k n).pending = s.pending := rfl

/-! #### resetXing -/

@[simp] theorem State.resetXing_regs (s : State) (x : Nat) : (State.resetXing s x).regs = s.regs := rfl
@[simp] theorem State.resetXing_dev (s : State) (x : Nat) : (State.resetXing s x).dev = s.dev := rfl
@[simp] theorem State.resetXing_pwr (s : State) (x : Nat) : (State.resetXing s x).pwr = s.pwr := rfl
@[simp] theorem State.resetXing_ltn (s : State) (x : Nat) : (State.resetXing s x).ltn = s.ltn := rfl
@[simp] theorem State.resetXing_lmp (s : State) (x : Nat) : (State.resetXing s x).lmp = s.lmp := rfl
@[simp] theorem State.resetXing_hst (s : State) (x : Nat) : (State.resetXing s x).hst = s.hst := rfl
@[simp] theorem State.resetXing_sto (s : State) (x : Nat) : (State.resetXing s x).sto = s.sto := rfl
@[simp] theorem State.resetXing_tabs (s : State) (x : Nat) : (State.resetXing s x).tabs = s.tabs := rfl
@[simp] theorem State.resetXing_waits (s : State) (x : Nat) : (State.resetXing s x).waits = s.waits := rfl
@[simp] theorem State.resetXing_pipes (s : State) (x : Nat) : (State.resetXing s x).pipes = s.pipes := rfl
@[simp] theorem State.resetXing_wck (s : State) (x : Nat) : (State.resetXing s x).wck = s.wck := rfl
@[simp] theorem State.resetXing_mer (s : State) (x : Nat) : (State.resetXing s x).mer = s.mer := rfl
@[simp] theorem State.resetXing_links (s : State) (x : Nat) : (State.resetXing s x).links = s.links := rfl
@[simp] theorem State.resetXing_twn (s : State) (x : Nat) : (State.resetXing s x).twn = s.twn := rfl
@[simp] theorem State.resetXing_pho (s : State) (x : Nat) : (State.resetXing s x).pho = s.pho := rfl
@[simp] theorem State.resetXing_drm (s : State) (x : Nat) : (State.resetXing s x).drm = s.drm := rfl
@[simp] theorem State.resetXing_tim (s : State) (x : Nat) : (State.resetXing s x).tim = s.tim := rfl
@[simp] theorem State.resetXing_eye (s : State) (x : Nat) : (State.resetXing s x).eye = s.eye := rfl
@[simp] theorem State.resetXing_alm (s : State) (x : Nat) : (State.resetXing s x).alm = s.alm := rfl
@[simp] theorem State.resetXing_out (s : State) (x : Nat) : (State.resetXing s x).out = s.out := rfl
@[simp] theorem State.resetXing_free (s : State) (x : Nat) : (State.resetXing s x).free = s.free := rfl
@[simp] theorem State.resetXing_pending (s : State) (x : Nat) : (State.resetXing s x).pending = s.pending := rfl

/-! #### updAct -/

@[simp] theorem State.updAct_regs (s : State) (code target : Nat) (f : Activity → Activity) : (State.updAct s code target f).regs = s.regs := rfl
@[simp] theorem State.updAct_dev (s : State) (code target : Nat) (f : Activity → Activity) : (State.updAct s code target f).dev = s.dev := rfl
@[simp] theorem State.updAct_pwr (s : State) (code target : Nat) (f : Activity → Activity) : (State.updAct s code target f).pwr = s.pwr := rfl
@[simp] theorem State.updAct_clk (s : State) (code target : Nat) (f : Activity → Activity) : (State.updAct s code target f).clk = s.clk := rfl
@[simp] theorem State.updAct_ltn (s : State) (code target : Nat) (f : Activity → Activity) : (State.updAct s code target f).ltn = s.ltn := rfl
@[simp] theorem State.updAct_hst (s : State) (code target : Nat) (f : Activity → Activity) : (State.updAct s code target f).hst = s.hst := rfl
@[simp] theorem State.updAct_sto (s : State) (code target : Nat) (f : Activity → Activity) : (State.updAct s code target f).sto = s.sto := rfl
@[simp] theorem State.updAct_tabs (s : State) (code target : Nat) (f : Activity → Activity) : (State.updAct s code target f).tabs = s.tabs := rfl
@[simp] theorem State.updAct_waits (s : State) (code target : Nat) (f : Activity → Activity) : (State.updAct s code target f).waits = s.waits := rfl
@[simp] theorem State.updAct_pipes (s : State) (code target : Nat) (f : Activity → Activity) : (State.updAct s code target f).pipes = s.pipes := rfl
@[simp] theorem State.updAct_wck (s : State) (code target : Nat) (f : Activity → Activity) : (State.updAct s code target f).wck = s.wck := rfl
@[simp] theorem State.updAct_mer (s : State) (code target : Nat) (f : Activity → Activity) : (State.updAct s code target f).mer = s.mer := rfl
@[simp] theorem State.updAct_links (s : State) (code target : Nat) (f : Activity → Activity) : (State.updAct s code target f).links = s.links := rfl
@[simp] theorem State.updAct_twn (s : State) (code target : Nat) (f : Activity → Activity) : (State.updAct s code target f).twn = s.twn := rfl
@[simp] theorem State.updAct_pho (s : State) (code target : Nat) (f : Activity → Activity) : (State.updAct s code target f).pho = s.pho := rfl
@[simp] theorem State.updAct_drm (s : State) (code target : Nat) (f : Activity → Activity) : (State.updAct s code target f).drm = s.drm := rfl
@[simp] theorem State.updAct_tim (s : State) (code target : Nat) (f : Activity → Activity) : (State.updAct s code target f).tim = s.tim := rfl
@[simp] theorem State.updAct_eye (s : State) (code target : Nat) (f : Activity → Activity) : (State.updAct s code target f).eye = s.eye := rfl
@[simp] theorem State.updAct_alm (s : State) (code target : Nat) (f : Activity → Activity) : (State.updAct s code target f).alm = s.alm := rfl
@[simp] theorem State.updAct_out (s : State) (code target : Nat) (f : Activity → Activity) : (State.updAct s code target f).out = s.out := rfl
@[simp] theorem State.updAct_free (s : State) (code target : Nat) (f : Activity → Activity) : (State.updAct s code target f).free = s.free := rfl
@[simp] theorem State.updAct_pending (s : State) (code target : Nat) (f : Activity → Activity) : (State.updAct s code target f).pending = s.pending := rfl

/-! #### updGen -/

@[simp] theorem State.updGen_regs (s : State) (n : Nat) (f : PulseGen → PulseGen) : (State.updGen s n f).regs = s.regs := rfl
@[simp] theorem State.updGen_dev (s : State) (n : Nat) (f : PulseGen → PulseGen) : (State.updGen s n f).dev = s.dev := rfl
@[simp] theorem State.updGen_pwr (s : State) (n : Nat) (f : PulseGen → PulseGen) : (State.updGen s n f).pwr = s.pwr := rfl
@[simp] theorem State.updGen_clk (s : State) (n : Nat) (f : PulseGen → PulseGen) : (State.updGen s n f).clk = s.clk := rfl
@[simp] theorem State.updGen_ltn (s : State) (n : Nat) (f : PulseGen → PulseGen) : (State.updGen s n f).ltn = s.ltn := rfl
@[simp] theorem State.updGen_lmp (s : State) (n : Nat) (f : PulseGen → PulseGen) : (State.updGen s n f).lmp = s.lmp := rfl
@[simp] theorem State.updGen_hst (s : State) (n : Nat) (f : PulseGen → PulseGen) : (State.updGen s n f).hst = s.hst := rfl
@[simp] theorem State.updGen_sto (s : State) (n : Nat) (f : PulseGen → PulseGen) : (State.updGen s n f).sto = s.sto := rfl
@[simp] theorem State.updGen_tabs (s : State) (n : Nat) (f : PulseGen → PulseGen) : (State.updGen s n f).tabs = s.tabs := rfl
@[simp] theorem State.updGen_waits (s : State) (n : Nat) (f : PulseGen → PulseGen) : (State.updGen s n f).waits = s.waits := rfl
@[simp] theorem State.updGen_pipes (s : State) (n : Nat) (f : PulseGen → PulseGen) : (State.updGen s n f).pipes = s.pipes := rfl
@[simp] theorem State.updGen_wck (s : State) (n : Nat) (f : PulseGen → PulseGen) : (State.updGen s n f).wck = s.wck := rfl
@[simp] theorem State.updGen_mer (s : State) (n : Nat) (f : PulseGen → PulseGen) : (State.updGen s n f).mer = s.mer := rfl
@[simp] theorem State.updGen_links (s : State) (n : Nat) (f : PulseGen → PulseGen) : (State.updGen s n f).links = s.links := rfl
@[simp] theorem State.updGen_twn (s : State) (n : Nat) (f : PulseGen → PulseGen) : (State.updGen s n f).twn = s.twn := rfl
@[simp] theorem State.updGen_pho (s : State) (n : Nat) (f : PulseGen → PulseGen) : (State.updGen s n f).pho = s.pho := rfl
@[simp] theorem State.updGen_drm (s : State) (n : Nat) (f : PulseGen → PulseGen) : (State.updGen s n f).drm = s.drm := rfl
@[simp] theorem State.updGen_eye (s : State) (n : Nat) (f : PulseGen → PulseGen) : (State.updGen s n f).eye = s.eye := rfl
@[simp] theorem State.updGen_alm (s : State) (n : Nat) (f : PulseGen → PulseGen) : (State.updGen s n f).alm = s.alm := rfl
@[simp] theorem State.updGen_out (s : State) (n : Nat) (f : PulseGen → PulseGen) : (State.updGen s n f).out = s.out := rfl
@[simp] theorem State.updGen_free (s : State) (n : Nat) (f : PulseGen → PulseGen) : (State.updGen s n f).free = s.free := rfl
@[simp] theorem State.updGen_pending (s : State) (n : Nat) (f : PulseGen → PulseGen) : (State.updGen s n f).pending = s.pending := rfl

/-! #### updBank -/

@[simp] theorem State.updBank_regs (s : State) (c b : Nat) (f : Bank → Bank) : (State.updBank s c b f).regs = s.regs := rfl
@[simp] theorem State.updBank_dev (s : State) (c b : Nat) (f : Bank → Bank) : (State.updBank s c b f).dev = s.dev := rfl
@[simp] theorem State.updBank_pwr (s : State) (c b : Nat) (f : Bank → Bank) : (State.updBank s c b f).pwr = s.pwr := rfl
@[simp] theorem State.updBank_clk (s : State) (c b : Nat) (f : Bank → Bank) : (State.updBank s c b f).clk = s.clk := rfl
@[simp] theorem State.updBank_ltn (s : State) (c b : Nat) (f : Bank → Bank) : (State.updBank s c b f).ltn = s.ltn := rfl
@[simp] theorem State.updBank_lmp (s : State) (c b : Nat) (f : Bank → Bank) : (State.updBank s c b f).lmp = s.lmp := rfl
@[simp] theorem State.updBank_hst (s : State) (c b : Nat) (f : Bank → Bank) : (State.updBank s c b f).hst = s.hst := rfl
@[simp] theorem State.updBank_sto (s : State) (c b : Nat) (f : Bank → Bank) : (State.updBank s c b f).sto = s.sto := rfl
@[simp] theorem State.updBank_tabs (s : State) (c b : Nat) (f : Bank → Bank) : (State.updBank s c b f).tabs = s.tabs := rfl
@[simp] theorem State.updBank_waits (s : State) (c b : Nat) (f : Bank → Bank) : (State.updBank s c b f).waits = s.waits := rfl
@[simp] theorem State.updBank_pipes (s : State) (c b : Nat) (f : Bank → Bank) : (State.updBank s c b f).pipes = s.pipes := rfl
@[simp] theorem State.updBank_wck (s : State) (c b : Nat) (f : Bank → Bank) : (State.updBank s c b f).wck = s.wck := rfl
@[simp] theorem State.updBank_mer (s : State) (c b : Nat) (f : Bank → Bank) : (State.updBank s c b f).mer = s.mer := rfl
@[simp] theorem State.updBank_links (s : State) (c b : Nat) (f : Bank → Bank) : (State.updBank s c b f).links = s.links := rfl
@[simp] theorem State.updBank_twn (s : State) (c b : Nat) (f : Bank → Bank) : (State.updBank s c b f).twn = s.twn := rfl
@[simp] theorem State.updBank_pho (s : State) (c b : Nat) (f : Bank → Bank) : (State.updBank s c b f).pho = s.pho := rfl
@[simp] theorem State.updBank_tim (s : State) (c b : Nat) (f : Bank → Bank) : (State.updBank s c b f).tim = s.tim := rfl
@[simp] theorem State.updBank_eye (s : State) (c b : Nat) (f : Bank → Bank) : (State.updBank s c b f).eye = s.eye := rfl
@[simp] theorem State.updBank_alm (s : State) (c b : Nat) (f : Bank → Bank) : (State.updBank s c b f).alm = s.alm := rfl
@[simp] theorem State.updBank_out (s : State) (c b : Nat) (f : Bank → Bank) : (State.updBank s c b f).out = s.out := rfl
@[simp] theorem State.updBank_free (s : State) (c b : Nat) (f : Bank → Bank) : (State.updBank s c b f).free = s.free := rfl
@[simp] theorem State.updBank_pending (s : State) (c b : Nat) (f : Bank → Bank) : (State.updBank s c b f).pending = s.pending := rfl

/-! #### updHead -/

@[simp] theorem State.updHead_regs (s : State) (p h : Nat) (f : Head → Head) : (State.updHead s p h f).regs = s.regs := rfl
@[simp] theorem State.updHead_dev (s : State) (p h : Nat) (f : Head → Head) : (State.updHead s p h f).dev = s.dev := rfl
@[simp] theorem State.updHead_pwr (s : State) (p h : Nat) (f : Head → Head) : (State.updHead s p h f).pwr = s.pwr := rfl
@[simp] theorem State.updHead_clk (s : State) (p h : Nat) (f : Head → Head) : (State.updHead s p h f).clk = s.clk := rfl
@[simp] theorem State.updHead_ltn (s : State) (p h : Nat) (f : Head → Head) : (State.updHead s p h f).ltn = s.ltn := rfl
@[simp] theorem State.updHead_lmp (s : State) (p h : Nat) (f : Head → Head) : (State.updHead s p h f).lmp = s.lmp := rfl
@[simp] theorem State.updHead_hst (s : State) (p h : Nat) (f : Head → Head) : (State.updHead s p h f).hst = s.hst := rfl
@[simp] theorem State.updHead_sto (s : State) (p h : Nat) (f : Head → Head) : (State.updHead s p h f).sto = s.sto := rfl
@[simp] theorem State.updHead_tabs (s : State) (p h : Nat) (f : Head → Head) : (State.updHead s p h f).tabs = s.tabs := rfl
@[simp] theorem State.updHead_waits (s : State) (p h : Nat) (f : Head → Head) : (State.updHead s p h f).waits = s.waits := rfl
@[simp] theorem State.updHead_pipes (s : State) (p h : Nat) (f : Head → Head) : (State.updHead s p h f).pipes = s.pipes := rfl
@[simp] theorem State.updHead_mer (s : State) (p h : Nat) (f : Head → Head) : (State.updHead s p h f).mer = s.mer := rfl
@[simp] theorem State.updHead_links (s : State) (p h : Nat) (f : Head → Head) : (State.updHead s p h f).links = s.links := rfl
@[simp] theorem State.updHead_twn (s : State) (p h : Nat) (f : Head → Head) : (State.updHead s p h f).twn = s.twn := rfl
@[simp] theorem State.updHead_pho (s : State) (p h : Nat) (f : Head → Head) : (State.updHead s p h f).pho = s.pho := rfl
@[simp] theorem State.updHead_drm (s : State) (p h : Nat) (f : Head → Head) : (State.updHead s p h f).drm = s.drm := rfl
@[simp] theorem State.updHead_tim (s : State) (p h : Nat) (f : Head → Head) : (State.updHead s p h f).tim = s.tim := rfl
@[simp] theorem State.updHead_eye (s : State) (p h : Nat) (f : Head → Head) : (State.updHead s p h f).eye = s.eye := rfl
@[simp] theorem State.updHead_alm (s : State) (p h : Nat) (f : Head → Head) : (State.updHead s p h f).alm = s.alm := rfl
@[simp] theorem State.updHead_out (s : State) (p h : Nat) (f : Head → Head) : (State.updHead s p h f).out = s.out := rfl
@[simp] theorem State.updHead_free (s : State) (p h : Nat) (f : Head → Head) : (State.updHead s p h f).free = s.free := rfl
@[simp] theorem State.updHead_pending (s : State) (p h : Nat) (f : Head → Head) : (State.updHead s p h f).pending = s.pending := rfl

/-! #### updFrame -/

@[simp] theorem State.updFrame_regs (s : State) (c : Nat) (f : CamFrame → CamFrame) : (State.updFrame s c f).regs = s.regs := rfl
@[simp] theorem State.updFrame_dev (s : State) (c : Nat) (f : CamFrame → CamFrame) : (State.updFrame s c f).dev = s.dev := rfl
@[simp] theorem State.updFrame_pwr (s : State) (c : Nat) (f : CamFrame → CamFrame) : (State.updFrame s c f).pwr = s.pwr := rfl
@[simp] theorem State.updFrame_clk (s : State) (c : Nat) (f : CamFrame → CamFrame) : (State.updFrame s c f).clk = s.clk := rfl
@[simp] theorem State.updFrame_ltn (s : State) (c : Nat) (f : CamFrame → CamFrame) : (State.updFrame s c f).ltn = s.ltn := rfl
@[simp] theorem State.updFrame_lmp (s : State) (c : Nat) (f : CamFrame → CamFrame) : (State.updFrame s c f).lmp = s.lmp := rfl
@[simp] theorem State.updFrame_hst (s : State) (c : Nat) (f : CamFrame → CamFrame) : (State.updFrame s c f).hst = s.hst := rfl
@[simp] theorem State.updFrame_sto (s : State) (c : Nat) (f : CamFrame → CamFrame) : (State.updFrame s c f).sto = s.sto := rfl
@[simp] theorem State.updFrame_tabs (s : State) (c : Nat) (f : CamFrame → CamFrame) : (State.updFrame s c f).tabs = s.tabs := rfl
@[simp] theorem State.updFrame_waits (s : State) (c : Nat) (f : CamFrame → CamFrame) : (State.updFrame s c f).waits = s.waits := rfl
@[simp] theorem State.updFrame_pipes (s : State) (c : Nat) (f : CamFrame → CamFrame) : (State.updFrame s c f).pipes = s.pipes := rfl
@[simp] theorem State.updFrame_wck (s : State) (c : Nat) (f : CamFrame → CamFrame) : (State.updFrame s c f).wck = s.wck := rfl
@[simp] theorem State.updFrame_mer (s : State) (c : Nat) (f : CamFrame → CamFrame) : (State.updFrame s c f).mer = s.mer := rfl
@[simp] theorem State.updFrame_links (s : State) (c : Nat) (f : CamFrame → CamFrame) : (State.updFrame s c f).links = s.links := rfl
@[simp] theorem State.updFrame_twn (s : State) (c : Nat) (f : CamFrame → CamFrame) : (State.updFrame s c f).twn = s.twn := rfl
@[simp] theorem State.updFrame_drm (s : State) (c : Nat) (f : CamFrame → CamFrame) : (State.updFrame s c f).drm = s.drm := rfl
@[simp] theorem State.updFrame_tim (s : State) (c : Nat) (f : CamFrame → CamFrame) : (State.updFrame s c f).tim = s.tim := rfl
@[simp] theorem State.updFrame_eye (s : State) (c : Nat) (f : CamFrame → CamFrame) : (State.updFrame s c f).eye = s.eye := rfl
@[simp] theorem State.updFrame_alm (s : State) (c : Nat) (f : CamFrame → CamFrame) : (State.updFrame s c f).alm = s.alm := rfl
@[simp] theorem State.updFrame_out (s : State) (c : Nat) (f : CamFrame → CamFrame) : (State.updFrame s c f).out = s.out := rfl
@[simp] theorem State.updFrame_free (s : State) (c : Nat) (f : CamFrame → CamFrame) : (State.updFrame s c f).free = s.free := rfl
@[simp] theorem State.updFrame_pending (s : State) (c : Nat) (f : CamFrame → CamFrame) : (State.updFrame s c f).pending = s.pending := rfl

/-! #### putSection -/

@[simp] theorem State.putSection_regs (s : State) (n : Nat) (x : Section') : (s.putSection n x).regs = s.regs := rfl
@[simp] theorem State.putSection_dev (s : State) (n : Nat) (x : Section') : (s.putSection n x).dev = s.dev := rfl
@[simp] theorem State.putSection_pwr (s : State) (n : Nat) (x : Section') : (s.putSection n x).pwr = s.pwr := rfl
@[simp] theorem State.putSection_clk (s : State) (n : Nat) (x : Section') : (s.putSection n x).clk = s.clk := rfl
@[simp] theorem State.putSection_ltn (s : State) (n : Nat) (x : Section') : (s.putSection n x).ltn = s.ltn := rfl
@[simp] theorem State.putSection_lmp (s : State) (n : Nat) (x : Section') : (s.putSection n x).lmp = s.lmp := rfl
@[simp] theorem State.putSection_hst (s : State) (n : Nat) (x : Section') : (s.putSection n x).hst = s.hst := rfl
@[simp] theorem State.putSection_tabs (s : State) (n : Nat) (x : Section') : (s.putSection n x).tabs = s.tabs := rfl
@[simp] theorem State.putSection_waits (s : State) (n : Nat) (x : Section') : (s.putSection n x).waits = s.waits := rfl
@[simp] theorem State.putSection_pipes (s : State) (n : Nat) (x : Section') : (s.putSection n x).pipes = s.pipes := rfl
@[simp] theorem State.putSection_wck (s : State) (n : Nat) (x : Section') : (s.putSection n x).wck = s.wck := rfl
@[simp] theorem State.putSection_mer (s : State) (n : Nat) (x : Section') : (s.putSection n x).mer = s.mer := rfl
@[simp] theorem State.putSection_links (s : State) (n : Nat) (x : Section') : (s.putSection n x).links = s.links := rfl
@[simp] theorem State.putSection_twn (s : State) (n : Nat) (x : Section') : (s.putSection n x).twn = s.twn := rfl
@[simp] theorem State.putSection_pho (s : State) (n : Nat) (x : Section') : (s.putSection n x).pho = s.pho := rfl
@[simp] theorem State.putSection_drm (s : State) (n : Nat) (x : Section') : (s.putSection n x).drm = s.drm := rfl
@[simp] theorem State.putSection_tim (s : State) (n : Nat) (x : Section') : (s.putSection n x).tim = s.tim := rfl
@[simp] theorem State.putSection_eye (s : State) (n : Nat) (x : Section') : (s.putSection n x).eye = s.eye := rfl
@[simp] theorem State.putSection_alm (s : State) (n : Nat) (x : Section') : (s.putSection n x).alm = s.alm := rfl
@[simp] theorem State.putSection_out (s : State) (n : Nat) (x : Section') : (s.putSection n x).out = s.out := rfl
@[simp] theorem State.putSection_free (s : State) (n : Nat) (x : Section') : (s.putSection n x).free = s.free := rfl
@[simp] theorem State.putSection_pending (s : State) (n : Nat) (x : Section') : (s.putSection n x).pending = s.pending := rfl

/-! #### traffic, clearPending -/

@[simp] theorem State.traffic_regs (s : State) : (State.traffic s).regs = s.regs := rfl
@[simp] theorem State.traffic_dev (s : State) : (State.traffic s).dev = s.dev := rfl
@[simp] theorem State.traffic_pwr (s : State) : (State.traffic s).pwr = s.pwr := rfl
@[simp] theorem State.traffic_clk (s : State) : (State.traffic s).clk = s.clk := rfl
@[simp] theorem State.traffic_ltn (s : State) : (State.traffic s).ltn = s.ltn := rfl
@[simp] theorem State.traffic_lmp (s : State) : (State.traffic s).lmp = s.lmp := rfl
@[simp] theorem State.traffic_sto (s : State) : (State.traffic s).sto = s.sto := rfl
@[simp] theorem State.traffic_tabs (s : State) : (State.traffic s).tabs = s.tabs := rfl
@[simp] theorem State.traffic_waits (s : State) : (State.traffic s).waits = s.waits := rfl
@[simp] theorem State.traffic_pipes (s : State) : (State.traffic s).pipes = s.pipes := rfl
@[simp] theorem State.traffic_wck (s : State) : (State.traffic s).wck = s.wck := rfl
@[simp] theorem State.traffic_mer (s : State) : (State.traffic s).mer = s.mer := rfl
@[simp] theorem State.traffic_links (s : State) : (State.traffic s).links = s.links := rfl
@[simp] theorem State.traffic_twn (s : State) : (State.traffic s).twn = s.twn := rfl
@[simp] theorem State.traffic_pho (s : State) : (State.traffic s).pho = s.pho := rfl
@[simp] theorem State.traffic_drm (s : State) : (State.traffic s).drm = s.drm := rfl
@[simp] theorem State.traffic_tim (s : State) : (State.traffic s).tim = s.tim := rfl
@[simp] theorem State.traffic_eye (s : State) : (State.traffic s).eye = s.eye := rfl
@[simp] theorem State.traffic_alm (s : State) : (State.traffic s).alm = s.alm := rfl
@[simp] theorem State.traffic_out (s : State) : (State.traffic s).out = s.out := rfl
@[simp] theorem State.traffic_free (s : State) : (State.traffic s).free = s.free := rfl
@[simp] theorem State.traffic_pending (s : State) : (State.traffic s).pending = s.pending := rfl

@[simp] theorem State.clearPending_dev (s : State) (vec : Nat) : (State.clearPending s vec).dev = s.dev := rfl
@[simp] theorem State.clearPending_pwr (s : State) (vec : Nat) : (State.clearPending s vec).pwr = s.pwr := rfl
@[simp] theorem State.clearPending_clk (s : State) (vec : Nat) : (State.clearPending s vec).clk = s.clk := rfl
@[simp] theorem State.clearPending_ltn (s : State) (vec : Nat) : (State.clearPending s vec).ltn = s.ltn := rfl
@[simp] theorem State.clearPending_lmp (s : State) (vec : Nat) : (State.clearPending s vec).lmp = s.lmp := rfl
@[simp] theorem State.clearPending_sto (s : State) (vec : Nat) : (State.clearPending s vec).sto = s.sto := rfl
@[simp] theorem State.clearPending_tabs (s : State) (vec : Nat) : (State.clearPending s vec).tabs = s.tabs := rfl
@[simp] theorem State.clearPending_waits (s : State) (vec : Nat) : (State.clearPending s vec).waits = s.waits := rfl
@[simp] theorem State.clearPending_pipes (s : State) (vec : Nat) : (State.clearPending s vec).pipes = s.pipes := rfl
@[simp] theorem State.clearPending_wck (s : State) (vec : Nat) : (State.clearPending s vec).wck = s.wck := rfl
@[simp] theorem State.clearPending_mer (s : State) (vec : Nat) : (State.clearPending s vec).mer = s.mer := rfl
@[simp] theorem State.clearPending_links (s : State) (vec : Nat) : (State.clearPending s vec).links = s.links := rfl
@[simp] theorem State.clearPending_twn (s : State) (vec : Nat) : (State.clearPending s vec).twn = s.twn := rfl
@[simp] theorem State.clearPending_pho (s : State) (vec : Nat) : (State.clearPending s vec).pho = s.pho := rfl
@[simp] theorem State.clearPending_drm (s : State) (vec : Nat) : (State.clearPending s vec).drm = s.drm := rfl
@[simp] theorem State.clearPending_tim (s : State) (vec : Nat) : (State.clearPending s vec).tim = s.tim := rfl
@[simp] theorem State.clearPending_eye (s : State) (vec : Nat) : (State.clearPending s vec).eye = s.eye := rfl
@[simp] theorem State.clearPending_alm (s : State) (vec : Nat) : (State.clearPending s vec).alm = s.alm := rfl
@[simp] theorem State.clearPending_out (s : State) (vec : Nat) : (State.clearPending s vec).out = s.out := rfl
@[simp] theorem State.clearPending_free (s : State) (vec : Nat) : (State.clearPending s vec).free = s.free := rfl
@[simp] theorem State.clearPending_pending (s : State) (vec : Nat) : (State.clearPending s vec).pending = s.pending := rfl

end Sys2Proof.Machine
end

