-- ==== Sys2Proof/Laws/Regs.lean ====
section
/-! SUPPORT. Reading after writing: sparse maps, registers, and the units of the block. -/

namespace Sys2Proof.Machine

theorem getD_upd_same {α : Type} {i : Nat} {f : α → α} {l : List α} {d : α} (h : i < l.length) :
    (upd i f l).getD i d = f (l.getD i d) := by
  induction l generalizing i with
  | nil => simp at h
  | cons a t ih =>
    cases i with
    | zero => simp [upd]
    | succ n =>
      have := ih (i := n) (by simpa using h)
      simpa [upd] using this

theorem getD_upd_ne {α : Type} {i j : Nat} {f : α → α} {l : List α} {d : α} (h : j ≠ i) :
    (upd i f l).getD j d = l.getD j d := by
  induction l generalizing i j with
  | nil => cases i <;> simp [upd]
  | cons a t ih =>
    cases i with
    | zero => cases j with
      | zero => exact absurd rfl h
      | succ n => simp [upd]
    | succ n => cases j with
      | zero => simp [upd]
      | succ m =>
        have := ih (i := n) (j := m) (by omega)
        simpa [upd] using this

theorem SMap.find?_del_ne {α : Type} {k j : Nat} (m : SMap α) (h : j ≠ k) : (m.del k).find? j = m.find? j := by
  induction m with
  | nil => rfl
  | cons e t ih =>
    obtain ⟨a, b⟩ := e
    simp only [SMap.del]
    split
    · rename_i hk
      simp [SMap.find?, hk, Ne.symm h]
    · simp only [SMap.find?, ih]

theorem SMap.find?_ins_ne {α : Type} {k j : Nat} {v : α} (m : SMap α) (h : j ≠ k) : (m.ins k v).find? j = m.find? j := by
  induction m with
  | nil => simp [SMap.ins, SMap.find?, Ne.symm h]
  | cons e t ih =>
    obtain ⟨a, b⟩ := e
    simp only [SMap.ins]
    split
    · simp [SMap.find?, Ne.symm h]
    · split
      · rename_i hk
        simp [SMap.find?, hk, Ne.symm h]
      · simp only [SMap.find?, ih]

theorem SMap.find?_ins_same {α : Type} {k : Nat} {v : α} (m : SMap α) : (m.ins k v).find? k = some v := by
  induction m with
  | nil => simp [SMap.ins, SMap.find?]
  | cons e t ih =>
    obtain ⟨a, b⟩ := e
    simp only [SMap.ins]
    split
    · simp [SMap.find?]
    · split
      · simp [SMap.find?]
      · rename_i hk
        simp [SMap.find?, hk, ih]

theorem SMap.find?_none {α : Type} {k : Nat} (m : SMap α) (h : ∀ x ∈ m, k < x.1) : m.find? k = none := by
  induction m with
  | nil => rfl
  | cons e t ih =>
    obtain ⟨a, b⟩ := e
    have h1 := h (a, b) (by simp)
    have h2 := ih fun x hx => h x (by simp [hx])
    simp only [SMap.find?, h2]
    split
    · dsimp only at h1
      omega
    · rfl

theorem SMap.find?_del_same {α : Type} {k : Nat} (m : SMap α) (h : m.sorted = true) : (m.del k).find? k = none := by
  induction m with
  | nil => rfl
  | cons e t ih =>
    obtain ⟨a, b⟩ := e
    have h' := (SMap.sorted_cons (a, b) t).mp h
    simp only [SMap.del]
    split
    · rename_i hk
      exact SMap.find?_none t (hk ▸ h'.1)
    · rename_i hk
      simp [SMap.find?, hk, ih h'.2]

theorem SMap.find?_put_ne {α : Type} [DecidableEq α] {d : α} {k j : Nat} {v : α} (m : SMap α) (h : j ≠ k) :
    (m.put d k v).find? j = m.find? j := by
  unfold SMap.put
  split
  · exact SMap.find?_del_ne m h
  · exact SMap.find?_ins_ne m h

theorem SMap.get_put_same {α : Type} [DecidableEq α] {d : α} {k : Nat} {v : α} (m : SMap α) (h : m.sorted = true) :
    (m.put d k v).get d k = v := by
  unfold SMap.put SMap.get
  split
  · rename_i hv
    rw [SMap.find?_del_same m h, hv]
    rfl
  · rw [SMap.find?_ins_same]
    rfl

theorem SMap.get_put_ne {α : Type} [DecidableEq α] {d e : α} {k j : Nat} {v : α} (m : SMap α) (h : j ≠ k) :
    (m.put d k v).get e j = m.get e j := by
  unfold SMap.get
  rw [SMap.find?_put_ne m h]

/-- A byte written is read back. -/
theorem Memory.read_write_same (fill : Byte) (m : Memory) (a : Nat) (b : Byte) (h : m.wf fill = true) :
    (m.write fill a b).read fill a = b := by
  simp only [Memory.wf, SMap.wf, Bool.and_eq_true] at h
  exact SMap.get_put_same m h.1

/-- Every other byte stays. -/
theorem Memory.read_write_ne (fill : Byte) (m : Memory) {a j : Nat} (b : Byte) (h : j ≠ a) :
    (m.write fill a b).read fill j = m.read fill j :=
  SMap.get_put_ne m h

/-- A run of bytes written leaves every byte outside it. -/
theorem Memory.read_writes_out (fill : Byte) (l : Bytes) (m : Memory) (a j : Nat) (h : j < a ∨ a + l.length ≤ j) :
    (m.writes fill a l).read fill j = m.read fill j := by
  induction l generalizing m a with
  | nil => rfl
  | cons b t ih =>
    have h1 : j < a + 1 ∨ a + 1 + t.length ≤ j := by simp only [List.length_cons] at h; omega
    rw [Memory.writes, ih _ _ h1, Memory.read_write_ne]
    simp only [List.length_cons] at h
    omega

/-- A register written is read back. -/
theorem State.rd_wr_same (s : State) (r : Reg) (v : Word) (i j k : Nat) (h : s.regs.sorted = true) :
    (s.wr r v i j k).rd r i j k = v :=
  SMap.get_put_same s.regs h

/-- A register at another offset stays. -/
theorem State.rd_wr_ne (s : State) (r q : Reg) (v : Word) (i j k a b c : Nat) (h : q.addr a b c ≠ r.addr i j k) :
    (s.wr r v i j k).rd q a b c = s.rd q a b c :=
  SMap.get_put_ne s.regs h

theorem State.wr_regsOnlyAt (s : State) (r : Reg) (v : Word) (i j k : Nat) : s.regsOnlyAt (s.wr r v i j k) [r.addr i j k] := by
  intro off
  by_cases h : off = r.addr i j k
  · exact .inl (by simp [h])
  · exact .inr (SMap.find?_put_ne s.regs h)

theorem State.regsOnlyAt_refl (s : State) (l : List Nat) : s.regsOnlyAt s l := fun _ => .inr rfl

theorem State.regsOnlyAt_trans {s t u : State} {l m : List Nat} (h : s.regsOnlyAt t l) (h' : t.regsOnlyAt u m) :
    s.regsOnlyAt u (l ++ m) := by
  intro off
  rcases h off with h1 | h1
  · exact .inl (by simp [h1])
  · rcases h' off with h2 | h2
    · exact .inl (by simp [h2])
    · exact .inr (h2.trans h1)

theorem State.link_updLink_same (s : State) {p : Nat} (f : Link → Link) (h : p < s.links.length) :
    (s.updLink p f).link p = f (s.link p) := getD_upd_same h

theorem State.link_updLink_ne (s : State) {p q : Nat} (f : Link → Link) (h : q ≠ p) : (s.updLink p f).link q = s.link q :=
  getD_upd_ne h

theorem State.pipe_updPipe_same (s : State) {p : Nat} (f : Pipe → Pipe) (h : p < s.pipes.length) :
    (s.updPipe p f).pipe p = f (s.pipe p) := getD_upd_same h

theorem State.pipe_updPipe_ne (s : State) {p q : Nat} (f : Pipe → Pipe) (h : q ≠ p) : (s.updPipe p f).pipe q = s.pipe q :=
  getD_upd_ne h

theorem State.wick_updWick_same (s : State) {p : Nat} (f : WickPort → WickPort) (h : p < s.wck.length) :
    (s.updWick p f).wick p = f (s.wick p) := getD_upd_same h

theorem State.wick_updWick_ne (s : State) {p q : Nat} (f : WickPort → WickPort) (h : q ≠ p) : (s.updWick p f).wick q = s.wick q :=
  getD_upd_ne h

theorem State.ring_updRing_same (s : State) {r : Nat} (f : Ring → Ring) (h : r < s.hst.rings.length) :
    (s.updRing r f).ring r = f (s.ring r) := getD_upd_same h

theorem State.ring_updRing_ne (s : State) {r q : Nat} (f : Ring → Ring) (h : q ≠ r) : (s.updRing r f).ring q = s.ring q :=
  getD_upd_ne h

theorem State.xing_updXing_same (s : State) {x : Nat} (f : Crossing → Crossing) (h : x < s.clk.xings.length) :
    (s.updXing x f).xing x = f (s.xing x) := getD_upd_same h

theorem State.xing_updXing_ne (s : State) {x q : Nat} (f : Crossing → Crossing) (h : q ≠ x) : (s.updXing x f).xing q = s.xing q :=
  getD_upd_ne h

end Sys2Proof.Machine
end

