-- ==== Sys2Proof/Laws/Sound.lean ====
section
/-! SUPPORT. Every shared operation keeps `State.sound`: one lemma for each, in the order of the definitions. The meanings of the
commands are compositions of these. -/

set_option linter.unusedSimpArgs false
set_option linter.unreachableTactic false
set_option linter.unusedTactic false
set_option linter.unusedVariables false

namespace Sys2Proof.Machine

theorem State.sound_mk (regs : SMap Word) (dev pwr clk ltn lmp hst sto tabs waits pipes wck mer links twn pho drm tim eye alm out free pending) :
  State.sound (State.mk regs dev pwr clk ltn lmp hst sto tabs waits pipes wck mer links twn pho drm tim eye alm out free pending) ↔
   (regs.sorted = true ∧ drm.mem.wf Memory.dramFill = true ∧ alm.flash.wf Memory.flashFill = true) ∧
   (pipes.length = 24 ∧ wck.length = 24 ∧ links.length = 26 ∧ hst.rings.length = 64 ∧ clk.xings.length = 40
    ∧ ltn.classes.length = 3 ∧ mer.encs.length = 2
    ∧ mer.latches.length = 8 ∧ mer.latchDue.length = 8 ∧ mer.cmps.length = 16 ∧ mer.strobes.length = 4
    ∧ mer.camtrigs.length = 4 ∧ mer.tpulses.length = 8 ∧ pho.cams.length = 4 ∧ drm.chans.length = 4
    ∧ tim.gens.length = 8)
   ∧ sto.fit ∧ (∀ w ∈ wck, WickPort.fit w) ∧ twn.fit ∧ ∀ c ∈ drm.chans, Channel.fit c := Iff.rfl

theorem State.sound_regs {s : State} (h : s.sound) : s.regs.sorted = true := h.1.1
theorem State.sound_mem {s : State} (h : s.sound) : s.drm.mem.wf Memory.dramFill = true := h.1.2.1
theorem State.sound_flash {s : State} (h : s.sound) : s.alm.flash.wf Memory.flashFill = true := h.1.2.2
theorem State.sound_pipes {s : State} (h : s.sound) : s.pipes.length = 24 := h.2.1.1
theorem State.sound_wck {s : State} (h : s.sound) : s.wck.length = 24 := h.2.1.2.1
theorem State.sound_links {s : State} (h : s.sound) : s.links.length = 26 := h.2.1.2.2.1
theorem State.sound_rings {s : State} (h : s.sound) : s.hst.rings.length = 64 := h.2.1.2.2.2.1
theorem State.sound_xings {s : State} (h : s.sound) : s.clk.xings.length = 40 := h.2.1.2.2.2.2.1
theorem State.sound_classes {s : State} (h : s.sound) : s.ltn.classes.length = 3 := h.2.1.2.2.2.2.2.1
theorem State.sound_encs {s : State} (h : s.sound) : s.mer.encs.length = 2 := h.2.1.2.2.2.2.2.2.1
theorem State.sound_latches {s : State} (h : s.sound) : s.mer.latches.length = 8 := h.2.1.2.2.2.2.2.2.2.1
theorem State.sound_latchDue {s : State} (h : s.sound) : s.mer.latchDue.length = 8 := h.2.1.2.2.2.2.2.2.2.2.1
theorem State.sound_cmps {s : State} (h : s.sound) : s.mer.cmps.length = 16 := h.2.1.2.2.2.2.2.2.2.2.2.1
theorem State.sound_strobes {s : State} (h : s.sound) : s.mer.strobes.length = 4 := h.2.1.2.2.2.2.2.2.2.2.2.2.1
theorem State.sound_camtrigs {s : State} (h : s.sound) : s.mer.camtrigs.length = 4 := h.2.1.2.2.2.2.2.2.2.2.2.2.2.1
theorem State.sound_tpulses {s : State} (h : s.sound) : s.mer.tpulses.length = 8 := h.2.1.2.2.2.2.2.2.2.2.2.2.2.2.1
theorem State.sound_cams {s : State} (h : s.sound) : s.pho.cams.length = 4 := h.2.1.2.2.2.2.2.2.2.2.2.2.2.2.2.1
theorem State.sound_chans {s : State} (h : s.sound) : s.drm.chans.length = 4 := h.2.1.2.2.2.2.2.2.2.2.2.2.2.2.2.2.1
theorem State.sound_gens {s : State} (h : s.sound) : s.tim.gens.length = 8 := h.2.1.2.2.2.2.2.2.2.2.2.2.2.2.2.2.2

theorem State.sound_sto {s : State} (h : s.sound) : s.sto.fit := h.2.2.1
theorem State.sound_heads {s : State} (h : s.sound) : ∀ w ∈ s.wck, w.fit := h.2.2.2.1
theorem State.sound_before {s : State} (h : s.sound) : s.twn.fit := h.2.2.2.2.1
theorem State.sound_channels {s : State} (h : s.sound) : ∀ c ∈ s.drm.chans, c.fit := h.2.2.2.2.2

theorem Store.reset_fit : Store.fit ⟨[], List.replicate 4 Group.reset, 0⟩ := by decide
theorem WickPort.reset_fit : WickPort.fit WickPort.reset := by decide
theorem Channel.reset_fit : Channel.fit Channel.reset := by decide

theorem forall_mem_upd {α : Type} {q : α → Prop} {l : List α} (i : Nat) {f : α → α} (h : ∀ x ∈ l, q x) (hf : ∀ x, q x → q (f x)) :
    ∀ x ∈ upd i f l, q x := by
  induction l generalizing i with
  | nil => cases i <;> exact h
  | cons a t ih =>
    rw [List.forall_mem_cons] at h
    cases i with
    | zero => exact List.forall_mem_cons.mpr ⟨hf a h.1, h.2⟩
    | succ n => exact List.forall_mem_cons.mpr ⟨h.1, ih n h.2⟩

theorem forall_mem_map {α β : Type} {q : α → Prop} {r : β → Prop} {l : List α} {f : α → β} (h : ∀ x ∈ l, q x) (hf : ∀ x, q x → r (f x)) :
    ∀ x ∈ l.map f, r x := by
  simp only [List.mem_map, forall_exists_index, and_imp]
  rintro x a ha rfl
  exact hf a (h a ha)

/-- The invariant holds of a next state. -/
def Out.sound : Out → Prop
  | .next t => t.sound
  | .fault _ => True
  | .refused _ => True

theorem Out.sound_next (t : State) : Out.sound (.next t) = t.sound := rfl

theorem State.sound_ite (c : Prop) [Decidable c] (a b : State) : State.sound (if c then a else b) = if c then a.sound else b.sound := by
  split <;> rfl

theorem Out.sound_ite (c : Prop) [Decidable c] (a b : Out) : Out.sound (if c then a else b) = if c then a.sound else b.sound := by
  split <;> rfl

theorem State.each_sound {α : Type} (s : State) (l : List α) (f : State → α → State) (h : s.sound)
    (hf : ∀ s a, s.sound → (f s a).sound) : (s.each l f).sound := by
  unfold State.each
  induction l generalizing s with
  | nil => exact h
  | cons a t ih => exact ih _ (hf s a h)

theorem foldl_sound {α : Type} (s : State) (l : List α) (f : State → α → State) (h : s.sound)
    (hf : ∀ s a, s.sound → (f s a).sound) : (l.foldl f s).sound := State.each_sound s l f h hf

theorem State.sound_if {c : Prop} [Decidable c] {a b : State} (ha : c → a.sound) (hb : ¬ c → b.sound) : State.sound (if c then a else b) := by
  split
  · exact ha ‹_›
  · exact hb ‹_›

theorem Out.sound_if {c : Prop} [Decidable c] {a b : Out} (ha : c → a.sound) (hb : ¬ c → b.sound) : Out.sound (if c then a else b) := by
  split
  · exact ha ‹_›
  · exact hb ‹_›

theorem Out.sound_of {t : State} (h : t.sound) : Out.sound (.next t) := h

theorem State.sound_set_regs {s : State} {x : SMap Word} (h : s.sound) (hx : (s.regs.sorted = true → x.sorted = true)) :
    State.sound { s with regs := x } := ⟨⟨hx h.1.1, h.1.2⟩, h.2⟩

theorem State.sound_set_dev {s : State} {x : Device} (h : s.sound) :
    State.sound { s with dev := x } := h

theorem State.sound_set_pwr {s : State} {x : Power} (h : s.sound) :
    State.sound { s with pwr := x } := h

theorem State.sound_set_clk {s : State} {x : Clocks} (h : s.sound) (hx : x.xings.length = s.clk.xings.length) :
    State.sound { s with clk := x } := by
  obtain ⟨⟨h1, h2, h3⟩, h4, h5⟩ := h
  refine ⟨⟨?_, ?_, ?_⟩, ?_, h5⟩ <;> simp_all [State.shaped]

theorem State.sound_set_ltn {s : State} {x : Lantern} (h : s.sound) (hx : x.classes.length = s.ltn.classes.length) :
    State.sound { s with ltn := x } := by
  obtain ⟨⟨h1, h2, h3⟩, h4, h5⟩ := h
  refine ⟨⟨?_, ?_, ?_⟩, ?_, h5⟩ <;> simp_all [State.shaped]

theorem State.sound_set_lmp {s : State} {x : Lamplighter} (h : s.sound) :
    State.sound { s with lmp := x } := h

theorem State.sound_set_hst {s : State} {x : Host'} (h : s.sound) (hx : x.rings.length = s.hst.rings.length) :
    State.sound { s with hst := x } := by
  obtain ⟨⟨h1, h2, h3⟩, h4, h5⟩ := h
  refine ⟨⟨?_, ?_, ?_⟩, ?_, h5⟩ <;> simp_all [State.shaped]

theorem State.sound_set_sto {s : State} {x : Store} (h : s.sound) (hx : s.sto.fit → x.fit := by exact fun h => h) :
    State.sound { s with sto := x } := ⟨h.1, h.2.1, hx h.2.2.1, h.2.2.2⟩

theorem State.sound_set_tabs {s : State} {x : List Tab} (h : s.sound) :
    State.sound { s with tabs := x } := h

theorem State.sound_set_waits {s : State} {x : List WaitLoad} (h : s.sound) :
    State.sound { s with waits := x } := h

theorem State.sound_set_pipes {s : State} {x : List Pipe} (h : s.sound) (hx : x.length = s.pipes.length) :
    State.sound { s with pipes := x } := by
  obtain ⟨⟨h1, h2, h3⟩, h4, h5⟩ := h
  refine ⟨⟨?_, ?_, ?_⟩, ?_, h5⟩ <;> simp_all [State.shaped]

theorem State.sound_set_wck {s : State} {x : List WickPort} (h : s.sound) (hx : x.length = s.wck.length)
    (hf : (∀ w ∈ s.wck, w.fit) → ∀ w ∈ x, w.fit) : State.sound { s with wck := x } := by
  obtain ⟨⟨h1, h2, h3⟩, h4, h5, h6, h7, h8⟩ := h
  refine ⟨⟨?_, ?_, ?_⟩, ?_, h5, hf h6, h7, h8⟩ <;> simp_all [State.shaped]

theorem State.sound_set_mer {s : State} {x : Meridian} (h : s.sound) (hx : (x.encs.length = s.mer.encs.length ∧ x.latches.length = s.mer.latches.length ∧ x.latchDue.length = s.mer.latchDue.length ∧ x.cmps.length = s.mer.cmps.length ∧ x.strobes.length = s.mer.strobes.length ∧ x.camtrigs.length = s.mer.camtrigs.length ∧ x.tpulses.length = s.mer.tpulses.length)) :
    State.sound { s with mer := x } := by
  obtain ⟨⟨h1, h2, h3⟩, h4, h5⟩ := h
  refine ⟨⟨?_, ?_, ?_⟩, ?_, h5⟩ <;> simp_all [State.shaped]

theorem State.sound_set_links {s : State} {x : List Link} (h : s.sound) (hx : x.length = s.links.length) :
    State.sound { s with links := x } := by
  obtain ⟨⟨h1, h2, h3⟩, h4, h5⟩ := h
  refine ⟨⟨?_, ?_, ?_⟩, ?_, h5⟩ <;> simp_all [State.shaped]

theorem State.sound_set_twn {s : State} {x : Twin} (h : s.sound) (hx : s.twn.fit → x.fit := by exact fun h => h) :
    State.sound { s with twn := x } := ⟨h.1, h.2.1, h.2.2.1, h.2.2.2.1, hx h.2.2.2.2.1, h.2.2.2.2.2⟩

theorem State.sound_set_pho {s : State} {x : Photometer} (h : s.sound) (hx : x.cams.length = s.pho.cams.length) :
    State.sound { s with pho := x } := by
  obtain ⟨⟨h1, h2, h3⟩, h4, h5⟩ := h
  refine ⟨⟨?_, ?_, ?_⟩, ?_, h5⟩ <;> simp_all [State.shaped]

theorem State.sound_set_drm {s : State} {x : Dram} (h : s.sound) (hx : (x.chans.length = s.drm.chans.length ∧ (s.drm.mem.wf Memory.dramFill = true → x.mem.wf Memory.dramFill = true)))
    (hf : (∀ c ∈ s.drm.chans, c.fit) → ∀ c ∈ x.chans, c.fit := by exact fun h => h) : State.sound { s with drm := x } := by
  obtain ⟨⟨h1, h2, h3⟩, h4, h5, h6, h7, h8⟩ := h
  refine ⟨⟨?_, ?_, ?_⟩, ?_, h5, h6, h7, hf h8⟩ <;> simp_all [State.shaped]

theorem State.sound_set_tim {s : State} {x : TimeBlock} (h : s.sound) (hx : x.gens.length = s.tim.gens.length) :
    State.sound { s with tim := x } := by
  obtain ⟨⟨h1, h2, h3⟩, h4, h5⟩ := h
  refine ⟨⟨?_, ?_, ?_⟩, ?_, h5⟩ <;> simp_all [State.shaped]

theorem State.sound_set_eye {s : State} {x : Eyepiece} (h : s.sound) :
    State.sound { s with eye := x } := h

theorem State.sound_set_alm {s : State} {x : Almanac} (h : s.sound) (hx : (s.alm.flash.wf Memory.flashFill = true → x.flash.wf Memory.flashFill = true)) :
    State.sound { s with alm := x } := by
  obtain ⟨⟨h1, h2, h3⟩, h4, h5⟩ := h
  refine ⟨⟨?_, ?_, ?_⟩, ?_, h5⟩ <;> simp_all [State.shaped]

theorem State.sound_set_out {s : State} {x : List Output} (h : s.sound) :
    State.sound { s with out := x } := h

theorem State.sound_set_free {s : State} {x : Nat} (h : s.sound) :
    State.sound { s with free := x } := h

theorem State.sound_set_pending {s : State} {x : List Instr} (h : s.sound) :
    State.sound { s with pending := x } := h

theorem Memory.wf_writeThrough (f : Nat → Nat) (l : Bytes) (m : Memory) (v : Nat) (h : m.wf Memory.dramFill = true) :
    (Memory.writeThrough f m v l).wf Memory.dramFill = true := by
  induction l generalizing m v with
  | nil => exact h
  | cons b t ih => exact ih _ _ (Memory.wf_write _ _ _ _ h)

theorem State.sorted_keptRegs (s : State) (mask : Reg → Nat → Word) : (s.keptRegs mask).sorted = true := by
  unfold State.keptRegs
  refine SMap.sorted_foldl _ (fun m e h => ?_) _ _ rfl
  dsimp only
  split
  · exact SMap.sorted_put _ _ _ _ h
  · exact h

theorem State.wf_cutWrite (s : State) (h : s.sound) : s.cutWrite.wf Memory.flashFill = true := by
  unfold State.cutWrite
  split
  · exact State.sound_flash h
  · exact Memory.wf_writes _ _ _ _ (Memory.wf_filter _ _ _ (State.sound_flash h))

theorem State.sound_let {s : State} {f : State → State} (h : s.sound) (hf : ∀ u : State, u.sound → (f u).sound) : (f s).sound := hf s h


theorem ruleOf_mem {α : Type} {r : Reg} {l : List (Reg × α)} {f : α} (h : ruleOf r l = some f) : ∃ a, (a, f) ∈ l := by
  simp only [ruleOf, Option.map_eq_some_iff] at h
  obtain ⟨⟨a, b⟩, h, rfl⟩ := h
  exact ⟨a, List.mem_of_find?_eq_some h⟩


theorem SMap.mem_of_find? {α : Type} (k : Nat) (m : SMap α) {v : α} (h : m.find? k = some v) : (k, v) ∈ m := by
  induction m with
  | nil => simp [SMap.find?] at h
  | cons e t ih =>
    simp only [SMap.find?] at h
    split at h
    · rename_i hk
      cases h
      simp [← hk]
    · exact List.mem_cons_of_mem _ (ih h)

theorem nextFree_ge (used : List Nat) (n k : Nat) : k ≤ nextFree used n k := by
  induction n generalizing k with
  | zero => exact Nat.le_refl k
  | succ n ih =>
    simp only [nextFree]
    split
    · exact Nat.le_trans (Nat.le_succ k) (ih (k + 1))
    · exact Nat.le_refl k

theorem nextFree_mem (used : List Nat) (n k : Nat) (h : nextFree used n k ∈ used) : ∀ j ≤ n, k + j ∈ used := by
  induction n generalizing k with
  | zero =>
    intro j hj
    obtain rfl : j = 0 := by omega
    exact h
  | succ n ih =>
    simp only [nextFree] at h
    split at h
    · rename_i hk
      intro j hj
      cases j with
      | zero => simpa using hk
      | succ j =>
        have := ih (k + 1) h j (by omega)
        rwa [Nat.add_right_comm, Nat.add_assoc] at this
    · rename_i hk
      exact absurd (by simpa using h) hk

/-- A page found free is held by no section. -/
theorem nextFree_not_mem (used : List Nat) (k : Nat) : nextFree used used.length k ∉ used := by
  intro h
  have hj := nextFree_mem used used.length k h
  have hs : (List.range' k (used.length + 1)).Subperm used :=
    List.subperm_of_subset List.nodup_range' fun x hx => by
      obtain ⟨i, hi, rfl⟩ := List.mem_range'.mp hx
      simpa using hj i (by omega)
  have := hs.length_le
  simp at this

theorem takePages_spec (used : List Nat) (n k : Nat) :
    (takePages used n k).Nodup ∧ ∀ x ∈ takePages used n k, k ≤ x ∧ x ∉ used := by
  induction n generalizing k with
  | zero => simp [takePages]
  | succ n ih =>
    obtain ⟨h1, h2⟩ := ih (nextFree used used.length k + 1)
    have hg := nextFree_ge used used.length k
    refine ⟨List.nodup_cons.mpr ⟨fun hm => ?_, h1⟩, List.forall_mem_cons.mpr ⟨⟨hg, nextFree_not_mem used k⟩, fun x hx => ?_⟩⟩
    · have := (h2 _ hm).1
      omega
    · exact ⟨by have := (h2 x hx).1; omega, (h2 x hx).2⟩

/-- A section's page table holds no page twice (R51). -/
theorem State.pageTable_nodup (s : State) (n need : Nat) (h : ∀ e ∈ s.sto.sections, e.2.table.Nodup) :
    (s.pageTable n need (((s.sto.sections.find? n).map (·.table)).getD [])).Nodup := by
  unfold State.pageTable
  dsimp only
  generalize hg : (s.sto.sections.find? n).map (·.table) = o
  cases o with
  | none => simpa using (takePages_spec _ _ _).1
  | some held =>
    obtain ⟨x, hx, rfl⟩ := Option.map_eq_some_iff.mp hg
    have hm := SMap.mem_of_find? n _ hx
    refine List.nodup_append.mpr ⟨(h _ hm).sublist (List.take_sublist _ _), (takePages_spec _ _ _).1, ?_⟩
    intro a ha b hb hab
    subst hab
    refine ((takePages_spec _ _ _).2 a hb).2 (List.mem_flatMap.mpr ⟨_, hm, ?_⟩)
    simpa using List.mem_of_mem_take ha

theorem State.sound_table {s : State} (h : s.sound) {n : Nat} {x : Section'} (hx : s.sto.sections.find? n = some x) : x.table.Nodup :=
  (State.sound_sto h).2.1 _ (SMap.mem_of_find? n _ hx)

theorem Twin.fit_of_none {x : Twin} (h : x.before = none) : x.fit := fun b hb => by rw [h] at hb; cases hb

theorem Store.fit_filter {x : Store} (q : Nat × Section' → Bool) (f : Group → Group) (n : Nat) (h : x.fit) :
    Store.fit ⟨x.sections.filter q, x.groups.map f, n⟩ :=
  ⟨SMap.sorted_filter q _ h.1, fun e he => h.2.1 e (List.mem_filter.mp he).1, (List.length_map _).trans h.2.2⟩

theorem Store.fit_empty {x : Store} (f : Group → Group) (n : Nat) (h : x.fit) : Store.fit ⟨[], x.groups.map f, n⟩ :=
  ⟨rfl, fun _ he => absurd he List.not_mem_nil, (List.length_map _).trans h.2.2⟩

theorem WickPort.all_reset : ∀ w ∈ State.reset.wck, w.fit := fun _ hw => List.eq_of_mem_replicate hw ▸ WickPort.reset_fit

theorem Channel.all_reset : ∀ c ∈ State.reset.drm.chans, c.fit := fun _ hc => List.eq_of_mem_replicate hc ▸ Channel.reset_fit

/-! ### Machine/Ops.lean -/

theorem State.wr_sound (s : State) (r : Reg) (v : Word) (i : Nat) (j : Nat) (k : Nat) (hs₀ : s.sound) :
    (State.wr s r v i j k).sound := by
  unfold State.wr
  try dsimp only
  repeat' (first | with_reducible assumption | with_reducible intro _ hz | with_reducible intro hm | split
                 | with_reducible exact fun h => h | with_reducible exact fun _ h => h
                 | with_reducible apply State.sound_set_regs | exact hm | (simp [length_upd]; done)
                 | (simp [hm, length_upd, Memory.wf_writes, Memory.wf_write, SMap.sorted_put]; done))

theorem State.set_sound (s : State) (f : Fld) (v : Nat) (i : Nat) (j : Nat) (k : Nat) (hs₀ : s.sound) :
    (State.set s f v i j k).sound := by
  unfold State.set
  try dsimp only
  repeat' (first | with_reducible assumption | with_reducible apply State.wr_sound | split)

theorem State.count_sound (s : State) (f : Fld) (i : Nat) (j : Nat) (k : Nat) (n : Nat) (hs₀ : s.sound) :
    (State.count s f i j k n).sound := by
  unfold State.count
  try dsimp only
  repeat' (first | with_reducible assumption | with_reducible apply State.set_sound | split)

theorem State.fresh_sound (s : State) (hs₀ : s.sound) : (State.fresh s).2.sound := by
  unfold State.fresh
  try dsimp only
  repeat' (first | with_reducible assumption | with_reducible intro _ hz | with_reducible intro hm | split
                 | with_reducible exact fun h => h | with_reducible exact fun _ h => h
                 | with_reducible apply State.sound_set_free | (simp [length_upd]; done))

theorem State.emit_sound (s : State) (o : Output) (hs₀ : s.sound) : (State.emit s o).sound := by
  unfold State.emit
  try dsimp only
  repeat' (first | with_reducible assumption | with_reducible intro _ hz | with_reducible intro hm | split
                 | with_reducible exact fun h => h | with_reducible exact fun _ h => h
                 | with_reducible apply State.sound_set_out | (simp [length_upd]; done))

theorem State.raise_sound (s : State) (x : Src) (detail : Word) (inst0 : Nat) (inst1 : Nat) (cls : Option Nat) (action : Option Nat) (hs₀ : s.sound) :
    (State.raise s x detail inst0 inst1 cls action).sound := by
  unfold State.raise
  try dsimp only
  repeat' (first | with_reducible assumption | with_reducible intro _ hz | with_reducible intro hm | split
                 | with_reducible exact fun h => h | with_reducible exact fun _ h => h
                 | with_reducible apply State.sound_set_ltn | (simp [length_upd]; done))

theorem State.traffic_sound (s : State) (hs₀ : s.sound) : (State.traffic s).sound := by
  unfold State.traffic
  try dsimp only
  repeat' (first | with_reducible assumption | split)

theorem State.msix_sound (s : State) (vec : Nat) (cause : Option IrqSrc) (hs₀ : s.sound) : (State.msix s vec cause).sound := by
  unfold State.msix
  try dsimp only
  repeat' (first | with_reducible assumption | with_reducible apply State.emit_sound
                 | with_reducible apply State.traffic_sound | with_reducible apply State.wr_sound
                 | with_reducible apply State.sound_if | with_reducible intro _ hz | with_reducible intro hm | split
                 | with_reducible exact fun h => h | with_reducible exact fun _ h => h
                 | with_reducible apply State.sound_set_hst | (simp [length_upd]; done))

theorem State.irq_sound (s : State) (x : IrqSrc) (bit : Nat) (hs₀ : s.sound) : (State.irq s x bit).sound := by
  unfold State.irq
  try dsimp only
  repeat' (first | with_reducible assumption | with_reducible apply State.msix_sound | with_reducible apply State.wr_sound
                 | with_reducible apply State.sound_if | with_reducible intro _ hz | with_reducible intro hm | split
                 | with_reducible exact fun h => h | with_reducible exact fun _ h => h | (simp [length_upd]; done))

theorem State.clearPending_sound (s : State) (vec : Nat) (hs₀ : s.sound) : (State.clearPending s vec).sound := by
  unfold State.clearPending
  try dsimp only
  repeat' (first | with_reducible assumption | with_reducible apply State.wr_sound | with_reducible intro _ hz
                 | with_reducible intro hm | split)

theorem State.settlePending_sound (s : State) (hs₀ : s.sound) : (State.settlePending s).sound := by
  unfold State.settlePending
  try dsimp only
  repeat' (first | with_reducible assumption | with_reducible apply State.clearPending_sound
                 | with_reducible apply State.each_sound | with_reducible intro _ hz | with_reducible intro hm | split)

theorem State.refuse_sound (s : State) (off reason : Nat) (hs₀ : s.sound) : (State.refuse s off reason).sound := by
  unfold State.refuse
  try dsimp only
  repeat' (first | with_reducible assumption | with_reducible apply State.count_sound | with_reducible apply State.set_sound
                 | split)

theorem State.bar0_sound (s : State) (act : State → State) (hs₀ : s.sound) (hact : ∀ (u : State), u.sound → (act u).sound) :
    (State.bar0 s act).sound := by
  unfold State.bar0
  try dsimp only
  repeat' (first | with_reducible assumption | with_reducible apply hact | with_reducible apply State.traffic_sound
                 | with_reducible apply State.sound_if | with_reducible intro _ hz | with_reducible intro hm | split
                 | with_reducible exact fun h => h | with_reducible exact fun _ h => h | (simp [length_upd]; done))

theorem State.store_sound (s : State) (r : Reg) (v : Word) (i : Nat) (j : Nat) (k : Nat) (hs₀ : s.sound) :
    (State.store s r v i j k).sound := by
  unfold State.store
  try dsimp only
  repeat' (first | with_reducible assumption | with_reducible apply State.wr_sound | split)

theorem State.updXing_sound (s : State) (x : Nat) (f : Crossing → Crossing) (hs₀ : s.sound) : (State.updXing s x f).sound := by
  unfold State.updXing
  try dsimp only
  repeat' (first | with_reducible assumption | with_reducible intro _ hz | with_reducible intro hm | split
                 | with_reducible exact fun h => h | with_reducible exact fun _ h => h
                 | with_reducible apply State.sound_set_clk | (simp [length_upd]; done))

theorem State.enqueue_sound (s : State) (x off : Nat) (v : Word) (hs₀ : s.sound) : (State.enqueue s x off v).sound := by
  unfold State.enqueue
  try dsimp only
  repeat' (first | with_reducible assumption | with_reducible apply State.updXing_sound
                 | with_reducible apply State.sound_if | with_reducible intro _ hz | with_reducible intro hm | split)

theorem State.storeEncCtrl_sound (s : State) (e : Nat) (v : Word) (hs₀ : s.sound) : (State.storeEncCtrl s e v).sound := by
  unfold State.storeEncCtrl
  try dsimp only
  repeat' (first | with_reducible assumption | with_reducible apply State.store_sound | with_reducible apply State.sound_if
                 | with_reducible intro _ hz | with_reducible intro hm | split | with_reducible exact fun h => h
                 | with_reducible exact fun _ h => h | with_reducible apply State.sound_set_mer | (simp [length_upd]; done))

theorem State.storeSlipCtrl_sound (s : State) (v : Word) (hs₀ : s.sound) : (State.storeSlipCtrl s v).sound := by
  unfold State.storeSlipCtrl
  try dsimp only
  repeat' (first | with_reducible assumption | with_reducible apply State.store_sound | with_reducible apply State.sound_if
                 | with_reducible intro _ hz | with_reducible intro hm | split | with_reducible exact fun h => h
                 | with_reducible exact fun _ h => h | with_reducible apply State.sound_set_mer | (simp [length_upd]; done))

theorem State.storeSsiTiming_sound (s : State) (v : Word) (hs₀ : s.sound) : (State.storeSsiTiming s v).sound := by
  unfold State.storeSsiTiming
  try dsimp only
  repeat' (first | with_reducible assumption | with_reducible apply State.store_sound | with_reducible apply State.sound_if
                 | with_reducible intro _ hz | with_reducible intro hm | split | with_reducible exact fun h => h
                 | with_reducible exact fun _ h => h | with_reducible apply State.sound_set_mer | (simp [length_upd]; done))

theorem State.land_sound (s : State) (r : Reg) (v : Word) (i j k : Nat) (hs₀ : s.sound) : (State.land s r v i j k).sound := by
  unfold State.land
  try dsimp only
  repeat' (first | with_reducible assumption | with_reducible apply State.storeEncCtrl_sound
                 | with_reducible apply State.storeSlipCtrl_sound | with_reducible apply State.storeSsiTiming_sound
                 | with_reducible apply State.store_sound | with_reducible apply State.sound_if | with_reducible intro _ hz
                 | with_reducible intro hm | split | with_reducible exact fun h => h | with_reducible exact fun _ h => h
                 | (simp [length_upd]; done))

theorem State.applyPend_sound (s : State) (w : PendWrite) (hs₀ : s.sound) : (State.applyPend s w).sound := by
  unfold State.applyPend
  try dsimp only
  repeat' (first | with_reducible assumption | with_reducible apply State.land_sound
                 | with_reducible apply State.settlePending_sound | split)

theorem State.ahead_sound (s : State) (off : Nat) (hs₀ : s.sound) : (State.ahead s off).sound := by
  unfold State.ahead
  try dsimp only
  repeat' (first | with_reducible assumption | with_reducible apply State.applyPend_sound
                 | with_reducible apply State.updXing_sound | with_reducible apply foldl_sound | with_reducible intro _ hz
                 | with_reducible intro hm | split)

theorem State.drain_sound (s : State) (off : Nat) (hs₀ : s.sound) : (State.drain s off).sound := by
  unfold State.drain
  try dsimp only
  repeat' (first | with_reducible assumption | with_reducible apply State.applyPend_sound
                 | with_reducible apply State.updXing_sound | with_reducible apply foldl_sound
                 | with_reducible apply State.sound_if | with_reducible intro _ hz | with_reducible intro hm | split)

theorem State.resetXing_sound (s : State) (x : Nat) (hs₀ : s.sound) : (State.resetXing s x).sound := by
  unfold State.resetXing
  try dsimp only
  repeat' (first | with_reducible assumption | with_reducible apply State.updXing_sound | with_reducible intro _ hz
                 | with_reducible intro hm | split)

theorem State.gate_sound (s : State) (off : Nat) (v : Word) (checks : List (Nat × Bool)) (act : State → State) (hs₀ : s.sound) (hact : ∀ (u : State), u.sound → (act u).sound) :
    (State.gate s off v checks act).sound := by
  unfold State.gate
  try dsimp only
  repeat' (first | with_reducible assumption | with_reducible apply hact | with_reducible apply State.bar0_sound
                 | with_reducible apply State.drain_sound | with_reducible apply State.enqueue_sound
                 | with_reducible apply State.refuse_sound | with_reducible apply foldl_sound
                 | with_reducible apply State.sound_if | with_reducible intro _ hz | with_reducible intro hm | split)

theorem State.windowFault_sound (s : State) (ring addr : Nat) (action : Nat) (hs₀ : s.sound) :
    (State.windowFault s ring addr action).sound := by
  unfold State.windowFault
  try dsimp only
  repeat' (first | with_reducible assumption | with_reducible apply State.count_sound
                 | with_reducible apply State.raise_sound | split)

theorem State.hostWrite_sound (s : State) (addr : Nat) (bytes : Bytes) (data : Bool) (hs₀ : s.sound) :
    (State.hostWrite s addr bytes data).sound := by
  unfold State.hostWrite
  try dsimp only
  repeat' (first | with_reducible assumption | with_reducible apply State.emit_sound
                 | with_reducible apply State.traffic_sound | with_reducible intro _ hz | with_reducible intro hm | split
                 | with_reducible exact fun h => h | with_reducible exact fun _ h => h | (simp [length_upd]; done))

theorem State.updRing_sound (s : State) (r : Nat) (f : Ring → Ring) (hs₀ : s.sound) : (State.updRing s r f).sound := by
  unfold State.updRing
  try dsimp only
  repeat' (first | with_reducible assumption | with_reducible intro _ hz | with_reducible intro hm | split
                 | with_reducible exact fun h => h | with_reducible exact fun _ h => h
                 | with_reducible apply State.sound_set_hst | (simp [length_upd]; done))

theorem State.writeStatus_sound (s : State) (r : Nat) (hs₀ : s.sound) : (State.writeStatus s r).sound := by
  unfold State.writeStatus
  try dsimp only
  repeat' (first | with_reducible assumption | with_reducible apply State.hostWrite_sound
                 | with_reducible apply State.updRing_sound | with_reducible apply State.windowFault_sound
                 | with_reducible apply State.sound_if | with_reducible intro _ hz | with_reducible intro hm | split)

theorem State.signalRing_sound (s : State) (r : Nat) (hs₀ : s.sound) : (State.signalRing s r).sound := by
  unfold State.signalRing
  try dsimp only
  repeat' (first | with_reducible assumption | with_reducible apply State.msix_sound
                 | with_reducible apply State.updRing_sound | with_reducible apply State.writeStatus_sound
                 | with_reducible apply State.sound_if | with_reducible intro _ hz | with_reducible intro hm | split)

theorem State.pushEntry_sound (s : State) (r : Nat) (entry : Bytes) (irq : Bool) (hs₀ : s.sound) :
    (State.pushEntry s r entry irq).sound := by
  unfold State.pushEntry
  try dsimp only
  repeat' (first | with_reducible assumption | with_reducible apply State.hostWrite_sound
                 | with_reducible apply State.irq_sound | with_reducible apply State.signalRing_sound
                 | with_reducible apply State.updRing_sound | with_reducible apply State.sound_if
                 | with_reducible intro _ hz | with_reducible intro hm | split)

theorem State.complete_sound (s : State) (c : Ctx) (st : Status) (result : Nat) (hs₀ : s.sound) :
    (State.complete s c st result).sound := by
  unfold State.complete
  try dsimp only
  repeat' (first | with_reducible assumption | with_reducible apply State.updRing_sound
                 | with_reducible apply State.sound_if | with_reducible intro _ hz | with_reducible intro hm | split)

theorem State.completeOpt_sound (s : State) (c : Option Ctx) (st : Status) (result : Nat) (hs₀ : s.sound) :
    (State.completeOpt s c st result).sound := by
  unfold State.completeOpt
  try dsimp only
  repeat' (first | with_reducible assumption | with_reducible apply State.complete_sound | split)

theorem State.abortNotBegun_sound (s : State) (r : Nat) (hs₀ : s.sound) : (State.abortNotBegun s r).sound := by
  unfold State.abortNotBegun
  try dsimp only
  repeat' (first | with_reducible assumption | with_reducible apply State.complete_sound
                 | with_reducible apply State.each_sound | with_reducible intro _ hz | with_reducible intro hm | split
                 | with_reducible exact fun h => h | with_reducible exact fun _ h => h
                 | with_reducible apply State.sound_set_lmp | with_reducible apply State.sound_set_waits | exact hm
                 | (simp [length_upd]; done)
                 | (simp [hm, length_upd, Memory.wf_writes, Memory.wf_write, SMap.sorted_put]; done)
                 | (rw [State.sound_mk]; refine ⟨?_, ?_, State.sound_sto hs₀, State.sound_heads hs₀,
                      State.sound_before hs₀,
                      State.sound_channels hs₀⟩ <;> simp (maxDischargeDepth := 30) [length_upd,
                      List.length_map, Memory.wf_writes, Memory.wf_write, SMap.sorted_put, State.sound_regs,
                      State.sound_mem, State.sound_flash, State.sound_pipes, State.sound_wck,
                      State.sound_links, State.sound_rings, State.sound_xings, State.sound_classes,
                      State.sound_encs, State.sound_latches, State.sound_latchDue, State.sound_cmps,
                      State.sound_strobes, State.sound_camtrigs, State.sound_tpulses, State.sound_cams,
                      State.sound_chans, State.sound_gens, State.complete_sound, State.each_sound, hs₀]; done)
                 | (rw [State.sound_mk]; simp (maxDischargeDepth := 30) [length_upd, List.length_map,
                      Memory.wf_writes, Memory.wf_write, SMap.sorted_put, State.sound_regs, State.sound_mem,
                      State.sound_flash, State.sound_pipes, State.sound_wck, State.sound_links,
                      State.sound_rings, State.sound_xings, State.sound_classes, State.sound_encs,
                      State.sound_latches, State.sound_latchDue, State.sound_cmps, State.sound_strobes,
                      State.sound_camtrigs, State.sound_tpulses, State.sound_cams, State.sound_chans,
                      State.sound_gens, State.complete_sound, State.each_sound, hs₀]; done)
                 | (rw [State.sound_mk]; simp (maxDischargeDepth := 30) [length_upd, List.length_map,
                      Memory.wf_writes, Memory.wf_write, SMap.sorted_put, State.sound_regs, State.sound_mem,
                      State.sound_flash, State.sound_pipes, State.sound_wck, State.sound_links,
                      State.sound_rings, State.sound_xings, State.sound_classes, State.sound_encs,
                      State.sound_latches, State.sound_latchDue, State.sound_cmps, State.sound_strobes,
                      State.sound_camtrigs, State.sound_tpulses, State.sound_cams, State.sound_chans,
                      State.sound_gens, State.complete_sound, State.each_sound, hz]; done))

theorem State.stopRing_sound (s : State) (r addr : Nat) (hs₀ : s.sound) : (State.stopRing s r addr).sound := by
  unfold State.stopRing
  try dsimp only
  repeat' (first | with_reducible assumption | with_reducible apply State.abortNotBegun_sound
                 | with_reducible apply State.updRing_sound | with_reducible apply State.windowFault_sound
                 | with_reducible intro _ hz | with_reducible intro hm | split)

theorem State.postEvent_sound (s : State) (en ringF : Fld) (kind : Nat) (body : Bytes) (hs₀ : s.sound) :
    (State.postEvent s en ringF kind body).1.sound := by
  unfold State.postEvent
  try dsimp only
  repeat' (first | with_reducible assumption | with_reducible apply State.count_sound
                 | with_reducible apply State.pushEntry_sound | with_reducible apply State.stopRing_sound
                 | with_reducible apply State.updRing_sound | with_reducible apply State.sound_if
                 | with_reducible intro _ hz | with_reducible intro hm | split)

theorem State.enter_sound (s : State) (d : DevState) (hs₀ : s.sound) : (State.enter s d).sound := by
  unfold State.enter
  try dsimp only
  repeat' (first | with_reducible assumption | with_reducible apply State.irq_sound | with_reducible apply State.sound_if
                 | with_reducible intro _ hz | with_reducible intro hm | split | with_reducible exact fun h => h
                 | with_reducible exact fun _ h => h | with_reducible apply State.sound_set_dev
                 | with_reducible apply State.sound_set_hst | exact hm | (simp [length_upd]; done)
                 | (simp [hm, length_upd, Memory.wf_writes, Memory.wf_write, SMap.sorted_put]; done)
                 | (rw [State.sound_mk]; refine ⟨?_, ?_, State.sound_sto hs₀, State.sound_heads hs₀,
                      State.sound_before hs₀,
                      State.sound_channels hs₀⟩ <;> simp (maxDischargeDepth := 30) [length_upd,
                      List.length_map, Memory.wf_writes, Memory.wf_write, SMap.sorted_put, State.sound_regs,
                      State.sound_mem, State.sound_flash, State.sound_pipes, State.sound_wck,
                      State.sound_links, State.sound_rings, State.sound_xings, State.sound_classes,
                      State.sound_encs, State.sound_latches, State.sound_latchDue, State.sound_cmps,
                      State.sound_strobes, State.sound_camtrigs, State.sound_tpulses, State.sound_cams,
                      State.sound_chans, State.sound_gens, State.irq_sound, hs₀]; done)
                 | (rw [State.sound_mk]; simp (maxDischargeDepth := 30) [length_upd, List.length_map,
                      Memory.wf_writes, Memory.wf_write, SMap.sorted_put, State.sound_regs, State.sound_mem,
                      State.sound_flash, State.sound_pipes, State.sound_wck, State.sound_links,
                      State.sound_rings, State.sound_xings, State.sound_classes, State.sound_encs,
                      State.sound_latches, State.sound_latchDue, State.sound_cmps, State.sound_strobes,
                      State.sound_camtrigs, State.sound_tpulses, State.sound_cams, State.sound_chans,
                      State.sound_gens, State.irq_sound, hs₀]; done)
                 | (rw [State.sound_mk]; simp (maxDischargeDepth := 30) [length_upd, List.length_map,
                      Memory.wf_writes, Memory.wf_write, SMap.sorted_put, State.sound_regs, State.sound_mem,
                      State.sound_flash, State.sound_pipes, State.sound_wck, State.sound_links,
                      State.sound_rings, State.sound_xings, State.sound_classes, State.sound_encs,
                      State.sound_latches, State.sound_latchDue, State.sound_cmps, State.sound_strobes,
                      State.sound_camtrigs, State.sound_tpulses, State.sound_cams, State.sound_chans,
                      State.sound_gens, State.irq_sound, hz]; done))

theorem State.reachStep_sound (s : State) (n : Nat) (hs₀ : s.sound) : (State.reachStep s n).sound := by
  unfold State.reachStep
  try dsimp only
  repeat' (first | with_reducible assumption | split)

theorem State.wakeDram_sound (s : State) (hs₀ : s.sound) : (State.wakeDram s).sound := by
  unfold State.wakeDram
  try dsimp only
  repeat' (first | with_reducible assumption | with_reducible apply State.sound_if | with_reducible intro _ hz
                 | with_reducible intro hm | split | with_reducible exact fun h => h | with_reducible exact fun _ h => h
                 | with_reducible apply State.sound_set_drm | (simp [length_upd]; done))

theorem State.busyDone_sound (s : State) (hs₀ : s.sound) : (State.busyDone s).sound := by
  unfold State.busyDone
  try dsimp only
  repeat' (first | with_reducible assumption | with_reducible apply State.irq_sound | split)

theorem State.updPipe_sound (s : State) (p : Nat) (f : Pipe → Pipe) (hs₀ : s.sound) : (State.updPipe s p f).sound := by
  unfold State.updPipe
  try dsimp only
  repeat' (first | with_reducible assumption | with_reducible intro _ hz | with_reducible intro hm | split
                 | with_reducible exact fun h => h | with_reducible exact fun _ h => h
                 | with_reducible apply State.sound_set_pipes | (simp [length_upd]; done))

theorem State.updLink_sound (s : State) (p : Nat) (f : Link → Link) (hs₀ : s.sound) : (State.updLink s p f).sound := by
  unfold State.updLink
  try dsimp only
  repeat' (first | with_reducible assumption | with_reducible intro _ hz | with_reducible intro hm | split
                 | with_reducible exact fun h => h | with_reducible exact fun _ h => h
                 | with_reducible apply State.sound_set_links | (simp [length_upd]; done))

theorem State.updWick_sound (s : State) (p : Nat) (f : WickPort → WickPort) (hs₀ : s.sound) (hf : ∀ w : WickPort, w.fit → (f w).fit := by exact fun _ h => h) :
    (State.updWick s p f).sound := by
  exact State.sound_set_wck hs₀ (length_upd _ _ _) fun h => forall_mem_upd p h hf


/-! ### Machine/Tables.lean -/

theorem State.setTab_sound (s : State) (x : Tab) (hs₀ : s.sound) : (State.setTab s x).sound := by
  unfold State.setTab
  try dsimp only
  repeat' (first | with_reducible assumption | with_reducible intro _ hz | with_reducible intro hm | split
                 | with_reducible exact fun h => h | with_reducible exact fun _ h => h
                 | with_reducible apply State.sound_set_tabs | (simp [length_upd]; done))

theorem State.settleTab_sound (s : State) (k t : Nat) (hs₀ : s.sound) : (State.settleTab s k t).sound := by
  unfold State.settleTab
  try dsimp only
  repeat' (first | with_reducible assumption | with_reducible apply State.setTab_sound | with_reducible apply State.sound_if
                 | with_reducible intro _ hz | with_reducible intro hm | split | with_reducible exact fun h => h
                 | with_reducible exact fun _ h => h | (simp [length_upd]; done))

theorem State.flushTabs_sound (s : State) (hs₀ : s.sound) : (State.flushTabs s).sound := by
  unfold State.flushTabs
  try dsimp only
  repeat' (first | with_reducible assumption | with_reducible apply State.sound_if | with_reducible intro _ hz
                 | with_reducible intro hm | split | with_reducible exact fun h => h | with_reducible exact fun _ h => h
                 | with_reducible apply State.sound_set_tabs | (simp [length_upd]; done))


/-! ### Machine/Maintenance.lean -/

theorem State.actRun_sound (s : State) (a : Activity) (hs₀ : s.sound) : (State.actRun s a).sound := by
  unfold State.actRun
  try dsimp only
  repeat' (first | with_reducible assumption | with_reducible intro _ hz | with_reducible intro hm | split
                 | with_reducible exact fun h => h | with_reducible exact fun _ h => h
                 | with_reducible apply State.sound_set_lmp | (simp [length_upd]; done))

theorem State.actReport_sound (s : State) (a : Activity) (st : Status) (hs₀ : s.sound) : (State.actReport s a st).sound := by
  unfold State.actReport
  try dsimp only
  repeat' (first | with_reducible assumption | with_reducible apply State.complete_sound | split)

theorem State.actEnd_sound (s : State) (code target : Nat) (st : Status) (hs₀ : s.sound) :
    (State.actEnd s code target st).sound := by
  unfold State.actEnd
  try dsimp only
  repeat' (first | with_reducible assumption | with_reducible apply State.actReport_sound | with_reducible intro _ hz
                 | with_reducible intro hm | split | with_reducible exact fun h => h | with_reducible exact fun _ h => h
                 | with_reducible apply State.sound_set_lmp | (simp [length_upd]; done))

theorem State.actConflict_sound (s : State) (a : Activity) (blocking : Nat) (hs₀ : s.sound) :
    (State.actConflict s a blocking).sound := by
  unfold State.actConflict
  try dsimp only
  repeat' (first | with_reducible assumption | with_reducible apply State.complete_sound
                 | with_reducible apply State.count_sound | with_reducible apply State.raise_sound
                 | with_reducible apply State.set_sound | split)

theorem State.registerStart_sound (s : State) (off : Nat) (a : Activity) (act : State → State) (hs₀ : s.sound) (hact : ∀ (u : State), u.sound → (act u).sound) :
    (State.registerStart s off a act).sound := by
  unfold State.registerStart
  try dsimp only
  repeat' (first | with_reducible assumption | with_reducible apply hact | with_reducible apply State.actConflict_sound
                 | with_reducible apply State.refuse_sound | with_reducible apply State.sound_if | with_reducible intro _ hz
                 | with_reducible intro hm | split | with_reducible exact fun h => h | with_reducible exact fun _ h => h
                 | (simp [length_upd]; done))

theorem State.actArrive_sound (s : State) (a : Activity) (start : State → Activity → State) (hs₀ : s.sound) (hstart : ∀ (u : State) (z0 : Activity), u.sound → (start u z0).sound) :
    (State.actArrive s a start).sound := by
  unfold State.actArrive
  try dsimp only
  repeat' (first | with_reducible assumption | with_reducible apply hstart | with_reducible apply State.actConflict_sound
                 | with_reducible apply State.actRun_sound | with_reducible apply State.count_sound
                 | with_reducible apply State.refuse_sound | with_reducible apply State.sound_if | with_reducible intro _ hz
                 | with_reducible intro hm | split | with_reducible exact fun h => h | with_reducible exact fun _ h => h
                 | with_reducible apply State.sound_set_lmp | (simp [length_upd]; done))


/-! ### Machine/Placement.lean -/

theorem State.putSection_sound (s : State) (n : Nat) (x : Section') (hs₀ : s.sound) (hx : x.table.Nodup) :
    (State.putSection s n x).sound := by
  refine State.sound_set_sto hs₀ fun h => ⟨SMap.sorted_ins _ _ _ h.1, fun e he => ?_, h.2.2⟩
  rcases SMap.mem_ins _ _ _ he with rfl | he
  · exact hx
  · exact h.2.1 e he

theorem State.failRestore_sound (s : State) (n plane : Nat) (hs₀ : s.sound) : (State.failRestore s n plane).sound := by
  unfold State.failRestore
  split
  · rename_i x hx
    have ht := State.sound_table hs₀ hx
    exact State.putSection_sound s n { x with data := _ } hs₀ ht
  · exact hs₀

theorem State.setSection_sound (s : State) (n : Nat) (x : Section') (hs₀ : s.sound) : (State.setSection s n x).sound := by
  unfold State.setSection
  exact State.sound_set_drm (State.putSection_sound _ _ _ hs₀ (State.pageTable_nodup s n _ (State.sound_sto hs₀).2.1))
    ⟨rfl, fun hm => Memory.wf_foldl _ _ (fun m e h => Memory.wf_writeThrough _ _ _ _ h) _ _ hm⟩

theorem State.updGroup_sound (s : State) (g : Nat) (f : Group → Group) (hs₀ : s.sound) : (State.updGroup s g f).sound := by
  exact State.sound_set_sto hs₀ fun h => ⟨h.1, h.2.1, (length_upd _ _ _).trans h.2.2⟩

theorem State.releaseOld_sound (s : State) (g : Nat) (hs₀ : s.sound) : (State.releaseOld s g).sound := by
  unfold State.releaseOld
  try dsimp only
  repeat' (first | with_reducible assumption | with_reducible apply State.updGroup_sound
                 | with_reducible apply State.sound_if | with_reducible intro _ hz | with_reducible intro hm | split)

theorem State.settleGroup_sound (s : State) (g : Nat) (hs₀ : s.sound) : (State.settleGroup s g).sound := by
  unfold State.settleGroup
  try dsimp only
  repeat' (first | with_reducible assumption | with_reducible apply State.releaseOld_sound
                 | with_reducible apply State.updGroup_sound | with_reducible intro _ hz | with_reducible intro hm | split)

theorem State.settleGroups_sound (s : State) (hs₀ : s.sound) : (State.settleGroups s).sound := by
  unfold State.settleGroups
  try dsimp only
  repeat' (first | with_reducible assumption | with_reducible apply State.settleGroup_sound
                 | with_reducible apply foldl_sound | with_reducible intro _ hz | with_reducible intro hm | split)


/-! ### Machine/Frames.lean -/

theorem State.sendIdle_sound (s : State) (p : Nat) (hs₀ : s.sound) : (State.sendIdle s p).sound := by
  unfold State.sendIdle
  try dsimp only
  repeat' (first | with_reducible assumption | with_reducible apply State.emit_sound
                 | with_reducible apply State.updLink_sound | with_reducible intro _ hz | with_reducible intro hm | split)

theorem State.sendFrame_sound (s : State) (p : Nat) (frame : Bytes) (hs₀ : s.sound) : (State.sendFrame s p frame).sound := by
  unfold State.sendFrame
  try dsimp only
  repeat' (first | with_reducible assumption | with_reducible apply State.emit_sound
                 | with_reducible apply State.sendIdle_sound | with_reducible apply State.updLink_sound
                 | with_reducible intro _ hz | with_reducible intro hm | split)

theorem State.sendTrain_sound (s : State) (p : Nat) (block : Bytes) (hs₀ : s.sound) : (State.sendTrain s p block).sound := by
  unfold State.sendTrain
  try dsimp only
  repeat' (first | with_reducible assumption | with_reducible apply State.emit_sound | split)

theorem State.transmitCtl_sound (s : State) (p : Nat) (raw : Bytes) (seq : BitVec 32) (hs₀ : s.sound) :
    (State.transmitCtl s p raw seq).sound := by
  unfold State.transmitCtl
  try dsimp only
  repeat' (first | with_reducible assumption | with_reducible apply State.sendFrame_sound
                 | with_reducible apply State.updLink_sound | with_reducible apply State.updWick_sound
                 | with_reducible apply State.sound_if | with_reducible intro _ hz | with_reducible intro hm | split
                 | with_reducible exact fun h => h | with_reducible exact fun _ h => h | with_reducible exact hz
                 | exact List.length_replicate
                 | (simp only [Channel.fit, WickPort.fit, length_upd, List.length_map] at hz ⊢; exact hz))

theorem State.sendCtl_sound (s : State) (p : Nat) (raw : Bytes) (hs₀ : s.sound) : (State.sendCtl s p raw).sound := by
  unfold State.sendCtl
  try dsimp only
  repeat' (first | with_reducible assumption | with_reducible apply State.transmitCtl_sound
                 | with_reducible apply State.updLink_sound | with_reducible apply State.sound_if
                 | with_reducible intro _ hz | with_reducible intro hm | split)

theorem State.drainCtl_sound (s : State) (p : Nat) (w0 : Nat) (hs₀ : s.sound) : (State.drainCtl s p w0).sound := by
  induction w0 generalizing s with
  | zero => exact hs₀
  | succ n ih =>
    unfold State.drainCtl
    dsimp only
    split
    · split
      · exact ih _ (State.updLink_sound _ _ _ (State.transmitCtl_sound _ _ _ _ hs₀))
      · exact hs₀
    · exact hs₀

theorem State.ackCtl_sound (s : State) (p : Nat) (ack : BitVec 32) (hs₀ : s.sound) : (State.ackCtl s p ack).sound := by
  unfold State.ackCtl
  try dsimp only
  repeat' (first | with_reducible assumption | with_reducible apply State.drainCtl_sound
                 | with_reducible apply State.updLink_sound | with_reducible intro _ hz | with_reducible intro hm | split)

theorem State.resend_sound (s : State) (p : Nat) (f : CtlFrame) (hs₀ : s.sound) : (State.resend s p f).sound := by
  unfold State.resend
  try dsimp only
  repeat' (first | with_reducible assumption | with_reducible apply State.count_sound
                 | with_reducible apply State.transmitCtl_sound | with_reducible apply State.updLink_sound
                 | with_reducible apply State.sound_if | with_reducible intro _ hz | with_reducible intro hm | split)

theorem State.sendSyncReq_sound (s : State) (p : Nat) (hs₀ : s.sound) : (State.sendSyncReq s p).sound := by
  unfold State.sendSyncReq
  try dsimp only
  repeat' (first | with_reducible assumption | with_reducible apply State.sendCtl_sound
                 | with_reducible apply State.updLink_sound | with_reducible intro _ hz | with_reducible intro hm | split)

theorem State.sendGeom_sound (s : State) (p : Nat) (hs₀ : s.sound) : (State.sendGeom s p).sound := by
  unfold State.sendGeom
  try dsimp only
  repeat' (first | with_reducible assumption | with_reducible apply State.sendCtl_sound
                 | with_reducible apply State.updLink_sound | with_reducible intro _ hz | with_reducible intro hm | split)


/-! ### Machine/TwinFrames.lean -/

theorem State.sendTwinPort_sound (s : State) (t : Nat) (raw : Bytes) (hs₀ : s.sound) : (State.sendTwinPort s t raw).sound := by
  unfold State.sendTwinPort
  try dsimp only
  repeat' (first | with_reducible assumption | with_reducible apply State.sendCtl_sound
                 | with_reducible apply State.sendFrame_sound | with_reducible apply State.updLink_sound
                 | with_reducible apply State.sound_if | with_reducible intro _ hz | with_reducible intro hm | split)

theorem State.sendTwinFrame_sound (s : State) (raw : Bytes) (hs₀ : s.sound) : (State.sendTwinFrame s raw).sound := by
  unfold State.sendTwinFrame
  try dsimp only
  repeat' (first | with_reducible assumption | with_reducible apply State.sendTwinPort_sound
                 | with_reducible apply State.sound_if | with_reducible intro _ hz | with_reducible intro hm | split
                 | with_reducible exact fun h => h | with_reducible exact fun _ h => h
                 | with_reducible exact fun _ => State.sound_before hs₀ | with_reducible apply State.sound_set_twn
                 | (simp [length_upd]; done))

theorem State.sendTwin_sound (s : State) (m : TwMsg) (hs₀ : s.sound) : (State.sendTwin s m).sound := by
  unfold State.sendTwin
  try dsimp only
  repeat' (first | with_reducible assumption | with_reducible apply State.each_sound
                 | with_reducible apply State.sendTwinFrame_sound | with_reducible intro _ hz | with_reducible intro hm
                 | split | with_reducible exact fun h => h | with_reducible exact fun _ h => h | (simp [length_upd]; done))

theorem State.sendWaiting_sound (s : State) (hs₀ : s.sound) : (State.sendWaiting s).sound := by
  unfold State.sendWaiting
  try dsimp only
  repeat' (first | with_reducible assumption | with_reducible apply State.each_sound
                 | with_reducible apply State.sendTwinFrame_sound | split
                 | with_reducible exact fun _ => State.sound_before hs₀)

theorem State.twinPortLost_sound (s : State) (p : Nat) (hs₀ : s.sound) : (State.twinPortLost s p).sound := by
  unfold State.twinPortLost
  try dsimp only
  repeat' (first | with_reducible assumption | with_reducible apply State.each_sound
                 | with_reducible apply State.sendTwinFrame_sound | with_reducible apply State.updLink_sound
                 | with_reducible apply State.sound_if | with_reducible intro _ hz | with_reducible intro hm | split
                 | with_reducible exact fun _ => State.sound_before hs₀)

theorem State.takeTwin_sound (s : State) (t type : Nat) (f : Bytes) (act : State → State) (hs₀ : s.sound) (hact : ∀ (u : State), u.sound → (act u).sound) :
    (State.takeTwin s t type f act).sound := by
  unfold State.takeTwin
  try dsimp only
  repeat' (first | with_reducible assumption | with_reducible apply hact | with_reducible apply State.updLink_sound
                 | with_reducible apply State.sound_if | with_reducible intro _ hz | with_reducible intro hm | split)


/-! ### Machine/AlmOps.lean -/

theorem State.loadSense_sound (s : State) (fac usr : List Bytes) (hs₀ : s.sound) : (State.loadSense s fac usr).sound := by
  unfold State.loadSense
  try dsimp only
  repeat' (first | with_reducible assumption | with_reducible intro _ hz | with_reducible intro hm | split
                 | with_reducible exact fun h => h | with_reducible exact fun _ h => h
                 | with_reducible apply State.sound_set_alm | (simp [length_upd]; done))

theorem State.loadTrims_sound (s : State) (fac : List Bytes) (hs₀ : s.sound) : (State.loadTrims s fac).sound := by
  unfold State.loadTrims
  try dsimp only
  repeat' (first | with_reducible assumption | with_reducible intro _ hz | with_reducible intro hm | split
                 | with_reducible exact fun h => h | with_reducible exact fun _ h => h
                 | with_reducible apply State.sound_set_alm | (simp [length_upd]; done))

theorem State.loadStitch_sound (s : State) (fac usr : List Bytes) (b : Nat) (hs₀ : s.sound) :
    (State.loadStitch s fac usr b).sound := by
  unfold State.loadStitch
  try dsimp only
  repeat' (first | with_reducible assumption | with_reducible apply State.setTab_sound | split)

theorem State.loadCorr_sound (s : State) (fac usr : List Bytes) (p : Nat) (hs₀ : s.sound) :
    (State.loadCorr s fac usr p).sound := by
  unfold State.loadCorr
  try dsimp only
  repeat' (first | with_reducible assumption | with_reducible apply State.setTab_sound | with_reducible apply foldl_sound
                 | with_reducible apply State.sound_if | with_reducible intro _ hz | with_reducible intro hm | split
                 | with_reducible exact fun h => h | with_reducible exact fun _ h => h
                 | with_reducible apply State.sound_set_pho | (simp [length_upd]; done))

theorem State.factoryLoad_sound (s : State) (hs₀ : s.sound) : (State.factoryLoad s).sound := by
  unfold State.factoryLoad
  try dsimp only
  repeat' (first | with_reducible assumption | with_reducible apply State.count_sound
                 | with_reducible apply State.each_sound | with_reducible apply State.loadCorr_sound
                 | with_reducible apply State.loadSense_sound | with_reducible apply State.loadStitch_sound
                 | with_reducible apply State.loadTrims_sound | with_reducible intro _ hz | with_reducible intro hm | split
                 | with_reducible exact fun h => h | with_reducible exact fun _ h => h
                 | with_reducible apply State.sound_set_dev | (simp [length_upd]; done))

theorem State.almResult_sound (s : State) (res err : Nat) (hs₀ : s.sound) : (State.almResult s res err).sound := by
  unfold State.almResult
  try dsimp only
  repeat' (first | with_reducible assumption | with_reducible apply State.set_sound | split)

theorem State.almEnd_sound (s : State) (st : Status) (hs₀ : s.sound) : (State.almEnd s st).sound := by
  unfold State.almEnd
  try dsimp only
  repeat' (first | with_reducible assumption | with_reducible apply State.actEnd_sound
                 | with_reducible apply State.busyDone_sound | with_reducible apply State.sound_if
                 | with_reducible intro _ hz | with_reducible intro hm | split | with_reducible exact fun h => h
                 | with_reducible exact fun _ h => h | with_reducible apply State.sound_set_alm | (simp [length_upd]; done))

theorem State.almBegin_sound (s : State) (a : Activity) (hs₀ : s.sound) : (State.almBegin s a).sound := by
  unfold State.almBegin
  try dsimp only
  repeat' (first | with_reducible assumption | with_reducible apply State.almEnd_sound
                 | with_reducible apply State.almResult_sound | with_reducible intro _ hz | with_reducible intro hm | split
                 | with_reducible exact fun h => h | with_reducible exact fun _ h => h
                 | with_reducible apply State.sound_set_alm | (simp [length_upd]; done))


/-! ### Machine/DramOps.lean -/

theorem State.updChan_sound (s : State) (c : Nat) (f : Channel → Channel) (hs₀ : s.sound) (hf : ∀ x : Channel, x.fit → (f x).fit := by exact fun _ h => h) :
    (State.updChan s c f).sound := by
  exact State.sound_set_drm hs₀ ⟨length_upd _ _ _, fun h => h⟩ fun h => forall_mem_upd c h hf

theorem State.updBank_sound (s : State) (c b : Nat) (f : Bank → Bank) (hs₀ : s.sound) : (State.updBank s c b f).sound := by
  unfold State.updBank
  try dsimp only
  repeat' (first | with_reducible assumption | with_reducible apply State.updChan_sound | with_reducible intro _ hz
                 | with_reducible intro hm | split | with_reducible exact fun h => h | with_reducible exact fun _ h => h
                 | with_reducible exact hz | exact List.length_replicate
                 | (simp only [Channel.fit, WickPort.fit, length_upd, List.length_map] at hz ⊢; exact hz))

theorem State.throttle_sound (s : State) (c b src row before : Nat) (hs₀ : s.sound) :
    (State.throttle s c b src row before).sound := by
  unfold State.throttle
  try dsimp only
  repeat' (first | with_reducible assumption | with_reducible apply State.count_sound
                 | with_reducible apply State.raise_sound | with_reducible apply State.set_sound
                 | with_reducible apply State.updBank_sound | with_reducible apply State.sound_if
                 | with_reducible intro _ hz | with_reducible intro hm | split)

theorem State.issueRfm_sound (s : State) (c b : Nat) (hs₀ : s.sound) : (State.issueRfm s c b).sound := by
  unfold State.issueRfm
  try dsimp only
  repeat' (first | with_reducible assumption | with_reducible apply State.count_sound
                 | with_reducible apply State.updBank_sound | with_reducible intro _ hz | with_reducible intro hm | split)

theorem State.manageRefresh_sound (s : State) (c b : Nat) (hs₀ : s.sound) : (State.manageRefresh s c b).sound := by
  unfold State.manageRefresh
  try dsimp only
  repeat' (first | with_reducible assumption | with_reducible apply State.issueRfm_sound
                 | with_reducible apply State.sound_if | with_reducible intro _ hz | with_reducible intro hm | split
                 | with_reducible exact fun h => h | with_reducible exact fun _ h => h | (simp [length_upd]; done))

theorem State.activate_sound (s : State) (c : Nat) (q : DramReq) (hs₀ : s.sound) : (State.activate s c q).sound := by
  unfold State.activate
  try dsimp only
  repeat' (first | with_reducible assumption | with_reducible apply State.throttle_sound
                 | with_reducible apply State.updBank_sound | with_reducible apply State.sound_if
                 | with_reducible intro _ hz | with_reducible intro hm | split)

theorem State.fallDue_sound (s : State) (c i : Nat) (hs₀ : s.sound) : (State.fallDue s c i).sound := by
  unfold State.fallDue
  try dsimp only
  repeat' (first | with_reducible assumption | with_reducible apply State.updChan_sound | with_reducible intro _ hz
                 | with_reducible intro hm | split | with_reducible exact fun h => h | with_reducible exact fun _ h => h
                 | with_reducible exact hz | exact List.length_replicate
                 | (simp only [Channel.fit, WickPort.fit, length_upd, List.length_map] at hz ⊢; exact hz))

theorem State.applyBand_sound (s : State) (c : Nat) (hs₀ : s.sound) : (State.applyBand s c).sound := by
  unfold State.applyBand
  try dsimp only
  repeat' (first | with_reducible assumption | with_reducible apply State.raise_sound | with_reducible apply State.set_sound
                 | with_reducible apply State.updChan_sound | with_reducible apply State.sound_if
                 | with_reducible intro _ hz | with_reducible intro hm | split | with_reducible exact fun h => h
                 | with_reducible exact fun _ h => h | with_reducible exact hz | exact List.length_replicate
                 | (simp only [Channel.fit, WickPort.fit, length_upd, List.length_map] at hz ⊢; exact hz))

theorem State.refreshPair_sound (s : State) (c i : Nat) (hs₀ : s.sound) : (State.refreshPair s c i).sound := by
  unfold State.refreshPair
  try dsimp only
  repeat' (first | with_reducible assumption | with_reducible apply State.applyBand_sound
                 | with_reducible apply State.each_sound | with_reducible apply State.updBank_sound
                 | with_reducible apply State.updChan_sound | with_reducible intro _ hz | with_reducible intro hm | split
                 | with_reducible exact fun h => h | with_reducible exact fun _ h => h | with_reducible exact hz
                 | exact List.length_replicate
                 | (simp only [Channel.fit, WickPort.fit, length_upd, List.length_map] at hz ⊢; exact hz))

theorem State.postpone_sound (s : State) (c i n : Nat) (hs₀ : s.sound) : (State.postpone s c i n).sound := by
  unfold State.postpone
  try dsimp only
  repeat' (first | with_reducible assumption | with_reducible apply State.set_sound
                 | with_reducible apply State.updChan_sound | with_reducible intro _ hz | with_reducible intro hm | split
                 | with_reducible exact fun h => h | with_reducible exact fun _ h => h | with_reducible exact hz
                 | exact List.length_replicate
                 | (simp only [Channel.fit, WickPort.fit, length_upd, List.length_map] at hz ⊢; exact hz))

theorem State.madeUp_sound (s : State) (c i : Nat) (hs₀ : s.sound) : (State.madeUp s c i).sound := by
  unfold State.madeUp
  try dsimp only
  repeat' (first | with_reducible assumption | with_reducible apply State.updChan_sound | with_reducible intro _ hz
                 | with_reducible intro hm | split | with_reducible exact fun h => h | with_reducible exact fun _ h => h
                 | with_reducible exact hz | exact List.length_replicate
                 | (simp only [Channel.fit, WickPort.fit, length_upd, List.length_map] at hz ⊢; exact hz))

theorem State.makeUp_sound (s : State) (c : Nat) (hs₀ : s.sound) : (State.makeUp s c).sound := by
  unfold State.makeUp
  try dsimp only
  repeat' (first | with_reducible assumption | with_reducible apply State.each_sound
                 | with_reducible apply State.madeUp_sound | with_reducible apply State.refreshPair_sound
                 | with_reducible apply State.sound_if | with_reducible intro _ hz | with_reducible intro hm | split)

theorem State.returnReads_sound (s : State) (src : Nat) (w0 : List DramReturn) (hs₀ : s.sound) :
    (State.returnReads s src w0).sound := by
  induction w0 generalizing s with
  | nil => exact hs₀
  | cons r t ih =>
    unfold State.returnReads
    split
    · exact ih _ hs₀
    · split
      · exact hs₀
      · exact ih _ (State.emit_sound _ _ (State.sound_set_drm hs₀ ⟨rfl, fun h => h⟩))

theorem State.serve_sound (s : State) (c : Nat) (q : DramReq) (hs₀ : s.sound) : (State.serve s c q).sound := by
  unfold State.serve
  try dsimp only
  repeat' (first | with_reducible assumption | with_reducible apply State.activate_sound
                 | with_reducible apply State.manageRefresh_sound | with_reducible apply State.returnReads_sound
                 | with_reducible apply State.updBank_sound | with_reducible apply State.updChan_sound
                 | with_reducible apply State.sound_if | with_reducible intro _ hz | with_reducible intro hm | split
                 | with_reducible exact fun h => h | with_reducible exact fun _ h => h | with_reducible exact hz
                 | exact List.length_replicate
                 | (simp only [Channel.fit, WickPort.fit, length_upd, List.length_map] at hz ⊢; exact hz)
                 | with_reducible apply State.sound_set_drm | (simp [length_upd]; done))

theorem State.commandSlot_sound (s : State) (c : Nat) (hs₀ : s.sound) : (State.commandSlot s c).sound := by
  unfold State.commandSlot
  try dsimp only
  repeat' (first | with_reducible assumption | with_reducible apply State.makeUp_sound
                 | with_reducible apply State.serve_sound | with_reducible apply State.updChan_sound
                 | with_reducible apply State.sound_if | with_reducible intro _ hz | with_reducible intro hm | split
                 | with_reducible exact fun h => h | with_reducible exact fun _ h => h | with_reducible exact hz
                 | exact List.length_replicate
                 | (simp only [Channel.fit, WickPort.fit, length_upd, List.length_map] at hz ⊢; exact hz))


/-! ### Machine/Compares.lean -/

theorem State.loadPos_sound (s : State) (x : BitVec 64) (hs₀ : s.sound) : (State.loadPos s x).sound := by
  unfold State.loadPos
  try dsimp only
  repeat' (first | with_reducible assumption | with_reducible intro _ hz | with_reducible intro hm | split
                 | with_reducible exact fun h => h | with_reducible exact fun _ h => h
                 | with_reducible apply State.sound_set_mer | (simp [length_upd]; done))

theorem State.triggerLatches_sound (s : State) (trig : Nat) (pos : Pos) (mono : Time) (hs₀ : s.sound) :
    (State.triggerLatches s trig pos mono).sound := by
  unfold State.triggerLatches
  try dsimp only
  repeat' (first | with_reducible assumption | with_reducible apply State.sound_if | with_reducible intro _ hz
                 | with_reducible intro hm | split | with_reducible exact fun h => h | with_reducible exact fun _ h => h
                 | with_reducible apply State.sound_set_mer | (simp [length_upd]; done))

theorem State.latchResult_sound (s : State) (n : Nat) (x : LatchResult) (hs₀ : s.sound) : (State.latchResult s n x).sound := by
  unfold State.latchResult
  try dsimp only
  repeat' (first | with_reducible assumption | with_reducible apply State.count_sound
                 | with_reducible apply State.postEvent_sound | with_reducible apply State.sound_if
                 | with_reducible intro _ hz | with_reducible intro hm | split | with_reducible exact fun h => h
                 | with_reducible exact fun _ h => h | with_reducible apply State.sound_set_mer | (simp [length_upd]; done))

theorem State.updCmp_sound (s : State) (n : Nat) (f : Compare → Compare) (hs₀ : s.sound) : (State.updCmp s n f).sound := by
  unfold State.updCmp
  try dsimp only
  repeat' (first | with_reducible assumption | with_reducible intro _ hz | with_reducible intro hm | split
                 | with_reducible exact fun h => h | with_reducible exact fun _ h => h
                 | with_reducible apply State.sound_set_mer | (simp [length_upd]; done))

theorem State.disarm_sound (s : State) (n : Nat) (hs₀ : s.sound) : (State.disarm s n).sound := by
  unfold State.disarm
  try dsimp only
  repeat' (first | with_reducible assumption | with_reducible apply State.set_sound
                 | with_reducible apply State.updCmp_sound | with_reducible intro _ hz | with_reducible intro hm | split)

theorem State.moveOn_sound (s : State) (n : Nat) (t : Pos) (hs₀ : s.sound) : (State.moveOn s n t).sound := by
  unfold State.moveOn
  try dsimp only
  repeat' (first | with_reducible assumption | with_reducible apply State.disarm_sound
                 | with_reducible apply State.updCmp_sound | with_reducible intro _ hz | with_reducible intro hm | split)

theorem State.aim_sound (s : State) (n : Nat) (target : Option Pos) (hs₀ : s.sound) : (State.aim s n target).sound := by
  unfold State.aim
  try dsimp only
  repeat' (first | with_reducible assumption | with_reducible apply State.count_sound
                 | with_reducible apply State.moveOn_sound | with_reducible apply State.raise_sound
                 | with_reducible apply State.set_sound | with_reducible apply State.updCmp_sound
                 | with_reducible apply State.sound_if | with_reducible intro _ hz | with_reducible intro hm | split)

theorem State.rearmItems_sound (s : State) (g : Nat) (hs₀ : s.sound) : (State.rearmItems s g).sound := by
  unfold State.rearmItems
  try dsimp only
  repeat' (first | with_reducible assumption | with_reducible apply State.aim_sound | with_reducible apply State.each_sound
                 | with_reducible apply State.sound_if | with_reducible intro _ hz | with_reducible intro hm | split)

theorem State.crossTargets_sound (s : State) (before after : Pos) (hs₀ : s.sound) :
    (State.crossTargets s before after).sound := by
  unfold State.crossTargets
  try dsimp only
  repeat' (first | with_reducible assumption | with_reducible apply State.sound_if | with_reducible intro _ hz
                 | with_reducible intro hm | split | with_reducible exact fun h => h | with_reducible exact fun _ h => h
                 | with_reducible apply State.sound_set_mer | (simp [length_upd]; done))


/-! ### Machine/Operands.lean -/

theorem State.served_sound (s : State) (r : Nat) (hs₀ : s.sound) : (State.served s r).sound := by
  unfold State.served
  try dsimp only
  repeat' (first | with_reducible assumption | split)

theorem State.take_sound (s : State) (r : Nat) (hs₀ : s.sound) : (State.take s r).sound := by
  unfold State.take
  try dsimp only
  repeat' (first | with_reducible assumption | with_reducible apply State.served_sound
                 | with_reducible apply State.traffic_sound | with_reducible apply State.updRing_sound
                 | with_reducible apply State.sound_if | with_reducible intro _ hz | with_reducible intro hm | split)

theorem State.windowStatus_sound (s : State) (c : Ctx) (addr : Nat) (hs₀ : s.sound) : (State.windowStatus s c addr).sound := by
  unfold State.windowStatus
  try dsimp only
  repeat' (first | with_reducible assumption | with_reducible apply State.complete_sound
                 | with_reducible apply State.windowFault_sound | split)

theorem State.withRead_sound (s : State) (c : Ctx) (addr len : Nat) (act : State → State) (hs₀ : s.sound) (hact : ∀ (u : State), u.sound → (act u).sound) :
    (State.withRead s c addr len act).sound := by
  unfold State.withRead
  try dsimp only
  repeat' (first | with_reducible assumption | with_reducible apply hact | with_reducible apply State.windowStatus_sound
                 | with_reducible apply State.sound_if | with_reducible intro _ hz | with_reducible intro hm | split
                 | with_reducible exact fun h => h | with_reducible exact fun _ h => h | (simp [length_upd]; done))

theorem State.received_sound (s : State) (len : Nat) (b : Bytes) (hs₀ : s.sound) : (State.received s len b).2.sound := by
  unfold State.received
  try dsimp only
  repeat' (first | with_reducible assumption | with_reducible apply State.emit_sound | with_reducible apply State.take_sound
                 | with_reducible apply State.sound_if | with_reducible intro _ hz | with_reducible intro hm | split)

theorem State.withWrite_sound (s : State) (c : Ctx) (addr len : Nat) (act : State → State) (hs₀ : s.sound) (hact : ∀ (u : State), u.sound → (act u).sound) :
    (State.withWrite s c addr len act).sound := by
  unfold State.withWrite
  try dsimp only
  repeat' (first | with_reducible assumption | with_reducible apply hact | with_reducible apply State.windowStatus_sound
                 | with_reducible apply State.sound_if | with_reducible intro _ hz | with_reducible intro hm | split
                 | with_reducible exact fun h => h | with_reducible exact fun _ h => h | (simp [length_upd]; done))

theorem State.doorbell_sound (s : State) (block : Bytes) (r : Nat) (hs₀ : s.sound) : (State.doorbell s block r).sound := by
  unfold State.doorbell
  try dsimp only
  repeat' (first | with_reducible assumption | with_reducible apply State.count_sound
                 | with_reducible apply State.raise_sound | with_reducible apply State.take_sound
                 | with_reducible apply State.updRing_sound | with_reducible apply State.sound_if
                 | with_reducible intro _ hz | with_reducible intro hm | split)

theorem State.doorbells_sound (s : State) (block : Bytes) (hs₀ : s.sound) : (State.doorbells s block).sound := by
  unfold State.doorbells
  try dsimp only
  repeat' (first | with_reducible assumption | with_reducible apply State.doorbell_sound
                 | with_reducible apply State.each_sound | with_reducible intro _ hz | with_reducible intro hm | split)


/-! ### Machine/Captures.lean -/

theorem State.supply_sound (s : State) (r : Nat) (d : Bytes) (hs₀ : s.sound) : (State.supply s r d).sound := by
  unfold State.supply
  try dsimp only
  repeat' (first | with_reducible assumption | with_reducible apply State.traffic_sound
                 | with_reducible apply State.updRing_sound | with_reducible apply State.sound_if
                 | with_reducible intro _ hz | with_reducible intro hm | split)

theorem State.giveBack_sound (s : State) (r : Nat) (d : Bytes) (hs₀ : s.sound) : (State.giveBack s r d).sound := by
  unfold State.giveBack
  try dsimp only
  repeat' (first | with_reducible assumption | with_reducible apply State.updRing_sound | with_reducible intro _ hz
                 | with_reducible intro hm | split)

theorem State.takeBufferFrom_sound (s : State) (r op : Nat) (ok : Bytes → Bool) (w0 : Nat) (hs₀ : s.sound) :
    (State.takeBufferFrom s r op ok w0).1.sound := by
  induction w0 generalizing s with
  | zero => exact hs₀
  | succ n ih =>
    unfold State.takeBufferFrom
    dsimp only
    repeat' (first | with_reducible assumption | with_reducible apply ih | with_reducible apply State.updRing_sound
                   | with_reducible apply State.take_sound | with_reducible apply State.stopRing_sound
                   | with_reducible apply State.complete_sound | with_reducible apply State.windowStatus_sound
                   | with_reducible apply State.raise_sound | with_reducible apply State.count_sound | split)

theorem State.takeBuffer_sound (s : State) (r op : Nat) (ok : Bytes → Bool) (hs₀ : s.sound) :
    (State.takeBuffer s r op ok).1.sound := by
  unfold State.takeBuffer
  try dsimp only
  repeat' (first | with_reducible assumption | with_reducible apply State.takeBufferFrom_sound | split)

theorem State.updTim_sound (s : State) (f : TimeBlock → TimeBlock) (hs₀ : s.sound) (hf₀ : ∀ t : TimeBlock, (f t).gens.length = t.gens.length) :
    (State.updTim s f).sound := by
  exact State.sound_set_tim hs₀ (hf₀ _)

theorem State.deliver_sound (s : State) (w0 : List (Bytes × Time × Bool)) (hs₀ : s.sound) : (State.deliver s w0).sound := by
  induction w0 generalizing s with
  | nil => exact State.updTim_sound _ _ hs₀ fun _ => rfl
  | cons e rest ih =>
    unfold State.deliver
    have hb := State.takeBuffer_sound s (s.get .TIM_CTRL_rx_ring) 0x0B rxbufOk hs₀
    dsimp only
    split
    · exact State.updTim_sound _ _ hb fun _ => rfl
    · split
      · exact ih _ (State.count_sound _ _ _ _ _ _ (State.giveBack_sound _ _ _ hb))
      · exact ih _ (State.complete_sound _ _ _ _ (State.hostWrite_sound _ _ _ _ hb))

theorem State.supplied_sound (s : State) (ring : Nat) (d : Bytes) (hs₀ : s.sound) : (State.supplied s ring d).sound := by
  unfold State.supplied
  try dsimp only
  repeat' (first | with_reducible assumption | with_reducible apply State.deliver_sound
                 | with_reducible apply State.supply_sound | with_reducible apply State.sound_if | with_reducible intro _ hz
                 | with_reducible intro hm | split | with_reducible exact fun h => h | with_reducible exact fun _ h => h
                 | (simp [length_upd]; done))

theorem State.descriptor_sound (s : State) (r : Nat) (d : Bytes) (op : Nat) (mine : Bytes → Bool) (act : State → Ctx → State) (hs₀ : s.sound) (hact : ∀ (u : State) (z0 : Ctx), u.sound → (act u z0).sound) :
    (State.descriptor s r d op mine act).sound := by
  unfold State.descriptor
  try dsimp only
  repeat' (first | with_reducible assumption | with_reducible apply hact | with_reducible apply State.complete_sound
                 | with_reducible apply State.count_sound | with_reducible apply State.raise_sound
                 | with_reducible apply State.served_sound | with_reducible apply State.stopRing_sound
                 | with_reducible apply State.supplied_sound | with_reducible apply State.take_sound
                 | with_reducible apply State.sound_if | with_reducible intro _ hz | with_reducible intro hm | split
                 | with_reducible exact fun h => h | with_reducible exact fun _ h => h | (simp [length_upd]; done))


/-! ### Machine/Maint.lean -/

theorem State.maint_sound (s : State) (ring : Nat) (d : Bytes) (code : Nat) (target len : Nat → Bool) (states : List DevState) (act : State → Ctx → State) (hs₀ : s.sound) (hact : ∀ (u : State) (z0 : Ctx), u.sound → (act u z0).sound) :
    (State.maint s ring d code target len states act).sound := by
  unfold State.maint
  try dsimp only
  repeat' (first | with_reducible assumption | with_reducible apply hact | with_reducible apply State.complete_sound
                 | with_reducible apply State.descriptor_sound | with_reducible apply State.sound_if
                 | with_reducible intro _ hz | with_reducible intro hm | split)


/-! ### Machine/Almanac.lean -/

theorem State.setPreset_sound (s : State) (hs₀ : s.sound) : (State.setPreset s).sound := by
  unfold State.setPreset
  try dsimp only
  repeat' (first | with_reducible assumption | with_reducible apply State.set_sound | with_reducible apply State.sound_if
                 | split)

theorem State.suspectDiode_sound (s : State) (delta2 : Nat) (hs₀ : s.sound) : (State.suspectDiode s delta2).sound := by
  unfold State.suspectDiode
  try dsimp only
  repeat' (first | with_reducible assumption | with_reducible apply State.count_sound
                 | with_reducible apply State.raise_sound | with_reducible apply State.sound_if | with_reducible intro _ hz
                 | with_reducible intro hm | split | with_reducible exact fun h => h | with_reducible exact fun _ h => h
                 | with_reducible apply State.sound_set_alm | (simp [length_upd]; done))

theorem State.checkTj_sound (s : State) (t : Int) (hs₀ : s.sound) : (State.checkTj s t).sound := by
  unfold State.checkTj
  try dsimp only
  repeat' (first | with_reducible assumption | with_reducible apply State.raise_sound | with_reducible apply State.sound_if
                 | with_reducible intro _ hz | with_reducible intro hm | split | with_reducible exact fun h => h
                 | with_reducible exact fun _ h => h | with_reducible apply State.sound_set_alm | (simp [length_upd]; done))


/-! ### Machine/EyeOps.lean -/

theorem State.eyeArrive_sound (s : State) (f : FrameBuf) (hs₀ : s.sound) : (State.eyeArrive s f).sound := by
  unfold State.eyeArrive
  try dsimp only
  repeat' (first | with_reducible assumption | with_reducible apply State.count_sound | with_reducible apply State.sound_if
                 | with_reducible intro _ hz | with_reducible intro hm | split | with_reducible exact fun h => h
                 | with_reducible exact fun _ h => h | with_reducible apply State.sound_set_eye
                 | with_reducible apply State.sound_set_pending | (simp [length_upd]; done))

theorem State.s2Offer_sound (s : State) (c : Nat) (f : FrameBuf) (hs₀ : s.sound) : (State.s2Offer s c f).sound := by
  unfold State.s2Offer
  try dsimp only
  repeat' (first | with_reducible assumption | with_reducible apply State.eyeArrive_sound
                 | with_reducible apply State.sound_if | with_reducible intro _ hz | with_reducible intro hm | split
                 | with_reducible exact fun h => h | with_reducible exact fun _ h => h | (simp [length_upd]; done))

theorem State.fetchLine_sound (s : State) (hs₀ : s.sound) : (State.fetchLine s).sound := by
  unfold State.fetchLine
  try dsimp only
  repeat' (first | with_reducible assumption | with_reducible intro _ hz | with_reducible intro hm | split)


/-! ### Machine/PhoOps.lean -/

theorem State.updCam_sound (s : State) (c : Nat) (f : Camera → Camera) (hs₀ : s.sound) : (State.updCam s c f).sound := by
  unfold State.updCam
  try dsimp only
  repeat' (first | with_reducible assumption | with_reducible intro _ hz | with_reducible intro hm | split
                 | with_reducible exact fun h => h | with_reducible exact fun _ h => h
                 | with_reducible apply State.sound_set_pho | (simp [length_upd]; done))

theorem State.updFrame_sound (s : State) (c : Nat) (f : CamFrame → CamFrame) (hs₀ : s.sound) :
    (State.updFrame s c f).sound := by
  unfold State.updFrame
  try dsimp only
  repeat' (first | with_reducible assumption | with_reducible apply State.updCam_sound | with_reducible intro _ hz
                 | with_reducible intro hm | split)

theorem State.takeS1_sound (s : State) (c : Nat) (hs₀ : s.sound) : (State.takeS1 s c).1.sound := by
  unfold State.takeS1
  try dsimp only
  repeat' (first | with_reducible assumption | with_reducible apply State.complete_sound
                 | with_reducible apply State.count_sound | with_reducible apply State.takeBuffer_sound
                 | with_reducible apply State.sound_if | split)

theorem State.closeS1_sound (s : State) (c : Nat) (f : CamFrame) (dark : Bool) (hs₀ : s.sound) :
    (State.closeS1 s c f dark).sound := by
  unfold State.closeS1
  try dsimp only
  repeat' (first | with_reducible assumption | with_reducible apply State.complete_sound
                 | with_reducible apply State.count_sound | with_reducible apply State.hostWrite_sound
                 | with_reducible apply State.withWrite_sound | with_reducible apply State.sound_if
                 | with_reducible intro _ hz | with_reducible intro hm | split)

theorem State.closeS3_sound (s : State) (c : Nat) (f : CamFrame) (dark : Bool) (hs₀ : s.sound) :
    (State.closeS3 s c f dark).sound := by
  unfold State.closeS3
  try dsimp only
  repeat' (first | with_reducible assumption | with_reducible apply State.complete_sound
                 | with_reducible apply State.count_sound | with_reducible apply State.hostWrite_sound
                 | with_reducible apply State.takeBuffer_sound | with_reducible apply State.withWrite_sound
                 | with_reducible apply State.sound_if | with_reducible intro _ hz | with_reducible intro hm | split
                 | with_reducible exact fun h => h | with_reducible exact fun _ h => h
                 | with_reducible apply State.sound_set_free | (simp [length_upd]; done))

theorem State.closeS2_sound (s : State) (c : Nat) (f : CamFrame) (dark : Bool) (hs₀ : s.sound) :
    (State.closeS2 s c f dark).sound := by
  unfold State.closeS2
  have key : ∀ (a : Nat) (bytes : Bytes), State.sound { s with drm := { s.drm with mem := Memory.writes Memory.dramFill s.drm.mem a bytes } } :=
    fun a bytes => State.sound_set_drm hs₀ ⟨rfl, fun hm => Memory.wf_writes _ _ _ _ hm⟩
  split
  · exact hs₀
  · dsimp only
    split
    · exact key _ _
    · exact State.s2Offer_sound _ _ _ (State.updCam_sound _ _ _ (key _ _))

theorem State.measureCell_sound (s : State) (c : Nat) (cell : Bytes) (rows : List (Int × List (List Nat))) (cols : List Int) (r : Int) (hs₀ : s.sound) :
    (State.measureCell s c cell rows cols r).sound := by
  unfold State.measureCell
  try dsimp only
  repeat' (first | with_reducible assumption | with_reducible apply State.count_sound
                 | with_reducible apply State.each_sound | with_reducible apply State.sound_if | with_reducible intro _ hz
                 | with_reducible intro hm | split | with_reducible exact fun h => h | with_reducible exact fun _ h => h
                 | with_reducible apply State.sound_set_pho | (simp [length_upd]; done))

theorem State.measureFrame_sound (s : State) (c : Nat) (f : CamFrame) (hs₀ : s.sound) : (State.measureFrame s c f).sound := by
  unfold State.measureFrame
  try dsimp only
  repeat' (first | with_reducible assumption | with_reducible apply State.each_sound
                 | with_reducible apply State.measureCell_sound | with_reducible apply State.settleGroup_sound
                 | with_reducible apply State.sound_if | with_reducible intro _ hz | with_reducible intro hm | split)


/-! ### Machine/Lantern.lean -/

theorem State.updClass_sound (s : State) (c : Nat) (f : ClassState → ClassState) (hs₀ : s.sound) :
    (State.updClass s c f).sound := by
  unfold State.updClass
  try dsimp only
  repeat' (first | with_reducible assumption | with_reducible intro _ hz | with_reducible intro hm | split
                 | with_reducible exact fun h => h | with_reducible exact fun _ h => h
                 | with_reducible apply State.sound_set_ltn | (simp [length_upd]; done))

theorem State.copyRecord_sound (s : State) (c k : Nat) (record : Bytes) (hs₀ : s.sound) :
    (State.copyRecord s c k record).sound := by
  unfold State.copyRecord
  try dsimp only
  repeat' (first | with_reducible assumption | with_reducible apply State.each_sound | with_reducible apply State.wr_sound
                 | with_reducible intro _ hz | with_reducible intro hm | split)

theorem State.recordFault_sound (s : State) (x : Raise) (handled : Nat) (cls : Byte) (hs₀ : s.sound) :
    (State.recordFault s x handled cls).sound := by
  unfold State.recordFault
  try dsimp only
  repeat' (first | with_reducible assumption | with_reducible apply State.copyRecord_sound
                 | with_reducible apply State.postEvent_sound | with_reducible apply State.updClass_sound
                 | with_reducible apply State.sound_if | with_reducible intro _ hz | with_reducible intro hm | split
                 | with_reducible exact fun h => h | with_reducible exact fun _ h => h
                 | with_reducible apply State.sound_set_ltn | (simp [length_upd]; done))

theorem State.give_sound (s : State) (reason : Nat) (hs₀ : s.sound) : (State.give s reason).sound := by
  unfold State.give
  try dsimp only
  repeat' (first | with_reducible assumption | with_reducible apply State.emit_sound
                 | with_reducible apply State.sendTwin_sound | with_reducible apply State.sound_if
                 | with_reducible intro _ hz | with_reducible intro hm | split | with_reducible exact fun h => h
                 | with_reducible exact fun _ h => h | with_reducible exact fun _ => State.sound_before hs₀
                 | with_reducible apply State.sound_set_twn | (simp [length_upd]; done))

theorem State.fatalStop_sound (s : State) (hs₀ : s.sound) : (State.fatalStop s).sound := by
  unfold State.fatalStop
  try dsimp only
  repeat' (first | with_reducible assumption | with_reducible apply State.enter_sound
                 | with_reducible apply State.give_sound | with_reducible apply State.sound_if | with_reducible intro _ hz
                 | with_reducible intro hm | split | with_reducible exact fun h => h | with_reducible exact fun _ h => h
                 | with_reducible apply State.sound_set_ltn | (simp [length_upd]; done))

theorem State.handleRaise_sound (s : State) (x : Raise) (hs₀ : s.sound) : (State.handleRaise s x).sound := by
  unfold State.handleRaise
  have e1 : ∀ (u : State) (c : Prop) [Decidable c] (f : Fld) (i : Nat), u.sound → (if c then u.count f i else u).sound := by
    intro u c _ f i hu
    split
    · exact State.count_sound _ _ _ _ _ _ hu
    · exact hu
  extract_lets base s1
  generalize s.handledClass x = d
  obtain ⟨cls, esc⟩ := d
  dsimp -zeta only
  extract_lets hold s2 entering q1 s3 s4 fn was q2 s5 s6 s7 q3 s8 q4 q5 s9 s10
  have h1 : s1.sound := State.count_sound _ _ _ _ _ _ hs₀
  have h2 : s2.sound := e1 _ _ _ _ h1
  have h3 : s3.sound := State.sound_set_ltn h2 rfl
  have h4 : s4.sound := State.each_sound _ _ _ h3 fun u c hu => State.updClass_sound _ _ _ hu
  have h5 : s5.sound := by
    unfold s5
    split
    · exact State.sound_set_ltn h4 rfl
    · exact h4
  have h6 : s6.sound := State.updClass_sound _ _ _ h5
  have h7 : s7.sound := by
    unfold s7
    split
    · exact State.fatalStop_sound _ h6
    · exact h6
  have h8 : s8.sound := by
    unfold s8
    split
    · exact State.sound_set_ltn h7 rfl
    · exact State.recordFault_sound _ _ _ _ h7
  have h9 : s9.sound := by
    unfold s9
    split
    · exact State.sound_set_pho h8 rfl
    · exact h8
  have h10 : s10.sound := by
    unfold s10
    split
    · exact State.irq_sound _ _ _ h9
    · exact h9
  clear_value s10
  repeat' split
  all_goals first | exact h10 | exact State.irq_sound _ _ _ h10

theorem State.clearClass_sound (s : State) (c : Nat) (hs₀ : s.sound) : (State.clearClass s c).sound := by
  unfold State.clearClass
  try dsimp only
  repeat' (first | with_reducible assumption | with_reducible apply State.updClass_sound
                 | with_reducible apply State.sound_if | with_reducible intro _ hz | with_reducible intro hm | split
                 | with_reducible exact fun h => h | with_reducible exact fun _ h => h
                 | with_reducible apply State.sound_set_ltn | (simp [length_upd]; done))

theorem State.ackClass_sound (s : State) (c : Nat) (hs₀ : s.sound) : (State.ackClass s c).sound := by
  unfold State.ackClass
  try dsimp only
  repeat' (first | with_reducible assumption | with_reducible apply State.clearClass_sound
                 | with_reducible apply State.sound_if | with_reducible intro _ hz | with_reducible intro hm | split
                 | with_reducible exact fun h => h | with_reducible exact fun _ h => h
                 | with_reducible apply State.sound_set_pho | (simp [length_upd]; done))

theorem State.acknowledge_sound (s : State) (v : Word) (hs₀ : s.sound) : (State.acknowledge s v).sound := by
  unfold State.acknowledge
  try dsimp only
  repeat' (first | with_reducible assumption | with_reducible apply State.ackClass_sound
                 | with_reducible apply State.each_sound | with_reducible apply State.sound_if | with_reducible intro _ hz
                 | with_reducible intro hm | split)

theorem State.writeAck_sound (s : State) (v : Word) (hs₀ : s.sound) : (State.writeAck s v).sound := by
  unfold State.writeAck
  try dsimp only
  repeat' (first | with_reducible assumption | with_reducible apply State.acknowledge_sound
                 | with_reducible apply State.bar0_sound | with_reducible intro _ hz | with_reducible intro hm | split)

theorem State.ackConsumed_sound (s : State) (hs₀ : s.sound) : (State.ackConsumed s).sound := by
  unfold State.ackConsumed
  try dsimp only
  repeat' (first | with_reducible assumption | with_reducible apply State.acknowledge_sound | split)

theorem State.ackFirst_sound (s : State) (hs₀ : s.sound) : (State.ackFirst s).sound := by
  unfold State.ackFirst
  try dsimp only
  repeat' (first | with_reducible assumption | with_reducible apply State.acknowledge_sound
                 | with_reducible apply foldl_sound | with_reducible apply State.sound_if | with_reducible intro _ hz
                 | with_reducible intro hm | split)

theorem State.writeRecClr_sound (s : State) (v : Word) (hs₀ : s.sound) : (State.writeRecClr s v).sound := by
  unfold State.writeRecClr
  try dsimp only
  repeat' (first | with_reducible assumption | with_reducible apply State.bar0_sound | with_reducible apply State.each_sound
                 | with_reducible apply State.wr_sound | with_reducible apply State.sound_if | with_reducible intro _ hz
                 | with_reducible intro hm | split)

theorem State.writeSrcCfg_sound (s : State) (x : Nat) (v : Word) (hs₀ : s.sound) : (State.writeSrcCfg s x v).sound := by
  unfold State.writeSrcCfg
  try dsimp only
  repeat' (first | with_reducible assumption | with_reducible apply State.gate_sound | with_reducible apply State.wr_sound
                 | with_reducible apply State.sound_if | with_reducible intro _ hz | with_reducible intro hm | split
                 | with_reducible exact fun h => h | with_reducible exact fun _ h => h
                 | with_reducible apply State.sound_set_ltn | (simp [length_upd]; done))


/-! ### Machine/WickOps.lean -/

theorem State.updHead_sound (s : State) (p h : Nat) (f : Head → Head) (hs₀ : s.sound) : (State.updHead s p h f).sound := by
  unfold State.updHead
  try dsimp only
  repeat' (first | with_reducible assumption | with_reducible apply State.updWick_sound | with_reducible intro _ hz
                 | with_reducible intro hm | split | with_reducible exact fun h => h | with_reducible exact fun _ h => h
                 | with_reducible exact hz | exact List.length_replicate
                 | (simp only [Channel.fit, WickPort.fit, length_upd, List.length_map] at hz ⊢; exact hz))

theorem State.headRaises_sound (s : State) (p h : Nat) (temp : BitVec 16) (e : HeadEvents) (staleDetail : Word) (hs₀ : s.sound) :
    (State.headRaises s p h temp e staleDetail).sound := by
  unfold State.headRaises
  try dsimp only
  repeat' (first | with_reducible assumption | with_reducible apply State.count_sound
                 | with_reducible apply State.raise_sound | with_reducible apply State.sound_if | with_reducible intro _ hz
                 | with_reducible intro hm | split | with_reducible exact fun h => h | with_reducible exact fun _ h => h
                 | (simp [length_upd]; done))

theorem State.applyNow_sound (s : State) (p h : Nat) (r : Bool × Nat) (hs₀ : s.sound) : (State.applyNow s p h r).sound := by
  unfold State.applyNow
  try dsimp only
  repeat' (first | with_reducible assumption | with_reducible apply State.updHead_sound | with_reducible intro _ hz
                 | with_reducible intro hm | split)

theorem State.applyResult_sound (s : State) (p h : Nat) (lr : Line) (r : Bool × Nat) (hs₀ : s.sound) :
    (State.applyResult s p h lr r).sound := by
  unfold State.applyResult
  try dsimp only
  repeat' (first | with_reducible assumption | with_reducible apply State.applyNow_sound
                 | with_reducible apply State.count_sound | with_reducible apply State.updHead_sound
                 | with_reducible apply State.sound_if | with_reducible intro _ hz | with_reducible intro hm | split)

theorem State.reevalHeads_sound (s : State) (p : Nat) (body : Bytes) (hs₀ : s.sound) : (State.reevalHeads s p body).sound := by
  unfold State.reevalHeads
  try dsimp only
  repeat' (first | with_reducible assumption | with_reducible apply State.applyNow_sound
                 | with_reducible apply State.each_sound | with_reducible apply State.headRaises_sound
                 | with_reducible apply State.updHead_sound | with_reducible intro _ hz | with_reducible intro hm | split)

theorem State.waveInForce_sound (s : State) (p : Nat) (body : Bytes) (since : Line) (loaded : Bool) (hs₀ : s.sound) :
    (State.waveInForce s p body since loaded).sound := by
  unfold State.waveInForce
  try dsimp only
  repeat' (first | with_reducible assumption | with_reducible apply State.reevalHeads_sound
                 | with_reducible apply State.setTab_sound | with_reducible apply State.updWick_sound
                 | with_reducible intro _ hz | with_reducible intro hm | split | with_reducible exact fun h => h
                 | with_reducible exact fun _ h => h | with_reducible exact hz | exact List.length_replicate
                 | (simp only [Channel.fit, WickPort.fit, length_upd, List.length_map] at hz ⊢; exact hz))

theorem State.takeBank_sound (s : State) (p : Nat) (b : Bool) (hs₀ : s.sound) : (State.takeBank s p b).sound := by
  unfold State.takeBank
  try dsimp only
  repeat' (first | with_reducible assumption | with_reducible apply State.updWick_sound | with_reducible intro _ hz
                 | with_reducible intro hm | split | with_reducible exact fun h => h | with_reducible exact fun _ h => h
                 | with_reducible exact hz | exact List.length_replicate
                 | (simp only [Channel.fit, WickPort.fit, length_upd, List.length_map] at hz ⊢; exact hz))

theorem State.reachBank_sound (s : State) (p : Nat) (l : Line) (hs₀ : s.sound) : (State.reachBank s p l).sound := by
  unfold State.reachBank
  try dsimp only
  repeat' (first | with_reducible assumption | with_reducible apply State.takeBank_sound
                 | with_reducible apply State.updWick_sound | with_reducible apply State.waveInForce_sound
                 | with_reducible apply State.sound_if | with_reducible intro _ hz | with_reducible intro hm | split
                 | with_reducible exact fun h => h | with_reducible exact fun _ h => h | with_reducible exact hz
                 | exact List.length_replicate
                 | (simp only [Channel.fit, WickPort.fit, length_upd, List.length_map] at hz ⊢; exact hz))

theorem State.flushWave_sound (s : State) (p : Nat) (hs₀ : s.sound) : (State.flushWave s p).sound := by
  unfold State.flushWave
  try dsimp only
  repeat' (first | with_reducible assumption | with_reducible apply State.takeBank_sound
                 | with_reducible apply State.updWick_sound | with_reducible apply State.waveInForce_sound
                 | with_reducible intro _ hz | with_reducible intro hm | split | with_reducible exact fun h => h
                 | with_reducible exact fun _ h => h | with_reducible exact hz | exact List.length_replicate
                 | (simp only [Channel.fit, WickPort.fit, length_upd, List.length_map] at hz ⊢; exact hz))

theorem State.startBank_sound (s : State) (p : Nat) (body : Bytes) (purpose : WavePurpose) (hs₀ : s.sound) :
    (State.startBank s p body purpose).sound := by
  unfold State.startBank
  try dsimp only
  repeat' (first | with_reducible assumption | with_reducible apply State.updWick_sound
                 | with_reducible apply State.sound_if | with_reducible intro _ hz | with_reducible intro hm | split
                 | with_reducible exact fun h => h | with_reducible exact fun _ h => h | with_reducible exact hz
                 | exact List.length_replicate
                 | (simp only [Channel.fit, WickPort.fit, length_upd, List.length_map] at hz ⊢; exact hz))

theorem State.sendBank_sound (s : State) (p : Nat) (w : WaveWrite) (hs₀ : s.sound) : (State.sendBank s p w).sound := by
  unfold State.sendBank
  try dsimp only
  repeat' (first | with_reducible assumption | with_reducible apply State.each_sound
                 | with_reducible apply State.sendCtl_sound | with_reducible apply State.updWick_sound
                 | with_reducible intro _ hz | with_reducible intro hm | split | with_reducible exact fun h => h
                 | with_reducible exact fun _ h => h | with_reducible exact hz | exact List.length_replicate
                 | (simp only [Channel.fit, WickPort.fit, length_upd, List.length_map] at hz ⊢; exact hz))

theorem State.dropBank_sound (s : State) (p : Nat) (hs₀ : s.sound) : (State.dropBank s p).sound := by
  unfold State.dropBank
  try dsimp only
  repeat' (first | with_reducible assumption | with_reducible apply State.actEnd_sound
                 | with_reducible apply State.completeOpt_sound | with_reducible apply State.updWick_sound
                 | with_reducible intro _ hz | with_reducible intro hm | split | with_reducible exact fun h => h
                 | with_reducible exact fun _ h => h | with_reducible exact hz | exact List.length_replicate
                 | (simp only [Channel.fit, WickPort.fit, length_upd, List.length_map] at hz ⊢; exact hz))

theorem State.wickLeave_sound (s : State) (p : Nat) (hs₀ : s.sound) : (State.wickLeave s p).sound := by
  unfold State.wickLeave
  try dsimp only
  repeat' (first | with_reducible assumption | with_reducible apply State.actEnd_sound
                 | with_reducible apply State.dropBank_sound | with_reducible apply State.updWick_sound
                 | with_reducible intro _ hz | with_reducible intro hm | split | with_reducible exact fun h => h
                 | with_reducible exact fun _ h => h | with_reducible exact hz | exact List.length_replicate
                 | (simp only [Channel.fit, WickPort.fit, length_upd, List.length_map] at hz ⊢; exact hz))

theorem State.reloadBegin_sound (s : State) (p : Nat) (hs₀ : s.sound) : (State.reloadBegin s p).sound := by
  unfold State.reloadBegin
  try dsimp only
  repeat' (first | with_reducible assumption | with_reducible apply State.actEnd_sound
                 | with_reducible apply State.startBank_sound | with_reducible apply State.sound_if
                 | with_reducible intro _ hz | with_reducible intro hm | split | with_reducible exact fun h => h
                 | with_reducible exact fun _ h => h | (simp [length_upd]; done))

theorem State.wickCaps_sound (s : State) (p : Nat) (hs₀ : s.sound) : (State.wickCaps s p).sound := by
  unfold State.wickCaps
  try dsimp only
  repeat' (first | with_reducible assumption | with_reducible apply State.flushWave_sound
                 | with_reducible apply State.raise_sound | with_reducible apply State.updWick_sound
                 | with_reducible apply State.sound_if | with_reducible intro _ hz | with_reducible intro hm | split
                 | with_reducible exact fun h => h | with_reducible exact fun _ h => h | with_reducible exact hz
                 | exact List.length_replicate
                 | (simp only [Channel.fit, WickPort.fit, length_upd, List.length_map] at hz ⊢; exact hz))

theorem State.wickActive_sound (s : State) (p : Nat) (hs₀ : s.sound) : (State.wickActive s p).sound := by
  unfold State.wickActive
  try dsimp only
  repeat' (first | with_reducible assumption | with_reducible apply State.startBank_sound
                 | with_reducible apply State.updWick_sound | with_reducible intro _ hz | with_reducible intro hm | split
                 | with_reducible exact fun h => h | with_reducible exact fun _ h => h | with_reducible exact hz
                 | exact List.length_replicate
                 | (simp only [Channel.fit, WickPort.fit, length_upd, List.length_map] at hz ⊢; exact hz))


/-! ### Machine/Changes.lean -/

theorem State.badStrips_sound (s : State) (p : Nat) (l : List (Nat × Nat × Nat)) (hs₀ : s.sound) :
    (State.badStrips s p l).sound := by
  unfold State.badStrips
  try dsimp only
  repeat' (first | with_reducible assumption | with_reducible apply State.count_sound
                 | with_reducible apply State.each_sound | with_reducible apply State.raise_sound
                 | with_reducible intro _ hz | with_reducible intro hm | split)

theorem State.screened_sound (s : State) (p : Nat) (m : Screened) (hs₀ : s.sound) : (State.screened s p m).sound := by
  unfold State.screened
  try dsimp only
  repeat' (first | with_reducible assumption | with_reducible apply State.badStrips_sound
                 | with_reducible apply State.count_sound | with_reducible apply State.updPipe_sound
                 | with_reducible intro _ hz | with_reducible intro hm | split)

theorem State.prime_sound (s : State) (p : Nat) (f : Line) (hs₀ : s.sound) : (State.prime s p f).sound := by
  unfold State.prime
  try dsimp only
  repeat' (first | with_reducible assumption | with_reducible apply State.each_sound
                 | with_reducible apply State.screened_sound | with_reducible apply State.updPipe_sound
                 | with_reducible intro _ hz | with_reducible intro hm | split)

theorem State.startPipe_sound (s : State) (e : Option Line) (p : Nat) (hs₀ : s.sound) : (State.startPipe s e p).sound := by
  unfold State.startPipe
  try dsimp only
  repeat' (first | with_reducible assumption | with_reducible apply State.count_sound
                 | with_reducible apply State.prime_sound | with_reducible apply State.raise_sound
                 | with_reducible apply State.updLink_sound | with_reducible apply State.updPipe_sound
                 | with_reducible apply State.sound_if | with_reducible intro _ hz | with_reducible intro hm | split)

theorem State.enterPrinting_sound (s : State) (e : Option Line) (hs₀ : s.sound) : (State.enterPrinting s e).sound := by
  unfold State.enterPrinting
  try dsimp only
  repeat' (first | with_reducible assumption | with_reducible apply State.each_sound
                 | with_reducible apply State.enter_sound | with_reducible apply State.startPipe_sound
                 | with_reducible apply State.wakeDram_sound | with_reducible intro _ hz | with_reducible intro hm | split
                 | with_reducible exact fun _ => State.sound_before hs₀)

theorem State.enterIfReady_sound (s : State) (hs₀ : s.sound) : (State.enterIfReady s).sound := by
  unfold State.enterIfReady
  try dsimp only
  repeat' (first | with_reducible assumption | with_reducible apply State.enterPrinting_sound
                 | with_reducible apply State.sound_if | with_reducible intro _ hz | with_reducible intro hm | split
                 | with_reducible exact fun h => h | with_reducible exact fun _ h => h | (simp [length_upd]; done))

theorem State.enterStandby_sound (s : State) (hs₀ : s.sound) : (State.enterStandby s).sound := by
  unfold State.enterStandby
  try dsimp only
  repeat' (first | with_reducible assumption | with_reducible apply State.drainCtl_sound
                 | with_reducible apply State.each_sound | with_reducible apply State.enter_sound
                 | with_reducible apply State.flushTabs_sound | with_reducible apply State.flushWave_sound
                 | with_reducible apply State.sendIdle_sound | with_reducible intro _ hz | with_reducible intro hm | split
                 | with_reducible exact fun h => h | with_reducible exact fun _ h => h
                 | with_reducible apply State.sound_set_pipes | exact hm | (simp [length_upd]; done)
                 | (simp [hm, length_upd, Memory.wf_writes, Memory.wf_write, SMap.sorted_put]; done)
                 | (rw [State.sound_mk]; refine ⟨?_, ?_, State.sound_sto hs₀, State.sound_heads hs₀,
                      State.sound_before hs₀,
                      State.sound_channels hs₀⟩ <;> simp (maxDischargeDepth := 30) [length_upd,
                      List.length_map, Memory.wf_writes, Memory.wf_write, SMap.sorted_put, State.sound_regs,
                      State.sound_mem, State.sound_flash, State.sound_pipes, State.sound_wck,
                      State.sound_links, State.sound_rings, State.sound_xings, State.sound_classes,
                      State.sound_encs, State.sound_latches, State.sound_latchDue, State.sound_cmps,
                      State.sound_strobes, State.sound_camtrigs, State.sound_tpulses, State.sound_cams,
                      State.sound_chans, State.sound_gens, State.drainCtl_sound, State.each_sound,
                      State.enter_sound, State.flushTabs_sound, State.flushWave_sound, State.sendIdle_sound,
                      hs₀]; done)
                 | (rw [State.sound_mk]; simp (maxDischargeDepth := 30) [length_upd, List.length_map,
                      Memory.wf_writes, Memory.wf_write, SMap.sorted_put, State.sound_regs, State.sound_mem,
                      State.sound_flash, State.sound_pipes, State.sound_wck, State.sound_links,
                      State.sound_rings, State.sound_xings, State.sound_classes, State.sound_encs,
                      State.sound_latches, State.sound_latchDue, State.sound_cmps, State.sound_strobes,
                      State.sound_camtrigs, State.sound_tpulses, State.sound_cams, State.sound_chans,
                      State.sound_gens, State.drainCtl_sound, State.each_sound, State.enter_sound,
                      State.flushTabs_sound, State.flushWave_sound, State.sendIdle_sound, hs₀]; done)
                 | (rw [State.sound_mk]; simp (maxDischargeDepth := 30) [length_upd, List.length_map,
                      Memory.wf_writes, Memory.wf_write, SMap.sorted_put, State.sound_regs, State.sound_mem,
                      State.sound_flash, State.sound_pipes, State.sound_wck, State.sound_links,
                      State.sound_rings, State.sound_xings, State.sound_classes, State.sound_encs,
                      State.sound_latches, State.sound_latchDue, State.sound_cmps, State.sound_strobes,
                      State.sound_camtrigs, State.sound_tpulses, State.sound_cams, State.sound_chans,
                      State.sound_gens, State.drainCtl_sound, State.each_sound, State.enter_sound,
                      State.flushTabs_sound, State.flushWave_sound, State.sendIdle_sound, hz]; done))

theorem State.reportLine_sound (s : State) (c : Option Ctx) (e : Line) (high : Nat) (hs₀ : s.sound) :
    (State.reportLine s c e high).sound := by
  unfold State.reportLine
  try dsimp only
  repeat' (first | with_reducible assumption | with_reducible apply State.complete_sound | split)

theorem State.keepChange_sound (s : State) (id : Nat) (line : Option Line) (body : ChangeBody) (hs₀ : s.sound) :
    (State.keepChange s id line body).sound := by
  unfold State.keepChange
  try dsimp only
  repeat' (first | with_reducible assumption | split | with_reducible exact fun _ => State.sound_before hs₀)

theorem State.nameChange_sound (s : State) (id : Nat) (line : Option Line) (body : ChangeBody) (hs₀ : s.sound) :
    (State.nameChange s id line body).sound := by
  unfold State.nameChange
  try dsimp only
  repeat' (first | with_reducible assumption | with_reducible intro _ hz | with_reducible intro hm | split
                 | with_reducible exact fun _ => State.sound_before hs₀)

theorem State.journal_sound (s : State) (line : Option Line) (body : ChangeBody) (hs₀ : s.sound) :
    (State.journal s line body).sound := by
  unfold State.journal
  try dsimp only
  repeat' (first | with_reducible assumption | with_reducible apply State.keepChange_sound
                 | with_reducible apply State.nameChange_sound | with_reducible apply State.sendTwin_sound
                 | with_reducible apply State.sound_if | with_reducible intro _ hz | with_reducible intro hm | split
                 | with_reducible exact fun h => h | with_reducible exact fun _ h => h
                 | with_reducible exact fun _ => State.sound_before hs₀ | with_reducible apply State.sound_set_twn
                 | (simp [length_upd]; done))

theorem State.placeWave_sound (s : State) (p : Nat) (body : Bytes) (e : Line) (now : Bool) (loaded : Bool) (hs₀ : s.sound) :
    (State.placeWave s p body e now loaded).sound := by
  unfold State.placeWave
  try dsimp only
  repeat' (first | with_reducible assumption | with_reducible apply State.setTab_sound
                 | with_reducible apply State.startBank_sound | with_reducible apply State.takeBank_sound
                 | with_reducible apply State.updWick_sound | with_reducible apply State.waveInForce_sound
                 | with_reducible apply State.sound_if | with_reducible intro _ hz | with_reducible intro hm | split
                 | with_reducible exact fun h => h | with_reducible exact fun _ h => h | with_reducible exact hz
                 | exact List.length_replicate
                 | (simp only [Channel.fit, WickPort.fit, length_upd, List.length_map] at hz ⊢; exact hz))

theorem State.placeTable_sound (s : State) (image : Bytes) (e : Line) (loop : Bool) (hs₀ : s.sound) :
    (State.placeTable s image e loop).sound := by
  unfold State.placeTable
  try dsimp only
  repeat' (first | with_reducible assumption | with_reducible apply State.placeWave_sound
                 | with_reducible apply State.setTab_sound | with_reducible apply State.settleTab_sound
                 | with_reducible apply State.sound_if | with_reducible intro _ hz | with_reducible intro hm | split
                 | with_reducible exact fun h => h | with_reducible exact fun _ h => h | (simp [length_upd]; done))

theorem State.placePlacement_sound (s : State) (g : Nat) (q : Placement) (start : Line) (hs₀ : s.sound) :
    (State.placePlacement s g q start).sound := by
  unfold State.placePlacement
  try dsimp only
  repeat' (first | with_reducible assumption | with_reducible apply State.rearmItems_sound
                 | with_reducible apply State.settleGroup_sound | with_reducible apply State.updGroup_sound
                 | with_reducible apply State.sound_if | with_reducible intro _ hz | with_reducible intro hm | split
                 | with_reducible exact fun h => h | with_reducible exact fun _ h => h
                 | with_reducible apply State.sound_set_sto | (simp [length_upd]; done))

theorem State.dropPlacement_sound (s : State) (g handle : Nat) (hs₀ : s.sound) : (State.dropPlacement s g handle).sound := by
  unfold State.dropPlacement
  try dsimp only
  repeat' (first | with_reducible assumption | with_reducible apply State.updGroup_sound | with_reducible intro _ hz
                 | with_reducible intro hm | split)

theorem State.cancelAt_sound (s : State) (g handle : Nat) (line : Option Line) (hs₀ : s.sound) :
    (State.cancelAt s g handle line).sound := by
  unfold State.cancelAt
  try dsimp only
  repeat' (first | with_reducible assumption | with_reducible apply State.dropPlacement_sound
                 | with_reducible apply State.settleGroup_sound | with_reducible apply State.updGroup_sound
                 | with_reducible apply State.sound_if | with_reducible intro _ hz | with_reducible intro hm | split)

theorem State.dropSection_sound (s : State) (n : Nat) (hs₀ : s.sound) : (State.dropSection s n).sound := by
  exact State.sound_set_sto hs₀ fun h => ⟨SMap.sorted_del _ _ h.1, fun e he => h.2.1 e (SMap.mem_del _ _ he), h.2.2⟩

theorem State.mergeSection_sound (s : State) (n : Nat) (header : Bytes) (next : List Nat) (strips : List (List (Nat × Nat))) (sealed : Bool) (hs₀ : s.sound) :
    (State.mergeSection s n header next strips sealed).sound := by
  unfold State.mergeSection
  try dsimp only
  repeat' (first | with_reducible assumption | with_reducible apply State.setSection_sound | with_reducible intro _ hz
                 | with_reducible intro hm | split | with_reducible exact fun h => h | with_reducible exact fun _ h => h
                 | with_reducible exact fun _ => State.sound_before hs₀ | with_reducible apply State.sound_set_twn
                 | (simp [length_upd]; done))

theorem State.dropStaged_sound (s : State) (n : Nat) (hs₀ : s.sound) : (State.dropStaged s n).sound := by
  unfold State.dropStaged
  try dsimp only
  repeat' (first | with_reducible assumption | with_reducible intro _ hz | with_reducible intro hm | split
                 | with_reducible exact fun _ => State.sound_before hs₀)

theorem State.sendData_sound (s : State) (n plane strip : Nat) (stream : Bytes) (off : Nat) (hs₀ : s.sound) :
    (State.sendData s n plane strip stream off).sound := by
  unfold State.sendData
  try dsimp only
  repeat' (first | with_reducible assumption | with_reducible apply State.each_sound
                 | with_reducible apply State.sendTwin_sound | with_reducible apply State.take_sound
                 | with_reducible intro _ hz | with_reducible intro hm | split)

theorem State.updAct_sound (s : State) (code target : Nat) (f : Activity → Activity) (hs₀ : s.sound) :
    (State.updAct s code target f).sound := by
  unfold State.updAct
  try dsimp only
  repeat' (first | with_reducible assumption | with_reducible apply State.sound_if | with_reducible intro _ hz
                 | with_reducible intro hm | split | with_reducible exact fun h => h | with_reducible exact fun _ h => h
                 | with_reducible apply State.sound_set_lmp | (simp [length_upd]; done))

theorem State.spitFrom_sound (s : State) (mask : Nat) (param : Bytes) (e : Line) (hs₀ : s.sound) :
    (State.spitFrom s mask param e).sound := by
  unfold State.spitFrom
  try dsimp only
  repeat' (first | with_reducible assumption | with_reducible apply State.updAct_sound | with_reducible intro _ hz
                 | with_reducible intro hm | split)

theorem State.stripFrom_sound (s : State) (mask : Nat) (param : Bytes) (e : Line) (hs₀ : s.sound) :
    (State.stripFrom s mask param e).sound := by
  unfold State.stripFrom
  try dsimp only
  repeat' (first | with_reducible assumption | with_reducible apply State.updAct_sound | with_reducible intro _ hz
                 | with_reducible intro hm | split)

theorem State.partnerAct_sound (s : State) (code mask : Nat) (param : Bytes) (hs₀ : s.sound) :
    (State.partnerAct s code mask param).sound := by
  unfold State.partnerAct
  try dsimp only
  repeat' (first | with_reducible assumption | with_reducible apply State.actRun_sound | with_reducible apply State.sound_if
                 | with_reducible intro _ hz | with_reducible intro hm | split | with_reducible exact fun h => h
                 | with_reducible exact fun _ h => h | (simp [length_upd]; done))

theorem State.setStop_sound (s : State) (l : Line) (hs₀ : s.sound) : (State.setStop s l).sound := by
  unfold State.setStop
  try dsimp only
  repeat' (first | with_reducible assumption | with_reducible intro _ hz | with_reducible intro hm | split
                 | with_reducible exact fun h => h | with_reducible exact fun _ h => h
                 | with_reducible apply State.sound_set_dev | (simp [length_upd]; done))

theorem State.toneCommitted_sound (s : State) (image : Bytes) (loop : Bool) (delta : List Int) (hs₀ : s.sound) :
    (State.toneCommitted s image loop delta).sound := by
  unfold State.toneCommitted
  try dsimp only
  repeat' (first | with_reducible assumption | with_reducible apply State.sound_if | with_reducible intro _ hz
                 | with_reducible intro hm | split | with_reducible exact fun h => h | with_reducible exact fun _ h => h
                 | with_reducible apply State.sound_set_pho | (simp [length_upd]; done))

theorem State.loadCommitted_sound (s : State) (image : Bytes) (loop : Bool) (delta : List Int) (e : Line) (hs₀ : s.sound) :
    (State.loadCommitted s image loop delta e).sound := by
  unfold State.loadCommitted
  try dsimp only
  repeat' (first | with_reducible assumption | with_reducible apply State.toneCommitted_sound
                 | with_reducible apply State.sound_if | with_reducible intro _ hz | with_reducible intro hm | split
                 | with_reducible exact fun h => h | with_reducible exact fun _ h => h
                 | with_reducible apply State.sound_set_pho | (simp [length_upd]; done))

theorem State.applyChange_sound (s : State) (line : Option Line) (body : ChangeBody) (ctx : Option Ctx) (result : Nat) (hs₀ : s.sound) :
    (State.applyChange s line body ctx result).sound := by
  unfold State.applyChange
  try dsimp only
  repeat' (first | with_reducible assumption | with_reducible apply State.cancelAt_sound
                 | with_reducible apply State.completeOpt_sound | with_reducible apply State.dropSection_sound
                 | with_reducible apply State.enterPrinting_sound | with_reducible apply State.loadCommitted_sound
                 | with_reducible apply State.mergeSection_sound | with_reducible apply State.partnerAct_sound
                 | with_reducible apply State.placePlacement_sound | with_reducible apply State.placeTable_sound
                 | with_reducible apply State.putSection_sound | with_reducible apply State.reportLine_sound
                 | with_reducible apply State.setStop_sound | with_reducible apply State.spitFrom_sound
                 | with_reducible apply State.stripFrom_sound | with_reducible apply State.sound_if
                 | with_reducible intro _ hz | with_reducible intro hm | split
                 | (have ht := State.sound_table hs₀ ‹SMap.find? _ _ = some _›; exact ht))

theorem State.applyNamed_sound (s : State) (id : Nat) (line : Option Line) (body : ChangeBody) (ctx : Option Ctx) (result : Nat) (hs₀ : s.sound) :
    (State.applyNamed s id line body ctx result).sound := by
  unfold State.applyNamed
  try dsimp only
  repeat' (first | with_reducible assumption | with_reducible apply State.applyChange_sound
                 | with_reducible apply State.nameChange_sound | split)

theorem State.propose_sound (s : State) (line : Option Line) (body : ChangeBody) (ctx : Option Ctx) (result : Nat) (undo : Option (Nat × Option Section')) (isAt : Bool) (hs₀ : s.sound) :
    (State.propose s line body ctx result undo isAt).sound := by
  unfold State.propose
  exact State.sendTwin_sound _ _ (State.sound_set_twn hs₀)

theorem State.agree_sound (s : State) (line : Option Line) (body : ChangeBody) (ctx : Option Ctx) (result : Nat) (undo : Option (Nat × Option Section')) (hs₀ : s.sound) :
    (State.agree s line body ctx result undo).sound := by
  unfold State.agree
  try dsimp only
  repeat' (first | with_reducible assumption | with_reducible apply State.applyChange_sound
                 | with_reducible apply State.journal_sound | with_reducible apply State.propose_sound
                 | with_reducible apply State.sound_if | with_reducible intro _ hz | with_reducible intro hm | split
                 | with_reducible exact fun h => h | with_reducible exact fun _ h => h | (simp [length_upd]; done))

theorem State.undoIngest_sound (s : State) (w0 : Option (Nat × Option Section')) (hs₀ : s.sound) :
    (State.undoIngest s w0).sound := by
  unfold State.undoIngest
  try dsimp only
  repeat' (first | with_reducible assumption | with_reducible apply State.dropSection_sound
                 | with_reducible apply State.setSection_sound | split)

theorem State.abortChange_sound (s : State) (p : Proposal) (hs₀ : s.sound) : (State.abortChange s p).sound := by
  unfold State.abortChange
  try dsimp only
  repeat' (first | with_reducible assumption | with_reducible apply State.actEnd_sound
                 | with_reducible apply State.completeOpt_sound | with_reducible apply State.count_sound
                 | with_reducible apply State.dropPlacement_sound | with_reducible apply State.propose_sound
                 | with_reducible apply State.undoIngest_sound | with_reducible apply State.sound_if
                 | with_reducible intro _ hz | with_reducible intro hm | split | with_reducible exact fun h => h
                 | with_reducible exact fun _ h => h | (simp [length_upd]; done))

theorem State.decideChange_sound (s : State) (p : Proposal) (commit : Bool) (hs₀ : s.sound) :
    (State.decideChange s p commit).sound := by
  unfold State.decideChange
  try dsimp only
  repeat' (first | with_reducible assumption | with_reducible apply State.abortChange_sound
                 | with_reducible apply State.applyNamed_sound | with_reducible apply State.count_sound
                 | with_reducible apply State.sendTwin_sound | with_reducible apply State.sound_if
                 | with_reducible intro _ hz | with_reducible intro hm | split | with_reducible exact fun h => h
                 | with_reducible exact fun _ h => h | with_reducible exact fun _ => State.sound_before hs₀
                 | with_reducible apply State.sound_set_twn | (simp [length_upd]; done))

theorem State.decideAlone_sound (s : State) (hs₀ : s.sound) : (State.decideAlone s).sound := by
  unfold State.decideAlone
  try dsimp only
  repeat' (first | with_reducible assumption | with_reducible apply State.decideChange_sound
                 | with_reducible apply State.each_sound | with_reducible intro _ hz | with_reducible intro hm | split)

theorem State.detach_sound (s : State) (rejoin : Bool) (hs₀ : s.sound) : (State.detach s rejoin).sound := by
  unfold State.detach
  try dsimp only
  repeat' (first | with_reducible assumption | with_reducible apply State.each_sound
                 | with_reducible apply State.enterStandby_sound | with_reducible apply State.sendIdle_sound
                 | with_reducible apply State.sound_if | with_reducible intro _ hz | with_reducible intro hm | split
                 | with_reducible exact fun h => h | with_reducible exact fun _ h => h
                 | with_reducible exact fun _ => State.sound_before hs₀ | with_reducible apply State.sound_set_twn
                 | (simp [length_upd]; done))

theorem State.disagree_sound (s : State) (why : Nat) (hs₀ : s.sound) : (State.disagree s why).sound := by
  unfold State.disagree
  try dsimp only
  repeat' (first | with_reducible assumption | with_reducible apply State.count_sound
                 | with_reducible apply State.detach_sound | with_reducible apply State.raise_sound | split)

theorem State.startTransit_sound (s : State) (w : WaitLoad) (hs₀ : s.sound) : (State.startTransit s w).sound := by
  unfold State.startTransit
  try dsimp only
  repeat' (first | with_reducible assumption | with_reducible apply State.agree_sound
                 | with_reducible apply State.completeOpt_sound | with_reducible apply State.journal_sound
                 | with_reducible apply State.loadCommitted_sound | with_reducible apply State.propose_sound
                 | with_reducible apply State.reportLine_sound | with_reducible apply State.setTab_sound
                 | with_reducible apply State.settleTab_sound | with_reducible apply State.sound_if
                 | with_reducible intro _ hz | with_reducible intro hm | split | with_reducible exact fun h => h
                 | with_reducible exact fun _ h => h | (simp [length_upd]; done))

theorem State.settlePeriod_sound (s : State) (period : Nat) (e : Line) (hs₀ : s.sound) :
    (State.settlePeriod s period e).sound := by
  unfold State.settlePeriod
  try dsimp only
  repeat' (first | with_reducible assumption | with_reducible apply State.sound_if | with_reducible intro _ hz
                 | with_reducible intro hm | split)

theorem State.countLimits_sound (s : State) (period bar n : Nat) (hs₀ : s.sound) :
    (State.countLimits s period bar n).sound := by
  unfold State.countLimits
  try dsimp only
  repeat' (first | with_reducible assumption | with_reducible apply State.count_sound
                 | with_reducible apply State.raise_sound | with_reducible apply State.sound_if | with_reducible intro _ hz
                 | with_reducible intro hm | split | with_reducible exact fun h => h | with_reducible exact fun _ h => h
                 | with_reducible apply State.sound_set_pho | (simp [length_upd]; done))

theorem State.startLoop_sound (s : State) (w : WaitLoad) (l : LoopSteps) (hs₀ : s.sound) : (State.startLoop s w l).sound := by
  unfold State.startLoop
  try dsimp only
  repeat' (first | with_reducible assumption | with_reducible apply State.agree_sound
                 | with_reducible apply State.countLimits_sound | with_reducible apply State.settlePeriod_sound
                 | with_reducible apply State.settleTab_sound | with_reducible apply State.sound_if | split)

theorem State.waveCheck_sound (s : State) (p : Nat) (body : Bytes) (ctx : Option Ctx) (act : State → State) (hs₀ : s.sound) (hact : ∀ (u : State), u.sound → (act u).sound) :
    (State.waveCheck s p body ctx act).sound := by
  unfold State.waveCheck
  try dsimp only
  repeat' (first | with_reducible assumption | with_reducible apply hact | with_reducible apply State.completeOpt_sound
                 | with_reducible apply State.raise_sound | with_reducible apply State.sound_if | with_reducible intro _ hz
                 | with_reducible intro hm | split | with_reducible exact fun h => h | with_reducible exact fun _ h => h
                 | (simp [length_upd]; done))

theorem State.commitWave_sound (s : State) (p : Nat) (at' : Option Line) (body : Bytes) (ctx : Option Ctx) (hs₀ : s.sound) :
    (State.commitWave s p at' body ctx).sound := by
  unfold State.commitWave
  try dsimp only
  repeat' (first | with_reducible assumption | with_reducible apply State.completeOpt_sound
                 | with_reducible apply State.journal_sound | with_reducible apply State.placeWave_sound
                 | with_reducible apply State.propose_sound | with_reducible apply State.reportLine_sound
                 | with_reducible apply State.sound_if | with_reducible intro _ hz | with_reducible intro hm | split
                 | with_reducible exact fun h => h | with_reducible exact fun _ h => h | (simp [length_upd]; done))

theorem State.startLoad_sound (s : State) (w : WaitLoad) (hs₀ : s.sound) : (State.startLoad s w).sound := by
  unfold State.startLoad
  try dsimp only
  repeat' (first | with_reducible assumption | with_reducible apply State.commitWave_sound
                 | with_reducible apply State.completeOpt_sound | with_reducible apply State.setTab_sound
                 | with_reducible apply State.startBank_sound | with_reducible apply State.startLoop_sound
                 | with_reducible apply State.startTransit_sound | with_reducible apply State.waveCheck_sound
                 | with_reducible apply State.sound_if | with_reducible intro _ hz | with_reducible intro hm | split)

theorem State.arriveLoad_sound (s : State) (w : WaitLoad) (hs₀ : s.sound) : (State.arriveLoad s w).sound := by
  unfold State.arriveLoad
  try dsimp only
  repeat' (first | with_reducible assumption | with_reducible apply State.startLoad_sound
                 | with_reducible apply State.sound_if | with_reducible intro _ hz | with_reducible intro hm | split
                 | with_reducible exact fun h => h | with_reducible exact fun _ h => h
                 | with_reducible apply State.sound_set_waits | (simp [length_upd]; done))


/-! ### Machine/Store.lean -/

theorem State.storeGate_sound (s : State) (c : Ctx) (act : State → State) (hs₀ : s.sound) (hact : ∀ (u : State), u.sound → (act u).sound) :
    (State.storeGate s c act).sound := by
  unfold State.storeGate
  try dsimp only
  repeat' (first | with_reducible assumption | with_reducible apply hact | with_reducible apply State.complete_sound
                 | with_reducible apply State.sound_if | with_reducible intro _ hz | with_reducible intro hm | split
                 | with_reducible exact fun h => h | with_reducible exact fun _ h => h | (simp [length_upd]; done))

theorem State.finishIngest_sound (s : State) (n : Nat) (x : Section') (c : Ctx) (result : Nat) (old : Option Section') (hs₀ : s.sound) :
    (State.finishIngest s n x c result old).sound := by
  unfold State.finishIngest
  try dsimp only
  repeat' (first | with_reducible assumption | with_reducible apply State.agree_sound | split)

theorem State.ingestFull_sound (s : State) (n : Nat) (c : Ctx) (hs₀ : s.sound) : (State.ingestFull s n c).sound := by
  unfold State.ingestFull
  try dsimp only
  repeat' (first | with_reducible assumption | with_reducible apply State.complete_sound
                 | with_reducible apply State.raise_sound | split)

theorem State.verifyRaises_sound (s : State) (n plane : Nat) (strips : List Nat) (hs₀ : s.sound) :
    (State.verifyRaises s n plane strips).sound := by
  unfold State.verifyRaises
  try dsimp only
  repeat' (first | with_reducible assumption | with_reducible apply State.count_sound
                 | with_reducible apply State.each_sound | with_reducible apply State.raise_sound
                 | with_reducible intro _ hz | with_reducible intro hm | split | with_reducible exact fun h => h
                 | with_reducible exact fun _ h => h | with_reducible apply State.sound_set_free
                 | (simp [length_upd]; done))

theorem State.mirrorPlane_sound (s : State) (n plane : Nat) (old new : PlaneData) (hs₀ : s.sound) :
    (State.mirrorPlane s n plane old new).sound := by
  unfold State.mirrorPlane
  try dsimp only
  repeat' (first | with_reducible assumption | with_reducible apply State.each_sound
                 | with_reducible apply State.sendData_sound | with_reducible apply State.sound_if
                 | with_reducible intro _ hz | with_reducible intro hm | split)

theorem State.storePlane_sound (s : State) (n plane : Nat) (x : Section') (new : PlaneData) (c : Ctx) (raws : List Nat) (hs₀ : s.sound) :
    (State.storePlane s n plane x new c raws).sound := by
  unfold State.storePlane
  try dsimp only
  repeat' (first | with_reducible assumption | with_reducible apply State.finishIngest_sound
                 | with_reducible apply State.ingestFull_sound | with_reducible apply State.mirrorPlane_sound
                 | with_reducible apply State.setSection_sound | with_reducible apply State.verifyRaises_sound
                 | with_reducible apply State.sound_if | with_reducible intro _ hz | with_reducible intro hm | split)

theorem State.ingestBad_sound (s : State) (n plane : Nat) (c : Ctx) (hs₀ : s.sound) : (State.ingestBad s n plane c).sound := by
  unfold State.ingestBad
  try dsimp only
  repeat' (first | with_reducible assumption | with_reducible apply State.complete_sound
                 | with_reducible apply State.count_sound | with_reducible apply State.raise_sound | split)

theorem State.resolveTo_sound (s : State) (g : Nat) (q : Placement) (start : Line) (hs₀ : s.sound) :
    (State.resolveTo s g q start).sound := by
  unfold State.resolveTo
  try dsimp only
  repeat' (first | with_reducible assumption | with_reducible apply State.agree_sound | split)

theorem State.failPlacement_sound (s : State) (g : Nat) (q : Placement) (st : Status) (hs₀ : s.sound) :
    (State.failPlacement s g q st).sound := by
  unfold State.failPlacement
  try dsimp only
  repeat' (first | with_reducible assumption | with_reducible apply State.completeOpt_sound
                 | with_reducible apply State.dropPlacement_sound | split)


/-! ### Machine/Loads.lean -/

theorem State.tableCrc_sound (s : State) (c : Ctx) (k t : Nat) (hs₀ : s.sound) : (State.tableCrc s c k t).sound := by
  unfold State.tableCrc
  try dsimp only
  repeat' (first | with_reducible assumption | with_reducible apply State.count_sound
                 | with_reducible apply State.each_sound | with_reducible apply State.raise_sound
                 | with_reducible apply State.sound_if | with_reducible intro _ hz | with_reducible intro hm | split)

theorem State.checkLoad_sound (s : State) (c : Ctx) (d image : Bytes) (hs₀ : s.sound) :
    (State.checkLoad s c d image).sound := by
  unfold State.checkLoad
  try dsimp only
  repeat' (first | with_reducible assumption | with_reducible apply State.arriveLoad_sound
                 | with_reducible apply State.complete_sound | with_reducible apply State.raise_sound
                 | with_reducible apply State.tableCrc_sound | with_reducible apply State.take_sound
                 | with_reducible apply State.sound_if | with_reducible intro _ hz | with_reducible intro hm | split
                 | with_reducible exact fun h => h | with_reducible exact fun _ h => h | (simp [length_upd]; done))

theorem State.loadTable_sound (s : State) (ring : Nat) (d image : Bytes) (mine : Nat → Bool) (hs₀ : s.sound) :
    (State.loadTable s ring d image mine).sound := by
  unfold State.loadTable
  try dsimp only
  repeat' (first | with_reducible assumption | with_reducible apply State.checkLoad_sound
                 | with_reducible apply State.complete_sound | with_reducible apply State.descriptor_sound
                 | with_reducible apply State.withRead_sound | with_reducible apply State.sound_if
                 | with_reducible intro _ hz | with_reducible intro hm | split)


/-! ### Machine/ColourLoop.lean -/

theorem State.updLoop_sound (s : State) (f : Loop → Loop) (hs₀ : s.sound) : (State.updLoop s f).sound := by
  unfold State.updLoop
  try dsimp only
  repeat' (first | with_reducible assumption | with_reducible intro _ hz | with_reducible intro hm | split
                 | with_reducible exact fun h => h | with_reducible exact fun _ h => h
                 | with_reducible apply State.sound_set_pho | (simp [length_upd]; done))

theorem State.loopLoad_sound (s : State) (k t : Nat) (l : LoopSteps) (hs₀ : s.sound) : (State.loopLoad s k t l).sound := by
  unfold State.loopLoad
  try dsimp only
  repeat' (first | with_reducible assumption | with_reducible apply State.arriveLoad_sound | split)

theorem State.stepPort_sound (s : State) (p : Nat) (hs₀ : s.sound) : (State.stepPort s p).sound := by
  unfold State.stepPort
  try dsimp only
  repeat' (first | with_reducible assumption | with_reducible apply State.count_sound
                 | with_reducible apply State.loopLoad_sound | with_reducible apply State.sound_if
                 | with_reducible intro _ hz | with_reducible intro hm | split | with_reducible exact fun h => h
                 | with_reducible exact fun _ h => h | (simp [length_upd]; done))

theorem State.stepBar_sound (s : State) (b : Nat) (hs₀ : s.sound) : (State.stepBar s b).sound := by
  unfold State.stepBar
  try dsimp only
  repeat' (first | with_reducible assumption | with_reducible apply State.count_sound
                 | with_reducible apply State.loopLoad_sound | with_reducible apply State.sound_if
                 | with_reducible intro _ hz | with_reducible intro hm | split)

theorem State.raiseLimit_sound (s : State) (n : List Nat) (hs₀ : s.sound) : (State.raiseLimit s n).sound := by
  unfold State.raiseLimit
  try dsimp only
  repeat' (first | with_reducible assumption | with_reducible apply State.countLimits_sound | with_reducible intro _ hz
                 | with_reducible intro hm | split)

theorem State.endResets_sound (s : State) (hs₀ : s.sound) : (State.endResets s).sound := by
  unfold State.endResets
  try dsimp only
  repeat' (first | with_reducible assumption | with_reducible apply State.each_sound
                 | with_reducible apply State.updLoop_sound | with_reducible apply State.sound_if
                 | with_reducible intro _ hz | with_reducible intro hm | split)

theorem State.beginPeriod_sound (s : State) (hs₀ : s.sound) : (State.beginPeriod s).sound := by
  unfold State.beginPeriod
  try dsimp only
  repeat' (first | with_reducible assumption | with_reducible apply State.updLoop_sound | with_reducible intro _ hz
                 | with_reducible intro hm | split)

theorem State.writeLoopReset_sound (s : State) (gain tone : BitVec 8) (hs₀ : s.sound) :
    (State.writeLoopReset s gain tone).sound := by
  unfold State.writeLoopReset
  try dsimp only
  repeat' (first | with_reducible assumption | with_reducible apply State.bar0_sound
                 | with_reducible apply State.updLoop_sound | with_reducible intro _ hz | with_reducible intro hm | split)


/-! ### Machine/DramService.lean -/

theorem State.readBand_sound (s : State) (c b : Nat) (hs₀ : s.sound) : (State.readBand s c b).sound := by
  unfold State.readBand
  try dsimp only
  repeat' (first | with_reducible assumption | with_reducible apply State.set_sound
                 | with_reducible apply State.updChan_sound | with_reducible apply State.sound_if
                 | with_reducible intro _ hz | with_reducible intro hm | split | with_reducible exact fun h => h
                 | with_reducible exact fun _ h => h | with_reducible exact hz | exact List.length_replicate
                 | (simp only [Channel.fit, WickPort.fit, length_upd, List.length_map] at hz ⊢; exact hz))

theorem State.retrainBegin_sound (s : State) (a : Activity) (hs₀ : s.sound) : (State.retrainBegin s a).sound := by
  unfold State.retrainBegin
  try dsimp only
  repeat' (first | with_reducible assumption | with_reducible apply State.updChan_sound
                 | with_reducible apply State.sound_if | with_reducible intro _ hz | with_reducible intro hm | split
                 | with_reducible exact fun h => h | with_reducible exact fun _ h => h | with_reducible exact hz
                 | exact List.length_replicate
                 | (simp only [Channel.fit, WickPort.fit, length_upd, List.length_map] at hz ⊢; exact hz)
                 | with_reducible apply State.sound_set_lmp | (simp [length_upd]; done))

theorem State.writeDelays_sound (s : State) (c : Nat) (rd wr wck : List Nat) (hs₀ : s.sound) :
    (State.writeDelays s c rd wr wck).sound := by
  unfold State.writeDelays
  try dsimp only
  repeat' (first | with_reducible assumption | with_reducible apply State.each_sound | with_reducible apply State.set_sound
                 | with_reducible apply State.wr_sound | with_reducible intro _ hz | with_reducible intro hm | split)

theorem State.retrainPassed_sound (s : State) (c : Nat) (a : Activity) (rd wr wck : List Nat) (hs₀ : s.sound) :
    (State.retrainPassed s c a rd wr wck).sound := by
  unfold State.retrainPassed
  try dsimp only
  repeat' (first | with_reducible assumption | with_reducible apply State.actEnd_sound
                 | with_reducible apply State.updChan_sound | with_reducible apply State.wr_sound
                 | with_reducible apply State.writeDelays_sound | with_reducible apply State.sound_if
                 | with_reducible intro _ hz | with_reducible intro hm | split | with_reducible exact fun h => h
                 | with_reducible exact fun _ h => h | with_reducible exact hz | exact List.length_replicate
                 | (simp only [Channel.fit, WickPort.fit, length_upd, List.length_map] at hz ⊢; exact hz)
                 | with_reducible apply State.sound_set_lmp | (simp [length_upd]; done))

theorem State.zqBegin_sound (s : State) (a : Activity) (hs₀ : s.sound) : (State.zqBegin s a).sound := by
  unfold State.zqBegin
  try dsimp only
  repeat' (first | with_reducible assumption | with_reducible apply State.each_sound | with_reducible apply State.emit_sound
                 | with_reducible apply State.updChan_sound | with_reducible intro _ hz | with_reducible intro hm | split
                 | with_reducible exact fun h => h | with_reducible exact fun _ h => h | with_reducible exact hz
                 | exact List.length_replicate
                 | (simp only [Channel.fit, WickPort.fit, length_upd, List.length_map] at hz ⊢; exact hz))

theorem State.selfrefBegin_sound (s : State) (und : Activity) (hs₀ : s.sound) : (State.selfrefBegin s und).sound := by
  unfold State.selfrefBegin
  try dsimp only
  repeat' (first | with_reducible assumption | with_reducible intro _ hz | with_reducible intro hm | split
                 | with_reducible exact fun h => h | with_reducible exact fun _ h => h
                 | with_reducible apply State.sound_set_drm | (simp [length_upd]; done))

theorem State.closeRows_sound (s : State) (hs₀ : s.sound) : (State.closeRows s).sound := by
  unfold State.closeRows
  try dsimp only
  repeat' (first | with_reducible assumption | (refine fun h => forall_mem_map h fun _ hz => ?_)
                 | (simp only [Channel.fit, WickPort.fit, length_upd, List.length_map] at hz ⊢; exact hz)
                 | with_reducible intro _ hz | with_reducible intro hm | split | with_reducible exact fun h => h
                 | with_reducible exact fun _ h => h | with_reducible apply State.sound_set_drm | (simp [length_upd]; done))

theorem State.selfrefDone_sound (s : State) (st : Status) (hs₀ : s.sound) : (State.selfrefDone s st).sound := by
  unfold State.selfrefDone
  try dsimp only
  repeat' (first | with_reducible assumption | with_reducible apply State.actReport_sound
                 | with_reducible apply State.sound_if | with_reducible intro _ hz | with_reducible intro hm | split
                 | with_reducible exact fun h => h | with_reducible exact fun _ h => h
                 | with_reducible apply State.sound_set_lmp | (simp [length_upd]; done))


/-! ### Machine/Photometer.lean -/

theorem State.commitExp_sound (s : State) (c set id : Nat) (hs₀ : s.sound) : (State.commitExp s c set id).sound := by
  unfold State.commitExp
  try dsimp only
  repeat' (first | with_reducible assumption | with_reducible apply State.count_sound | with_reducible apply State.set_sound
                 | with_reducible apply State.updCam_sound | with_reducible apply State.sound_if | with_reducible intro _ hz
                 | with_reducible intro hm | split)

theorem State.sendEntries_sound (s : State) (c set n : Nat) (hs₀ : s.sound) : (State.sendEntries s c set n).sound := by
  unfold State.sendEntries
  try dsimp only
  repeat' (first | with_reducible assumption | with_reducible apply State.each_sound | with_reducible apply State.emit_sound
                 | with_reducible apply State.set_sound | with_reducible apply State.sound_if | with_reducible intro _ hz
                 | with_reducible intro hm | split)

theorem State.expFrameStart_sound (s : State) (c : Nat) (hs₀ : s.sound) : (State.expFrameStart s c).sound := by
  unfold State.expFrameStart
  try dsimp only
  repeat' (first | with_reducible assumption | with_reducible apply State.set_sound
                 | with_reducible apply State.updCam_sound | with_reducible apply State.sound_if | with_reducible intro _ hz
                 | with_reducible intro hm | split)

theorem State.writeExpCommit_sound (s : State) (c : Nat) (v : Word) (hs₀ : s.sound) : (State.writeExpCommit s c v).sound := by
  unfold State.writeExpCommit
  try dsimp only
  repeat' (first | with_reducible assumption | with_reducible apply State.bar0_sound
                 | with_reducible apply State.commitExp_sound | with_reducible apply State.store_sound
                 | with_reducible intro _ hz | with_reducible intro hm | split)

theorem State.blackStart_sound (s : State) (a : Activity) (hs₀ : s.sound) : (State.blackStart s a).sound := by
  unfold State.blackStart
  try dsimp only
  repeat' (first | with_reducible assumption | with_reducible apply State.commitExp_sound
                 | with_reducible apply State.fresh_sound | with_reducible apply State.updCam_sound
                 | with_reducible intro _ hz | with_reducible intro hm | split)

theorem State.blackRestore_sound (s : State) (c : Nat) (b : BlackCal) (hs₀ : s.sound) : (State.blackRestore s c b).sound := by
  unfold State.blackRestore
  try dsimp only
  repeat' (first | with_reducible assumption | with_reducible apply State.commitExp_sound
                 | with_reducible apply State.updCam_sound | with_reducible intro _ hz | with_reducible intro hm | split)

theorem State.blackDone_sound (s : State) (c : Nat) (b : BlackCal) (hs₀ : s.sound) : (State.blackDone s c b).sound := by
  unfold State.blackDone
  try dsimp only
  repeat' (first | with_reducible assumption | with_reducible apply State.actEnd_sound
                 | with_reducible apply State.blackRestore_sound | with_reducible apply State.each_sound
                 | with_reducible apply State.set_sound | with_reducible apply State.sound_if | with_reducible intro _ hz
                 | with_reducible intro hm | split)

theorem State.blackFrame_sound (s : State) (c : Nat) (f : CamFrame) (hs₀ : s.sound) : (State.blackFrame s c f).sound := by
  unfold State.blackFrame
  try dsimp only
  repeat' (first | with_reducible assumption | with_reducible apply State.blackDone_sound
                 | with_reducible apply State.updCam_sound | with_reducible apply State.sound_if | with_reducible intro _ hz
                 | with_reducible intro hm | split)

theorem State.frameShort_sound (s : State) (c : Nat) (hs₀ : s.sound) : (State.frameShort s c).sound := by
  unfold State.frameShort
  try dsimp only
  repeat' (first | with_reducible assumption | with_reducible apply State.raise_sound
                 | with_reducible apply State.updFrame_sound | with_reducible apply State.sound_if
                 | with_reducible intro _ hz | with_reducible intro hm | split)

theorem State.frameLong_sound (s : State) (c : Nat) (hs₀ : s.sound) : (State.frameLong s c).sound := by
  unfold State.frameLong
  try dsimp only
  repeat' (first | with_reducible assumption | with_reducible apply State.raise_sound
                 | with_reducible apply State.updFrame_sound | with_reducible apply State.sound_if
                 | with_reducible intro _ hz | with_reducible intro hm | split)

theorem State.closeFrame_sound (s : State) (c : Nat) (hs₀ : s.sound) : (State.closeFrame s c).sound := by
  unfold State.closeFrame
  try dsimp only
  repeat' (first | with_reducible assumption | with_reducible apply State.blackFrame_sound
                 | with_reducible apply State.closeS1_sound | with_reducible apply State.closeS2_sound
                 | with_reducible apply State.closeS3_sound | with_reducible apply State.measureFrame_sound
                 | with_reducible apply State.updCam_sound | with_reducible apply State.sound_if | with_reducible intro _ hz
                 | with_reducible intro hm | split)

theorem State.packet_sound (s : State) (c : Nat) (ecc : Ecc) (act : State → State) (hs₀ : s.sound) (hact : ∀ (u : State), u.sound → (act u).sound) :
    (State.packet s c ecc act).sound := by
  unfold State.packet
  try dsimp only
  repeat' (first | with_reducible assumption | with_reducible apply hact | with_reducible apply State.count_sound
                 | with_reducible apply State.updFrame_sound | with_reducible apply State.sound_if
                 | with_reducible intro _ hz | with_reducible intro hm | split)

theorem State.phoTables_sound (s : State) (c : Nat) (hs₀ : s.sound) : (State.phoTables s c).sound := by
  unfold State.phoTables
  try dsimp only
  repeat' (first | with_reducible assumption | with_reducible apply State.each_sound
                 | with_reducible apply State.setTab_sound | with_reducible intro _ hz | with_reducible intro hm | split)

theorem State.openFrame_sound (s : State) (c : Nat) (hs₀ : s.sound) : (State.openFrame s c).sound := by
  unfold State.openFrame
  try dsimp only
  repeat' (first | with_reducible assumption | with_reducible apply State.count_sound
                 | with_reducible apply State.expFrameStart_sound | with_reducible apply State.phoTables_sound
                 | with_reducible apply State.takeS1_sound | with_reducible apply State.triggerLatches_sound
                 | with_reducible apply State.updCam_sound | with_reducible apply State.sound_if | with_reducible intro _ hz
                 | with_reducible intro hm | split)

theorem State.cameraLine_sound (s : State) (c : Nat) (f : CamFrame) (samples : List (BitVec 14)) (heldBack : Bool) (hs₀ : s.sound) :
    (State.cameraLine s c f samples heldBack).sound := by
  unfold State.cameraLine
  try dsimp only
  repeat' (first | with_reducible assumption | with_reducible apply State.closeFrame_sound
                 | with_reducible apply State.frameLong_sound | with_reducible apply State.frameShort_sound
                 | with_reducible apply State.raise_sound | with_reducible apply State.take_sound
                 | with_reducible apply State.updCam_sound | with_reducible apply State.updFrame_sound
                 | with_reducible apply State.sound_if | with_reducible intro _ hz | with_reducible intro hm | split)

theorem State.writePhoCtrl_sound (s : State) (c : Nat) (v : Word) (hs₀ : s.sound) : (State.writePhoCtrl s c v).sound := by
  unfold State.writePhoCtrl
  try dsimp only
  repeat' (first | with_reducible assumption | with_reducible apply State.closeFrame_sound
                 | with_reducible apply State.frameShort_sound | with_reducible apply State.gate_sound
                 | with_reducible apply State.reachStep_sound | with_reducible apply State.resetXing_sound
                 | with_reducible apply State.store_sound | with_reducible apply State.updCam_sound
                 | with_reducible apply State.sound_if | with_reducible intro _ hz | with_reducible intro hm | split)


/-! ### Machine/TwinBase.lean -/

theorem State.sayHello_sound (s : State) (hs₀ : s.sound) : (State.sayHello s).sound := by
  unfold State.sayHello
  try dsimp only
  repeat' (first | with_reducible assumption | with_reducible apply State.sendTwin_sound | with_reducible intro _ hz
                 | with_reducible intro hm | split | with_reducible exact fun h => h | with_reducible exact fun _ h => h
                 | with_reducible exact fun _ => State.sound_before hs₀ | with_reducible apply State.sound_set_twn
                 | (simp [length_upd]; done))

theorem State.startPair_sound (s : State) (hs₀ : s.sound) : (State.startPair s).sound := by
  unfold State.startPair
  try dsimp only
  repeat' (first | with_reducible assumption | with_reducible apply State.journal_sound
                 | with_reducible apply State.sayHello_sound | with_reducible apply State.sound_if
                 | exact fun _ => Twin.fit_of_none rfl | with_reducible intro _ hz | with_reducible intro hm | split
                 | with_reducible exact fun h => h | with_reducible exact fun _ h => h
                 | with_reducible exact fun _ => State.sound_before hs₀ | with_reducible apply State.sound_set_twn
                 | (simp [length_upd]; done))

theorem State.pairPortUp_sound (s : State) (hs₀ : s.sound) : (State.pairPortUp s).sound := by
  unfold State.pairPortUp
  try dsimp only
  repeat' (first | with_reducible assumption | with_reducible apply State.sayHello_sound
                 | with_reducible apply State.sound_if | with_reducible intro _ hz | with_reducible intro hm | split
                 | with_reducible exact fun h => h | with_reducible exact fun _ h => h | (simp [length_upd]; done))


/-! ### Machine/Wick.lean -/

theorem State.headReport_sound (s : State) (p h : Nat) (temp : BitVec 16) (lr : Line) (hs₀ : s.sound) :
    (State.headReport s p h temp lr).sound := by
  unfold State.headReport
  try dsimp only
  repeat' (first | with_reducible assumption | with_reducible apply State.applyResult_sound
                 | with_reducible apply State.headRaises_sound | with_reducible apply State.updHead_sound
                 | with_reducible intro _ hz | with_reducible intro hm | split)

theorem State.bankStored_sound (s : State) (p : Nat) (w : WaveWrite) (hs₀ : s.sound) : (State.bankStored s p w).sound := by
  unfold State.bankStored
  try dsimp only
  repeat' (first | with_reducible assumption | with_reducible apply State.actEnd_sound
                 | with_reducible apply State.commitWave_sound | with_reducible apply State.takeBank_sound
                 | with_reducible apply State.updAct_sound | with_reducible apply State.updWick_sound
                 | with_reducible apply State.sound_if | with_reducible intro _ hz | with_reducible intro hm | split
                 | with_reducible exact fun h => h | with_reducible exact fun _ h => h | with_reducible exact hz
                 | exact List.length_replicate
                 | (simp only [Channel.fit, WickPort.fit, length_upd, List.length_map] at hz ⊢; exact hz))


/-! ### Machine/LinkOps.lean -/

theorem State.startTraining_sound (s : State) (p : Nat) (st : LinkState) (rate : Nat) (hs₀ : s.sound) :
    (State.startTraining s p st rate).sound := by
  unfold State.startTraining
  try dsimp only
  repeat' (first | with_reducible assumption | with_reducible apply State.sendTrain_sound
                 | with_reducible apply State.updLink_sound | with_reducible apply State.sound_if
                 | with_reducible intro _ hz | with_reducible intro hm | split)

theorem State.enterDetect_sound (s : State) (p : Nat) (reason : Nat) (hs₀ : s.sound) :
    (State.enterDetect s p reason).sound := by
  unfold State.enterDetect
  try dsimp only
  repeat' (first | with_reducible assumption | with_reducible apply State.updLink_sound | with_reducible intro _ hz
                 | with_reducible intro hm | split)

theorem State.leaveActive_sound (s : State) (p : Nat) (hs₀ : s.sound) : (State.leaveActive s p).sound := by
  unfold State.leaveActive
  try dsimp only
  repeat' (first | with_reducible assumption | with_reducible apply State.wickLeave_sound
                 | with_reducible apply State.sound_if | with_reducible intro _ hz | with_reducible intro hm | split
                 | with_reducible exact fun h => h | with_reducible exact fun _ h => h | (simp [length_upd]; done))

theorem State.endBusy_sound (s : State) (p : Nat) (hs₀ : s.sound) : (State.endBusy s p).sound := by
  unfold State.endBusy
  try dsimp only
  repeat' (first | with_reducible assumption | with_reducible apply State.busyDone_sound
                 | with_reducible apply State.updLink_sound | with_reducible apply State.sound_if
                 | with_reducible intro _ hz | with_reducible intro hm | split)

theorem State.portDown_sound (s : State) (p reason : Nat) (fault : Bool) (hs₀ : s.sound) :
    (State.portDown s p reason fault).sound := by
  unfold State.portDown
  try dsimp only
  repeat' (first | with_reducible assumption | with_reducible apply State.actEnd_sound
                 | with_reducible apply State.emit_sound | with_reducible apply State.endBusy_sound
                 | with_reducible apply State.leaveActive_sound | with_reducible apply State.raise_sound
                 | with_reducible apply State.resetXing_sound | with_reducible apply State.twinPortLost_sound
                 | with_reducible apply State.updLink_sound | with_reducible apply State.sound_if
                 | with_reducible intro _ hz | with_reducible intro hm | split)

theorem State.enterRetrain_sound (s : State) (p rate : Nat) (hs₀ : s.sound) : (State.enterRetrain s p rate).sound := by
  unfold State.enterRetrain
  try dsimp only
  repeat' (first | with_reducible assumption | with_reducible apply State.leaveActive_sound
                 | with_reducible apply State.startTraining_sound | with_reducible apply State.twinPortLost_sound
                 | with_reducible apply State.updLink_sound | with_reducible apply State.sound_if
                 | with_reducible intro _ hz | with_reducible intro hm | split)

theorem State.failAttempt_sound (s : State) (p : Nat) (hs₀ : s.sound) : (State.failAttempt s p).sound := by
  unfold State.failAttempt
  try dsimp only
  repeat' (first | with_reducible assumption | with_reducible apply State.enterRetrain_sound
                 | with_reducible apply State.portDown_sound | with_reducible apply State.updLink_sound
                 | with_reducible apply State.sound_if | with_reducible intro _ hz | with_reducible intro hm | split)

theorem State.retrainPort_sound (s : State) (p why : Nat) (hs₀ : s.sound) : (State.retrainPort s p why).sound := by
  unfold State.retrainPort
  try dsimp only
  repeat' (first | with_reducible assumption | with_reducible apply State.actEnd_sound
                 | with_reducible apply State.count_sound | with_reducible apply State.endBusy_sound
                 | with_reducible apply State.enterRetrain_sound | with_reducible apply State.raise_sound
                 | with_reducible apply State.sound_if | with_reducible intro _ hz | with_reducible intro hm | split
                 | with_reducible exact fun h => h | with_reducible exact fun _ h => h | (simp [length_upd]; done))

theorem State.scheduleRetrain_sound (s : State) (p : Nat) (hs₀ : s.sound) : (State.scheduleRetrain s p).sound := by
  unfold State.scheduleRetrain
  try dsimp only
  repeat' (first | with_reducible assumption | with_reducible apply State.actArrive_sound
                 | with_reducible apply State.retrainPort_sound | with_reducible apply State.sound_if
                 | with_reducible intro _ hz | with_reducible intro hm | split)

theorem State.raisePartner_sound (s : State) (p : Nat) (hs₀ : s.sound) : (State.raisePartner s p).sound := by
  unfold State.raisePartner
  try dsimp only
  repeat' (first | with_reducible assumption | with_reducible apply State.raise_sound | split)

theorem State.enterCaps_sound (s : State) (p : Nat) (hs₀ : s.sound) : (State.enterCaps s p).sound := by
  unfold State.enterCaps
  try dsimp only
  repeat' (first | with_reducible assumption | with_reducible apply State.sendCtl_sound
                 | with_reducible apply State.updLink_sound | with_reducible apply State.sound_if
                 | with_reducible intro _ hz | with_reducible intro hm | split)

theorem State.showCaps_sound (s : State) (p : Nat) (c : Bytes) (hs₀ : s.sound) : (State.showCaps s p c).sound := by
  unfold State.showCaps
  try dsimp only
  repeat' (first | with_reducible assumption | with_reducible apply State.wr_sound | split)

theorem State.recheckBar_sound (s : State) (p : Nat) (hs₀ : s.sound) : (State.recheckBar s p).sound := by
  unfold State.recheckBar
  try dsimp only
  repeat' (first | with_reducible assumption | with_reducible apply State.set_sound | with_reducible apply State.sound_if
                 | with_reducible intro _ hz | with_reducible intro hm | split | with_reducible exact fun h => h
                 | with_reducible exact fun _ h => h | (simp [length_upd]; done))

theorem State.checkProtected_sound (s : State) (p : Nat) (hs₀ : s.sound) : (State.checkProtected s p).sound := by
  unfold State.checkProtected
  try dsimp only
  repeat' (first | with_reducible assumption | with_reducible apply State.wr_sound | with_reducible apply State.sound_if
                 | with_reducible intro _ hz | with_reducible intro hm | split)

theorem State.sendHdm_sound (s : State) (p : Nat) (hs₀ : s.sound) : (State.sendHdm s p).sound := by
  unfold State.sendHdm
  try dsimp only
  repeat' (first | with_reducible assumption | with_reducible apply State.sendTwin_sound | split)

theorem State.acceptCaps_sound (s : State) (p version : Nat) (c : Bytes) (hs₀ : s.sound) :
    (State.acceptCaps s p version c).sound := by
  unfold State.acceptCaps
  try dsimp only
  repeat' (first | with_reducible assumption | with_reducible apply State.checkProtected_sound
                 | with_reducible apply State.count_sound | with_reducible apply State.recheckBar_sound
                 | with_reducible apply State.sendHdm_sound | with_reducible apply State.sendSyncReq_sound
                 | with_reducible apply State.updLink_sound | with_reducible apply State.wr_sound
                 | with_reducible apply State.sound_if | with_reducible intro _ hz | with_reducible intro hm | split)

theorem State.takeCaps_sound (s : State) (p : Nat) (c : Bytes) (hs₀ : s.sound) : (State.takeCaps s p c).sound := by
  unfold State.takeCaps
  try dsimp only
  repeat' (first | with_reducible assumption | with_reducible apply State.acceptCaps_sound
                 | with_reducible apply State.enterRetrain_sound | with_reducible apply State.portDown_sound
                 | with_reducible apply State.sendCtl_sound | with_reducible apply State.showCaps_sound
                 | with_reducible apply State.updLink_sound | with_reducible apply State.sound_if
                 | with_reducible intro _ hz | with_reducible intro hm | split)

theorem State.setEpoch_sound (s : State) (p : Nat) (m : Int × Time) (hs₀ : s.sound) : (State.setEpoch s p m).sound := by
  unfold State.setEpoch
  try dsimp only
  repeat' (first | with_reducible assumption | with_reducible apply State.sendCtl_sound
                 | with_reducible apply State.sendGeom_sound | with_reducible apply State.set_sound
                 | with_reducible apply State.updLink_sound | with_reducible apply State.wr_sound
                 | with_reducible intro _ hz | with_reducible intro hm | split)

theorem State.checkEpoch_sound (s : State) (p : Nat) (m : Int × Time) (hs₀ : s.sound) : (State.checkEpoch s p m).sound := by
  unfold State.checkEpoch
  try dsimp only
  repeat' (first | with_reducible assumption | with_reducible apply State.count_sound
                 | with_reducible apply State.raise_sound | with_reducible apply State.sound_if | with_reducible intro _ hz
                 | with_reducible intro hm | split | with_reducible exact fun h => h | with_reducible exact fun _ h => h
                 | (simp [length_upd]; done))

theorem State.takeEcho_sound (s : State) (p : Nat) (m : Int × Time) (hs₀ : s.sound) : (State.takeEcho s p m).sound := by
  unfold State.takeEcho
  try dsimp only
  repeat' (first | with_reducible assumption | with_reducible apply State.checkEpoch_sound
                 | with_reducible apply State.sendSyncReq_sound | with_reducible apply State.setEpoch_sound
                 | with_reducible apply State.updLink_sound | with_reducible apply State.sound_if
                 | with_reducible intro _ hz | with_reducible intro hm | split)

theorem State.enterActive_sound (s : State) (p : Nat) (hs₀ : s.sound) : (State.enterActive s p).sound := by
  have key : ∀ u : State, u.sound → ((((if u.twn.resync.contains p = true then
      { u.sendCtl p (resyncFrame (u.link p).lineNext) with twn := { u.twn with resync := u.twn.resync.filter (· != p) } }
    else u).sendIdle p).endBusy p).actEnd 4 p .ok).sound := by
    intro u hu
    refine State.actEnd_sound _ _ _ _ (State.endBusy_sound _ _ (State.sendIdle_sound _ _ (State.sound_if (fun _ => ?_) fun _ => hu)))
    have hc := State.sendCtl_sound u p (resyncFrame (u.link p).lineNext) hu
    exact State.sound_set_twn hc fun _ => State.sound_before hu
  unfold State.enterActive
  extract_lets keep s1 s2 s3
  have h2 : s2.sound := State.wickActive_sound _ _ (State.wickCaps_sound _ _ (State.updLink_sound _ _ _ hs₀))
  clear_value s2
  exact key s2 h2 --_sound _ _ (State.wickCaps_sound _ _ (State.updLink_sound _ _ _ hs₀)))

theorem State.capsComplete_sound (s : State) (p : Nat) (hs₀ : s.sound) : (State.capsComplete s p).sound := by
  unfold State.capsComplete
  try dsimp only
  repeat' (first | with_reducible assumption | with_reducible apply State.enterActive_sound
                 | with_reducible apply State.sound_if | with_reducible intro _ hz | with_reducible intro hm | split
                 | with_reducible exact fun h => h | with_reducible exact fun _ h => h | (simp [length_upd]; done))

theorem State.resendIngests_sound (s : State) (hs₀ : s.sound) : (State.resendIngests s).sound := by
  unfold State.resendIngests
  try dsimp only
  repeat' (first | with_reducible assumption | with_reducible apply State.each_sound
                 | with_reducible apply State.sendData_sound | with_reducible apply State.take_sound
                 | with_reducible intro _ hz | with_reducible intro hm | split)

theorem State.twinPortActive_sound (s : State) (p : Nat) (hs₀ : s.sound) : (State.twinPortActive s p).sound := by
  unfold State.twinPortActive
  try dsimp only
  repeat' (first | with_reducible assumption | with_reducible apply State.pairPortUp_sound
                 | with_reducible apply State.resendIngests_sound | with_reducible apply State.sendWaiting_sound
                 | with_reducible apply State.updLink_sound | with_reducible apply State.sound_if
                 | with_reducible intro _ hz | with_reducible intro hm | split)


/-! ### Machine/Gahild.lean -/

theorem State.registerRetrain_sound (s : State) (p : Nat) (hs₀ : s.sound) : (State.registerRetrain s p).sound := by
  unfold State.registerRetrain
  try dsimp only
  repeat' (first | with_reducible assumption | with_reducible apply State.actRun_sound
                 | with_reducible apply State.retrainPort_sound | with_reducible apply State.updLink_sound
                 | with_reducible intro _ hz | with_reducible intro hm | split)

theorem State.enablePort_sound (s : State) (p : Nat) (hs₀ : s.sound) : (State.enablePort s p).sound := by
  unfold State.enablePort
  try dsimp only
  repeat' (first | with_reducible assumption | with_reducible apply State.enterDetect_sound
                 | with_reducible apply State.sound_if | with_reducible intro _ hz | with_reducible intro hm | split
                 | with_reducible exact fun h => h | with_reducible exact fun _ h => h | (simp [length_upd]; done))

theorem State.writeGhlCtrl_sound (s : State) (p : Nat) (v : Word) (hs₀ : s.sound) : (State.writeGhlCtrl s p v).sound := by
  unfold State.writeGhlCtrl
  try dsimp only
  repeat' (first | with_reducible assumption | with_reducible apply State.enablePort_sound
                 | with_reducible apply State.gate_sound | with_reducible apply State.portDown_sound
                 | with_reducible apply State.reachStep_sound | with_reducible apply State.registerRetrain_sound
                 | with_reducible apply State.registerStart_sound | with_reducible apply State.wr_sound
                 | with_reducible apply State.sound_if | with_reducible intro _ hz | with_reducible intro hm | split)

theorem State.badTrain_sound (s : State) (p : Nat) (hs₀ : s.sound) : (State.badTrain s p).sound := by
  unfold State.badTrain
  try dsimp only
  repeat' (first | with_reducible assumption | with_reducible apply State.count_sound
                 | with_reducible apply State.updLink_sound | with_reducible apply State.sound_if
                 | with_reducible intro _ hz | with_reducible intro hm | split)

theorem State.enterLock_sound (s : State) (p : Nat) (hs₀ : s.sound) : (State.enterLock s p).sound := by
  unfold State.enterLock
  try dsimp only
  repeat' (first | with_reducible assumption | with_reducible apply State.fresh_sound
                 | with_reducible apply State.updLink_sound | with_reducible apply State.wr_sound
                 | with_reducible apply State.sound_if | with_reducible intro _ hz | with_reducible intro hm | split)

theorem State.loseLock_sound (s : State) (p : Nat) (hs₀ : s.sound) : (State.loseLock s p).sound := by
  unfold State.loseLock
  try dsimp only
  repeat' (first | with_reducible assumption | with_reducible apply State.failAttempt_sound
                 | with_reducible apply State.retrainPort_sound | with_reducible apply State.updLink_sound
                 | with_reducible intro _ hz | with_reducible intro hm | split)

theorem State.judgeLock_sound (s : State) (p : Nat) (hs₀ : s.sound) : (State.judgeLock s p).sound := by
  unfold State.judgeLock
  try dsimp only
  repeat' (first | with_reducible assumption | with_reducible apply State.enterCaps_sound
                 | with_reducible apply State.loseLock_sound | with_reducible apply State.twinPortActive_sound
                 | with_reducible apply State.updLink_sound | with_reducible apply State.sound_if
                 | with_reducible intro _ hz | with_reducible intro hm | split)

theorem State.receiveRun_sound (s : State) (p : Nat) (b : BitVec 130) (w0 : Nat) (w1 : Nat) (hs₀ : s.sound) :
    (State.receiveRun s p b w0 w1).sound := by
  induction w0 generalizing s w1 with
  | zero => exact hs₀
  | succ n ih =>
    unfold State.receiveRun
    dsimp only
    split
    · exact hs₀
    · apply ih
      apply State.judgeLock_sound
      apply State.updLink_sound
      split
      · exact State.count_sound _ _ _ _ _ _ hs₀
      · exact hs₀

theorem State.receiveBlocks_sound (s : State) (p : Nat) (blocks : List (BitVec 130 × Nat)) (hs₀ : s.sound) :
    (State.receiveBlocks s p blocks).sound := by
  unfold State.receiveBlocks
  try dsimp only
  repeat' (first | with_reducible assumption | with_reducible apply State.each_sound
                 | with_reducible apply State.receiveRun_sound | with_reducible intro _ hz | with_reducible intro hm
                 | split)

theorem State.violate_sound (s : State) (p : Nat) (hs₀ : s.sound) : (State.violate s p).sound := by
  unfold State.violate
  try dsimp only
  repeat' (first | with_reducible assumption | with_reducible apply State.count_sound
                 | with_reducible apply State.updLink_sound | with_reducible intro _ hz | with_reducible intro hm | split)

theorem State.askAgain_sound (s : State) (p : Nat) (seq : BitVec 32) (echo : Bool) (hs₀ : s.sound) :
    (State.askAgain s p seq echo).sound := by
  unfold State.askAgain
  try dsimp only
  repeat' (first | with_reducible assumption | with_reducible apply State.sendCtl_sound
                 | with_reducible apply State.updLink_sound | with_reducible intro _ hz | with_reducible intro hm | split)

theorem State.badHeader_sound (s : State) (p : Nat) (hs₀ : s.sound) : (State.badHeader s p).sound := by
  unfold State.badHeader
  try dsimp only
  repeat' (first | with_reducible assumption | with_reducible apply State.askAgain_sound
                 | with_reducible apply State.count_sound | with_reducible apply State.raise_sound | split)

theorem State.takeStatSeq_sound (s : State) (p : Nat) (seq : BitVec 32) (hs₀ : s.sound) :
    (State.takeStatSeq s p seq).sound := by
  unfold State.takeStatSeq
  try dsimp only
  repeat' (first | with_reducible assumption | with_reducible apply State.updLink_sound
                 | with_reducible apply State.violate_sound | with_reducible apply State.sound_if
                 | with_reducible intro _ hz | with_reducible intro hm | split)

theorem State.takeLineAck_sound (s : State) (p : Nat) (a : BitVec 32) (hs₀ : s.sound) : (State.takeLineAck s p a).sound := by
  unfold State.takeLineAck
  try dsimp only
  repeat' (first | with_reducible assumption | with_reducible apply State.updLink_sound
                 | with_reducible apply State.violate_sound | with_reducible apply State.wr_sound
                 | with_reducible apply State.sound_if | with_reducible intro _ hz | with_reducible intro hm | split)

theorem State.takeCtlAck_sound (s : State) (p : Nat) (a : BitVec 32) (hs₀ : s.sound) : (State.takeCtlAck s p a).sound := by
  unfold State.takeCtlAck
  try dsimp only
  repeat' (first | with_reducible assumption | with_reducible apply State.ackCtl_sound
                 | with_reducible apply State.violate_sound | with_reducible apply State.sound_if
                 | with_reducible intro _ hz | with_reducible intro hm | split)

theorem State.takeStat_sound (s : State) (p : Nat) (f : Bytes) (hs₀ : s.sound) : (State.takeStat s p f).sound := by
  unfold State.takeStat
  try dsimp only
  repeat' (first | with_reducible assumption | with_reducible apply State.askAgain_sound
                 | with_reducible apply State.badHeader_sound | with_reducible apply State.capsComplete_sound
                 | with_reducible apply State.enterIfReady_sound | with_reducible apply State.raise_sound
                 | with_reducible apply State.takeCtlAck_sound | with_reducible apply State.takeLineAck_sound
                 | with_reducible apply State.takeStatSeq_sound | with_reducible apply State.updLink_sound
                 | with_reducible apply State.violate_sound | with_reducible apply State.sound_if
                 | with_reducible intro _ hz | with_reducible intro hm | split)

theorem State.resendAll_sound (s : State) (p : Nat) (l : List CtlFrame) (hs₀ : s.sound) : (State.resendAll s p l).sound := by
  unfold State.resendAll
  try dsimp only
  repeat' (first | with_reducible assumption | with_reducible apply State.each_sound
                 | with_reducible apply State.raisePartner_sound | with_reducible apply State.resend_sound
                 | with_reducible apply State.scheduleRetrain_sound | with_reducible apply State.sound_if
                 | with_reducible intro _ hz | with_reducible intro hm | split)

theorem State.resendSeq_sound (s : State) (p : Nat) (seq : BitVec 32) (hs₀ : s.sound) : (State.resendSeq s p seq).sound := by
  unfold State.resendSeq
  try dsimp only
  repeat' (first | with_reducible assumption | with_reducible apply State.resendAll_sound | with_reducible intro _ hz
                 | with_reducible intro hm | split)

theorem State.rangeNak_sound (s : State) (p : Nat) (seq : BitVec 32) (hs₀ : s.sound) : (State.rangeNak s p seq).sound := by
  unfold State.rangeNak
  try dsimp only
  repeat' (first | with_reducible assumption | with_reducible apply State.drainCtl_sound
                 | with_reducible apply State.updLink_sound | with_reducible intro _ hz | with_reducible intro hm | split)

theorem State.answerNak_sound (s : State) (p code type : Nat) (seq : BitVec 32) (hs₀ : s.sound) :
    (State.answerNak s p code type seq).sound := by
  unfold State.answerNak
  try dsimp only
  repeat' (first | with_reducible assumption | with_reducible apply State.count_sound
                 | with_reducible apply State.raise_sound | with_reducible apply State.rangeNak_sound
                 | with_reducible apply State.resendAll_sound | with_reducible apply State.resendSeq_sound
                 | with_reducible apply State.violate_sound | with_reducible apply State.sound_if
                 | with_reducible intro _ hz | with_reducible intro hm | split | with_reducible exact fun h => h
                 | with_reducible exact fun _ h => h | (simp [length_upd]; done))


/-! ### Machine/TwinOps.lean -/

theorem State.recordVerify_sound (s : State) (blocks : Nat) (hs₀ : s.sound) : (State.recordVerify s blocks).sound := by
  unfold State.recordVerify
  try dsimp only
  repeat' (first | with_reducible assumption | with_reducible apply State.count_sound
                 | with_reducible apply State.each_sound | with_reducible apply State.raise_sound
                 | with_reducible intro _ hz | with_reducible intro hm | split)

theorem State.restoreTable_sound (s : State) (c : Line) (image : Bytes) (hs₀ : s.sound) :
    (State.restoreTable s c image).sound := by
  unfold State.restoreTable
  try dsimp only
  repeat' (first | with_reducible assumption | with_reducible apply State.placeWave_sound
                 | with_reducible apply State.setTab_sound | with_reducible apply State.sound_if | with_reducible intro _ hz
                 | with_reducible intro hm | split | with_reducible exact fun h => h | with_reducible exact fun _ h => h
                 | (simp [length_upd]; done))

theorem State.restoreBase_sound (s : State) (b : Nat) (hs₀ : s.sound) : (State.restoreBase s b).sound := by
  unfold State.restoreBase
  try dsimp only
  repeat' (first | with_reducible assumption | with_reducible apply State.sound_if | with_reducible intro _ hz
                 | with_reducible intro hm | split)

theorem State.restoreCkpt_sound (s : State) (b : CkptBody) (hs₀ : s.sound) : (State.restoreCkpt s b).sound := by
  unfold State.restoreCkpt
  extract_lets s1 q1 s2 kept q2 s3 s4 s5 gref delta q3 q4 s6 s7 s8 s9
  have h1 : s1.sound := State.each_sound _ _ _ hs₀ fun u a hu => by
    dsimp only
    split
    · exact State.wr_sound _ _ _ _ _ _ hu
    · exact hu
  have h3 : s3.sound := State.sound_set_sto (State.sound_set_mer h1 ⟨rfl, rfl, rfl, rfl, rfl, rfl, rfl⟩) fun h => Store.fit_filter _ _ _ h
  have h5 : s5.sound := State.each_sound _ _ _ (State.each_sound _ _ _ h3 fun u a hu => State.mergeSection_sound _ _ _ _ _ _ hu)
    fun u a hu => State.restoreTable_sound _ _ _ hu
  have h6 : s6.sound := State.sound_set_pho h5 rfl
  have h9 : s9.sound := State.each_sound _ _ _ (State.each_sound _ _ _ (State.each_sound _ _ _ h6
    fun u a hu => State.applyChange_sound _ _ _ _ _ hu) fun u a hu => State.applyNamed_sound _ _ _ _ _ _ hu)
    fun u a hu => State.restoreBase_sound _ _ hu
  exact State.each_sound _ _ _ h9 fun u a hu => State.updPipe_sound _ _ _ (State.updLink_sound _ _ _ hu)

theorem State.applyJournal_sound (s : State) (hs₀ : s.sound) : (State.applyJournal s).sound := by
  unfold State.applyJournal
  try dsimp only
  repeat' (first | with_reducible assumption | with_reducible apply State.applyNamed_sound
                 | with_reducible apply State.each_sound | with_reducible apply State.journal_sound
                 | with_reducible intro _ hz | with_reducible intro hm | split | with_reducible exact fun h => h
                 | with_reducible exact fun _ h => h | (simp [length_upd]; done))

theorem State.newJournal_sound (s : State) (hs₀ : s.sound) : (State.newJournal s).sound := by
  unfold State.newJournal
  try dsimp only
  repeat' (first | with_reducible assumption | with_reducible apply State.journal_sound | split
                 | with_reducible exact fun _ => State.sound_before hs₀)

theorem State.trimJournal_sound (s : State) (through : Nat) (hs₀ : s.sound) : (State.trimJournal s through).sound := by
  unfold State.trimJournal
  try dsimp only
  repeat' (first | with_reducible assumption | with_reducible apply State.journal_sound | with_reducible intro _ hz
                 | with_reducible intro hm | split | with_reducible exact fun _ => State.sound_before hs₀)

theorem State.sendCkpt_sound (s : State) (hs₀ : s.sound) : (State.sendCkpt s).sound := by
  have key : ∀ (t : State) (b : CkptBody) (n : Nat), t.sound → ((t.recordVerify n).sendTwin (.ckpt b (t.recordVerify n).twn.lastId)).sound :=
    fun t b n ht => State.sendTwin_sound _ _ (State.recordVerify_sound _ _ ht)
  unfold State.sendCkpt
  exact key _ _ _ (State.sound_set_twn hs₀)

theorem State.ckptDone_sound (s : State) (b : CkptBody) (hs₀ : s.sound) : (State.ckptDone s b).sound := by
  unfold State.ckptDone
  try dsimp only
  repeat' (first | with_reducible assumption | with_reducible apply State.actEnd_sound
                 | with_reducible apply State.count_sound | with_reducible apply State.trimJournal_sound
                 | with_reducible intro _ hz | with_reducible intro hm | split | with_reducible exact fun h => h
                 | with_reducible exact fun _ h => h | with_reducible exact fun _ => State.sound_before hs₀
                 | with_reducible apply State.sound_set_twn | (simp [length_upd]; done))

theorem State.ckptStart_sound (s : State) (a : Activity) (hs₀ : s.sound) : (State.ckptStart s a).sound := by
  have key : ∀ f : State → State, (∀ u, u.sound → (f u).sound) → (s.actArrive a fun s _ => f s).sound :=
    fun f hf => State.actArrive_sound _ _ _ hs₀ fun u _ hu => hf u hu
  unfold State.ckptStart
  split
  · exact State.actReport_sound _ _ _ hs₀
  · exact key State.sendCkpt State.sendCkpt_sound

theorem State.undoJoin_sound (s : State) (b : Before) (hs₀ : s.sound) (hb : b.sto.fit) : (State.undoJoin s b).sound := by
  unfold State.undoJoin
  extract_lets lo hi region mem waves q1 q2 q3 q4 s1 s2 s3 s4 s5
  have hm : mem.wf Memory.dramFill = true :=
    Memory.wf_foldl _ _ (fun m e h => Memory.wf_write _ _ _ _ h) _ _ (Memory.wf_filter _ _ _ (State.sound_mem hs₀))
  have h1 : s1.sound := by
    obtain ⟨⟨h1, _, h3⟩, h4, _, h6⟩ := hs₀
    exact ⟨⟨h1, hm, h3⟩, h4, hb, h6⟩
  have h2 : s2.sound := by
    refine State.each_sound _ _ _ h1 fun u a hu => ?_
    dsimp only
    split
    · exact State.updWick_sound _ _ _ hu
    · exact State.placeWave_sound _ _ _ _ _ _ hu
  have h3 : s3.sound := State.each_sound _ _ _ h2 fun u a hu => State.wr_sound _ _ _ _ _ _ hu
  have h4 : s4.sound := State.each_sound _ _ _ h3 fun u a hu => State.updPipe_sound _ _ _ (State.updLink_sound _ _ _ hu)
  have h5 : s5.sound := by
    refine State.each_sound _ _ _ h4 fun u a hu => ?_
    dsimp only
    split
    · exact hu
    · exact State.portDown_sound _ _ _ _ (State.set_sound _ _ _ _ _ _ hu)
  exact State.loadPos_sound _ _ h5

theorem State.failPair_sound (s : State) (reason : Nat) (hs₀ : s.sound) : (State.failPair s reason).sound := by
  unfold State.failPair
  extract_lets s1 k
  have h1 : s1.sound := by
    unfold s1
    split
    · exact State.undoJoin_sound _ _ hs₀ (State.sound_before hs₀ _ ‹_›)
    · exact hs₀
  clear_value s1 k
  exact State.sound_set_twn h1 fun _ => Twin.fit_of_none rfl

theorem State.takeHello_sound (s : State) (h : Hello) (hs₀ : s.sound) : (State.takeHello s h).sound := by
  unfold State.takeHello
  try dsimp only
  repeat' (first | with_reducible assumption | with_reducible apply State.failPair_sound
                 | with_reducible apply State.wr_sound | with_reducible apply State.sound_if | with_reducible intro _ hz
                 | with_reducible intro hm | split | with_reducible exact fun h => h | with_reducible exact fun _ h => h
                 | with_reducible exact fun _ => State.sound_before hs₀ | with_reducible apply State.sound_set_twn
                 | (simp [length_upd]; done))

theorem State.beginPair_sound (s : State) (hs₀ : s.sound) : (State.beginPair s).sound := by
  unfold State.beginPair
  have h := State.startPair_sound s hs₀
  dsimp only
  split
  · split
    · exact State.takeHello_sound _ _ (State.sound_set_twn h)
    · exact h
  · exact h

theorem State.sendAll_sound (s : State) (hs₀ : s.sound) : (State.sendAll s).sound := by
  have first : ∀ u : State, u.sound → State.sound { u with twn := { u.twn with step := 6 } } := fun u hu => State.sound_set_twn hu
  have last : ∀ u : State, u.sound → State.sound { u with twn := { u.twn with step := 7, since := u.clock } } := fun u hu =>
    State.sound_set_twn hu
  have key : ∀ u : State, u.sound → (State.sendCkpt u.newJournal).sound := fun u hu => State.sendCkpt_sound _ (State.newJournal_sound _ hu)
  unfold State.sendAll
  refine last _ (key _ (State.each_sound _ _ _ (State.each_sound _ _ _ (first s hs₀) fun u a hu => State.sendHdm_sound _ _ hu) fun u a hu => ?_))
  refine State.each_sound _ _ _ hu fun u b hu => State.each_sound _ _ _ hu fun u c hu => ?_
  exact State.sendData_sound u a.1 b.2 c.2 c.1.stream 0 hu

theorem State.bringUp_sound (s : State) (p : Nat) (hs₀ : s.sound) : (State.bringUp s p).sound := by
  unfold State.bringUp
  try dsimp only
  repeat' (first | with_reducible assumption | with_reducible apply State.enablePort_sound
                 | with_reducible apply State.retrainPort_sound | with_reducible apply State.set_sound
                 | with_reducible apply State.sound_if | with_reducible intro _ hz | with_reducible intro hm | split
                 | with_reducible exact fun h => h | with_reducible exact fun _ h => h | (simp [length_upd]; done))

theorem State.disablePorts_sound (s : State) (hs₀ : s.sound) : (State.disablePorts s).sound := by
  unfold State.disablePorts
  try dsimp only
  repeat' (first | with_reducible assumption | with_reducible apply State.each_sound
                 | with_reducible apply State.portDown_sound | with_reducible apply State.set_sound
                 | with_reducible apply State.sound_if | with_reducible intro _ hz | with_reducible intro hm | split)

theorem State.becomePaired_sound (s : State) (l : Option Line) (hs₀ : s.sound) : (State.becomePaired s l).sound := by
  unfold State.becomePaired
  try dsimp only
  repeat' (first | with_reducible assumption | with_reducible apply State.disablePorts_sound
                 | with_reducible apply State.sound_if | exact fun _ => Twin.fit_of_none rfl | with_reducible intro _ hz
                 | with_reducible intro hm | split | with_reducible exact fun h => h | with_reducible exact fun _ h => h
                 | with_reducible exact fun _ => State.sound_before hs₀ | with_reducible apply State.sound_set_twn
                 | (simp [length_upd]; done))

theorem State.joinRestore_sound (s : State) (b : CkptBody) (hs₀ : s.sound) : (State.joinRestore s b).sound := by
  unfold State.joinRestore
  try dsimp only
  repeat' (first | with_reducible assumption | with_reducible apply State.applyJournal_sound
                 | with_reducible apply State.becomePaired_sound | with_reducible apply State.bringUp_sound
                 | with_reducible apply State.count_sound | with_reducible apply State.each_sound
                 | with_reducible apply State.failPair_sound | with_reducible apply State.newJournal_sound
                 | with_reducible apply State.restoreCkpt_sound | with_reducible apply State.sound_if
                 | with_reducible intro _ hz | with_reducible intro hm | split | with_reducible exact fun h => h
                 | with_reducible exact fun _ h => h | with_reducible exact fun _ => State.sound_before hs₀
                 | with_reducible apply State.sound_set_twn | (simp [length_upd]; done))

theorem State.tryRestore_sound (s : State) (hs₀ : s.sound) : (State.tryRestore s).sound := by
  unfold State.tryRestore
  try dsimp only
  repeat' (first | with_reducible assumption | with_reducible apply State.joinRestore_sound
                 | with_reducible apply State.sound_if | with_reducible intro _ hz | with_reducible intro hm | split)

theorem State.joinCkpt_sound (s : State) (b : CkptBody) (hs₀ : s.sound) : (State.joinCkpt s b).sound := by
  unfold State.joinCkpt
  try dsimp only
  repeat' (first | with_reducible assumption | with_reducible apply State.tryRestore_sound
                 | with_reducible apply State.sound_if | with_reducible intro _ hz | with_reducible intro hm | split
                 | with_reducible exact fun h => h | with_reducible exact fun _ h => h
                 | with_reducible exact fun _ => State.sound_before hs₀ | with_reducible apply State.sound_set_twn
                 | (simp [length_upd]; done))

theorem State.alignTo_sound (s : State) (own peer : Pos) (hs₀ : s.sound) : (State.alignTo s own peer).sound := by
  unfold State.alignTo
  extract_lets shift had s1 q1 q2 s2
  have h1 : s1.sound := State.loadPos_sound _ _ hs₀
  have hh : had.sto.fit := State.sound_sto hs₀
  clear_value s1 had
  have h2 : s2.sound :=
    State.sound_set_twn (s := { s1 with sto := { s1.sto with sections := [], groups := s1.sto.groups.map fun _ => Group.reset } })
      (State.sound_set_sto h1 fun h => Store.fit_empty _ _ h) fun _ b hb => by
        cases hb
        exact hh
  clear_value s2
  split
  · exact State.joinCkpt_sound _ _ h2
  · exact h2

theorem State.twinIndex_sound (s : State) (pos : Pos) (t : Time) (hs₀ : s.sound) : (State.twinIndex s pos t).sound := by
  unfold State.twinIndex
  try dsimp only
  repeat' (first | with_reducible assumption | with_reducible apply State.alignTo_sound
                 | with_reducible apply State.sendAll_sound | with_reducible apply State.sendTwin_sound
                 | with_reducible apply State.sound_if | with_reducible intro _ hz | with_reducible intro hm | split
                 | with_reducible exact fun h => h | with_reducible exact fun _ h => h
                 | with_reducible exact fun _ => State.sound_before hs₀ | with_reducible apply State.sound_set_twn
                 | (simp [length_upd]; done))

theorem State.acceptReady_sound (s : State) (hs₀ : s.sound) : (State.acceptReady s).sound := by
  unfold State.acceptReady
  try dsimp only
  repeat' (first | with_reducible assumption | with_reducible apply State.becomePaired_sound
                 | with_reducible apply State.sendTwin_sound | with_reducible apply State.sound_if
                 | with_reducible intro _ hz | with_reducible intro hm | split | with_reducible exact fun h => h
                 | with_reducible exact fun _ h => h | (simp [length_upd]; done))

theorem State.dropCkpt_sound (s : State) (hs₀ : s.sound) : (State.dropCkpt s).sound := by
  unfold State.dropCkpt
  try dsimp only
  repeat' (first | with_reducible assumption | with_reducible apply State.actEnd_sound | with_reducible intro _ hz
                 | with_reducible intro hm | split | with_reducible exact fun h => h | with_reducible exact fun _ h => h
                 | with_reducible exact fun _ => State.sound_before hs₀ | with_reducible apply State.sound_set_twn
                 | (simp [length_upd]; done))

theorem State.goAlone_sound (s : State) (hs₀ : s.sound) : (State.goAlone s).sound := by
  unfold State.goAlone
  try dsimp only
  repeat' (first | with_reducible assumption | with_reducible apply State.decideAlone_sound
                 | with_reducible apply State.dropCkpt_sound | with_reducible intro _ hz | with_reducible intro hm | split
                 | with_reducible exact fun h => h | with_reducible exact fun _ h => h
                 | with_reducible exact fun _ => State.sound_before hs₀ | with_reducible apply State.sound_set_twn
                 | (simp [length_upd]; done))

theorem State.settleHeld_sound (s : State) (hs₀ : s.sound) : (State.settleHeld s).sound := by
  unfold State.settleHeld
  try dsimp only
  repeat' (first | with_reducible assumption | with_reducible apply State.applyNamed_sound
                 | with_reducible apply State.each_sound | with_reducible apply State.sound_if | with_reducible intro _ hz
                 | with_reducible intro hm | split | with_reducible exact fun h => h | with_reducible exact fun _ h => h
                 | with_reducible exact fun _ => State.sound_before hs₀ | with_reducible apply State.sound_set_twn
                 | (simp [length_upd]; done))

theorem State.takeOver_sound (s : State) (hs₀ : s.sound) : (State.takeOver s).sound := by
  unfold State.takeOver
  try dsimp only
  repeat' (first | with_reducible assumption | with_reducible apply State.applyJournal_sound
                 | with_reducible apply State.bringUp_sound | with_reducible apply State.count_sound
                 | with_reducible apply State.each_sound | with_reducible apply State.enterIfReady_sound
                 | with_reducible apply State.newJournal_sound | with_reducible apply State.raise_sound
                 | with_reducible apply State.restoreCkpt_sound | with_reducible apply State.settleHeld_sound
                 | with_reducible apply State.sound_if | with_reducible intro _ hz | with_reducible intro hm | split
                 | with_reducible exact fun h => h | with_reducible exact fun _ h => h
                 | with_reducible exact fun _ => State.sound_before hs₀ | with_reducible apply State.sound_set_twn
                 | (simp [length_upd]; done))

theorem State.partnerFailed_sound (s : State) (bySilence : Bool) (hs₀ : s.sound) : (State.partnerFailed s bySilence).sound := by
  unfold State.partnerFailed
  try dsimp only
  repeat' (first | with_reducible assumption | with_reducible apply State.goAlone_sound
                 | with_reducible apply State.raise_sound | with_reducible apply State.takeOver_sound
                 | with_reducible apply State.sound_if | with_reducible intro _ hz | with_reducible intro hm | split
                 | with_reducible exact fun h => h | with_reducible exact fun _ h => h | (simp [length_upd]; done))

theorem State.endPair_sound (s : State) (hs₀ : s.sound) : (State.endPair s).sound := by
  unfold State.endPair
  try dsimp only
  repeat' (first | with_reducible assumption | with_reducible apply State.detach_sound
                 | with_reducible apply State.failPair_sound | with_reducible apply State.goAlone_sound
                 | with_reducible apply State.sound_if | with_reducible intro _ hz | with_reducible intro hm | split
                 | with_reducible exact fun h => h | with_reducible exact fun _ h => h
                 | with_reducible exact fun _ => State.sound_before hs₀ | with_reducible apply State.sound_set_twn
                 | (simp [length_upd]; done))


/-! ### Machine/Lamplighter.lean -/

theorem State.startLines_sound (s : State) (body : ChangeBody) (hs₀ : s.sound) : (State.startLines s body).sound := by
  unfold State.startLines
  try dsimp only
  repeat' (first | with_reducible assumption | with_reducible apply State.agree_sound | split)

theorem State.spitBegin_sound (s : State) (a : Activity) (hs₀ : s.sound) : (State.spitBegin s a).sound := by
  unfold State.spitBegin
  try dsimp only
  repeat' (first | with_reducible assumption | with_reducible apply State.actEnd_sound
                 | with_reducible apply State.startLines_sound | with_reducible apply State.sound_if
                 | with_reducible intro _ hz | with_reducible intro hm | split | with_reducible exact fun h => h
                 | with_reducible exact fun _ h => h | (simp [length_upd]; done))

theorem State.stripBegin_sound (s : State) (a : Activity) (hs₀ : s.sound) : (State.stripBegin s a).sound := by
  unfold State.stripBegin
  try dsimp only
  repeat' (first | with_reducible assumption | with_reducible apply State.actEnd_sound
                 | with_reducible apply State.startLines_sound | with_reducible apply State.sound_if
                 | with_reducible intro _ hz | with_reducible intro hm | split | with_reducible exact fun h => h
                 | with_reducible exact fun _ h => h | (simp [length_upd]; done))

theorem State.printMaint_sound (s : State) (ring : Nat) (d : Bytes) (code n : Nat) (param : Bytes) (ok : State → Bytes → Bool) (start : State → Activity → State) (hs₀ : s.sound) (hstart : ∀ (u : State) (z0 : Activity), u.sound → (start u z0).sound) :
    (State.printMaint s ring d code n param ok start).sound := by
  unfold State.printMaint
  try dsimp only
  repeat' (first | with_reducible assumption | with_reducible apply hstart | with_reducible apply State.actArrive_sound
                 | with_reducible apply State.complete_sound | with_reducible apply State.maint_sound
                 | with_reducible apply State.take_sound | with_reducible apply State.withRead_sound
                 | with_reducible apply State.sound_if | with_reducible intro _ hz | with_reducible intro hm | split)

theorem State.selfrefStart_sound (s : State) (a : Activity) (hs₀ : s.sound) : (State.selfrefStart s a).sound := by
  unfold State.selfrefStart
  try dsimp only
  repeat' (first | with_reducible assumption | with_reducible apply State.actEnd_sound
                 | with_reducible apply State.selfrefBegin_sound | with_reducible apply State.sound_if
                 | with_reducible intro _ hz | with_reducible intro hm | split | with_reducible exact fun h => h
                 | with_reducible exact fun _ h => h | (simp [length_upd]; done))

theorem State.beginAct_sound (s : State) (a : Activity) (hs₀ : s.sound) : (State.beginAct s a).sound := by
  unfold State.beginAct
  try dsimp only
  repeat' (first | with_reducible assumption | with_reducible apply State.actEnd_sound
                 | with_reducible apply State.almBegin_sound | with_reducible apply State.blackStart_sound
                 | with_reducible apply State.reloadBegin_sound | with_reducible apply State.retrainBegin_sound
                 | with_reducible apply State.retrainPort_sound | with_reducible apply State.selfrefStart_sound
                 | with_reducible apply State.sendCkpt_sound | with_reducible apply State.spitBegin_sound
                 | with_reducible apply State.stripBegin_sound | with_reducible apply State.zqBegin_sound
                 | with_reducible apply State.sound_if | with_reducible intro _ hz | with_reducible intro hm | split
                 | with_reducible exact fun h => h | with_reducible exact fun _ h => h | (simp [length_upd]; done))

theorem State.undefer_sound (s : State) (a : Activity) (hs₀ : s.sound) : (State.undefer s a).sound := by
  unfold State.undefer
  try dsimp only
  repeat' (first | with_reducible assumption | with_reducible intro _ hz | with_reducible intro hm | split
                 | with_reducible exact fun h => h | with_reducible exact fun _ h => h
                 | with_reducible apply State.sound_set_lmp | (simp [length_upd]; done))

theorem State.recheckAct_sound (s : State) (a : Activity) (hs₀ : s.sound) : (State.recheckAct s a).sound := by
  unfold State.recheckAct
  try dsimp only
  repeat' (first | with_reducible assumption | with_reducible apply State.actReport_sound
                 | with_reducible apply State.actRun_sound | with_reducible apply State.beginAct_sound
                 | with_reducible apply State.undefer_sound | with_reducible apply State.sound_if
                 | with_reducible intro _ hz | with_reducible intro hm | split | with_reducible exact fun h => h
                 | with_reducible exact fun _ h => h | (simp [length_upd]; done))

theorem State.expireAct_sound (s : State) (a : Activity) (hs₀ : s.sound) : (State.expireAct s a).sound := by
  unfold State.expireAct
  try dsimp only
  repeat' (first | with_reducible assumption | with_reducible apply State.actReport_sound
                 | with_reducible apply State.count_sound | with_reducible apply State.raise_sound
                 | with_reducible apply State.set_sound | with_reducible apply State.undefer_sound | split)


/-! ### Machine/Meridian.lean -/

theorem State.updEnc_sound (s : State) (e : Nat) (f : Encoder → Encoder) (hs₀ : s.sound) : (State.updEnc s e f).sound := by
  unfold State.updEnc
  try dsimp only
  repeat' (first | with_reducible assumption | with_reducible intro _ hz | with_reducible intro hm | split
                 | with_reducible exact fun h => h | with_reducible exact fun _ h => h
                 | with_reducible apply State.sound_set_mer | (simp [length_upd]; done))

theorem State.illegalEvent_sound (s : State) (e : Nat) (hs₀ : s.sound) : (State.illegalEvent s e).sound := by
  unfold State.illegalEvent
  try dsimp only
  repeat' (first | with_reducible assumption | with_reducible apply State.count_sound
                 | with_reducible apply State.raise_sound | with_reducible apply State.updEnc_sound
                 | with_reducible apply State.sound_if | with_reducible intro _ hz | with_reducible intro hm | split)

theorem State.moveWeb_sound (s : State) (up : Bool) (t : Time) (hs₀ : s.sound) : (State.moveWeb s up t).sound := by
  unfold State.moveWeb
  try dsimp only
  repeat' (first | with_reducible assumption | with_reducible apply State.crossTargets_sound
                 | with_reducible apply State.settleGroups_sound | with_reducible apply State.sound_if
                 | with_reducible intro _ hz | with_reducible intro hm | split | with_reducible exact fun h => h
                 | with_reducible exact fun _ h => h | with_reducible apply State.sound_set_pipes
                 | with_reducible apply State.sound_set_mer | (simp [length_upd]; done))

theorem State.countOne_sound (s : State) (e : Nat) (up : Bool) (t : Time) (hs₀ : s.sound) :
    (State.countOne s e up t).sound := by
  unfold State.countOne
  try dsimp only
  repeat' (first | with_reducible assumption | with_reducible apply State.moveWeb_sound
                 | with_reducible apply State.updEnc_sound | with_reducible apply State.sound_if | with_reducible intro _ hz
                 | with_reducible intro hm | split | with_reducible exact fun h => h | with_reducible exact fun _ h => h
                 | with_reducible apply State.sound_set_mer | (simp [length_upd]; done))

theorem State.quadStep_sound (s : State) (e : Nat) (a b a' b' : Bool) (t : Time) (hs₀ : s.sound) :
    (State.quadStep s e a b a' b' t).sound := by
  unfold State.quadStep
  try dsimp only
  repeat' (first | with_reducible assumption | with_reducible apply State.countOne_sound
                 | with_reducible apply State.illegalEvent_sound | with_reducible apply State.sound_if
                 | with_reducible intro _ hz | with_reducible intro hm | split | with_reducible exact fun h => h
                 | with_reducible exact fun _ h => h | (simp [length_upd]; done))

theorem State.indexPassed_sound (s : State) (e : Nat) (pos : Pos) (t : Time) (hs₀ : s.sound) :
    (State.indexPassed s e pos t).sound := by
  unfold State.indexPassed
  try dsimp only
  repeat' (first | with_reducible assumption | with_reducible apply State.count_sound
                 | with_reducible apply State.raise_sound | with_reducible apply State.triggerLatches_sound
                 | with_reducible apply State.twinIndex_sound | with_reducible apply State.updEnc_sound
                 | with_reducible apply State.sound_if | with_reducible intro _ hz | with_reducible intro hm | split)

theorem State.ssiAsk_sound (s : State) (hs₀ : s.sound) : (State.ssiAsk s).sound := by
  unfold State.ssiAsk
  try dsimp only
  repeat' (first | with_reducible assumption | with_reducible apply State.emit_sound | with_reducible apply State.sound_if
                 | with_reducible intro _ hz | with_reducible intro hm | split | with_reducible exact fun h => h
                 | with_reducible exact fun _ h => h | with_reducible apply State.sound_set_mer | (simp [length_upd]; done))

theorem State.writeSsiCmd_sound (s : State) (v : Word) (hs₀ : s.sound) : (State.writeSsiCmd s v).sound := by
  unfold State.writeSsiCmd
  try dsimp only
  repeat' (first | with_reducible assumption | with_reducible apply State.gate_sound
                 | with_reducible apply State.ssiAsk_sound | with_reducible apply State.sound_if | with_reducible intro _ hz
                 | with_reducible intro hm | split)

theorem State.slip_sound (s : State) (chk : Nat) (d : Int) (hs₀ : s.sound) : (State.slip s chk d).sound := by
  unfold State.slip
  try dsimp only
  repeat' (first | with_reducible assumption | with_reducible apply State.count_sound
                 | with_reducible apply State.raise_sound | split)

theorem State.ssiCheck_sound (s : State) (p : Pos) (hs₀ : s.sound) : (State.ssiCheck s p).sound := by
  unfold State.ssiCheck
  try dsimp only
  repeat' (first | with_reducible assumption | with_reducible apply State.slip_sound | with_reducible apply State.sound_if
                 | with_reducible intro _ hz | with_reducible intro hm | split | with_reducible exact fun h => h
                 | with_reducible exact fun _ h => h | with_reducible apply State.sound_set_mer | (simp [length_upd]; done))

theorem State.writePosCmd_sound (s : State) (v : Word) (hs₀ : s.sound) : (State.writePosCmd s v).sound := by
  unfold State.writePosCmd
  try dsimp only
  repeat' (first | with_reducible assumption | with_reducible apply State.gate_sound
                 | with_reducible apply State.loadPos_sound | with_reducible apply State.sound_if
                 | with_reducible intro _ hz | with_reducible intro hm | split | with_reducible exact fun h => h
                 | with_reducible exact fun _ h => h | with_reducible apply State.sound_set_mer | (simp [length_upd]; done))

theorem State.geomStatus_sound (s : State) (x : Nat × Nat) (hs₀ : s.sound) : (State.geomStatus s x).sound := by
  unfold State.geomStatus
  try dsimp only
  repeat' (first | with_reducible assumption | with_reducible apply State.set_sound | split)

theorem State.geomCommit_sound (s : State) (hs₀ : s.sound) : (State.geomCommit s).sound := by
  unfold State.geomCommit
  try dsimp only
  repeat' (first | with_reducible assumption | with_reducible apply State.ahead_sound
                 | with_reducible apply State.each_sound | with_reducible apply State.gate_sound
                 | with_reducible apply State.geomStatus_sound | with_reducible apply State.sendGeom_sound
                 | with_reducible intro _ hz | with_reducible intro hm | split | with_reducible exact fun h => h
                 | with_reducible exact fun _ h => h | with_reducible apply State.sound_set_mer | (simp [length_upd]; done))

theorem State.latchDueResult_sound (s : State) (n : Nat) (hs₀ : s.sound) : (State.latchDueResult s n).sound := by
  unfold State.latchDueResult
  try dsimp only
  repeat' (first | with_reducible assumption | with_reducible apply State.latchResult_sound | with_reducible intro _ hz
                 | with_reducible intro hm | split | with_reducible exact fun h => h | with_reducible exact fun _ h => h
                 | with_reducible apply State.sound_set_mer | (simp [length_upd]; done))

theorem State.latchSamples_sound (s : State) (n k : Nat) (level : Bool) (held : Nat) (t : Time) (hs₀ : s.sound) :
    (State.latchSamples s n k level held t).sound := by
  unfold State.latchSamples
  try dsimp only
  repeat' (first | with_reducible assumption | with_reducible apply State.latchResult_sound
                 | with_reducible apply State.take_sound | with_reducible apply State.sound_if | with_reducible intro _ hz
                 | with_reducible intro hm | split)

theorem State.writeLatchCtrl_sound (s : State) (n : Nat) (v : Word) (hs₀ : s.sound) : (State.writeLatchCtrl s n v).sound := by
  unfold State.writeLatchCtrl
  try dsimp only
  repeat' (first | with_reducible assumption | with_reducible apply State.gate_sound
                 | with_reducible apply State.latchResult_sound | with_reducible apply State.store_sound
                 | with_reducible apply State.sound_if | with_reducible intro _ hz | with_reducible intro hm | split)

theorem State.writeCmpCtrl_sound (s : State) (n : Nat) (v : Word) (hs₀ : s.sound) : (State.writeCmpCtrl s n v).sound := by
  unfold State.writeCmpCtrl
  try dsimp only
  repeat' (first | with_reducible assumption | with_reducible apply State.ahead_sound | with_reducible apply State.aim_sound
                 | with_reducible apply State.gate_sound | with_reducible apply State.store_sound
                 | with_reducible apply State.updCmp_sound | with_reducible apply State.sound_if | with_reducible intro _ hz
                 | with_reducible intro hm | split)

theorem State.startPulse_sound (s : State) (pin : OutPin) (hs₀ : s.sound) : (State.startPulse s pin).sound := by
  unfold State.startPulse
  try dsimp only
  repeat' (first | with_reducible assumption | with_reducible apply State.count_sound
                 | with_reducible apply State.emit_sound | with_reducible apply State.sound_if | with_reducible intro _ hz
                 | with_reducible intro hm | split | with_reducible exact fun h => h | with_reducible exact fun _ h => h
                 | with_reducible apply State.sound_set_mer | (simp [length_upd]; done))

theorem State.drive_sound (s : State) (n : Nat) (hs₀ : s.sound) : (State.drive s n).sound := by
  unfold State.drive
  try dsimp only
  repeat' (first | with_reducible assumption | with_reducible apply State.each_sound
                 | with_reducible apply State.startPulse_sound | with_reducible intro _ hz | with_reducible intro hm
                 | split)


/-! ### Machine/TimeNet.lean -/

theorem State.timeRecord_sound (s : State) (sub flags id : Nat) (mono net value : Time) (step : Int) (hs₀ : s.sound) :
    (State.timeRecord s sub flags id mono net value step).sound := by
  unfold State.timeRecord
  try dsimp only
  repeat' (first | with_reducible assumption | with_reducible apply State.postEvent_sound | split)

theorem State.updGen_sound (s : State) (n : Nat) (f : PulseGen → PulseGen) (hs₀ : s.sound) : (State.updGen s n f).sound := by
  unfold State.updGen
  try dsimp only
  repeat' (first | with_reducible assumption | with_reducible apply State.updTim_sound | with_reducible intro _ hz
                 | with_reducible intro hm | split | with_reducible exact fun h => h | with_reducible exact fun _ h => h
                 | (simp [length_upd]; done))

theorem State.disarmGen_sound (s : State) (n : Nat) (hs₀ : s.sound) : (State.disarmGen s n).sound := by
  unfold State.disarmGen
  try dsimp only
  repeat' (first | with_reducible assumption | with_reducible apply State.set_sound
                 | with_reducible apply State.updGen_sound | with_reducible intro _ hz | with_reducible intro hm | split)

theorem State.skipBehind_sound (s : State) (n : Nat) (hs₀ : s.sound) : (State.skipBehind s n).sound := by
  unfold State.skipBehind
  try dsimp only
  repeat' (first | with_reducible assumption | with_reducible apply State.count_sound
                 | with_reducible apply State.disarmGen_sound | with_reducible apply State.set_sound
                 | with_reducible apply State.updGen_sound | with_reducible apply State.sound_if | with_reducible intro _ hz
                 | with_reducible intro hm | split)

theorem State.firePulse_sound (s : State) (n : Nat) (late : Bool) (hs₀ : s.sound) : (State.firePulse s n late).sound := by
  unfold State.firePulse
  try dsimp only
  repeat' (first | with_reducible assumption | with_reducible apply State.each_sound | with_reducible apply State.emit_sound
                 | with_reducible apply State.irq_sound | with_reducible apply State.startPulse_sound
                 | with_reducible apply State.timeRecord_sound | with_reducible apply State.updGen_sound
                 | with_reducible apply State.sound_if | with_reducible intro _ hz | with_reducible intro hm | split)

theorem State.writePulseCtrl_sound (s : State) (n : Nat) (v : Word) (hs₀ : s.sound) : (State.writePulseCtrl s n v).sound := by
  unfold State.writePulseCtrl
  try dsimp only
  repeat' (first | with_reducible assumption | with_reducible apply State.ahead_sound
                 | with_reducible apply State.disarmGen_sound | with_reducible apply State.gate_sound
                 | with_reducible apply State.skipBehind_sound | with_reducible apply State.store_sound
                 | with_reducible apply State.updGen_sound | with_reducible apply State.sound_if | with_reducible intro _ hz
                 | with_reducible intro hm | split)

theorem State.stepPulses_sound (s : State) (before : Time) (hs₀ : s.sound) : (State.stepPulses s before).sound := by
  unfold State.stepPulses
  try dsimp only
  repeat' (first | with_reducible assumption | with_reducible apply State.disarmGen_sound
                 | with_reducible apply State.each_sound | with_reducible apply State.firePulse_sound
                 | with_reducible apply State.updGen_sound | with_reducible apply State.sound_if | with_reducible intro _ hz
                 | with_reducible intro hm | split)

theorem State.stepDisarm_sound (s : State) (hs₀ : s.sound) : (State.stepDisarm s).sound := by
  unfold State.stepDisarm
  try dsimp only
  repeat' (first | with_reducible assumption | with_reducible apply State.disarmGen_sound
                 | with_reducible apply State.each_sound | with_reducible apply State.set_sound
                 | with_reducible apply State.sound_if | with_reducible intro _ hz | with_reducible intro hm | split)

theorem State.applyStep_sound (s : State) (d : Int) (net : BitVec 72) (hs₀ : s.sound) : (State.applyStep s d net).sound := by
  unfold State.applyStep
  try dsimp only
  repeat' (first | with_reducible assumption | with_reducible apply State.irq_sound
                 | with_reducible apply State.stepDisarm_sound | with_reducible apply State.stepPulses_sound
                 | with_reducible apply State.timeRecord_sound | with_reducible apply State.updTim_sound
                 | with_reducible apply State.sound_if | with_reducible intro _ hz | with_reducible intro hm | split
                 | with_reducible exact fun h => h | with_reducible exact fun _ h => h | (simp [length_upd]; done))

theorem State.askStep_sound (s : State) (d : Int) (net : BitVec 72) (hs₀ : s.sound) : (State.askStep s d net).sound := by
  unfold State.askStep
  try dsimp only
  repeat' (first | with_reducible assumption | with_reducible apply State.applyStep_sound
                 | with_reducible apply State.count_sound | with_reducible apply State.irq_sound
                 | with_reducible apply State.raise_sound | with_reducible apply State.sound_if | with_reducible intro _ hz
                 | with_reducible intro hm | split | with_reducible exact fun h => h | with_reducible exact fun _ h => h
                 | (simp [length_upd]; done))

theorem State.writeNetStep_sound (s : State) (v : Word) (hs₀ : s.sound) : (State.writeNetStep s v).sound := by
  unfold State.writeNetStep
  try dsimp only
  repeat' (first | with_reducible assumption | with_reducible apply State.askStep_sound
                 | with_reducible apply State.gate_sound | with_reducible intro _ hz | with_reducible intro hm | split)

theorem State.writeNetLoad_sound (s : State) (v : Word) (hs₀ : s.sound) : (State.writeNetLoad s v).sound := by
  unfold State.writeNetLoad
  try dsimp only
  repeat' (first | with_reducible assumption | with_reducible apply State.askStep_sound
                 | with_reducible apply State.gate_sound | with_reducible intro _ hz | with_reducible intro hm | split)

theorem State.snapshot_sound (s : State) (hs₀ : s.sound) : (State.snapshot s).sound := by
  unfold State.snapshot
  try dsimp only
  repeat' (first | with_reducible assumption | with_reducible apply State.gate_sound | with_reducible apply State.wr_sound
                 | with_reducible intro _ hz | with_reducible intro hm | split)

theorem State.showSecond_sound (s : State) (base : Time) (secs : BitVec 48) (hs₀ : s.sound) :
    (State.showSecond s base secs).sound := by
  unfold State.showSecond
  try dsimp only
  repeat' (first | with_reducible assumption | with_reducible apply State.wr_sound | split)

theorem State.moveSecond_sound (s : State) (base : Time) (secs : BitVec 48) (hs₀ : s.sound) :
    (State.moveSecond s base secs).sound := by
  unfold State.moveSecond
  try dsimp only
  repeat' (first | with_reducible assumption | with_reducible apply State.showSecond_sound
                 | with_reducible apply State.updTim_sound | with_reducible intro _ hz | with_reducible intro hm | split
                 | with_reducible exact fun h => h | with_reducible exact fun _ h => h | (simp [length_upd]; done))

theorem State.writeSecLo_sound (s : State) (v : Word) (hs₀ : s.sound) : (State.writeSecLo s v).sound := by
  unfold State.writeSecLo
  try dsimp only
  repeat' (first | with_reducible assumption | with_reducible apply State.gate_sound
                 | with_reducible apply State.store_sound | with_reducible apply State.updTim_sound
                 | with_reducible intro _ hz | with_reducible intro hm | split | with_reducible exact fun h => h
                 | with_reducible exact fun _ h => h | (simp [length_upd]; done))

theorem State.txBegin_sound (s : State) (w0 : Nat) (hs₀ : s.sound) : (State.txBegin s w0).sound := by
  induction w0 generalizing s with
  | zero => exact hs₀
  | succ n ih =>
    unfold State.txBegin
    split
    · exact hs₀
    · split
      · exact hs₀
      · split
        · exact ih _ (State.complete_sound _ _ _ _ (State.updTim_sound _ _ hs₀ fun _ => rfl))
        · exact State.updTim_sound _ _ hs₀ fun _ => rfl

theorem State.queueStamp_sound (s : State) (tag : Nat) (ts : Time) (hs₀ : s.sound) : (State.queueStamp s tag ts).sound := by
  unfold State.queueStamp
  try dsimp only
  repeat' (first | with_reducible assumption | with_reducible apply State.count_sound | with_reducible apply State.irq_sound
                 | with_reducible apply State.raise_sound | with_reducible apply State.updTim_sound
                 | with_reducible apply State.sound_if | with_reducible intro _ hz | with_reducible intro hm | split
                 | with_reducible exact fun h => h | with_reducible exact fun _ h => h | (simp [length_upd]; done))


/-! ### Machine/Resets.lean -/

theorem State.landsLow_sound (s : State) (hs₀ : s.sound) : (State.landsLow s).sound := by
  unfold State.landsLow
  try dsimp only
  repeat' (first | with_reducible assumption | with_reducible apply State.each_sound | with_reducible apply State.emit_sound
                 | with_reducible apply State.sound_if | with_reducible intro _ hz | with_reducible intro hm | split)

theorem State.cold_sound (s : State) (regs : SMap Word) (cause : Nat) (hs₀ : s.sound) (hr₀ : regs.sorted = true) :
    (State.cold s regs cause).sound := by
  unfold State.cold
  refine State.set_sound _ _ _ _ _ _ (State.set_sound _ _ _ _ _ _ ?_)
  exact ⟨⟨hr₀, rfl, State.wf_cutWrite s hs₀⟩, ⟨rfl, rfl, rfl, rfl, rfl, rfl, rfl, rfl, rfl, rfl, rfl, rfl, rfl, rfl, rfl, rfl⟩,
    Store.reset_fit, WickPort.all_reset, Twin.fit_of_none rfl, Channel.all_reset⟩

theorem State.coldReset_sound (s : State) (cause : Nat) (hs₀ : s.sound) : (State.coldReset s cause).sound := by
  exact State.cold_sound _ _ _ hs₀ rfl

theorem State.clockLossReset_sound (s : State) (hs₀ : s.sound) : (State.clockLossReset s).sound := by
  exact State.sound_set_ltn (s := { s.cold (s.keptRegs keptByClockLoss) 3 with dev := _ }) (State.sound_set_dev (State.cold_sound _ _ _ hs₀ (State.sorted_keptRegs _ _))) rfl

theorem State.warmStart_sound (s : State) (hs₀ : s.sound) : (State.warmStart s).sound := by
  unfold State.warmStart
  have key : ∀ t : State, t.sound → (if s.drm.sr = .inside then t else t.count .DRM_SR_CNT).sound :=
    fun t ht => State.sound_if (fun _ => ht) (fun _ => State.count_sound _ _ _ _ _ _ ht)
  refine State.each_sound _ _ _ (key _ (State.set_sound _ _ _ _ _ _ (State.set_sound _ _ _ _ _ _ ?_))) fun u p hu => State.emit_sound _ _ hu
  refine ⟨⟨State.sorted_keptRegs _ _, State.sound_mem (s := s) hs₀, State.wf_cutWrite s hs₀⟩, ⟨rfl, rfl, rfl, rfl, ?_, rfl, rfl, rfl, rfl, rfl, rfl, rfl, rfl, rfl, ?_, State.sound_gens (s := s) hs₀⟩,
    Store.reset_fit, WickPort.all_reset, Twin.fit_of_none rfl, forall_mem_map (State.sound_channels hs₀) fun x hx => ⟨rfl, rfl, rfl, hx.2.2.2⟩⟩
  · dsimp only
    rw [List.length_map, List.length_zipIdx]
    rfl
  · dsimp only
    rw [List.length_map]
    exact State.sound_chans hs₀


/-! ### Machine/FirstLight.lean -/

theorem State.updPwr_sound (s : State) (f : Power → Power) (hs₀ : s.sound) : (State.updPwr s f).sound := by
  unfold State.updPwr
  try dsimp only
  repeat' (first | with_reducible assumption | with_reducible intro _ hz | with_reducible intro hm | split
                 | with_reducible exact fun h => h | with_reducible exact fun _ h => h
                 | with_reducible apply State.sound_set_pwr | (simp [length_upd]; done))

theorem State.railsUp_sound (s : State) (hs₀ : s.sound) : (State.railsUp s).sound := by
  unfold State.railsUp
  try dsimp only
  repeat' (first | with_reducible assumption | with_reducible apply State.each_sound | with_reducible apply State.emit_sound
                 | with_reducible intro _ hz | with_reducible intro hm | split)

theorem State.railsDown_sound (s : State) (hs₀ : s.sound) : (State.railsDown s).sound := by
  unfold State.railsDown
  try dsimp only
  repeat' (first | with_reducible assumption | with_reducible apply State.each_sound | with_reducible apply State.emit_sound
                 | with_reducible intro _ hz | with_reducible intro hm | split)

theorem State.askRails_sound (s : State) (hs₀ : s.sound) : (State.askRails s).sound := by
  unfold State.askRails
  try dsimp only
  repeat' (first | with_reducible assumption | with_reducible apply State.railsUp_sound
                 | with_reducible apply State.updPwr_sound | with_reducible apply State.sound_if | with_reducible intro _ hz
                 | with_reducible intro hm | split)

theorem State.losePgood_sound (s : State) (rails : Rails) (hs₀ : s.sound) : (State.losePgood s rails).sound := by
  unfold State.losePgood
  try dsimp only
  repeat' (first | with_reducible assumption | with_reducible apply State.coldReset_sound
                 | with_reducible apply State.emit_sound | with_reducible apply State.updPwr_sound
                 | with_reducible apply State.sound_if | with_reducible intro _ hz | with_reducible intro hm | split)

theorem State.leaveDark_sound (s : State) (hs₀ : s.sound) : (State.leaveDark s).sound := by
  unfold State.leaveDark
  try dsimp only
  repeat' (first | with_reducible assumption | with_reducible apply State.enter_sound | with_reducible apply State.sound_if
                 | with_reducible intro _ hz | with_reducible intro hm | split | with_reducible exact fun h => h
                 | with_reducible exact fun _ h => h | with_reducible apply State.sound_set_dev | (simp [length_upd]; done))

theorem State.loadBegin_sound (s : State) (hs₀ : s.sound) : (State.loadBegin s).sound := by
  unfold State.loadBegin
  try dsimp only
  repeat' (first | with_reducible assumption | with_reducible apply State.reachStep_sound | with_reducible intro _ hz
                 | with_reducible intro hm | split | with_reducible exact fun h => h | with_reducible exact fun _ h => h
                 | with_reducible apply State.sound_set_dev | (simp [length_upd]; done))

theorem State.pairAtStart_sound (s : State) (hs₀ : s.sound) : (State.pairAtStart s).sound := by
  unfold State.pairAtStart
  try dsimp only
  repeat' (first | with_reducible assumption | with_reducible apply State.beginPair_sound
                 | with_reducible apply State.reachStep_sound | with_reducible apply State.sound_if
                 | with_reducible intro _ hz | with_reducible intro hm | split | with_reducible exact fun h => h
                 | with_reducible exact fun _ h => h | (simp [length_upd]; done))

theorem State.finish_sound (s : State) (hs₀ : s.sound) : (State.finish s).sound := by
  unfold State.finish
  try dsimp only
  repeat' (first | with_reducible assumption | with_reducible apply State.enter_sound
                 | with_reducible apply State.gate_sound | with_reducible apply State.pairAtStart_sound
                 | with_reducible apply State.reachStep_sound | with_reducible intro _ hz | with_reducible intro hm | split
                 | with_reducible exact fun h => h | with_reducible exact fun _ h => h
                 | with_reducible apply State.sound_set_dev | (simp [length_upd]; done))

theorem State.print_sound (s : State) (hs₀ : s.sound) : (State.print s).sound := by
  unfold State.print
  try dsimp only
  repeat' (first | with_reducible assumption | with_reducible apply State.enterPrinting_sound
                 | with_reducible apply State.gate_sound | with_reducible apply State.propose_sound
                 | with_reducible apply State.sound_if | with_reducible intro _ hz | with_reducible intro hm | split)

theorem State.stop_sound (s : State) (hs₀ : s.sound) : (State.stop s).sound := by
  unfold State.stop
  try dsimp only
  repeat' (first | with_reducible assumption | with_reducible apply State.gate_sound
                 | with_reducible apply State.propose_sound | with_reducible apply State.setStop_sound
                 | with_reducible apply State.sound_if | with_reducible intro _ hz | with_reducible intro hm | split)

theorem State.writeGlbCmd_sound (s : State) (v : Word) (hs₀ : s.sound) : (State.writeGlbCmd s v).sound := by
  unfold State.writeGlbCmd
  split
  · exact hs₀
  · exact State.finish_sound _ hs₀
  · exact State.print_sound _ hs₀
  · exact State.stop_sound _ hs₀
  · exact State.gate_sound _ _ _ _ _ hs₀ fun _ h => h

theorem State.writeReset_sound (s : State) (v : Word) (hs₀ : s.sound) : (State.writeReset s v).sound := by
  unfold State.writeReset
  try dsimp only
  repeat' (first | with_reducible assumption | with_reducible apply State.gate_sound
                 | with_reducible apply State.warmStart_sound | with_reducible apply State.sound_if
                 | with_reducible intro _ hz | with_reducible intro hm | split)


/-! ### Machine/Crossings.lean -/

theorem State.xingLast_sound (s : State) (x domain event : Nat) (hs₀ : s.sound) : (State.xingLast s x domain event).sound := by
  unfold State.xingLast
  try dsimp only
  repeat' (first | with_reducible assumption | with_reducible apply State.set_sound | split)

theorem State.pixOff_sound (s : State) (hs₀ : s.sound) : (State.pixOff s).sound := by
  unfold State.pixOff
  try dsimp only
  repeat' (first | with_reducible assumption | with_reducible apply State.emit_sound
                 | with_reducible apply State.fresh_sound | with_reducible apply State.sound_if | with_reducible intro _ hz
                 | with_reducible intro hm | split | with_reducible exact fun h => h | with_reducible exact fun _ h => h
                 | with_reducible apply State.sound_set_clk | with_reducible apply State.sound_set_pending | exact hm
                 | (simp [length_upd]; done)
                 | (simp [hm, length_upd, Memory.wf_writes, Memory.wf_write, SMap.sorted_put]; done)
                 | (rw [State.sound_mk]; refine ⟨?_, ?_, State.sound_sto hs₀, State.sound_heads hs₀,
                      State.sound_before hs₀,
                      State.sound_channels hs₀⟩ <;> simp (maxDischargeDepth := 30) [length_upd,
                      List.length_map, Memory.wf_writes, Memory.wf_write, SMap.sorted_put, State.sound_regs,
                      State.sound_mem, State.sound_flash, State.sound_pipes, State.sound_wck,
                      State.sound_links, State.sound_rings, State.sound_xings, State.sound_classes,
                      State.sound_encs, State.sound_latches, State.sound_latchDue, State.sound_cmps,
                      State.sound_strobes, State.sound_camtrigs, State.sound_tpulses, State.sound_cams,
                      State.sound_chans, State.sound_gens, State.emit_sound, State.fresh_sound, hs₀]; done)
                 | (rw [State.sound_mk]; simp (maxDischargeDepth := 30) [length_upd, List.length_map,
                      Memory.wf_writes, Memory.wf_write, SMap.sorted_put, State.sound_regs, State.sound_mem,
                      State.sound_flash, State.sound_pipes, State.sound_wck, State.sound_links,
                      State.sound_rings, State.sound_xings, State.sound_classes, State.sound_encs,
                      State.sound_latches, State.sound_latchDue, State.sound_cmps, State.sound_strobes,
                      State.sound_camtrigs, State.sound_tpulses, State.sound_cams, State.sound_chans,
                      State.sound_gens, State.emit_sound, State.fresh_sound, hs₀]; done)
                 | (rw [State.sound_mk]; simp (maxDischargeDepth := 30) [length_upd, List.length_map,
                      Memory.wf_writes, Memory.wf_write, SMap.sorted_put, State.sound_regs, State.sound_mem,
                      State.sound_flash, State.sound_pipes, State.sound_wck, State.sound_links,
                      State.sound_rings, State.sound_xings, State.sound_classes, State.sound_encs,
                      State.sound_latches, State.sound_latchDue, State.sound_cmps, State.sound_strobes,
                      State.sound_camtrigs, State.sound_tpulses, State.sound_cams, State.sound_chans,
                      State.sound_gens, State.emit_sound, State.fresh_sound, hz]; done))

theorem State.writePixCtrl_sound (s : State) (v : Word) (hs₀ : s.sound) : (State.writePixCtrl s v).sound := by
  unfold State.writePixCtrl
  try dsimp only
  repeat' (first | with_reducible assumption | with_reducible apply State.gate_sound
                 | with_reducible apply State.pixOff_sound | with_reducible apply State.resetXing_sound
                 | with_reducible apply State.store_sound | with_reducible apply State.sound_if | with_reducible intro _ hz
                 | with_reducible intro hm | split)


/-! ### Machine/Eyepiece.lean -/

theorem State.writeEyeCtrl_sound (s : State) (v : Word) (hs₀ : s.sound) : (State.writeEyeCtrl s v).sound := by
  unfold State.writeEyeCtrl
  try dsimp only
  repeat' (first | with_reducible assumption | with_reducible apply State.ahead_sound
                 | with_reducible apply State.emit_sound | with_reducible apply State.fresh_sound
                 | with_reducible apply State.gate_sound | with_reducible apply State.store_sound
                 | with_reducible apply State.wakeDram_sound | with_reducible apply State.sound_if
                 | with_reducible intro _ hz | with_reducible intro hm | split | with_reducible exact fun h => h
                 | with_reducible exact fun _ h => h | with_reducible apply State.sound_set_eye
                 | with_reducible apply State.sound_set_pending | (simp [length_upd]; done))

theorem State.writeEyeCommit_sound (s : State) (v : Word) (hs₀ : s.sound) : (State.writeEyeCommit s v).sound := by
  unfold State.writeEyeCommit
  try dsimp only
  repeat' (first | with_reducible assumption | with_reducible apply State.eyeArrive_sound
                 | with_reducible apply State.gate_sound | with_reducible apply State.sound_if | with_reducible intro _ hz
                 | with_reducible intro hm | split)

theorem State.eyeFrameStart_sound (s : State) (hs₀ : s.sound) : (State.eyeFrameStart s).sound := by
  unfold State.eyeFrameStart
  try dsimp only
  repeat' (first | with_reducible assumption | with_reducible apply State.fresh_sound | with_reducible apply State.irq_sound
                 | with_reducible apply State.sound_if | with_reducible intro _ hz | with_reducible intro hm | split
                 | with_reducible exact fun h => h | with_reducible exact fun _ h => h
                 | with_reducible apply State.sound_set_eye | with_reducible apply State.sound_set_pending
                 | (simp [length_upd]; done))

theorem State.blankLine_sound (s : State) (hs₀ : s.sound) : (State.blankLine s).sound := by
  unfold State.blankLine
  try dsimp only
  repeat' (first | with_reducible assumption | with_reducible apply State.emit_sound | split)

theorem State.driveLine_sound (s : State) (missing : Option Nat) (hs₀ : s.sound) : (State.driveLine s missing).sound := by
  unfold State.driveLine
  try dsimp only
  repeat' (first | with_reducible assumption | with_reducible apply State.count_sound
                 | with_reducible apply State.emit_sound | with_reducible apply State.irq_sound
                 | with_reducible apply State.raise_sound | with_reducible apply State.sound_if | with_reducible intro _ hz
                 | with_reducible intro hm | split | with_reducible exact fun h => h | with_reducible exact fun _ h => h
                 | with_reducible apply State.sound_set_eye | (simp [length_upd]; done))

theorem State.checkFreeze_sound (s : State) (hs₀ : s.sound) : (State.checkFreeze s).sound := by
  unfold State.checkFreeze
  try dsimp only
  repeat' (first | with_reducible assumption | with_reducible apply State.count_sound
                 | with_reducible apply State.raise_sound | with_reducible apply State.sound_if | with_reducible intro _ hz
                 | with_reducible intro hm | split | with_reducible exact fun h => h | with_reducible exact fun _ h => h
                 | with_reducible apply State.sound_set_eye | (simp [length_upd]; done))


/-! ### Machine/HostIf.lean -/

theorem State.flushMsix_sound (s : State) (hs₀ : s.sound) : (State.flushMsix s).sound := by
  unfold State.flushMsix
  try dsimp only
  repeat' (first | with_reducible assumption | with_reducible apply State.clearPending_sound
                 | with_reducible apply State.each_sound | with_reducible apply State.msix_sound
                 | with_reducible apply State.sound_if | with_reducible intro _ hz | with_reducible intro hm | split)

theorem State.abandon_sound (s : State) (hs₀ : s.sound) : (State.abandon s).sound := by
  unfold State.abandon
  try dsimp only
  repeat' (first | with_reducible assumption | with_reducible apply State.maint_sound | with_reducible intro _ hz
                 | with_reducible intro hm | split | with_reducible exact fun h => h | with_reducible exact fun _ h => h
                 | with_reducible apply State.sound_set_pho | exact hm | (simp [length_upd]; done)
                 | (simp [hm, length_upd, Memory.wf_writes, Memory.wf_write, SMap.sorted_put]; done)
                 | (rw [State.sound_mk]; refine ⟨?_, ?_, State.sound_sto hs₀, State.sound_heads hs₀,
                      State.sound_before hs₀,
                      State.sound_channels hs₀⟩ <;> simp (maxDischargeDepth := 30) [length_upd,
                      List.length_map, Memory.wf_writes, Memory.wf_write, SMap.sorted_put, State.sound_regs,
                      State.sound_mem, State.sound_flash, State.sound_pipes, State.sound_wck,
                      State.sound_links, State.sound_rings, State.sound_xings, State.sound_classes,
                      State.sound_encs, State.sound_latches, State.sound_latchDue, State.sound_cmps,
                      State.sound_strobes, State.sound_camtrigs, State.sound_tpulses, State.sound_cams,
                      State.sound_chans, State.sound_gens, State.maint_sound, hs₀]; done)
                 | (rw [State.sound_mk]; simp (maxDischargeDepth := 30) [length_upd, List.length_map,
                      Memory.wf_writes, Memory.wf_write, SMap.sorted_put, State.sound_regs, State.sound_mem,
                      State.sound_flash, State.sound_pipes, State.sound_wck, State.sound_links,
                      State.sound_rings, State.sound_xings, State.sound_classes, State.sound_encs,
                      State.sound_latches, State.sound_latchDue, State.sound_cmps, State.sound_strobes,
                      State.sound_camtrigs, State.sound_tpulses, State.sound_cams, State.sound_chans,
                      State.sound_gens, State.maint_sound, hs₀]; done)
                 | (rw [State.sound_mk]; simp (maxDischargeDepth := 30) [length_upd, List.length_map,
                      Memory.wf_writes, Memory.wf_write, SMap.sorted_put, State.sound_regs, State.sound_mem,
                      State.sound_flash, State.sound_pipes, State.sound_wck, State.sound_links,
                      State.sound_rings, State.sound_xings, State.sound_classes, State.sound_encs,
                      State.sound_latches, State.sound_latchDue, State.sound_cmps, State.sound_strobes,
                      State.sound_camtrigs, State.sound_tpulses, State.sound_cams, State.sound_chans,
                      State.sound_gens, State.maint_sound, hz]; done))

theorem State.stopRings_sound (s : State) (hs₀ : s.sound) : (State.stopRings s).sound := by
  unfold State.stopRings
  try dsimp only
  repeat' (first | with_reducible assumption | with_reducible apply State.sound_if | with_reducible intro _ hz
                 | with_reducible intro hm | split | with_reducible exact fun h => h | with_reducible exact fun _ h => h
                 | with_reducible apply State.sound_set_hst | (simp [length_upd]; done))

theorem State.readDoorbells_sound (s : State) (hs₀ : s.sound) : (State.readDoorbells s).sound := by
  unfold State.readDoorbells
  try dsimp only
  repeat' (first | with_reducible assumption | with_reducible apply State.emit_sound
                 | with_reducible apply State.traffic_sound | with_reducible apply State.windowFault_sound
                 | with_reducible apply State.sound_if | with_reducible intro _ hz | with_reducible intro hm | split
                 | with_reducible exact fun h => h | with_reducible exact fun _ h => h
                 | with_reducible apply State.sound_set_hst | (simp [length_upd]; done))

theorem State.writeBar2_sound (s : State) (off : Nat) (hs₀ : s.sound) : (State.writeBar2 s off).sound := by
  unfold State.writeBar2
  try dsimp only
  repeat' (first | with_reducible assumption | with_reducible apply State.bar0_sound
                 | with_reducible apply State.count_sound | with_reducible apply State.readDoorbells_sound
                 | with_reducible apply State.sound_if | with_reducible intro _ hz | with_reducible intro hm | split)

theorem State.startRing_sound (s : State) (r : Nat) (hs₀ : s.sound) : (State.startRing s r).sound := by
  unfold State.startRing
  try dsimp only
  repeat' (first | with_reducible assumption | with_reducible apply State.updRing_sound | with_reducible intro _ hz
                 | with_reducible intro hm | split | with_reducible exact fun h => h | with_reducible exact fun _ h => h
                 | with_reducible apply State.sound_set_dev | with_reducible apply State.sound_set_ltn
                 | (simp [length_upd]; done))

theorem State.haltRing_sound (s : State) (r : Nat) (hs₀ : s.sound) : (State.haltRing s r).sound := by
  unfold State.haltRing
  try dsimp only
  repeat' (first | with_reducible assumption | with_reducible apply State.abortNotBegun_sound
                 | with_reducible apply State.updRing_sound | with_reducible intro _ hz | with_reducible intro hm | split)

theorem State.writeRingCfg_sound (s : State) (r : Nat) (v : Word) (hs₀ : s.sound) : (State.writeRingCfg s r v).sound := by
  unfold State.writeRingCfg
  try dsimp only
  repeat' (first | with_reducible assumption | with_reducible apply State.gate_sound
                 | with_reducible apply State.haltRing_sound | with_reducible apply State.refuse_sound
                 | with_reducible apply State.startRing_sound | with_reducible apply State.store_sound
                 | with_reducible apply State.updRing_sound | with_reducible apply State.sound_if
                 | with_reducible intro _ hz | with_reducible intro hm | split)

theorem State.ringIrqSet_sound (s : State) (r : Nat) (hs₀ : s.sound) : (State.ringIrqSet s r).sound := by
  unfold State.ringIrqSet
  try dsimp only
  repeat' (first | with_reducible assumption | with_reducible apply State.signalRing_sound
                 | with_reducible apply State.sound_if | with_reducible intro _ hz | with_reducible intro hm | split
                 | with_reducible exact fun h => h | with_reducible exact fun _ h => h | (simp [length_upd]; done))


/-! ### Machine/Line.lean -/

theorem State.slotSent_sound (s : State) (p : Nat) (rho : Rat) (hs₀ : s.sound) : (State.slotSent s p rho).sound := by
  unfold State.slotSent
  try dsimp only
  repeat' (first | with_reducible assumption | with_reducible apply State.count_sound
                 | with_reducible apply State.raise_sound | with_reducible apply State.updWick_sound
                 | with_reducible apply State.sound_if | with_reducible intro _ hz | with_reducible intro hm | split
                 | with_reducible exact fun h => h | with_reducible exact fun _ h => h | with_reducible exact hz
                 | exact List.length_replicate
                 | (simp only [Channel.fit, WickPort.fit, length_upd, List.length_map] at hz ⊢; exact hz))

theorem State.settleActs_sound (s : State) (hs₀ : s.sound) : (State.settleActs s).sound := by
  unfold State.settleActs
  try dsimp only
  repeat' (first | with_reducible assumption | with_reducible apply State.actEnd_sound
                 | with_reducible apply State.each_sound | with_reducible apply State.updAct_sound
                 | with_reducible apply State.sound_if | with_reducible intro _ hz | with_reducible intro hm | split)

theorem State.abortDue_sound (s : State) (p : Nat) (l : Line) (hs₀ : s.sound) : (State.abortDue s p l).sound := by
  unfold State.abortDue
  try dsimp only
  repeat' (first | with_reducible assumption | with_reducible apply State.decideChange_sound
                 | with_reducible apply State.each_sound | with_reducible intro _ hz | with_reducible intro hm | split)

theorem State.dropAnn_sound (s : State) (a : AnnEntry) (hs₀ : s.sound) : (State.dropAnn s a).sound := by
  unfold State.dropAnn
  try dsimp only
  repeat' (first | with_reducible assumption | split | with_reducible exact fun _ => State.sound_before hs₀)

theorem State.beginLine_sound (s : State) (p : Nat) (l : Line) (ovs : Bool) (skipped : Nat) (seq : Option (BitVec 32)) (hs₀ : s.sound) :
    (State.beginLine s p l ovs skipped seq).sound := by
  unfold State.beginLine
  try dsimp only
  repeat' (first | with_reducible assumption | with_reducible apply State.abortDue_sound
                 | with_reducible apply State.count_sound | with_reducible apply State.screened_sound
                 | with_reducible apply State.sendTwin_sound | with_reducible apply State.settleActs_sound
                 | with_reducible apply State.settleGroups_sound | with_reducible apply State.updPipe_sound
                 | with_reducible apply State.sound_if | with_reducible intro _ hz | with_reducible intro hm | split)

theorem State.reachHeads_sound (s : State) (p : Nat) (l : Line) (hs₀ : s.sound) : (State.reachHeads s p l).sound := by
  unfold State.reachHeads
  try dsimp only
  repeat' (first | with_reducible assumption | with_reducible apply State.updWick_sound | with_reducible intro _ hz
                 | with_reducible intro hm | split | with_reducible exact fun h => h | with_reducible exact fun _ h => h
                 | with_reducible exact hz | exact List.length_replicate
                 | (simp only [Channel.fit, WickPort.fit, length_upd, List.length_map] at hz ⊢; exact hz))

theorem State.sendLine_sound (s : State) (p : Nat) (l : Line) (f : Time) (rdu : Nat) (seq : BitVec 32) (ovs : Bool) (payload : Option Bytes) (hs₀ : s.sound) :
    (State.sendLine s p l f rdu seq ovs payload).sound := by
  unfold State.sendLine
  try dsimp only
  repeat' (first | with_reducible assumption | with_reducible apply State.sendFrame_sound
                 | with_reducible apply State.take_sound | with_reducible apply State.updLink_sound
                 | with_reducible apply State.updPipe_sound | with_reducible apply State.updWick_sound
                 | with_reducible apply State.wr_sound | with_reducible intro _ hz | with_reducible intro hm | split
                 | with_reducible exact fun h => h | with_reducible exact fun _ h => h | with_reducible exact hz
                 | exact List.length_replicate
                 | (simp only [Channel.fit, WickPort.fit, length_upd, List.length_map] at hz ⊢; exact hz))

theorem State.passLine_sound (s : State) (p : Nat) (b : Option Begun) (l : Line) (f : Time) (hs₀ : s.sound) :
    (State.passLine s p b l f).sound := by
  unfold State.passLine
  try dsimp only
  repeat' (first | with_reducible assumption | with_reducible apply State.take_sound
                 | with_reducible apply State.updPipe_sound | with_reducible apply State.sound_if
                 | with_reducible intro _ hz | with_reducible intro hm | split)

theorem State.settleStop_sound (s : State) (hs₀ : s.sound) : (State.settleStop s).sound := by
  unfold State.settleStop
  try dsimp only
  repeat' (first | with_reducible assumption | with_reducible apply State.enterStandby_sound
                 | with_reducible apply State.sound_if | with_reducible intro _ hz | with_reducible intro hm | split)

theorem State.noteFire_sound (s : State) (p : Nat) (seq : BitVec 32) (f : Time) (rdu : Nat) (hs₀ : s.sound) :
    (State.noteFire s p seq f rdu).sound := by
  unfold State.noteFire
  try dsimp only
  repeat' (first | with_reducible assumption | with_reducible apply State.take_sound | with_reducible apply State.sound_if
                 | with_reducible intro _ hz | with_reducible intro hm | split | with_reducible exact fun h => h
                 | with_reducible exact fun _ h => h | with_reducible exact fun _ => State.sound_before hs₀
                 | with_reducible apply State.sound_set_twn | (simp [length_upd]; done))

theorem State.decideLine_sound (s : State) (p : Nat) (b : Option Begun) (l : Line) (seq : BitVec 32) (f : Time) (ovs : Bool) (hs₀ : s.sound) :
    (State.decideLine s p b l seq f ovs).sound := by
  unfold State.decideLine
  try dsimp only
  repeat' (first | with_reducible assumption | with_reducible apply State.agree_sound
                 | with_reducible apply State.count_sound | with_reducible apply State.noteFire_sound
                 | with_reducible apply State.passLine_sound | with_reducible apply State.raise_sound
                 | with_reducible apply State.reachBank_sound | with_reducible apply State.reachHeads_sound
                 | with_reducible apply State.sendLine_sound | with_reducible apply State.slotSent_sound
                 | with_reducible apply State.take_sound | with_reducible apply State.updLink_sound
                 | with_reducible apply State.updPipe_sound | with_reducible apply State.sound_if
                 | with_reducible intro _ hz | with_reducible intro hm | split)


/-! ### Machine/Twin.lean -/

theorem State.writeTwnCmd_sound (s : State) (v : Word) (hs₀ : s.sound) : (State.writeTwnCmd s v).sound := by
  unfold State.writeTwnCmd
  try dsimp only
  repeat' (first | with_reducible assumption | with_reducible apply State.actRun_sound
                 | with_reducible apply State.beginPair_sound | with_reducible apply State.endPair_sound
                 | with_reducible apply State.gate_sound | with_reducible apply State.give_sound
                 | with_reducible apply State.registerStart_sound | with_reducible apply State.sendCkpt_sound
                 | with_reducible apply State.sendTwin_sound | with_reducible apply State.sound_if
                 | with_reducible intro _ hz | with_reducible intro hm | split)

theorem State.hearHello_sound (s : State) (h : Hello) (hs₀ : s.sound) : (State.hearHello s h).sound := by
  unfold State.hearHello
  try dsimp only
  repeat' (first | with_reducible assumption | with_reducible apply State.goAlone_sound
                 | with_reducible apply State.startPair_sound | with_reducible apply State.takeHello_sound
                 | with_reducible apply State.sound_if | with_reducible intro _ hz | with_reducible intro hm | split
                 | with_reducible exact fun h => h | with_reducible exact fun _ h => h
                 | with_reducible exact fun _ => State.sound_before hs₀ | with_reducible apply State.sound_set_twn
                 | (simp [length_upd]; done))

theorem State.hearJoin_sound (s : State) (line : Line) (hs₀ : s.sound) : (State.hearJoin s line).sound := by
  unfold State.hearJoin
  try dsimp only
  repeat' (first | with_reducible assumption | with_reducible apply State.becomePaired_sound
                 | with_reducible apply State.enterPrinting_sound | with_reducible apply State.sound_if
                 | with_reducible intro _ hz | with_reducible intro hm | split | with_reducible exact fun h => h
                 | with_reducible exact fun _ h => h | (simp [length_upd]; done))

theorem State.ckptAcked_sound (s : State) (hs₀ : s.sound) : (State.ckptAcked s).sound := by
  unfold State.ckptAcked
  try dsimp only
  repeat' (first | with_reducible assumption | with_reducible apply State.ckptDone_sound
                 | with_reducible apply State.sound_if | with_reducible intro _ hz | with_reducible intro hm | split
                 | with_reducible exact fun h => h | with_reducible exact fun _ h => h | (simp [length_upd]; done))

theorem State.hearHb_sound (s : State) (t : Nat) (h : HbInfo) (hs₀ : s.sound) : (State.hearHb s t h).sound := by
  unfold State.hearHb
  try dsimp only
  repeat' (first | with_reducible assumption | with_reducible apply State.acceptReady_sound
                 | with_reducible apply State.ackCtl_sound | with_reducible apply State.ckptAcked_sound
                 | with_reducible apply State.disagree_sound | with_reducible apply State.goAlone_sound
                 | with_reducible apply State.sound_if | with_reducible intro _ hz | with_reducible intro hm | split
                 | with_reducible exact fun h => h | with_reducible exact fun _ h => h
                 | with_reducible exact fun _ => State.sound_before hs₀ | with_reducible apply State.sound_set_twn
                 | (simp [length_upd]; done))

theorem State.hearGive_sound (s : State) (reason : Nat) (hs₀ : s.sound) : (State.hearGive s reason).sound := by
  unfold State.hearGive
  try dsimp only
  repeat' (first | with_reducible assumption | with_reducible apply State.endPair_sound
                 | with_reducible apply State.partnerFailed_sound | with_reducible apply State.sound_if
                 | with_reducible intro _ hz | with_reducible intro hm | split | with_reducible exact fun h => h
                 | with_reducible exact fun _ h => h | with_reducible exact fun _ => State.sound_before hs₀
                 | with_reducible apply State.sound_set_twn | (simp [length_upd]; done))

theorem State.hearAnnounce_sound (s : State) (entries : List AnnEntry) (hs₀ : s.sound) :
    (State.hearAnnounce s entries).sound := by
  unfold State.hearAnnounce
  try dsimp only
  repeat' (first | with_reducible assumption | with_reducible apply State.each_sound | with_reducible apply State.sound_if
                 | with_reducible intro _ hz | with_reducible intro hm | split
                 | with_reducible exact fun _ => State.sound_before hs₀)

theorem State.voteOn_sound (s : State) (id : Nat) (line : Option Line) (body : ChangeBody) (hs₀ : s.sound) :
    (State.voteOn s id line body).sound := by
  unfold State.voteOn
  try dsimp only
  repeat' (first | with_reducible assumption | with_reducible apply State.dropStaged_sound
                 | with_reducible apply State.raise_sound | with_reducible apply State.sendTwin_sound
                 | with_reducible apply State.sound_if | with_reducible intro _ hz | with_reducible intro hm | split
                 | with_reducible exact fun h => h | with_reducible exact fun _ h => h
                 | with_reducible exact fun _ => State.sound_before hs₀ | with_reducible apply State.sound_set_twn
                 | (simp [length_upd]; done))

theorem State.hearChange_sound (s : State) (id : Nat) (line : Option Line) (body : ChangeBody) (hs₀ : s.sound) :
    (State.hearChange s id line body).sound := by
  unfold State.hearChange
  try dsimp only
  repeat' (first | with_reducible assumption | with_reducible apply State.voteOn_sound | with_reducible apply State.sound_if
                 | with_reducible intro _ hz | with_reducible intro hm | split | with_reducible exact fun h => h
                 | with_reducible exact fun _ h => h | with_reducible exact fun _ => State.sound_before hs₀
                 | with_reducible apply State.sound_set_twn | (simp [length_upd]; done))

theorem State.collect_sound (s : State) (type : Nat) (f : Bytes) (hs₀ : s.sound) : (State.collect s type f).1.sound := by
  unfold State.collect
  try dsimp only
  repeat' (first | with_reducible assumption | with_reducible intro _ hz | with_reducible intro hm | split
                 | with_reducible exact fun _ => State.sound_before hs₀)

theorem State.takeChange_sound (s : State) (id : Nat) (record : Bytes) (hs₀ : s.sound) :
    (State.takeChange s id record).sound := by
  unfold State.takeChange
  try dsimp only
  repeat' (first | with_reducible assumption | with_reducible apply State.applyNamed_sound
                 | with_reducible apply State.hearChange_sound | with_reducible apply State.keepChange_sound
                 | with_reducible apply State.sendTwin_sound | with_reducible apply State.sound_if
                 | with_reducible intro _ hz | with_reducible intro hm | split | with_reducible exact fun h => h
                 | with_reducible exact fun _ h => h | with_reducible exact fun _ => State.sound_before hs₀
                 | with_reducible apply State.sound_set_twn | (simp [length_upd]; done))

theorem State.hearVote_sound (s : State) (id : Nat) (yes : Bool) (hs₀ : s.sound) : (State.hearVote s id yes).sound := by
  unfold State.hearVote
  try dsimp only
  repeat' (first | with_reducible assumption | with_reducible apply State.decideChange_sound
                 | with_reducible apply State.sound_if | with_reducible intro _ hz | with_reducible intro hm | split)

theorem State.hearDecide_sound (s : State) (id : Nat) (commit : Bool) (hs₀ : s.sound) :
    (State.hearDecide s id commit).sound := by
  unfold State.hearDecide
  try dsimp only
  repeat' (first | with_reducible assumption | with_reducible apply State.applyNamed_sound
                 | with_reducible apply State.dropStaged_sound | with_reducible apply State.sound_if
                 | with_reducible intro _ hz | with_reducible intro hm | split
                 | with_reducible exact fun _ => State.sound_before hs₀)

theorem State.voteIngests_sound (s : State) (hs₀ : s.sound) : (State.voteIngests s).sound := by
  unfold State.voteIngests
  try dsimp only
  repeat' (first | with_reducible assumption | with_reducible apply State.each_sound
                 | with_reducible apply State.voteOn_sound | with_reducible intro _ hz | with_reducible intro hm | split
                 | with_reducible exact fun _ => State.sound_before hs₀)

theorem State.hearData_sound (s : State) (d : Nat × Nat × Nat × Nat × Bytes) (hs₀ : s.sound) : (State.hearData s d).sound := by
  unfold State.hearData
  try dsimp only
  repeat' (first | with_reducible assumption | with_reducible apply State.tryRestore_sound
                 | with_reducible apply State.voteIngests_sound | with_reducible apply State.sound_if
                 | with_reducible intro _ hz | with_reducible intro hm | split | with_reducible exact fun h => h
                 | with_reducible exact fun _ h => h | with_reducible exact fun _ => State.sound_before hs₀
                 | with_reducible apply State.sound_set_twn | (simp [length_upd]; done))

theorem State.takeCkpt_sound (s : State) (through : Nat) (bytes : Bytes) (hs₀ : s.sound) :
    (State.takeCkpt s through bytes).sound := by
  unfold State.takeCkpt
  try dsimp only
  repeat' (first | with_reducible assumption | with_reducible apply State.count_sound
                 | with_reducible apply State.joinCkpt_sound | with_reducible apply State.trimJournal_sound
                 | with_reducible apply State.sound_if | with_reducible intro _ hz | with_reducible intro hm | split
                 | with_reducible exact fun h => h | with_reducible exact fun _ h => h
                 | with_reducible exact fun _ => State.sound_before hs₀ | with_reducible apply State.sound_set_twn
                 | (simp [length_upd]; done))

theorem State.hearPos_sound (s : State) (q : Pos) (hs₀ : s.sound) : (State.hearPos s q).sound := by
  have key : ∀ (a : PairState) (b : Option (Pos × Time)), State.sound (match a, b with
      | .pairing, some (own, _) => if s.twn.joining ∧ s.twn.step = 4 then s.alignTo own q else s
      | .pairing, none => if s.twn.joining ∧ s.twn.step = 4 then { s with twn := { s.twn with peerIndex := some q } } else s
      | .paired, some (own, _) => if s.follower ∧ s.get .TWN_POS_TOL_tol < (sdiff own q).natAbs then s.disagree 1 else s
      | _, _ => s) := by
    intro a b
    cases a <;> rcases b with _ | ⟨o, _⟩
    all_goals first
      | exact hs₀
      | exact State.sound_if (fun _ => State.alignTo_sound _ _ _ hs₀) fun _ => hs₀
      | exact State.sound_if (fun _ => State.sound_set_twn hs₀) fun _ => hs₀
      | exact State.sound_if (fun _ => State.disagree_sound _ _ hs₀) fun _ => hs₀
  exact key _ _

theorem State.hearFire_sound (s : State) (p : Nat) (seq : BitVec 32) (f : Time) (u : Nat) (hs₀ : s.sound) :
    (State.hearFire s p seq f u).sound := by
  unfold State.hearFire
  try dsimp only
  repeat' (first | with_reducible assumption | with_reducible apply State.disagree_sound
                 | with_reducible apply State.sound_if | with_reducible intro _ hz | with_reducible intro hm | split)

theorem State.hearHdm_sound (s : State) (p : Nat) (h : HdmId) (hs₀ : s.sound) : (State.hearHdm s p h).sound := by
  unfold State.hearHdm
  try dsimp only
  repeat' (first | with_reducible assumption | with_reducible apply State.checkProtected_sound
                 | with_reducible apply State.sound_if | with_reducible intro _ hz | with_reducible intro hm | split
                 | with_reducible exact fun _ => State.sound_before hs₀)

theorem State.hearCheck_sound (s : State) (w0 : CheckBody) (hs₀ : s.sound) : (State.hearCheck s w0).sound := by
  unfold State.hearCheck
  try dsimp only
  repeat' (first | with_reducible assumption | with_reducible apply State.hearFire_sound
                 | with_reducible apply State.hearHdm_sound | with_reducible apply State.hearPos_sound | split)


/-! ### Machine/Training.lean -/

theorem State.writeTrain_sound (s : State) (c : Nat) (v : Word) (hs₀ : s.sound) : (State.writeTrain s c v).sound := by
  unfold State.writeTrain
  try dsimp only
  repeat' (first | with_reducible assumption | with_reducible apply State.emit_sound | with_reducible apply State.gate_sound
                 | with_reducible apply State.set_sound | with_reducible apply State.store_sound
                 | with_reducible apply State.updChan_sound | with_reducible apply State.sound_if
                 | with_reducible intro _ hz | with_reducible intro hm | split | with_reducible exact fun h => h
                 | with_reducible exact fun _ h => h | with_reducible exact hz | exact List.length_replicate
                 | (simp only [Channel.fit, WickPort.fit, length_upd, List.length_map] at hz ⊢; exact hz))

theorem State.trainStep_sound (s : State) (c op : Nat) (v : Word) (hs₀ : s.sound) : (State.trainStep s c op v).sound := by
  unfold State.trainStep
  try dsimp only
  repeat' (first | with_reducible assumption | with_reducible apply State.writeTrain_sound
                 | with_reducible apply State.sound_if | with_reducible intro _ hz | with_reducible intro hm | split
                 | with_reducible exact fun h => h | with_reducible exact fun _ h => h | (simp [length_upd]; done))

theorem State.writeModes_sound (s : State) (c rank : Nat) (hs₀ : s.sound) : (State.writeModes s c rank).sound := by
  exact State.updChan_sound _ _ _ hs₀ fun x hx => ⟨hx.1, hx.2.1, hx.2.2.1, SMap.sorted_foldl _ (fun _ _ h => SMap.sorted_ins _ _ _ h) _ _ hx.2.2.2⟩

theorem State.writePattern_sound (s : State) (c rank : Nat) (hs₀ : s.sound) : (State.writePattern s c rank).sound := by
  unfold State.writePattern
  exact State.sound_set_drm hs₀ ⟨rfl, fun _ => Memory.wf_foldl _ _ (fun m a h => Memory.wf_writes _ _ _ _ h) _ _ (State.sound_mem hs₀)⟩

theorem State.verifyRows_sound (s : State) (c : Nat) (hs₀ : s.sound) : (State.verifyRows s c).sound := by
  have key : ∀ (l : List (Nat × Nat)) (f : Memory → Nat × Nat → Memory),
      (∀ m a, m.wf Memory.dramFill = true → (f m a).wf Memory.dramFill = true) →
      State.sound { s with drm := { s.drm with mem := l.foldl f s.drm.mem } } := fun l f hf =>
    State.sound_set_drm hs₀ ⟨rfl, fun _ => Memory.wf_foldl _ _ hf _ _ (State.sound_mem hs₀)⟩
  exact key _ _ fun m a h => Memory.wf_writes _ _ _ _ h

theorem State.addErrors_sound (s : State) (c rank : Nat) (errors : List Nat) (hs₀ : s.sound) :
    (State.addErrors s c rank errors).sound := by
  unfold State.addErrors
  try dsimp only
  repeat' (first | with_reducible assumption | with_reducible apply State.each_sound | with_reducible apply State.wr_sound
                 | with_reducible intro _ hz | with_reducible intro hm | split)

theorem State.stepResult_sound (s : State) (c op rank : Nat) (result : Word) (errors : List Nat) (hs₀ : s.sound) :
    (State.stepResult s c op rank result errors).sound := by
  unfold State.stepResult
  try dsimp only
  repeat' (first | with_reducible assumption | with_reducible apply State.addErrors_sound
                 | with_reducible apply State.each_sound | with_reducible apply State.raise_sound
                 | with_reducible apply State.updChan_sound | with_reducible apply State.verifyRows_sound
                 | with_reducible apply State.wr_sound | with_reducible apply State.writeModes_sound
                 | with_reducible apply State.writePattern_sound | with_reducible apply State.sound_if
                 | with_reducible intro _ hz | with_reducible intro hm | split | with_reducible exact fun h => h
                 | with_reducible exact fun _ h => h | with_reducible exact hz | exact List.length_replicate
                 | exact ⟨hz.1, hz.2.1, hz.2.2.1, rfl⟩
                 | (simp only [Channel.fit, WickPort.fit, length_upd, List.length_map] at hz ⊢; exact hz))


/-! ### Machine/RegAccess.lean -/

theorem State.switchTwinPort_sound (s : State) (p : Nat) (was : Bool) (hs₀ : s.sound) :
    (State.switchTwinPort s p was).sound := by
  unfold State.switchTwinPort
  try dsimp only
  repeat' (first | with_reducible assumption | with_reducible apply State.enablePort_sound
                 | with_reducible apply State.portDown_sound | with_reducible apply State.sound_if
                 | with_reducible intro _ hz | with_reducible intro hm | split | with_reducible exact fun h => h
                 | with_reducible exact fun _ h => h | (simp [length_upd]; done))

theorem State.writePlain_sound (s : State) (r : Reg) (i j k : Nat) (v : Word) (hs₀ : s.sound) :
    (State.writePlain s r i j k v).sound := by
  have hw : ∀ e ∈ writeEffects, ∀ (u : State) (i : Nat) (v : Word), u.sound → (e.2 u i v).sound := by
    unfold writeEffects
    simp only [List.forall_mem_cons, List.not_mem_nil, false_implies, implies_true, and_true]
    refine ⟨fun u i v hs₀ => ?_, fun u i v hs₀ => ?_⟩
    all_goals
      try dsimp only
      repeat' (first | with_reducible assumption | with_reducible apply State.sound_if | with_reducible intro _
                     | with_reducible apply State.store_sound | with_reducible apply State.updEnc_sound
                     | with_reducible apply State.switchTwinPort_sound | with_reducible apply State.setPreset_sound
                     | (with_reducible apply State.sound_set_mer) | exact ⟨rfl, rfl, rfl, rfl, rfl, rfl, rfl⟩)
  unfold State.writePlain
  refine State.bar0_sound _ _ hs₀ fun u hu => ?_
  dsimp only
  split
  · rename_i f hf
    obtain ⟨a, ha⟩ := ruleOf_mem hf
    exact State.gate_sound _ _ _ _ _ hu fun u hu => hw _ ha _ _ _ hu
  · refine State.gate_sound _ _ _ _ _ hu fun u hu => State.settlePending_sound _ (State.sound_if (fun _ => ?_) fun _ => State.sound_if (fun _ => ?_) fun _ => ?_)
    all_goals have ht := State.store_sound u r v i j k hu
    · exact State.flushMsix_sound _ ht
    · exact State.ringIrqSet_sound _ _ ht
    · exact ht
  · split
    · exact State.enqueue_sound _ _ _ _ hu
    · exact State.refuse_sound _ _ _ hu

theorem ownWrites_sound : ∀ e ∈ ownWrites, ∀ (u : State) (i : Nat) (v : Word), u.sound → (e.2 u i v).sound := by
  unfold ownWrites
  simp only [List.forall_mem_cons, List.not_mem_nil, false_implies, implies_true, and_true]
  repeat' apply And.intro
  all_goals
    intro u i v hs₀
    try dsimp only
    repeat' (first | with_reducible assumption | exact hz | with_reducible apply State.sound_if | with_reducible intro _ hz
                   | with_reducible intro hm | with_reducible apply State.writePosCmd_sound
                   | with_reducible apply State.writeSsiCmd_sound | with_reducible apply State.geomCommit_sound
                   | with_reducible apply State.gate_sound | (refine State.gate_sound _ _ _ _ _ ?_ fun _ h => h)
                   | with_reducible apply State.writeLatchCtrl_sound | with_reducible apply State.writeCmpCtrl_sound
                   | with_reducible apply State.writeGhlCtrl_sound | with_reducible apply State.writePhoCtrl_sound
                   | with_reducible apply State.writeExpCommit_sound | with_reducible apply State.writeLoopReset_sound
                   | with_reducible apply State.writeTwnCmd_sound | with_reducible apply State.writeRingCfg_sound
                   | with_reducible apply State.writeAck_sound | with_reducible apply State.writeRecClr_sound
                   | with_reducible apply State.writeSrcCfg_sound | with_reducible apply State.writeGlbCmd_sound
                   | with_reducible apply State.writeReset_sound | with_reducible apply State.writeTrain_sound
                   | with_reducible apply State.writePixCtrl_sound | with_reducible apply State.writeNetLoad_sound
                   | with_reducible apply State.writeNetStep_sound | with_reducible apply State.snapshot_sound
                   | with_reducible apply State.writeSecLo_sound | with_reducible apply State.writePulseCtrl_sound
                   | with_reducible apply State.writeEyeCtrl_sound | with_reducible apply State.writeEyeCommit_sound)

theorem State.writeOwn_sound (s : State) (f : WriteEffect) (off i : Nat) (v : Word) (hs₀ : s.sound) (hf : ∀ (u : State) (i : Nat) (v : Word), u.sound → (f u i v).sound) :
    (State.writeOwn s f off i v).sound := by
  unfold State.writeOwn
  split
  · exact hf _ _ _ hs₀
  · refine State.bar0_sound _ _ hs₀ fun u hu => ?_
    dsimp only
    split
    · exact State.refuse_sound _ _ _ hu
    · split
      · exact State.enqueue_sound _ _ _ _ hu
      · split
        · exact hf _ _ _ hu
        · exact State.refuse_sound _ _ _ hu

theorem State.writeWhole_sound (s : State) (r : Reg) (l : List Nat) (v : Word) (hs₀ : s.sound) :
    (State.writeWhole s r l v).sound := by
  unfold State.writeWhole
  dsimp only
  split
  · rename_i f hf
    obtain ⟨a, ha⟩ := ruleOf_mem hf
    exact State.writeOwn_sound _ _ _ _ _ hs₀ fun u i v hu => ownWrites_sound _ ha _ _ _ hu
  · exact State.writePlain_sound _ _ _ _ _ _ hs₀

theorem State.arrive_sound (s : State) (x : Nat) (w : PendWrite) (rest : List PendWrite) (hs₀ : s.sound) :
    (State.arrive s x w rest).sound := by
  unfold State.arrive
  have key : ∀ u : State, u.sound → (if (u.xing x).sync = .running then u.updXing x fun k => { k with writes := rest ++ k.writes } else u).sound :=
    fun u hu => State.sound_if (fun _ => State.updXing_sound _ _ _ hu) (fun _ => hu)
  refine key _ ?_
  have hx := State.updXing_sound s x (fun k => { k with writes := [] }) hs₀
  split
  · rename_i f l hf
    obtain ⟨e, he, h⟩ := Option.bind_eq_some_iff.mp hf
    obtain ⟨g, hg, h⟩ := Option.map_eq_some_iff.mp h
    obtain ⟨a, ha⟩ := ruleOf_mem hg
    cases h
    exact ownWrites_sound _ ha _ _ _ hx
  · exact State.applyPend_sound _ _ hx

theorem State.writeReg_sound (s : State) (off : Nat) (v : Word) (enables : BitVec 4) (hs₀ : s.sound) :
    (State.writeReg s off v enables).sound := by
  unfold State.writeReg
  split
  · exact hs₀
  · refine State.sound_if (fun _ => hs₀) fun _ => State.sound_if (fun _ => ?_) fun _ => State.sound_if (fun _ => ?_) fun _ => ?_
    · exact State.bar0_sound _ _ hs₀ fun u hu => State.sound_if (fun _ => State.refuse_sound _ _ _ hu) fun _ =>
        State.sound_if (fun _ => State.refuse_sound _ _ _ hu) fun _ => hu
    · exact State.bar0_sound _ _ hs₀ fun u hu => State.refuse_sound _ _ _ hu
    · exact State.writeWhole_sound _ _ _ _ hs₀

theorem State.captureLatch_sound (s : State) (n : Nat) (hs₀ : s.sound) : (State.captureLatch s n).sound := by
  unfold State.captureLatch
  try dsimp only
  repeat' (first | with_reducible assumption | with_reducible apply State.fresh_sound | with_reducible apply State.wr_sound
                 | split)

theorem State.loCapture_sound (s : State) (off : Nat) (hs₀ : s.sound) : (State.loCapture s off).sound := by
  unfold State.loCapture
  try dsimp only
  repeat' (first | with_reducible assumption | with_reducible apply State.captureLatch_sound
                 | with_reducible apply State.wr_sound | with_reducible apply captures_sound
                 | with_reducible apply State.sound_if | with_reducible intro _ hz | with_reducible intro hm | split
                 | with_reducible exact fun h => h | with_reducible exact fun _ h => h | (simp [length_upd]; done))


/-! ### Machine/Tick.lean -/

theorem State.forget_sound (s : State) (hs₀ : s.sound) : (State.forget s).sound := by
  exact State.sound_set_wck (s := { s with pipes := _ }) (State.sound_set_pipes hs₀ (List.length_map _)) (List.length_map _)
    fun h => forall_mem_map h fun _ hw => hw


/-! ### Machine/Step.lean -/

theorem State.withFetchWord_sound (s : State) (nbits w : Nat) (hs₀ : s.sound) : (State.withFetchWord s nbits w).sound := by
  unfold State.withFetchWord
  try dsimp only
  repeat' (first | with_reducible assumption | with_reducible intro _ hz | with_reducible intro hm | split
                 | with_reducible exact fun h => h | with_reducible exact fun _ h => h
                 | with_reducible apply State.sound_set_pending | (simp [length_upd]; done))

end Sys2Proof.Machine
end

