-- ==== Sys2Proof/Tests/Slice0.lean ====
section
/-! SUPPORT. Tests of the model: words and figures of the spec, ill-formed commands refused, and for every statement of
Certificates/Slice0/Obligations.lean a state and operands that meet its hypotheses together. -/

open Sys2Proof Sys2Proof.Machine

namespace Sys2Proof.Tests

set_option Elab.async false
set_option synthInstance.maxSize 2000

/-! ### States to test on -/

/-- A state with a register instance changed. -/
def reg (s : State) (r : Reg) (v : Nat) (i : Nat := 0) (j : Nat := 0) (k : Nat := 0) : State := s.wr r (BitVec.ofNat 32 v) i j k

/-- The block started: locked, training complete, root PLL locked, STANDBY, MONO at 1,000,000. -/
def base : State :=
  { State.reset with
    dev := { State.reset.dev with dev := .standby, locked := true, flStep := 9, stoReady := true }
    clk := { State.reset.clk with rootLock := true, pcieUp := true, refOk := true }
    hst := { State.reset.hst with dlUp := true }
    drm := { State.reset.drm with ready := true }
    tim := { State.reset.tim with mono := 1000000 } }

/-- Window 0 over the first 64 MB of host memory, SUBMIT ring 0 at 0x1000 with COMPLETE ring 1 at 0x2000, CAPTURE ring 2 at 0x3000 with
COMPLETE ring 1, EVENT ring 3 at 0x4000; all of 16 entries and RUNNING, one descriptor pending on rings 0 and 2. -/
def hosted (s : State) : State :=
  let s := reg (reg s .HST_WIN_SIZE 0x4000) .HST_WIN_CTRL 3
  let s := reg (reg s .HST_RING_CFG 0x80040100) .HST_RING_BASE_LO 0x1000
  let s := reg (reg s .HST_RING_CFG 0x84040000 1) .HST_RING_BASE_LO 0x2000 1
  let s := reg (reg s .HST_RING_CFG 0x88040100 2) .HST_RING_BASE_LO 0x3000 2
  let s := reg (reg s .HST_RING_CFG 0x8C040000 3) .HST_RING_BASE_LO 0x4000 3
  let run (acc : Nat) (g : Ring) : Ring := { g with st := .running, acc := acc }
  (((s.updRing 0 (run 1)).updRing 1 (run 0)).updRing 2 (run 1)).updRing 3 (run 0)

/-- The state on which descriptors are tested. -/
def host : State := hosted base

/-- A descriptor from its first bytes (R371, R373). -/
def desc (l : Bytes) : Bytes := withCrc ((l ++ List.replicate 30 0).take 30)

/-! ### General statements and lines -/

theorem wit_tick : base.pending = [] ∧ base.clk.rootLock = true ∧ State.reset.pending = [] ∧ State.reset.clk.rootLock = false := by
  decide +kernel

theorem wit_stepKeepsSound : State.reset.sound ∧ step State.reset = .next State.reset := by
  refine ⟨by decide +kernel, by rfl⟩

/-- A command leaves the queue, and MONO, as they are. -/
theorem wit_commandsLeaveTheQueue : ∃ t, exec (.eyeDisable 0) { base with pending := [.finish] } = .next t ∧ t.pending = [.finish] ∧
    t.tim.mono = 1000000 := ⟨_, rfl, by decide +kernel, by decide +kernel⟩

/-- A loaded web at 0.01 units per ns, with port 1 running and line 40 begun, `mono` ns after MONO's start. -/
def wLine (mono : Nat) : State :=
  let s := { base with dev := { base.dev with dev := .printing }
                       mer := { base.mer with est := ⟨false, 0, 0, 1 / 100, 0⟩, loaded := true }
                       tim := { base.tim with mono := BitVec.ofNat 32 mono } }
  s.updPipe 1 fun q => { q with running := true, begun := [⟨40, false, none, false, 0, [], none⟩] }

/-- The same with no line begun. -/
def wNoLine : State := (wLine 0).updPipe 1 fun q => { q with begun := [] }

theorem wit_lineBegin : wNoLine.sound ∧ (wNoLine.pipe 1).running = true ∧ (wNoLine.pipe 1).begun = [] ∧ wNoLine.printing = true ∧
    wNoLine.dev.stopLine = none ∧ wNoLine.announced = false ∧ wNoLine.twn.anns = [] ∧ wNoLine.twn.proposals = [] := by decide +kernel

/-- A line begun is packed: one that prints, and one that is blank. -/
theorem wit_linePacked : (wLine 0).sound ∧ ((wLine 0).pipe 1).begun = [⟨40, false, none, false, 0, [], none⟩] ∧
    ((wLine 0).pipe 1).priming = false ∧
    (((wLine 0).updPipe 1 fun q => { q with begun := [⟨40, false, none, true, 0, [], none⟩] }).pipe 1).priming = false := by decide +kernel

/-- The pipeline priming from line 40 on. -/
def wPriming : State := (wLine 0).updPipe 1 fun q => { q with first := some 40, priming := true }

theorem wit_primingDone : wPriming.sound ∧ (wPriming.pipe 1).first = some 40 ∧ (wPriming.pipe 1).priming = true := by decide +kernel

/-- The send decision of line 40 falls, nothing sent before; its port is not ACTIVE. -/
theorem wit_sendDecision : (wLine 1010000).sound ∧ (wLine 1010000).printing = true ∧ ((wLine 1010000).pipe 1).lastSent = none ∧
    ((wLine 1010000).pipe 1).running = true ∧ (wLine 1010000).movedBack 1 = false ∧
    (match (wLine 1010000).fireTimeOf 1 40 with
      | some f => decide (sdiff f (wLine 1010000).mono ≤ (wLine 1010000).lookahead)
      | none => false) = true ∧ (wLine 1010000).dev.stopLine = none ∧ (wLine 1010000).twn.role = .none ∧
    (wLine 1010000).lineActive 1 = false ∧ (wLine 1010000).twn.tookOver = none := by decide +kernel

/-- The same with the port ACTIVE. -/
def wActivePort : State := (wLine 1010000).updLink 1 fun l => { l with st := .active }

theorem wit_lateBlankLine : wActivePort.sound ∧ wActivePort.lineActive 1 = true ∧ wActivePort.printing = true ∧ (wActivePort.pipe 1).begun =
    [⟨40, false, none, false, 0, [], none⟩] ∧ (wActivePort.pipe 1).running = true ∧ wActivePort.movedBack 1 = false ∧
    (wActivePort.pipe 1).lastSent = none ∧ wActivePort.dev.stopLine = none ∧ wActivePort.twn.role = .none ∧ wActivePort.twn.tookOver = none ∧
    (match wActivePort.fireTimeOf 1 40 with
      | some f => decide (sdiff f wActivePort.mono ≤ wActivePort.lookahead)
      | none => false) = true := by decide +kernel

/-- The same with line 40 packed into two bytes, the wave table loaded into the bank in use and every head reporting 25 degrees. -/
def wPacked : State :=
  (wActivePort.updPipe 1 fun q => { q with begun := [⟨40, false, none, false, 0, [], some ([0x12, 0x34], 7)⟩] }).updWick 1 fun w =>
    { w with bankAcked := true, loaded := true,
             heads := w.heads.map fun h => { h with valid := true, temp := 2500, stale := false } }

theorem wit_packedLine : wPacked.sound ∧ wPacked.lineActive 1 = true ∧ wPacked.printing = true ∧ (wPacked.pipe 1).running = true ∧
    (wPacked.pipe 1).begun = [⟨40, false, none, false, 0, [], some ([0x12, 0x34], 7)⟩] ∧ wPacked.movedBack 1 = false ∧
    (wPacked.pipe 1).lastSent = none ∧ wPacked.dev.stopLine = none ∧ wPacked.twn.role = .none ∧ wPacked.twn.tookOver = none ∧
    (match wPacked.fireTimeOf 1 40 with
      | some f => decide (sdiff f wPacked.mono ≤ wPacked.lookahead)
      | none => false) = true ∧ ((wPacked.reachBank 1 40).reachHeads 1 40).wickReady 1 = true := by decide +kernel

/-- An overspeed episode of port 1, 10 ms after its last slot. -/
def wOverspeed : State := { base with tim := { base.tim with mono := 11000000 }, wck := upd 1 (fun w => { w with ovs := true, ovsAt := 1000000 }) base.wck }

theorem wit_overspeed : wOverspeed.sound ∧ (wOverspeed.wick 1).ovs = true ∧ wOverspeed.elapsed (wOverspeed.wick 1).ovsAt 10000000 = true := by decide +kernel


/-- An ACTIVE port's line 40, begun as an overspeed slot, behind one sent at t_l. -/
def wSlot : State :=
  wActivePort.updPipe 1 fun q => { q with begun := [⟨40, true, none, false, 0, [], none⟩], lastSent := some (39, 1000500) }

theorem wit_slot : wSlot.sound ∧ (wSlot.pipe 1).begun = [⟨40, true, none, false, 0, [], none⟩] ∧ (wSlot.pipe 1).running = true ∧
    wSlot.printing = true ∧ wSlot.movedBack 1 = false ∧ (wSlot.pipe 1).lastSent = some (39, 1000500) ∧ (wSlot.fireTimeOf 1 40).isSome = true ∧
    sdiff (1000500 + BitVec.ofNat 32 (wSlot.tMin 1)) wSlot.mono ≤ wSlot.lookahead ∧ wSlot.dev.stopLine = none ∧
    wSlot.twn.role = .none ∧ wSlot.twn.tookOver = none ∧ wSlot.lineActive 1 = true := by decide +kernel

/-- A secondary in DUAL that holds the announcement of port 1's line 40 with number 0, and has not begun it. -/
def wHeldAnn : State :=
  let s := reg (wLine 1010000) .TWN_CTRL 3
  let s := { s with twn := { s.twn with pair := .paired, role := .secondary, step := 8, anns := [⟨1, false, 0, 40⟩] } }
  (s.updPipe 1 fun q => { q with begun := [] }).updLink 1 fun l => { l with timed := true, epoch := 77 }

theorem wit_heldAnn : wHeldAnn.sound ∧ wHeldAnn.heldAnn 1 = some ⟨1, false, 0, 40⟩ ∧ (wHeldAnn.pipe 1).begun = [] ∧
    (wHeldAnn.pipe 1).running = true ∧ wHeldAnn.printing = true ∧ wHeldAnn.movedBack 1 = false ∧ (wHeldAnn.pipe 1).lastSent = none ∧
    (match wHeldAnn.fireTimeOf 1 40 with
      | some f => decide (sdiff f wHeldAnn.mono ≤ wHeldAnn.lookahead)
      | none => false) = true ∧ wHeldAnn.dev.stopLine = none ∧ wHeldAnn.announced = true ∧ wHeldAnn.undecided 1 40 = false ∧
    wHeldAnn.twn.proposals = [] ∧ (wHeldAnn.link 1).timed = true := by decide +kernel

/-- Two nozzles without correction over a value and no value: the premises of clause (6). -/
theorem wit_headCodes : [some 7, none].length = (⟨1, 0, 2, 4, [], 0, 0⟩ : HeadView).nozzles ∧ ∀ m, m < 2 →
    isOut ((⟨1, 0, 2, 4, [], 0, 0⟩ : HeadView).word m) = false ∧ isWeak ((⟨1, 0, 2, 4, [], 0, 0⟩ : HeadView).word m) = false := by decide
/-! ### Raster store -/

/-- Header record of section 5: 8 columns, 8 lines, one contone plane of 1200 dpi (R45). -/
def wRecord : Bytes :=
  withCrc ((toLe 2 2 ++ toLe 2 5 ++ toLe 4 8 ++ toLe 4 8 ++ [1, 0, 0, 0, 0x50] ++ List.replicate 62 0).take 62)

/-- INGEST_HEADER of section 5 from address 0x10000. -/
def dHeader : Bytes := desc ([1, 0, 0, 0] ++ toLe 2 5 ++ [0, 0] ++ toLe 8 0x10000 ++ toLe 4 64)

theorem wit_host : host.sound ∧ host.sto.sections.sorted = true ∧ host.sto.groups.length = 4 ∧ host.drm.ready = true ∧
    host.dev.dev ≠ .held ∧ host.twn.role = .none := by decide +kernel

theorem wit_ingestHeader : host.accepts 0 dHeader 1 ∧ dIngestKind dHeader = 0 ∧ host.section (dSection dHeader 4) = none ∧
    leAt dHeader 16 4 = 64 ∧ host.windowOk false (leAt dHeader 8 8) 64 = true ∧ wRecord.length = 64 ∧ crcOk wRecord = true ∧
    recordOk wRecord (dSection dHeader 4) = true :=
  ⟨by decide +kernel, by decide +kernel, by decide +kernel, by decide +kernel, by decide +kernel, by decide +kernel,
    crcOk_withCrc _, by decide +kernel⟩

/-- A section as it stands in pages 0 and 1 of the region, its streams and tables in the DRAM. -/
def stored (s : State) (n : Nat) (x : Section') : State :=
  let mem := x.spots.foldl (fun m e => Memory.writeThrough (x.physical s.regionBase) m e.1 e.2) s.drm.mem
  { s.putSection n x with drm := { s.drm with mem := mem } }

/-- Section 5 with `n` of its 8 lines of zeros ingested, 4 or all 8. -/
def wSection (n : Nat) : Section' :=
  { sectionOf wRecord with
    table := [0, 1]
    data := [if n = 8 then ⟨8, [⟨[18, 0, 48, 31] ++ List.replicate 14 0, [⟨0, 0, 8, none, none⟩], true⟩], [], true⟩
             else ⟨4, [⟨[], [], true⟩], [⟨List.replicate 8 0, none, List.replicate 4 (List.replicate 8 0)⟩], true⟩] }

/-- The host state with section 5 holding `n` lines. -/
def wStore (n : Nat) : State := stored host 5 (wSection n)

/-- In a region of 28,672 MB that holds two pages, what needs no more than eight beside its directories fits. -/
theorem fits (s : State) (n : Nat) (x : Section') (h1 : s.regionPages = 458752) (h2 : s.usedPages ≤ 2)
    (h3 : (pageUp (spotsSize x.streams) + pageUp (spotsSize x.tables)) / 65536 ≤ 8) : s.storeFull n x = false := by
  have := (Config.dirPages (x.data.map fun q => q.strips.length).sum).isLt
  simp only [State.storeFull, Section'.need, h1, Bool.and_eq_false_iff, decide_eq_false_iff_not]
  omega

theorem wit_ingestFits : host.storeFull (dSection dHeader 4) (sectionOf wRecord) = false :=
  fits _ _ _ (by decide +kernel) (by decide +kernel) (by decide +kernel)

set_option maxRecDepth 20000 in
theorem wit_store : (wStore 4).sound ∧ (wStore 8).sound ∧ (wStore 8).sto.sections.sorted = true ∧ (wStore 8).drm.ready = true ∧
    (wStore 8).dev.dev ≠ .held ∧ (wStore 8).twn.role = .none := by decide +kernel

def dSeal : Bytes := desc [2, 0, 0, 0, 5]

theorem wit_seal : (wStore 8).section (dSection dSeal 4) = some (wSection 8) ∧ (wStore 8).accepts 0 dSeal 2 ∧
    (wSection 8).st = .opened ∧
    ((wSection 8).planes.zip (wSection 8).data).all (fun e => e.2.next == (wSection 8).planeHeight e.1) = true := by decide +kernel

def dCancelSection : Bytes := desc [4, 0, 0, 0, 0, 0, 5]

theorem wit_cancelSection : (wStore 8).section (dSection dCancelSection 6) = some (wSection 8) ∧
    (wStore 8).accepts 0 dCancelSection 4 ∧ byteAt dCancelSection 4 = 0 ∧
    ((wStore 8).each (List.range 4) fun s g => s.settleGroup g).refs (dSection dCancelSection 6) = 0 := by decide +kernel

/-- INGEST_PLANE_RAW of 1 line from line 4 on of plane 0 of section 5, pitch 8, effort level 1. -/
def dRaw : Bytes :=
  desc ([1, 0, 0, 0] ++ toLe 2 5 ++ [1, 1] ++ toLe 8 0x10000 ++ [0, 0, 0, 0] ++ toLe 3 4 ++ toLe 3 1 ++ toLe 3 8)

/-- The plane that `dRaw` makes, and its blocks stored RAW. -/
def wRaw : PlaneData × List Nat :=
  appendPlane (wSection 4) ⟨true, 1200, 1200⟩ ((wSection 4).data.getD 0 ⟨0, [], [], true⟩) (List.replicate 8 0) 8 1 1 false

theorem wit_rawFits : (wStore 4).storeFull (dSection dRaw 4) { wSection 4 with data := upd 0 (fun _ => wRaw.1) (wSection 4).data } = false :=
  fits _ _ _ (by decide +kernel) (by decide +kernel) (by decide +kernel)

set_option maxRecDepth 20000 in
theorem wit_ingestPlaneRaw : (wStore 4).section (dSection dRaw 4) = some (wSection 4) ∧ (wStore 4).accepts 0 dRaw 1 ∧
    (wSection 4).st = .opened ∧ (wSection 4).planes.length = (wSection 4).data.length ∧ dIngestKind dRaw = 1 ∧
    nbits (byteAt dRaw 6) 4 2 = 0 ∧ (wSection 4).planes = [⟨true, 1200, 1200⟩] ∧ (byteAt dRaw 6).testBit 5 = false ∧
    (byteAt dRaw 6).testBit 6 = false ∧ nbits (byteAt dRaw 7) 3 0 = 1 ∧ leAt dRaw 26 3 = 8 ∧
    (wSection 4).planeWidth ⟨true, 1200, 1200⟩ = 8 ∧ nbits (leAt dRaw 20 3) 21 0 = 4 ∧ nbits (leAt dRaw 23 3) 22 0 = 1 ∧
    ((wSection 4).data.getD 0 ⟨0, [], [], true⟩).next = 4 ∧ ((wSection 4).data.getD 0 ⟨0, [], [], true⟩).codecOk = true ∧
    (wSection 4).planeHeight ⟨true, 1200, 1200⟩ = 8 ∧ (wStore 4).windowOk false (leAt dRaw 8 8) (0 * 8 + 8) = true := by
  decide +kernel

/-- Section 5 expecting line 0, with a strip left over. -/
def wOld : Section' := { wSection 8 with data := (wSection 8).data.map fun p => { p with next := 0 } }

/-- An Ibrik container of 8 lines of 8 zeros (R84). -/
def wContainer : Bytes :=
  withCrc ([0x49, 0x42, 0x4B, 2] ++ toLe 4 8 ++ toLe 4 8 ++ [8, 0]) ++ toLe 4 18 ++ [18, 0, 48, 31] ++ List.replicate 14 0

/-- INGEST_PLANE_IBRIK of plane 0 of section 5. -/
def dIbrik : Bytes := desc ([1, 0, 0, 0] ++ toLe 2 5 ++ [2, 0] ++ toLe 8 0x10000 ++ toLe 4 38)

theorem wit_ingestPlaneIbrik : (stored host 5 wOld).section (dSection dIbrik 4) = some wOld ∧
    (stored host 5 wOld).accepts 0 dIbrik 1 ∧ wOld.st = .opened ∧ dIngestKind dIbrik = 2 ∧ nbits (byteAt dIbrik 6) 4 2 = 0 ∧
    wOld.planes = [⟨true, 1200, 1200⟩] ∧ wOld.data.length = 1 ∧ (wOld.data.getD 0 ⟨0, [], [], true⟩).next = 0 ∧
    1 ≤ leAt dIbrik 16 4 ∧ (stored host 5 wOld).windowOk false (leAt dIbrik 8 8) (leAt dIbrik 16 4) = true ∧
    wContainer.length = leAt dIbrik 16 4 ∧ (readContainer 8 8 8 wContainer).isSome = true := by
  decide +kernel

theorem wit_ibrikFits : (stored host 5 wOld).storeFull (dSection dIbrik 4)
    { wOld with data := upd 0 (fun _ => ⟨8, (readContainer 8 8 8 wContainer).getD [], [], true⟩) wOld.data } = false :=
  fits _ _ _ (by decide +kernel) (by decide +kernel) (by decide +kernel)

/-- Sections 5 and 6 hold pages 0 to 3, none of them twice. -/
theorem wit_sectionPages : (stored (wStore 8) 6 { wSection 8 with table := [2, 3] }).sound ∧
    (stored (wStore 8) 6 { wSection 8 with table := [2, 3] }).sto.sections.find? 5 = some (wSection 8) ∧ (wSection 8).table.Nodup := by decide +kernel

/-- The host state with section 5 SEALED. -/
def wSealed : State := stored host 5 { wSection 8 with st := .sealed' }

/-- PLACE of section 5 in group 0 at NEXT, printing nothing. -/
def dPlace : Bytes := desc ([3, 0, 0, 0, 5, 0, 4, 0] ++ toLe 5 0 ++ toLe 3 1 ++ toLe 3 0 ++ toLe 3 0 ++ toLe 4 0xFFFFFFFF)

theorem wit_place : wSealed.section (dSection dPlace 4) = some { wSection 8 with st := .sealed' } ∧ wSealed.accepts 0 dPlace 3 ∧
    wSealed.sto.groups.length = 4 ∧ nbits (byteAt dPlace 6) 1 0 = 0 ∧ wSealed.placeOk 0 (leAt dPlace 16 3) (nbits (leAt dPlace 19 3) 16 0) (leAt dPlace 22 4) { wSection 8 with st := .sealed' } = true ∧
    ((wSealed.settleGroup 0).group 0).queue.length < 16 := by decide +kernel

/-- A placement that waits in group 0, of a PLACE on ring 0. -/
def wPlacement (next : Bool) : Placement :=
  ⟨7, 5, next, 640, 1, 8, 0, 0xFFFFFFFF, none, none, some ⟨0, 0, 3, 9, false, false, 0⟩⟩

def wQueued (next : Bool) : State := wSealed.updGroup 0 fun _ => ⟨[wPlacement next], false, [], []⟩

theorem wit_placementResolve : ((wQueued true).group 0 = ⟨[wPlacement true], false, [], []⟩ ∧
    (wQueued false).group 0 = ⟨[wPlacement false], false, [], []⟩) ∧ (wQueued true).sound ∧ (wQueued false).sound ∧
    (wQueued true).twn.proposals = [] ∧ (wPlacement true).start = none ∧ (wPlacement true).fin = none ∧
    (wQueued true).hst.gen = 0 ∧ lineLe (wPlacement false).given ((wQueued false).groupBegun 0) = false := by decide +kernel

/-- CANCEL_PLACEMENT of handle 7 of group 0. -/
def dCancelPlacement : Bytes := desc [4, 0, 0, 0, 1, 0, 7, 0]

/-- Its PLACE came from ring 4, whose COMPLETE ring is 6. -/
def wCancel : State :=
  reg (wSealed.updGroup 0 fun _ => ⟨[{ wPlacement true with ctx := some ⟨4, 0, 3, 9, false, false, 0⟩ }], false, [], []⟩) .HST_RING_CFG 0x80040600 4

theorem wit_cancelPlacement : wCancel.sound ∧ wCancel.accepts 0 dCancelPlacement 4 ∧ byteAt dCancelPlacement 4 = 1 ∧
    nbits (byteAt dCancelPlacement 5) 1 0 = 0 ∧ leAt dCancelPlacement 6 2 = 7 ∧ ((wCancel.settleGroup 0).group 0).running = false ∧
    (((wCancel.settleGroup 0).group 0).queue.find? fun k => k.handle == 7).isSome = true ∧ wCancel.hst.gen = 0 ∧
    wCancel.cring 4 ≠ wCancel.cring 0 := by decide +kernel

/-- Group 0 runs the placement with handle 6 from line 640 on; the one with handle 7 waits behind it. -/
def wBehind : State :=
  wSealed.updGroup 0 fun _ => ⟨[{ wPlacement false with handle := 6, start := some 640, ctx := none }, wPlacement true], true, [], []⟩

theorem wit_nextBehind : wBehind.sound ∧ (wPlacement true).isNext = true ∧ (wPlacement true).start = none ∧ (wPlacement true).fin = none ∧
    wBehind.twn.proposals = [] ∧ wBehind.hst.gen = 0 ∧
    lineLe (nextStart (wBehind.group 0).queue.head? (wBehind.groupBegun 0)) (wBehind.groupBegun 0) = false := by decide +kernel

/-- Group 0 runs the placement with handle 7. -/
def wRunning : State :=
  wSealed.updGroup 0 fun _ => ⟨[{ wPlacement false with start := some 0, ctx := none }], true, [], []⟩

theorem wit_cancelRunning : wRunning.sound ∧ wRunning.accepts 0 dCancelPlacement 4 ∧ byteAt dCancelPlacement 4 = 1 ∧
    nbits (byteAt dCancelPlacement 5) 1 0 = 0 ∧ leAt dCancelPlacement 6 2 = 7 ∧ (wRunning.group 0).running = true ∧
    (wRunning.group 0).queue.map (fun q => (q.handle, q.fin)) = [(7, none)] := by decide +kernel

/-! ### Tables and Wick -/

/-- An image passes its header CRC and holds its body's CRC. -/
theorem imageOf_crcs (k t first count : Nat) (body : Bytes) : crcOk ((imageOf k t first count body).take 16) = true ∧
    leAt (imageOf k t first count body) 12 2 = (crc16 body).toNat ∧ (imageOf k t first count body).drop 16 = body := by
  have e : (imageOf k t first count body).take 16 = withCrc ([BitVec.ofNat 8 k, BitVec.ofNat 8 t] ++ toLe 2 first ++ toLe 4 count ++
      toLe 4 body.length ++ toLe 2 (crc16 body).toNat) := rfl
  refine ⟨by rw [e]; exact crcOk_withCrc _, ?_, rfl⟩
  have h : ∀ n, n < 65536 → le (toLe 2 n) = n := by
    intro n hn
    simp only [toLe, le, BitVec.toNat_ofNat]
    omega
  exact h _ (crc16 body).isLt

/-- LOAD_TABLE of an image of `n` bytes at 0x10000, at NEXT or at line 4096. -/
def dLoad (n : Nat) (next : Bool) : Bytes :=
  desc ([5, 0, 0, 0, if next then 1 else 0, 0, 0, 0] ++ toLe 5 (if next then 0 else 4096) ++ [0, 0, 0] ++ toLe 8 0x10000 ++ toLe 4 n)

/-- A LEVEL_MAP image of bar 2 (kind 4). -/
def wLevels : Bytes := imageOf 4 2 0 8 [0, 1, 2, 3, 3, 5, 6, 7]

/-- The host state while it prints, every pipeline running. -/
def wPrint (s : State) : State :=
  { s with dev := { s.dev with dev := .printing }, pipes := s.pipes.map fun (q : Pipe) => { q with running := true } }

theorem wit_loadTable : (host.tab 4 2).pend = none ∧ host.twn.proposals = [] ∧ host.twn.held = [] ∧ host.waits = [] ∧
    (wPrint host).sound ∧ (wPrint host).twn.role = .none ∧ (host.accepts 0 (dLoad 24 true) 5 ∧ host.accepts 0 (dLoad 24 false) 5 ∧
      (wPrint host).accepts 0 (dLoad 24 true) 5) ∧ (dLoad 24 true).length = 32 ∧ leAt (dLoad 24 true) 24 4 = wLevels.length ∧
    host.windowOk false (leAt (dLoad 24 true) 16 8) 24 = true ∧ headerOk wLevels wLevels.length = true ∧
    bodyOk 4 8 (wLevels.drop 16) (host.link 2).version = true ∧ byteAt wLevels 0 = 4 ∧ byteAt wLevels 1 = 2 ∧
    (byteAt (dLoad 24 true) 4).testBit 0 = true ∧ host.printing = false ∧ (wPrint host).printing = true ∧
    (byteAt (dLoad 24 false) 4).testBit 0 = false ∧ host.anyBegun [6, 7, 8] 4096 = false := by decide +kernel

/-- A LEVEL_MAP load of bar 2 that waits. -/
def wWait : WaitLoad := ⟨4, 2, none, 0, [0, 1, 2, 3, 3, 5, 6, 7], some ⟨0, 0, 5, 9, false, false, 0⟩, none⟩

theorem wit_waitingLoadCommit : State.sound { host with waits := [wWait] } ∧ ({ host with waits := [wWait] } : State).waits = [wWait] ∧
    wWait.at' = none ∧ wWait.loop = none ∧ wWait.first < 65536 ∧ host.hst.gen = 0 ∧ host.printing = false := by decide +kernel

/-- A WAVE image of port 1: the reset table (kind 8). -/
def wWave : Bytes := imageOf 8 1 0 64 resetWave

theorem wit_waveLoad : host.accepts 0 (dLoad 2128 true) 5 ∧ (host.wick 1).write = none ∧ (host.wick 1).bankFrom = none ∧
    (host.tab 8 1).pend = none ∧ host.active 1 = false ∧ State.active (host.updLink 1 fun l => { l with st := .active }) 1 = true ∧
    (host.updLink 1 fun l => { l with st := .active }).accepts 0 (dLoad 2128 true) 5 ∧
    wWave.length = leAt (dLoad 2128 true) 24 4 ∧ host.windowOk false 0x10000 2128 = true ∧ headerOk wWave 2128 = true ∧
    byteAt wWave 0 = 8 ∧ byteAt wWave 1 = 1 := by decide +kernel

theorem wit_waveBody : bodyOk 8 64 resetWave 0 = true ∧ longestEntry resetWave = 0 := by decide +kernel

/-- A STRIP image of camera 0 (kind 9) of one cell. -/
def wStrip : Bytes := imageOf 9 0 0 1 ([2, 0, 0, 2, 0, 0, 0, 0] ++ toLe 4 0 ++ toLe 4 8 ++ toLe 4 0 ++ toLe 4 8 ++ List.replicate 8 0)

theorem wit_phoTableLoad : host.accepts 0 (dLoad 48 true) 5 ∧ wStrip.length = leAt (dLoad 48 true) 24 4 ∧
    host.windowOk false 0x10000 48 = true ∧ headerOk wStrip 48 = true ∧ byteAt wStrip 0 = 9 ∧ byteAt wStrip 1 = 0 ∧
    bodyOk 9 1 (wStrip.drop 16) 0 = true ∧ (host.tab 9 0).pend = none := by decide +kernel

/-- READ_TABLE of the LEVEL_MAP of bar 2 to 0x20000. -/
def dRead : Bytes := desc ([6, 0, 0, 0, 4, 2, 0, 0] ++ toLe 4 8 ++ toLe 8 0x20000 ++ toLe 4 24)

theorem wit_readTable : host.accepts 0 dRead 6 ∧ readOk (byteAt dRead 4) (byteAt dRead 5) (leAt dRead 6 2) (leAt dRead 8 4) = true ∧
    (host.readImage 4 2 0 8).1.length ≤ leAt dRead 20 4 ∧
    host.windowOk true (leAt dRead 12 8) (host.readImage 4 2 0 8).1.length = true := by decide +kernel

/-- Port 1 ACTIVE with two heads. -/
def wPort : State := host.updLink 1 fun l => { l with st := .active, version := 2, geom := some ⟨2, 1, 64⟩ }

/-- A STAT frame of a kind with a payload (R243, R252). -/
def wStat (kind : Nat) (pay : Bytes) : Bytes :=
  withCrc (([0x81, 0] ++ toLe 2 pay.length ++ List.replicate 12 0 ++ [BitVec.ofNat 8 kind] ++ List.replicate 11 0 ++
    toLe 2 (if pay.length = 0 then 0 else crcNat pay 0xFFFF)).take 30) ++ pay

/-- A TEMP STAT: both heads at 30 degrees. -/
def wTemp : Bytes := wStat 1 (toLe 4 100 ++ toLe 4 0 ++ toLe 2 480 ++ toLe 2 480 ++ List.replicate 20 0)

theorem wit_tempReport : wPort.sound ∧ wPort.active 1 = true ∧ statOf wTemp 1 32 = true ∧ (wPort.heads 1).heads = 2 ∧
    (wPort.wick 1).heads.length = 8 := by decide +kernel

/-- A fresh head of port 1, with no report for 100 ms since. -/
def wFresh : State :=
  reg { wPort.updHead 1 0 fun h => { h with temp := 480, stale := false } with
    tim := { wPort.tim with mono := 100000000 } } .WCK_CTRL 0x64

theorem wit_tempTimeout : wFresh.sound ∧ wFresh.active 1 = true ∧ 0 < (wFresh.heads 1).heads ∧ (wFresh.wick 1).heads.length = 8 ∧
    wFresh.elapsed (wFresh.head 1 0).reportAt (wFresh.get .WCK_CTRL_temp_timeout * 1000000) = true ∧
    (wFresh.head 1 0).stale = false := by decide +kernel

/-- Port 1 with a write of the reset table into bank 0 that waits, or that has been sent. -/
def wBank (sent : Bool) (purpose : WavePurpose) : State :=
  wPort.updWick 1 fun w => { w with write := some ⟨false, resetWave, purpose, sent, if sent then some 900000 else none⟩ }

/-- A WAVE_ACK STAT of bank 0 with the CRC of the reset table. -/
def wAck : Bytes := wStat 3 ([0, 22] ++ toLe 2 (crcNat resetWave 0xFFFF) ++ [0, 0, 0, 0])

theorem wit_waveBank : ((wBank false .afterCaps).wick 1).write = some ⟨false, resetWave, .afterCaps, false, none⟩ ∧
    (wBank false .afterCaps).sound ∧ (wBank false .afterCaps).active 1 = true ∧ (wBank false .afterCaps).bankFree 1 false = true ∧
    (wBank false .afterCaps).actFind 5 1 = none ∧ ((wBank false .afterCaps).link 1).unacked = [] ∧
    ((wBank false .afterCaps).link 1).queued = [] ∧ (wBank false .afterCaps).muted 1 = false ∧ ((wBank false .afterCaps).wick 1).heads.length = 8 := by
  refine ⟨rfl, ?_⟩
  decide +kernel

theorem wit_waveAck : ((wBank true .afterCaps).wick 1).write = some ⟨false, resetWave, .afterCaps, true, some 900000⟩ ∧
    (wBank true .afterCaps).sound ∧ (wBank true .afterCaps).active 1 = true ∧ statOf wAck 3 8 = true ∧
    byteAt (framePayload wAck) 0 = 0 ∧ byteAt (framePayload wAck) 1 = 22 ∧
    leAt (framePayload wAck) 2 2 = crcNat resetWave 0xFFFF := by
  refine ⟨rfl, ?_⟩
  decide +kernel

/-- The write is of a load, and 10 ms have passed. -/
def wGiveUp : State :=
  { wBank true (.load none (some ⟨0, 0, 5, 9, false, false, 0⟩)) with tim := { wPort.tim with mono := 20000000 } }

theorem wit_waveAckTimeout : wGiveUp.sound ∧ ((wGiveUp.wick 1).write.map (·.lastAt)) = some (some 900000) ∧
    (wGiveUp.wick 1).write.map (·.purpose) = some (.load none (some ⟨0, 0, 5, 9, false, false, 0⟩)) ∧
    wGiveUp.elapsed 900000 10000000 = true ∧ wGiveUp.hst.gen = 0 ∧ (wGiveUp.wick 1).heads.length = 8 := by decide +kernel

/-! ### Meridian -/

/-- Both encoders enabled. -/
def wEnc : State := reg (reg base .MER_ENC_CTRL 0x80100004) .MER_ENC_CTRL 0x80100004 1

/-- A and B of encoder `e` after they have held levels for `held` samples, and the filter of 4 samples. -/
def wLands (e : Nat) (a b : Bool) (held : Nat) : Land × Land :=
  ((wEnc.enc e).a.take a held 999000 wEnc.pos, (wEnc.enc e).b.take b held 999000 wEnc.pos)

/-- Too short, short of 8 samples, one state on, one state back, and both lines at once. -/
theorem wit_encTransition : wEnc.sound ∧ wEnc.on .MER_ENC_CTRL_en 0 = true ∧ wEnc.on .MER_ENC_CTRL_en 1 = true ∧ wEnc.encFilter 0 = 4 ∧
    wEnc.encFilter 1 = 4 ∧ (wLands 0 true false 3).1.passes 4 = false ∧ (wLands 0 true false 3).2.passes 4 = false ∧
    (wLands 0 true false 4).1.passes 4 = true ∧ (wLands 0 true false 4).1.run = 4 ∧ (wLands 0 false true 8).2.passes 4 = true ∧
    8 ≤ (wLands 0 false true 8).2.run ∧ (quadIndex false true + 4 - quadIndex (wEnc.enc 0).a.out (wEnc.enc 0).b.out) % 4 = 1 ∧
    8 ≤ (wLands 1 true false 8).1.run ∧ (wLands 1 true false 8).1.passes 4 = true ∧
    (quadIndex true false + 4 - quadIndex (wEnc.enc 1).a.out (wEnc.enc 1).b.out) % 4 = 3 ∧
    (wLands 0 true true 9).1.passes 4 = true ∧ (wLands 0 true true 9).2.passes 4 = true ∧
    (quadIndex true true + 4 - quadIndex (wEnc.enc 0).a.out (wEnc.enc 0).b.out) % 4 = 2 := by decide +kernel

/-- A window of encoder 1 that has lasted 10 ms. -/
def wWindow : State := { wEnc with tim := { wEnc.tim with mono := 20000000 } }

theorem wit_quadWindowEnd : wWindow.sound ∧ wWindow.on .MER_ENC_CTRL_en 1 = true ∧
    wWindow.elapsed (wWindow.enc 1).window 10000000 = true := by decide +kernel

/-- Encoder 0 turning forward, `n` counts after its index. -/
def wIndex (n : Int) : State :=
  (reg wEnc .MER_ENC_REV 10000).updEnc 0 fun x => { x with lastUp := some true, indexDir := some true, sinceIndex := n }

theorem wit_encIndex : (wIndex 10000).sound ∧ (wIndex 10000).on .MER_ENC_CTRL_en 0 = true ∧ (wIndex 10000).twn.pair = .unpaired ∧
    (wIndex 10000).get .MER_ENC_REV_counts 0 = 10000 ∧ ((wIndex 10000).enc 0).sinceIndex = 10000 ∧ (wIndex 10000).encFilter 0 = 4 ∧
    (wIndex 9999).sound ∧ (wIndex 9999).get .MER_ENC_REV_counts 0 = 10000 ∧ ((wIndex 9999).enc 0).sinceIndex ≠ 10000 ∧
    ((wIndex 9999).enc 0).lastUp = some true ∧ ((wIndex 9999).enc 0).indexDir = some true ∧
    (((wIndex 9999).enc 0).z.take true 3 7 0).passes 4 = false ∧ (((wIndex 9999).enc 0).z.take true 4 7 0).passes 4 = true ∧
    (Land.passes (Land.take ⟨true, true, 9, 5, 0⟩ false 4 7 0) 4) = true := by decide +kernel

/-- A point of the tick, at MONO 900,000. -/
def wTick (now : Nat) : State :=
  { wEnc with mer := { wEnc.mer with tickPoint := some (900000, 5) }, tim := { wEnc.tim with mono := BitVec.ofNat 32 now } }

theorem wit_estimatorTick : (wTick 1000000).sound ∧ (wTick 1000000).mer.tickPoint = some (900000, 5) ∧
    ¬ (wTick 1000000).stopNs < ((wTick 1000000).mono - 900000).toNat ∧ (wTick 2000000000).sound ∧
    (wTick 2000000000).stopNs < ((wTick 2000000000).mono - 900000).toNat ∧ (wTick 1000000).on .MER_ENC_CTRL_en 0 = true := by
  decide +kernel

/-- No point in the tick, the newest at MONO 900,000. -/
def wStopped : State :=
  { wEnc with mer := { wEnc.mer with points := [(900000, 5)] }, tim := { wEnc.tim with mono := 2000000000 } }

theorem wit_webStopTimeout : wStopped.sound ∧ wStopped.mer.tickPoint = none ∧ wStopped.mer.points = [(900000, 5)] ∧
    wStopped.elapsed 900000 (wStopped.stopNs + 1) = true := by decide +kernel

/-- The SSI port enabled with 8 bits, with Gray code and parity or with the zero check, T_c 10 ns, a period of 20 us since MONO's start;
a transfer, if one runs, began with MONO. -/
def wSsi (ctl : Nat) (busy : Bool) : State :=
  let s := reg (reg base .MER_SSI_CTRL ctl) .MER_SSI_TIMING 0x00140064
  { s with mer := { s.mer with ssi := { s.mer.ssi with busy := busy } } }

theorem wit_ssiRequest : (wSsi 0x92000000 false).sound ∧ (wSsi 0x92000000 false).on .MER_SSI_CTRL_en = true ∧
    (wSsi 0x92000000 false).reaches (Reg.MER_SSI_CMD.addr 0 0 0) = true ∧ (wSsi 0x92000000 false).notStandbyPrinting = false ∧
    (wSsi 0x92000000 false).get .MER_SSI_TIMING_period ≠ 0 ∧
    (wSsi 0x92000000 false).elapsed (wSsi 0x92000000 false).mer.ssi.periodAt ((wSsi 0x92000000 false).get .MER_SSI_TIMING_period * 1000) = true ∧
    (wSsi 0x92000000 false).ssiBusy = false ∧ (wSsi 0x92000000 true).ssiBusy = true ∧ (wSsi 0x92000000 true).sound := by decide +kernel

theorem wit_ssiHeldStart : let s := wSsi 0x92000000 false
    let h : State := { s with mer := { s.mer with ssi := { s.mer.ssi with held := true } } }
    h.sound ∧ h.on .MER_SSI_CTRL_en = true ∧ h.mer.ssi.held = true ∧ h.ssiBusy = false := by decide +kernel

/-- The number of ones among the samples after the first, with SSI_DATA rising `at'` ns after the start. -/
def wOnes (s : State) (at' : Nat) : Nat :=
  ((List.range (s.get .MER_SSI_CTRL_bits + (s.on .MER_SSI_CTRL_parity).toNat)).filter fun i =>
    ssiLevel false [(at', true)] ((i + 1) * s.ssiPeriodNs + s.ssiDelay)).length

/-- A word of wrong parity, a good one, one that fails the zero check because the line stays high, and a good one that is loaded. -/
theorem wit_ssiReading : (wSsi 0xA2000000 true).sound ∧ (wSsi 0xA2000000 true).mer.ssi.busy = true ∧
    (wSsi 0xA2000000 true).on .MER_SSI_CTRL_parity = true ∧ (wSsi 0xA2000000 true).on .MER_SSI_CTRL_zero_chk = false ∧
    (wSsi 0xA2000000 true).elapsed 0 (wSsi 0xA2000000 true).ssiLength = true ∧ (wSsi 0xA2000000 true).mer.ssi.startAt = 0 ∧
    wOnes (wSsi 0xA2000000 true) 0 = 9 ∧ wOnes (wSsi 0xA2000000 true) 20 = 8 ∧ (wSsi 0xA2000000 true).on .MER_SLIP_CTRL_ssi_chk = false ∧
    (wSsi 0xD2000000 true).sound ∧ (wSsi 0xD2000000 true).mer.ssi.busy = true ∧ (wSsi 0xD2000000 true).on .MER_SSI_CTRL_zero_chk = true ∧
    (wSsi 0xD2000000 true).mer.ssi.until' ≤ (wSsi 0xD2000000 true).clock ∧
    ssiLevel true [] (9 * (wSsi 0xD2000000 true).ssiPeriodNs + (wSsi 0xD2000000 true).ssiDelay) = true ∧
    (wSsi 0xD2000000 true).mer.ssi.loadPending = false ∧ (wSsi 0xD2000000 true).notStandby = false := by decide +kernel

theorem wit_ssiSlip : let s := reg (wSsi 0xA2000000 true) .MER_SLIP_CTRL 0x40000000
    s.sound ∧ s.on .MER_SLIP_CTRL_ssi_chk = true ∧ s.mer.ssi.dref = none ∧
    (State.sound { s with mer := { s.mer with ssi := { s.mer.ssi with loadPending := true } } }) := by decide +kernel

theorem wit_posCommands : base.sound ∧ base.reaches (Reg.MER_POS_CMD.addr 0 0 0) = true ∧ base.dev.dev = .standby ∧
    base.notStandbyPrinting = false := by decide +kernel

/-- The encoder slip check on, ENC0 having travelled its window and ENC1 `aux`. -/
def wSlip (aux : Nat) : State :=
  let s := reg base .MER_SLIP_CTRL 0x80040001
  { s with mer := { s.mer with pos := 0x40000000, aux := BitVec.ofNat 64 aux } }

theorem wit_slipWindowEnd : (wSlip 0x40000000).sound ∧ (wSlip 0x40000000).on .MER_SLIP_CTRL_enc_chk = true ∧
    (wSlip 0x40000000).get .MER_SLIP_CTRL_window * 16384 * 65536 ≤ ((wSlip 0x40000000).mer.pos - (wSlip 0x40000000).mer.slipStart).toInt.natAbs ∧
    (((wSlip 0x40000000).mer.aux - (wSlip 0x40000000).mer.slipAux).toInt - ((wSlip 0x40000000).mer.pos - (wSlip 0x40000000).mer.slipStart).toInt).natAbs ≤
      (wSlip 0x40000000).get .MER_SLIP_CTRL_tol * 65536 ∧
    (wSlip 0).get .MER_SLIP_CTRL_tol * 65536 < (((wSlip 0).mer.aux - (wSlip 0).mer.slipAux).toInt -
      ((wSlip 0).mer.pos - (wSlip 0).mer.slipStart).toInt).natAbs ∧ (wSlip 0).sound := by decide +kernel

/-- Latch unit 1 enabled on LATCH_IN 2, holding `k` results, with `due` triggers due. -/
def wLatch (k : Nat) (due : List LatchResult) : State :=
  let s := reg base .MER_LATCH_CTRL 0x82000002 1
  { s with mer := { s.mer with latches := upd 1 (fun _ => List.replicate k ⟨2, 1, 1⟩) s.mer.latches, latchDue := upd 1 (fun _ => due) s.mer.latchDue } }

/-- Unit 1 on the index of encoder 0 in place of a land. -/
def wLatchDue (k : Nat) : State := reg (wLatch k [⟨25, 7, 7⟩]) .MER_LATCH_CTRL 0x82000019 1

theorem wit_latchDue : (wLatchDue 3).sound ∧ (wLatchDue 3).latchTrig 1 = some 25 ∧ (wLatchDue 3).on .MER_LATCH_CTRL_event 1 = false ∧
    (wLatchDue 3).mer.latchDue.getD 1 [] = [⟨25, 7, 7⟩] ∧ ((wLatchDue 3).mer.latches.getD 1 []).length < 4 ∧ (wLatchDue 4).sound ∧
    4 ≤ ((wLatchDue 4).mer.latches.getD 1 []).length := by decide +kernel

/-- Unit 1 on LATCH_IN 2, rising edges, a filter of 2 samples: too short, rising, and the falling edge that it does not take. -/
theorem wit_latchIn : (wLatch 0 []).sound ∧ (wLatch 0 []).mer.latchDue.getD 1 [] = [] ∧ (wLatch 0 []).latchTrig 1 = some 2 ∧
    ((wLatch 0 []).mer.latches.getD 1 []).length < 4 ∧ max 1 ((wLatch 0 []).get .MER_LATCH_CTRL_filt 1) = 2 ∧
    ((Land.take Land.reset true 1 7 0).passes 2) = false ∧ ((Land.take Land.reset true 2 7 0).passes 2) = true ∧
    (wLatch 0 []).latchEdge 1 true = true ∧ (wLatch 0 []).latchEdge 1 false = false := by decide +kernel

theorem wit_latchSoft : (wLatch 0 []).sound ∧ (wLatch 0 []).reaches (Reg.MER_LATCH_CTRL.addr 1 0 0) = true ∧
    (wLatch 0 []).notStandbyPrinting = false ∧ (wLatch 0 []).on .MER_LATCH_CTRL_en 1 = true ∧ (wLatch 0 []).get .MER_LATCH_CTRL_edge 1 ≠ 3 ∧
    trigKnown ((wLatch 0 []).get .MER_LATCH_CTRL_trig 1) = true ∧ (wLatch 0 []).dev.dev ≠ .dark := by decide +kernel

/-- Ports of one head of 64 nozzles, their heads side by side along each bar in the shadow registers. -/
def wGeom : State :=
  let s := { base with links := base.links.map fun (l : Link) => { l with geom := some ⟨1, 1, 64⟩ } }
  (List.range 8).foldl (fun s b => reg (reg s .MER_HEAD_ORG 64 (3 * b + 1)) .MER_HEAD_ORG 128 (3 * b + 2)) s

/-- A shadow offset of bar 0 beyond bar 1's. -/
def wBadGeom : State := reg wGeom .MER_BAR_OFS 500

theorem wit_geomCommit : wGeom.dev.dev = .standby ∧ wGeom.reaches (Reg.MER_GEOM_COMMIT.addr 0 0 0) = true ∧ wGeom.activePorts = [] ∧
    wGeom.sound ∧ wGeom.geomFault wGeom.shadow = none ∧ wBadGeom.sound ∧ wBadGeom.dev.dev = .standby ∧
    wBadGeom.geomFault wBadGeom.shadow = some (1, 3) := by decide +kernel

/-- Compare unit 2 with a target at 1000 and the web at `pos`. -/
def wCmp (ctl pos : Nat) : State :=
  let s := reg (reg (reg base .MER_CMP_POS 1000 2) .MER_CMP_CTRL ctl 2) .MER_CMP_IVL 1000 2
  let s : State := { s with mer := { s.mer with pos := BitVec.ofNat 64 (pos * 65536) } }
  s.updCmp 2 fun _ => ⟨some 1000, none, 1000, true⟩

theorem wit_cmpArm : (wCmp 0 999).sound ∧ (0x80000000 : Word).msb = true ∧ Fld.MER_CMP_CTRL_mode.of 0x80000000 = 0 ∧
    (wCmp 0 999).reaches (Reg.MER_CMP_CTRL.addr 2 0 0) = true ∧ (wCmp 0 999).notStandbyPrinting = false ∧
    lineLe (((wCmp 0 999).rd .MER_CMP_POS_HI 2).setWidth 16 ++ (wCmp 0 999).rd .MER_CMP_POS 2) (wCmp 0 999).pos = false ∧
    (wCmp 0 1000).sound ∧ Fld.MER_CMP_CTRL_catchup.of 0x80000000 = 0 ∧
    lineLe (((wCmp 0 1000).rd .MER_CMP_POS_HI 2).setWidth 16 ++ (wCmp 0 1000).rd .MER_CMP_POS 2) (wCmp 0 1000).pos = true ∧
    (0 : Word).msb = false := by decide +kernel

theorem wit_cmpFire : (wCmp 0x80000000 1000).sound ∧ (wCmp 0x80000000 1000).armed 2 = true ∧ ((wCmp 0x80000000 1000).cmp 2).due = true ∧
    ((wCmp 0x80000000 1000).cmp 2).target = some 1000 ∧ (wCmp 0x80000000 1000).get .MER_CMP_CTRL_strobe 2 = 0 ∧
    (wCmp 0x80000000 1000).get .MER_CMP_CTRL_camtrig 2 = 0 ∧ (wCmp 0x80000000 1000).get .MER_CMP_CTRL_tpulse 2 = 0 ∧
    (wCmp 0x80000000 1000).on .MER_CMP_CTRL_irq 2 = false ∧ (wCmp 0x80000000 1000).get .MER_CMP_CTRL_mode 2 = 0 ∧
    (wCmp 0x84000000 1000).armed 2 = true ∧ (wCmp 0x84000000 1000).get .MER_CMP_CTRL_mode 2 = 1 ∧
    lineLe (1000 + ((wCmp 0x84000000 1000).rd .MER_CMP_IVL 2).setWidth 48) (wCmp 0x84000000 1000).pos = false := by decide +kernel

/-- A STROBE 3 pulse that started at MONO 900,000. -/
def wStrobe : State := { base with mer := { base.mer with strobes := upd 3 (fun _ => some 900000) base.mer.strobes } }

theorem wit_outputPulseEnd : wStrobe.sound ∧ wStrobe.mer.strobes.getD 3 none = some 900000 ∧
    wStrobe.elapsed 900000 (wStrobe.get .MER_STROBE_width 3 * 5) = true := by decide +kernel


/-- A CAM_TRIG 3 pulse that started at MONO 900,000, and a compare at an interval of 1,000 armed below its target. -/
theorem wit_camTrigEnd : let s : State := { base with mer := { base.mer with camtrigs := upd 3 (fun _ => some 900000) base.mer.camtrigs } }
    s.sound ∧ s.mer.camtrigs.getD 3 none = some 900000 ∧ s.elapsed 900000 (s.get .MER_CAMTRIG_width 3 * 5) = true ∧
    Fld.MER_CMP_CTRL_mode.of 0x84000000 = 1 ∧ (wCmp 0 999).rd .MER_CMP_IVL 2 ≠ 0 := by decide +kernel
/-! ### Links -/

/-- Port 1 (or a twin port) with a change of its link, on the started block, MONO at 2,000,000,000. -/
def wLink (p : Nat) (f : Link → Link) : State :=
  { base.updLink p f with tim := { base.tim with mono := 2000000000 } }

theorem wit_portEnable : (wLink 1 id).sound ∧ (wLink 1 id).lmp.running = [] ∧ ((wLink 1 id).link 1).busy = false ∧
    (wLink 1 id).reaches (Reg.GHL_CTRL.addr 1 0 0) = true ∧ Fld.GHL_CTRL_max_ver.of 0x88A00200 = 2 ∧
    Fld.GHL_CTRL_stat_timeout.of 0x88A00200 ≠ 0 ∧ (0x88A00200 : Word).msb = true ∧ (0x88A00200 : Word).getLsbD 30 = false ∧
    (wLink 1 id).on .GHL_CTRL_en 1 = false ∧ ((wLink 1 id).link 1).st = .down ∧ ((wLink 1 id).link 1).cold = true := by decide +kernel

/-- Port 1 enabled and ACTIVE. -/
def wActive (f : Link → Link) : State :=
  reg (wLink 1 fun l => f { l with st := .active, cold := false, version := 2, rate := 1, lock := true, geom := some ⟨1, 1, 64⟩ })
    .GHL_CTRL 0x88A00200 1

theorem wit_portDisable : (wActive id).sound ∧ (wActive id).lmp.running = [] ∧ ((wActive id).link 1).busy = false ∧
    (wActive id).reaches (Reg.GHL_CTRL.addr 1 0 0) = true ∧ Fld.GHL_CTRL_max_ver.of 0x08A00200 = 2 ∧
    Fld.GHL_CTRL_stat_timeout.of 0x08A00200 ≠ 0 ∧ (0x08A00200 : Word).msb = false ∧ (0x08A00200 : Word).getLsbD 30 = false ∧
    (wActive id).on .GHL_CTRL_en 1 = true := by decide +kernel

theorem wit_portRetrain : Fld.GHL_CTRL_max_ver.of 0xC8A00200 = 2 ∧ Fld.GHL_CTRL_stat_timeout.of 0xC8A00200 ≠ 0 ∧
    (0xC8A00200 : Word).msb = true ∧ (0xC8A00200 : Word).getLsbD 30 = true ∧ ((wActive id).link 1).st = .active := by decide +kernel

/-- A twin port that has been DOWN for 1 s, and one in DETECT. -/
def wTwinPort (st : LinkState) : State := reg (wLink 24 fun l => { l with st := st, cold := false }) .TWN_CTRL 0x03FFFFFF

theorem wit_downTimeout : (wTwinPort .down).sound ∧ ((wTwinPort .down).link 24).st = .down ∧ (wTwinPort .down).linkEnabled 24 = true ∧
    (wTwinPort .down).elapsed ((wTwinPort .down).link 24).since 1000000000 = true ∧ (wTwinPort .detect).sound ∧
    ((wTwinPort .detect).link 24).st = .detect := by decide +kernel

/-- Port 1 in training, ready, sending TS-B, with seven TS-B received and fifteen sent. -/
def wTrain (st : LinkState) : State :=
  wLink 1 fun l => { l with st := st, train := { Training.reset with ready := true, final := true, tsbRecv := 7, tsbSent := 15 } }

theorem wit_training : (wTrain .train).sound ∧ ((wTrain .train).link 1).training = true ∧
    tsAOk ((wTrain .train).link 1).rate (tsA 0 3 2 true) = true ∧ tsAOk ((wTrain .train).link 1).rate [] = false ∧
    tsBOk ((wTrain .train).link 1).rate (tsB 0 3 1) = true ∧ ((wTrain .train).link 1).train.final = true ∧
    7 ≤ ((wTrain .train).link 1).train.tsbRecv ∧ 15 ≤ ((wTrain .train).link 1).train.tsbSent := by decide +kernel

theorem wit_trainTimeout : (wTrain .train).elapsed ((wTrain .train).link 1).since 24000000 = true ∧ ((wTrain .train).link 1).st = .train ∧
    (wTrain .retrain).sound ∧ (wTrain .retrain).elapsed ((wTrain .retrain).link 1).since 24000000 = true ∧
    ((wTrain .retrain).link 1).st = .retrain ∧
    (((wTrain .retrain).link 1).fails.filter fun x => decide ((wTrain .retrain).clock < x + 1000000000)).length < 2 := by
  decide +kernel

/-- Port 1 in LOCK with block lock, after failures. -/
def wLock (fails : List Instant) : State := wLink 1 fun l => { l with st := .lock, lock := true, fails := fails }

/-- Two failures within 1 s of MONO 2,000,000,000, and one that is older. -/
theorem wit_lock : (wLock [1500000000, 1600000000]).sound ∧ ((wLock []).link 1).st = .lock ∧ (wLock []).lmp.running = [] ∧ (wLock [1000000000]).sound ∧
    ((wLock []).link 1).busy = false ∧ (wLock []).elapsed ((wLock []).link 1).since 4000000 = true ∧
    ([1500000000, 1600000000].filter fun x => decide ((wLock []).clock < x + 1000000000)).length = 2 ∧
    ([1000000000].filter fun x => decide ((wLock []).clock < x + 1000000000)).length = 0 := by decide +kernel

/-- An IDLE block on the lane. -/
def wIdle : BitVec 130 := laneBlock false (0x4B :: List.replicate 15 0)

/-- A link in LOCK without block lock, and a twin port with it. -/
def wLockNew : State := wLink 1 fun l => { l with st := .lock }
def wLockTwin : State := wLink 24 fun l => { l with st := .lock, lock := true }

/-- The 64th header in LOCK without block lock, and the 16th invalid block of an ACTIVE port. -/
theorem wit_blocks : wLockNew.sound ∧ (wLockNew.link 1).st = .lock ∧ blockValid wIdle = true ∧
    ((wLockNew.link 1).rx.take wIdle 64).headers = 64 ∧ ((wLockNew.link 1).rx.take wIdle 64).idles < 4096 ∧
    ((wLockNew.link 1).rx.take wIdle 64).bad = [] ∧ (wActive id).sound ∧ ((wActive id).link 1).st = .active ∧
    ((wActive id).link 1).lock = true ∧ (wActive id).lmp.running = [] ∧ blockValid 0 = false ∧
    (((wActive id).link 1).rx.take 0 16).bad.length = 16 := by decide +kernel

/-- The 4,096th IDLE block of a head and of a twin port. -/
theorem wit_lockEnds : (wLock []).sound ∧ ((wLock []).link 1).lock = true ∧ (((wLock []).link 1).rx.take wIdle 4096).idles = 4096 ∧
    (((wLock []).link 1).rx.take wIdle 4096).bad = [] ∧ wLockTwin.sound ∧ (wLockTwin.link 24).st = .lock ∧ (wLockTwin.link 24).lock = true ∧
    wLockTwin.twn.pair = .unpaired ∧ wLockTwin.twn.waiting = [] ∧ wLockTwin.twn.proposals = [] := by decide +kernel

/-- Port 1 in CAPS at 16 Gbit/s, waiting for STAT CAPS. -/
def wCaps (f : Link → Link) : State := wLink 1 fun l => f { l with st := .caps, rate := 1 }

/-- A STAT CAPS of one head of 64 nozzles, with the versions named. -/
def wCapsFrame (versions : Byte) : Bytes :=
  wStat 2 ([versions, 1, 1, 0] ++ toLe 2 64 ++ [0, 0] ++ toLe 4 100000 ++ List.replicate 52 0)

theorem wit_capsBasics : (wCaps id).sound ∧ (wCaps id).twn.pair = .unpaired ∧ (wCaps id).twn.tookOver = none ∧
    (wCaps id).lmp.running = [] ∧ ((wCaps id).link 1).busy = false ∧ ((wCaps id).link 1).st = .caps ∧ ((wCaps id).link 1).version = 0 ∧
    ((wCaps id).link 1).maxVer = 2 ∧ ((wCaps id).link 1).rate = 1 ∧
    (wCaps id).elapsed ((wCaps id).link 1).since 20000000 = true := by decide +kernel

theorem wit_statCapsGood : statOf (wCapsFrame 3) 2 64 = true := by
  unfold statOf payloadGood
  rw [crc16_toNat]
  decide +kernel

theorem wit_statCapsGood' : statOf (wCapsFrame 4) 2 64 = true ∧ capsFault 2 none (framePayload (wCapsFrame 3)) = none ∧
    (byteAt (framePayload (wCapsFrame 3)) 0).testBit 1 = true := by
  refine ⟨?_, by decide +kernel⟩
  unfold statOf payloadGood
  rw [crc16_toNat]
  decide +kernel

/-- The set names version 2, whose rate the port does not run at. -/
theorem wit_statCapsRate : ((wCaps fun l => { l with rate := 0 }).link 1).rate ≠ 1 ∧ (wCaps fun l => { l with rate := 0 }).sound ∧
    capsFault 2 ((wCaps id).link 1).capsFirst (framePayload (wCapsFrame 4)) = some 4 := by decide +kernel

theorem wit_statCapsBad : byteAt (framePayload (wCapsFrame 4)) 0 &&& (if ((wCaps id).link 1).maxVer = 1 then 1 else 3) = 0 := by
  decide +kernel

/-- Port 1 in CAPS with a SYNC REQ of epoch 5 waiting, sent again or not, and `n` measurements taken. -/
def wSync (n : Nat) (void : Bool) : State :=
  wCaps fun l => { l with version := 2, epochId := 5, syncWait := some (5, 1000, void), syncs := List.replicate n (10, 7) }

def wEcho : Bytes := wStat 4 (toLe 4 5000 ++ toLe 4 5100 ++ [5, 0, 0, 0, 0, 0, 0, 0])

theorem wit_syncEcho : (wSync 1 false).sound ∧ ((wSync 1 false).link 1).st = .caps ∧ statOf wEcho 4 16 = true ∧
    ((wSync 1 false).link 1).syncWait = some (5, 1000, false) ∧ byteAt (framePayload wEcho) 8 = 5 ∧ ((wSync 1 false).link 1).unacked = [] ∧
    ((wSync 1 false).link 1).queued = [] ∧ ((wSync 1 false).link 1).syncs.length < 2 := by decide +kernel

theorem wit_syncEchoes : (wSync 2 false).sound ∧ ((wSync 2 false).link 1).st = .caps ∧
    ((wSync 2 false).link 1).syncs.length = 2 ∧ ((wSync 2 false).link 1).syncWait = some (5, 1000, false) ∧ (wSync 1 true).sound ∧
    ((wSync 1 true).link 1).syncWait = some (5, 1000, true) ∧ (wSync 1 true).muted 1 = false := by decide +kernel

/-- The third echo on an ACTIVE port whose epoch is the median of the first two. -/
def wSyncActive : State := wActive fun l =>
  { l with epochId := 5, syncWait := some (5, 1000, false), syncs := List.replicate 2 (10, 7), epoch := 7 }

theorem wit_syncActive : wSyncActive.sound ∧ (wSyncActive.link 1).st = .active ∧ (wSyncActive.link 1).syncs.length = 2 ∧
    (sdiff (medianEpoch ((wSyncActive.link 1).syncs ++ [epochOf 1000 6000 5000 5100])).2 (wSyncActive.link 1).epoch).natAbs ≤ 4 ∧
    leAt (framePayload wEcho) 0 4 = 5000 ∧ leAt (framePayload wEcho) 4 4 = 5100 := by decide +kernel

/-- Port 1 ACTIVE with a CTRL frame of sequence number 4 unacknowledged since MONO 1,000,000,000. -/
def wUnacked : State := wActive fun l => { l with ctlNext := 5, unacked := [⟨4, quiesceFrame true, 1000000000, 0⟩] }

/-- A STAT NULL that acknowledges control sequence number 4. -/
def wNull : Bytes :=
  withCrc (([0x81, 0, 0, 0] ++ toLe 4 9 ++ toLe 4 0 ++ toLe 4 4 ++ [5, 0] ++ List.replicate 12 0).take 30)

theorem wit_statAck : wUnacked.sound ∧ wUnacked.twn.pair = .unpaired ∧ wUnacked.lmp.running = [] ∧ (wUnacked.link 1).st = .active ∧
    headerGood wNull = true ∧ payloadGood wNull = true ∧ byteAt wNull 0 = 0x81 ∧ byteAt wNull 16 = 5 ∧ byteAt wNull 17 = 0 ∧
    leAt wNull 2 2 = 0 ∧ (wUnacked.link 1).statNext = none ∧ (wUnacked.link 1).sentActive = false ∧ (wUnacked.link 1).queued = [] ∧
    (wUnacked.link 1).ctlAck = none ∧ (wUnacked.link 1).lineAck = none ∧ wUnacked.twn.entering = false ∧ sdiff (BitVec.ofNat 32 (leAt wNull 12 4)) (wUnacked.link 1).ctlNext < 0 := by decide +kernel

theorem wit_syncPeriodic : (wActive id).elapsed ((wActive id).link 1).syncAt 100000000 = true ∧ ((wActive id).link 1).unacked = [] ∧
    ((wActive id).link 1).queued = [] ∧ (wActive id).twn.pair = .unpaired ∧ (wActive id).twn.tookOver = none ∧ (wActive id).muted 1 = false := by decide +kernel

/-- Lamplighter's schedule off. -/
def wOff (s : State) : State := reg s .LMP_CTRL 0

/-- A NAK of a code, of the frame of a type with sequence number 4. -/
def wNak (code type : Byte) : Bytes :=
  withCrc (([0x82, 0, 0, 0] ++ toLe 4 9 ++ [code, type, 0, 0] ++ toLe 4 4 ++ List.replicate 20 0).take 30)

theorem wit_nak : (wOff (wActive id)).sound ∧ (wOff (wActive id)).on .LMP_CTRL_sched_en = false ∧
    ((wOff (wActive id)).link 1).st = .active ∧ headerGood (wNak 3 1) = true ∧ byteAt (wNak 3 1) 0 = 0x82 ∧ byteAt (wNak 3 1) 8 = 3 ∧
    ((wOff (wActive id)).link 1).statNext = none ∧ headerGood (wNak 5 1) = true ∧ byteAt (wNak 5 1) 8 = 5 ∧ byteAt (wNak 5 1) 9 = 1 := by
  decide +kernel

/-- Codes 4, 2 and 5 for the control frame that is unacknowledged. -/
theorem wit_nakControl : (wOff wUnacked).sound ∧ ((wOff wUnacked).link 1).queued = [] ∧ headerGood (wNak 4 3) = true ∧ byteAt (wNak 4 3) 8 = 4 ∧
    byteAt (wNak 4 3) 9 = 3 ∧ leAt (wNak 4 3) 12 4 = 4 ∧ headerGood (wNak 2 3) = true ∧ byteAt (wNak 2 3) 8 = 2 ∧
    ((wOff wUnacked).link 1).unacked = [⟨4, quiesceFrame true, 1000000000, 0⟩] ∧ (wOff wUnacked).muted 1 = false ∧
    isSyncReq (quiesceFrame true) = false ∧ headerGood (wNak 5 3) = true ∧ byteAt (wNak 5 3) 9 = 3 := by decide +kernel

/-- Three unacknowledged frames, a SYNC REQ among them that is sent again for the eighth time. -/
def wMany : State := wOff (wActive fun l => { l with
  unacked := [⟨4, quiesceFrame true, 1000000000, 0⟩, ⟨5, syncFrame 1 7 0, 1000000000, 7⟩, ⟨6, resyncFrame 9, 1000000000, 2⟩], ctlNext := 7 })

theorem wit_nakMany : wMany.sound ∧ headerGood (wNak 1 3) = true ∧ byteAt (wNak 1 3) 8 = 1 ∧ wMany.muted 1 = false ∧
    (∃ f, f ∈ (wMany.link 1).unacked ∧ wMany.elapsed f.sentAt 100000 = true) ∧ headerGood (wNak 6 3) = true ∧ byteAt (wNak 6 3) 8 = 6 ∧
    headerGood (wNak 0 3) = true := by decide +kernel

/-- A NAK of code 1 sends the three again in order. -/
theorem test_nakResends : (match execNak 1 (wNak 1 3) wMany with
    | .next t => decide (t.framesOut 1 = wMany.framesOut 1 ++ (wMany.link 1).unacked.map (fun f => f.wire wMany.mono))
    | _ => false) = true := by decide +kernel

theorem wit_statTimeout : let s := wOff (wActive id)
    s.elapsed (s.link 1).statAt (s.get .GHL_CTRL_stat_timeout 1 * 1000000) = true ∧
    s.sound ∧ s.elapsed (s.link 1).windowAt (s.get .GHL_NAK_CTRL_window 1 * 1000000) = true ∧ (s.link 1).naks = 0 ∧ (s.link 1).viols = 0 := by decide +kernel

/-- A window with more NAKs than its limit. -/
def wNaks : State := wOff (wActive fun l => { l with naks := 65 })

theorem wit_partnerWindow : wNaks.sound ∧ (wNaks.link 1).st = .active ∧ wNaks.on .LMP_CTRL_sched_en = false ∧
    wNaks.elapsed (wNaks.link 1).windowAt (wNaks.get .GHL_NAK_CTRL_window 1 * 1000000) = true ∧
    wNaks.get .GHL_NAK_CTRL_nak_limit 1 ≠ 0 ∧ wNaks.get .GHL_NAK_CTRL_nak_limit 1 < (wNaks.link 1).naks := by decide +kernel

theorem wit_ctlResend : (wOff wUnacked).sound ∧ ((wOff wUnacked).link 1).st = .active ∧
    ((wOff wUnacked).link 1).unacked = [⟨4, quiesceFrame true, 1000000000, 0⟩] ∧ (wOff wUnacked).on .LMP_CTRL_sched_en = false ∧
    (wOff wUnacked).elapsed 1000000000 100000 = true ∧ (wOff wUnacked).muted 1 = false ∧ isSyncReq (quiesceFrame true) = false := by decide +kernel

/-! ### The Photometer -/

/-- Camera port 2 enabled, of 4 samples by 3 lines, RAW10, with a change of its camera. -/
def wCam (f : Camera → Camera) : State :=
  let s := { host with pho := { host.pho with cams := host.pho.cams.modify 2 f } }
  reg (reg s .PHO_SIZE 0x30004 2) .PHO_CTRL (0x80000000 + 2 ^ Fld.PHO_CTRL_fmt.lo * 0) 2

/-- An open camera frame with `n` lines. -/
def wFrame (n : Nat) : CamFrame := ⟨7, 0, 0, 0, 3, 0, List.replicate n [1, 2, 3, 4], false, none, 0, false, false⟩

/-- The port with that frame open, 100 ms and more after its last packet. -/
def wOpen (n : Nat) : State :=
  let s := wCam fun c => { c with frame := some (wFrame n) }
  { s with tim := { s.tim with mono := 200000000 } }

theorem wit_cameraPackets : (wCam id).sound ∧ (wCam id).cameraOn 2 = true ∧ ((wCam id).cam 2).frame = none ∧
    (wCam id).streamOn 2 1 = false ∧ (wCam id).streamOn 2 2 = false := by decide +kernel

theorem wit_cameraLine : (wOpen 1).sound ∧ (wOpen 1).cameraOn 2 = true ∧ ((wOpen 1).cam 2).frame = some (wFrame 1) ∧
    (wFrame 1).rows.length < (wOpen 1).get .PHO_SIZE_height 2 ∧
    ([5, 0x3FFF, 6, 7] : List (BitVec 14)).length = (wOpen 1).get .PHO_SIZE_width 2 ∧ ((wOpen 1).cam 2).held < 4 := by decide +kernel

/-- The same with four lines that the streams have not taken. -/
def wHeld : State := (wOpen 1).updCam 2 fun c => { c with held := 4 }

theorem wit_cameraLineHeldBack : wHeld.sound ∧ wHeld.cameraOn 2 = true ∧ (wHeld.cam 2).frame = some (wFrame 1) ∧ (wHeld.cam 2).held = 4 ∧
    (wFrame 1).rows.length < wHeld.get .PHO_SIZE_height 2 ∧ (wFrame 1).s1 = none ∧ (wFrame 1).writeS2 = false ∧
    wHeld.streamOn 2 3 = false ∧ (wHeld.cam 2).black = none := by decide +kernel

theorem wit_cameraFrameEnd : (wOpen 3).sound ∧ (wOpen 3).cameraOn 2 = true ∧ (wOpen 3).streamOn 2 0 = false ∧
    ((wOpen 3).cam 2).frame = some (wFrame 3) ∧ (wOpen 3).get .PHO_SIZE_height 2 ≤ (wFrame 3).rows.length ∧
    (wOpen 3).streamOn 2 3 = false ∧ ((wOpen 3).cam 2).black = none ∧ (wFrame 3).shortRaised = false ∧
    (wOpen 3).elapsed (wFrame 3).lastAt 100000000 = true := by decide +kernel

/-- A set that waits since the present window, behind one of an earlier window, and one that is sent. -/
def wExp : State := wCam fun c => { c with waiting := [⟨3, 4, true⟩, ⟨1, 9, false⟩], sending := some ⟨2, 8, true⟩ }

theorem wit_exposure : wExp.sound ∧ wExp.dev.dev ≠ .dark ∧ (wExp.cam 2).waiting.any (fun e => !e.closed) = true ∧
    (wExp.cam 2).sending = some ⟨2, 8, true⟩ := by decide +kernel

theorem wit_cameraEnable : host.reaches (Reg.PHO_CTRL.addr 2 0 0) = true ∧ Fld.PHO_CTRL_fmt.of 0x80000000 ≠ 3 ∧
    host.cameraOn 2 = false ∧ (0x80000000 : Word).msb = true ∧ (wCam id).reaches (Reg.PHO_CTRL.addr 2 0 0) = true ∧
    Fld.PHO_CTRL_fmt.of 0 ≠ 3 ∧ (0 : Word).msb = false ∧ (wCam id).cameraOn 2 = true ∧ ((wCam id).cam 2).frame = none ∧
    (wCam id).rd .PHO_CTRL 2 &&& 0x7FFFFFFF = 0 &&& Reg.PHO_CTRL.maskOf [.rw] &&& 0x7FFFFFFF := by decide +kernel

/-- CAPBUF of a buffer at 0x10000. -/
def dBuf : Bytes := desc ([9, 0, 0, 0] ++ List.replicate 4 0 ++ toLe 8 0x10000 ++ toLe 4 4096)

theorem wit_capbuf : host.running 2 = true ∧ host.ringKind 2 = 2 ∧ (host.ring 2).bufs.length < host.pendingEntries 2 ∧
    dBuf.length = 32 ∧ host.tim.rxWait = [] ∧ host.sound := by decide +kernel

/-- MAINT CAM_BLACK of camera 2. -/
def dBlack : Bytes := desc [8, 0, 0, 0, 8, 2]

theorem wit_camBlack : (wCam id).accepts 0 dBlack 8 ∧ byteAt dBlack 4 = 8 ∧ byteAt dBlack 5 = 2 ∧ leAt dBlack 16 4 = 0 ∧
    (wCam id).dev.dev = .standby ∧ (wCam id).lmp.running = [] ∧ ((wCam id).cam 2).waiting.any (fun e => !e.closed) = false := by decide +kernel

/-- The calibration of camera 2 has run for more than 2 s. -/
def wBlack : State :=
  let s := wCam fun c => { c with black := some ⟨(3, 1), 1, [1], [1], (1, 5), false⟩, calib := true }
  { s with lmp := { s.lmp with running := [⟨8, 2, .maint ⟨0, 0, 8, 9, false, false, 0⟩, 0, false, none, [], 0, 0⟩] },
           tim := { s.tim with mono := 2000000000 } }

theorem wit_camBlackTimeout : wBlack.sound ∧
    wBlack.lmp.running = [⟨8, 2, .maint ⟨0, 0, 8, 9, false, false, 0⟩, 0, false, none, [], 0, 0⟩] ∧ wBlack.hst.gen = 0 ∧
    (wBlack.cam 2).black = some ⟨(3, 1), 1, [1], [1], (1, 5), false⟩ ∧ (wBlack.cam 2).waiting.any (fun e => !e.closed) = false ∧
    wBlack.elapsed 0 2000000000 = true := by decide +kernel

/-- The loop at the end of its period, gains of bar 1 enabled, with samples of nozzle 100 of port 4 and holds of the encoder (1). -/
def wLoop (frozen : Bool) : State :=
  let l := { base.pho.loop with gains := [⟨4, 100, 8000, 40⟩], holds := if frozen then [(1, 1000000), (2, 2999999999)] else [] }
  let s := { base with pho := { base.pho with loop := l }, tim := { base.tim with mono := 3000000000 } }
  reg (reg (reg s .PHO_LOOP_CTRL (2 ^ Fld.PHO_LOOP_CTRL_gain_bars.lo * 2 + 2 ^ Fld.PHO_LOOP_CTRL_period.lo)) .PHO_LOOP_GAIN 0x00640010)
    .LTN_QUIET 1000 1

theorem wit_loopPeriod : (wLoop true).sound ∧
    (wLoop true).elapsed (wLoop true).pho.loop.periodAt ((wLoop true).get .PHO_LOOP_CTRL_period * 100000000) = true ∧
    (wLoop true).loopStill = true ∧ (wLoop false).sound ∧
    (wLoop false).elapsed (wLoop false).pho.loop.periodAt ((wLoop false).get .PHO_LOOP_CTRL_period * 100000000) = true ∧
    (wLoop false).loopStill = false ∧ (wLoop false).twn.role = .none ∧ (wLoop false).printing = false ∧ (wLoop false).waits = [] ∧
    (wLoop false).twn.proposals = [] ∧ (wLoop false).twn.held = [] ∧ (wLoop false).pho.loop.gains = [⟨4, 100, 8000, 40⟩] ∧
    (wLoop false).pho.loop.tones = [] ∧ (wLoop false).pho.loop.gainReset = 0 ∧ (wLoop false).pho.loop.toneReset = 0 := by
  refine ⟨?_, ?_, ?_, ?_, ?_, ?_, ?_, ?_, ?_, ?_, ?_, ?_, ?_, ?_, ?_⟩ <;> decide +kernel

theorem wit_loopStep : (wLoop false).get .PHO_LOOP_CTRL_tone_bars = 0 ∧
    ((wLoop false).get .PHO_LOOP_CTRL_gain_bars).testBit (barOf 4) = true ∧ (wLoop false).get .PHO_LOOP_CTRL_min_samples ≤ 40 ∧
    ((wLoop false).gainStep ⟨4, 100, 8000, 40⟩).2 = false ∧
    ((wLoop false).gainStep ⟨4, 100, 8000, 40⟩).1 ≠ 0 := by decide +kernel

theorem wit_loopHold : (wLoop true).get .LTN_QUIET_ms 1 ≠ 0 ∧ (wLoop true).dev.dev ≠ .dark := by decide +kernel

theorem wit_loopTables : (wLoop false).tabs = [] ∧ ∀ p, ((wLoop false).tab 2 p).pend = none := by
  have h : (wLoop false).tabs = [] := by decide +kernel
  exact ⟨h, fun p => by simp [State.tab, h]⟩
/-! ### The pair -/

/-- The started block with a mode of TWN_CTRL and a change of the twin block, MONO at 3,000,000,000. -/
def wTwin (mode : Nat) (f : Twin → Twin) : State :=
  reg { base with twn := f base.twn, tim := { base.tim with mono := 3000000000 } } .TWN_CTRL
    (mode * 2 ^ Fld.TWN_CTRL_mode.lo + 2 ^ Fld.TWN_CTRL_auto_rejoin.lo + 2 * 2 ^ Fld.TWN_CTRL_max_ver.lo)

/-- Twin port 0 ACTIVE. -/
def wPort0 (s : State) : State := s.updLink 24 fun l => { l with st := .active, cold := false }

/-- The frame of a message, or the first of its frames, with a sequence number. -/
def wTw (m : TwMsg) (seq : BitVec 32) : Bytes := finishFrame ((TwMsg.frames m 0).headD []) seq

theorem wit_pair : (wTwin 2 id).sound ∧ (wTwin 2 id).dev.dev = .standby ∧ (wTwin 2 id).twn.pair = .unpaired ∧
    (wTwin 2 id).twinActive 0 = false ∧ (wTwin 2 id).twinActive 1 = false := by decide +kernel

/-- Pairing at a step. -/
def wPairing (step : Nat) : State := wTwin 2 fun w => { w with pair := .pairing, step := step, joining := step == 4 }

theorem wit_pairTimeouts : (wPairing 1).sound ∧ (wPairing 1).twn.pair = .pairing ∧ (wPairing 1).twn.before = none ∧
    (wPairing 1).elapsed (wPairing 1).twn.since 1000000000 = true ∧ (wPairing 4).sound ∧ (wPairing 4).twn.step = 4 ∧
    (wPairing 4).elapsed (wPairing 4).twn.since 1000000000 = true := by decide +kernel

/-- What a joining module had before. -/
def wBefore : Before := ⟨base.sto, [], base.tabs, base.mer.geom, [], [], [], [], [], [], [], 77⟩

/-- A joining module at step 7. -/
def wJoining : State :=
  wTwin 2 fun w => { w with pair := .pairing, step := 7, joining := true, since := 0 }

theorem wit_readyTimeout : wJoining.sound ∧ wJoining.dev.dev = .standby ∧ wJoining.twn.pair = .pairing ∧ wJoining.twn.before = none ∧
    wJoining.twn.step = 7 ∧ { wJoining with tim := { wJoining.tim with laps := 3 } }.elapsed 0 10000000000 = true := by decide +kernel

/-- The same 10 s after it was begun, with what it had before. -/
def wJoined : State :=
  let s := wTwin 2 fun w => { w with pair := .pairing, step := 7, joining := true, since := 0, before := some wBefore }
  { s with tim := { s.tim with laps := 3 } }

theorem wit_readyTimeoutBefore : wJoined.sound ∧ wJoined.dev.dev = .standby ∧ wJoined.twn.pair = .pairing ∧ wJoined.twn.step = 7 ∧
    wJoined.twn.before = some wBefore ∧ wJoined.elapsed wJoined.twn.since 10000000000 = true := by
  refine ⟨?_, ?_, ?_, ?_, rfl, ?_⟩ <;> decide +kernel

theorem wit_join : (wPort0 wJoining).sound ∧ (wPort0 wJoining).twn.joining = true ∧ (wPort0 wJoining).twn.peerState ≠ 3 ∧
    (wPort0 wJoining).twinMode ≠ 1 ∧ (wPort0 wJoining).hears 0 0x1B (wTw (.join 100) 0) := by decide +kernel

/-- A HELLO of the partner with a mode and a digest, not printing. -/
def wHello (mode : Nat) (d : BitVec 16) : Hello := ⟨3, mode, false, true, 5, d⟩

/-- Pairing at step 2, twin port 0 ACTIVE. -/
def wGreeting : State := wPort0 (wPairing 2)

set_option maxRecDepth 20000 in
theorem wit_hello : wGreeting.sound ∧ wGreeting.dev.dev = .standby ∧ wGreeting.twn.pair = .pairing ∧ wGreeting.twn.step = 2 ∧
    wGreeting.twn.before = none ∧ wGreeting.get .TWN_CTRL_max_ver ≠ 1 ∧ wGreeting.twinMode = 2 ∧
    wGreeting.hears 0 0x11 (wTw (.hello (wHello 3 0)) 0) ∧ readHello (framePayload (wTw (.hello (wHello 3 0)) 0)) = wHello 3 0 := by
  decide +kernel

/-- The payload of a message of one frame. -/
def wPay (m : TwMsg) : Bytes := ((TwMsg.frames m 0).headD []).drop 32

theorem le_crc (l : Bytes) : le (toLe 2 (crc16 l).toNat) = (crc16 l).toNat := by
  have h := (crc16 l).isLt
  simp only [toLe, le, BitVec.toNat_ofNat]
  omega

/-- A frame of a header and a payload of whole blocks is a good frame that carries the payload. -/
theorem good_of (R P : Bytes) (type : Nat) (seq : BitVec 32) (hR : R.length = 32) (hn : P ≠ []) (h16 : P.length % 16 = 0)
    (hl : leAt R 2 2 = P.length) (ht : byteAt R 0 = type) (h1 : type ≠ 1) (h17 : type ≠ 0x17) (ho : twinLengthOk type P.length = true) :
    twinFrameOk type (finishFrame (R ++ P) seq) = true ∧ framePayload (finishFrame (R ++ P) seq) = P := by
  obtain ⟨h, hh⟩ : ∃ h, h = splice (R.take 28) 4 (toLe 4 seq.toNat) := ⟨_, rfl⟩
  have hlen : h.length = 28 := by rw [hh]; simp [splice, toLe, hR]
  have b0 : byteAt (R ++ P) 0 = type := by
    cases R with
    | nil => simp at hR
    | cons a t => exact ht
  have hd : (R ++ P).drop 32 = P := by rw [← hR, List.drop_left]
  have n0 : P.isEmpty = false := by cases P <;> simp_all
  obtain ⟨c, hc⟩ : ∃ c, c = toLe 2 (crc16 P).toNat := ⟨_, rfl⟩
  have c2 : c.length = 2 := by rw [hc]; rfl
  have lc : le c = (crc16 P).toNat := by rw [hc]; exact le_crc P
  have el : (withCrc (h ++ c)).length = 32 := by simp [withCrc, hlen, c2, toLe]
  have hf : finishFrame (R ++ P) seq = withCrc (h ++ c) ++ P := by
    unfold finishFrame
    have ht28 : (R ++ P).take 28 = R.take 28 := by rw [List.take_append_of_le_length (by omega)]
    simp only [b0, h1, h17, hd, n0, ht28, ← hh, ← hc, or_self, if_false, Bool.false_eq_true]
    have : (16 - (withCrc (h ++ c) ++ P).length % 16) % 16 = 0 := by
      rw [List.length_append, el]; omega
    rw [this]; simp
  rw [hf]
  have l22 : leAt (withCrc (h ++ c) ++ P) 2 2 = P.length := by
    rw [← hl]
    simp only [withCrc, hh, splice, leAt]
    match R, hR with
    | a :: b :: x :: y :: t, _ => simp
  have l28 : leAt (withCrc (h ++ c) ++ P) 28 2 = (crc16 P).toNat := by
    have : (withCrc (h ++ c) ++ P).drop 28 = c ++ (toLe 2 (crc16 (h ++ c)).toNat ++ P) := by simp [withCrc, ← hlen]
    rw [leAt, this, ← c2, List.take_left, lc]
  have pay : framePayload (withCrc (h ++ c) ++ P) = P := by
    unfold framePayload
    rw [l22, List.drop_append_of_le_length (by omega), ← el, List.drop_length]
    simp
  have hg : headerGood (withCrc (h ++ c) ++ P) = true := by
    unfold headerGood
    rw [← el, List.take_left, crcOk_withCrc]
    simp [el]
  have h00 : byteAt (withCrc (h ++ c) ++ P) 0 = type := by
    rw [← ht, hh]
    match R, hR with
    | a :: b :: x :: y :: t, _ => simp [byteAt, splice, withCrc]
  refine ⟨?_, pay⟩
  have p0 : P.length ≠ 0 := by simpa using hn
  simp [twinFrameOk, hg, h00, l22, ho, pay, h17, payloadGood, l28, p0]

theorem read_before (A X : Bytes) (o n : Nat) (h : o + n ≤ A.length) : leAt (A ++ X) o n = leAt A o n := by
  unfold leAt
  rw [List.drop_append_of_le_length (by omega), List.take_append_of_le_length (by simp; omega)]

theorem byte_before (A X : Bytes) (o : Nat) (h : o < A.length) : byteAt (A ++ X) o = byteAt A o := by
  simp [byteAt, List.getElem?_append_left h]

/-- A frame's header, before its number and CRCs. -/
def wHead (type n : Nat) (mid : Bytes) : Bytes :=
  [BitVec.ofNat 8 type, 0] ++ toLe 2 n ++ toLe 4 0 ++ (mid ++ List.replicate 20 0).take 20 ++ List.replicate 4 0

theorem raw_split (type : Nat) (mid P : Bytes) (n : Nat) (h : P.length = n) : twinRaw type mid P = wHead type n mid ++ P := by
  subst h; rfl

/-- The first 12 bytes of the payload of that HELLO. -/
def wHelloHead : Bytes := [3, 2, 2, 0] ++ toLe 8 5

theorem wHello_pay (d : BitVec 16) : wPay (.hello (wHello 2 d)) = wHelloHead ++ (toLe 2 d.toNat ++ List.replicate 50 0) := rfl

theorem wit_helloGood (d : BitVec 16) : twinFrameOk 0x11 (wTw (.hello (wHello 2 d)) 0) = true ∧
    framePayload (wTw (.hello (wHello 2 d)) 0) = wPay (.hello (wHello 2 d)) := by
  have l : (wPay (.hello (wHello 2 d))).length = 64 := by rw [wHello_pay]; simp [wHelloHead, toLe]
  have e : wTw (.hello (wHello 2 d)) 0 = finishFrame (twinRaw 0x11 [] (wPay (.hello (wHello 2 d)))) 0 := rfl
  rw [e, raw_split _ _ _ 64 l]
  exact good_of _ _ 0x11 0 (by decide) (fun h => by rw [h] at l; simp at l) (by rw [l]) (by rw [l]; decide) (by decide) (by decide)
    (by decide) (by rw [l]; decide)

theorem wit_helloRead (d : BitVec 16) : readHello (wPay (.hello (wHello 2 d))) = wHello 2 d := by
  have h := d.isLt
  have h12 : leAt (wPay (.hello (wHello 2 d))) 12 2 = d.toNat := by
    show le (toLe 2 d.toNat) = _
    simp only [toLe, le, BitVec.toNat_ofNat]; omega
  have l : wHelloHead.length = 12 := by decide
  unfold readHello
  rw [h12, wHello_pay, byte_before _ _ 0 (by omega), byte_before _ _ 1 (by omega), byte_before _ _ 2 (by omega),
    read_before _ _ 4 8 (by omega), show byteAt wHelloHead 0 = 3 by decide, show byteAt wHelloHead 1 = 2 by decide,
    show byteAt wHelloHead 2 = 2 by decide, show leAt wHelloHead 4 8 = 5 by decide]
  simp [wHello]
  decide
/-- The HELLO of the same mode, with the digest of this module and with another. -/
theorem wit_helloDigest (d : BitVec 16) : (wHello 2 d).mode = wGreeting.twinMode ∧ (wHello 2 d).mode ≠ 0 ∧
    (wHello 2 d).versions.testBit 1 = true ∧ primaryOf wGreeting.hello (wHello 2 d) = some false :=
  ⟨by show 2 = wGreeting.twinMode; decide +kernel, by show 2 ≠ 0; decide, by show Nat.testBit 3 1 = true; decide, by
    have p : wGreeting.hello.printing = false := by decide +kernel
    have r : wGreeting.hello.roleReq = false := by decide +kernel
    simp [primaryOf, p, r, wHello]⟩

theorem ne_succ (x : BitVec 16) : x + 1 ≠ x := by bv_omega

/-- Detached for more than 1 s. -/
def wDetached : State := wTwin 2 fun w => { w with pair := .detached }

theorem wit_rejoin : wDetached.sound ∧ wDetached.dev.dev = .standby ∧ wDetached.twn.pair = .detached ∧
    wDetached.on .TWN_CTRL_auto_rejoin = true ∧ wDetached.twn.noRejoin = false ∧
    wDetached.elapsed wDetached.twn.since 1000000000 = true ∧ wDetached.twinActive 0 = false := by decide +kernel

/-- A PAIRED module in a mode and a role, twin port 0 ACTIVE, with a further change. -/
def wPaired (mode : Nat) (r : Role) (f : Twin → Twin) : State :=
  wPort0 (wTwin mode fun w => f { w with pair := .paired, role := r, step := 8 })

/-- A heartbeat of a standby in STANDBY, with a digest and a detached flag. -/
def wHb (d : BitVec 16) (detached : Bool) : TwMsg := .hb ⟨2, 1, false, 0, d, 0, false, detached⟩

/-- The first bytes of its payload. -/
def wHbHead (detached : Bool) : Bytes := [2, 1, if detached then 4 else 0, 0, 0, 0, 0, 0]

theorem wHb_pay (d : BitVec 16) (x : Bool) : wPay (wHb d x) = wHbHead x ++ (toLe 2 d.toNat ++ List.replicate 6 0) := by
  cases x <;> simp [wPay, wHb, TwMsg.frames, twinRaw, rawFrame, wHbHead, lineBytes, toLe]

theorem wit_hbGood (d : BitVec 16) (x : Bool) : twinFrameOk 0x12 (wTw (wHb d x) 0) = true ∧ framePayload (wTw (wHb d x) 0) = wPay (wHb d x) := by
  have l : (wPay (wHb d x)).length = 16 := by rw [wHb_pay]; simp [wHbHead, toLe]
  have e : wTw (wHb d x) 0 = finishFrame (twinRaw 0x12 (List.replicate 8 0) (wPay (wHb d x))) 0 := by
    cases x <;> simp [wTw, wPay, wHb, TwMsg.frames, twinRaw, rawFrame, lineBytes, toLe]
  rw [e, raw_split _ _ _ 16 l]
  exact good_of _ _ 0x12 0 (by decide) (fun h => by rw [h] at l; simp at l) (by rw [l]) (by rw [l]; decide) (by decide) (by decide)
    (by decide) (by rw [l]; decide)

/-- The digest and the detached flag of a heartbeat read back. -/
theorem wit_hbRead (d : BitVec 16) (x : Bool) : (readHb (wTw (wHb d x) 0)).digest = d ∧ (readHb (wTw (wHb d x) 0)).detached = x := by
  have h := d.isLt
  have hd : leAt (wPay (wHb d x)) 8 2 = d.toNat := by
    have : leAt (wPay (wHb d x)) 8 2 = le (toLe 2 d.toNat) := by rw [wHb_pay]; cases x <;> rfl
    rw [this]
    simp only [toLe, le, BitVec.toNat_ofNat]; omega
  have l : (wHbHead x).length = 8 := by cases x <;> decide
  constructor
  · simp only [readHb, (wit_hbGood d x).2, hd]; simp
  · simp only [readHb, (wit_hbGood d x).2]
    rw [wHb_pay, byte_before _ _ 2 (by omega)]
    cases x <;> decide

theorem wit_hb : (wPaired 2 .standby id).sound ∧ (wPaired 2 .standby id).twinActive 0 = true ∧ (wPaired 2 .standby id).twn.pair = .paired ∧
    ((wPaired 2 .standby id).link 24).queued = [] ∧ (wPaired 2 .standby id).twn.ckpt.building = none ∧
    (wPaired 2 .standby id).follower = true ∧ (wPaired 2 .standby id).dev.dev = .standby := by decide +kernel

theorem wit_hbHeard (d : BitVec 16) (x : Bool) : (wPaired 2 .standby id).hears 0 0x12 (wTw (wHb d x) 0) :=
  ⟨wit_hb.2.1, (wit_hbGood d x).1, fun h => by
    have e : isTwinControl (wTw (wHb d x) 0) = false := by
      have := (wit_hbGood d x).1
      simp only [twinFrameOk, Bool.and_eq_true, beq_iff_eq] at this
      unfold isTwinControl
      rw [this.1.1.1.2]; rfl
    rw [e] at h; cases h⟩

theorem wit_hbDigest : (wPaired 2 .standby id).digest + 1 ≠ (wPaired 2 .standby id).digest := ne_succ _

theorem wit_hbDetached : (wPaired 2 .primary id).sound ∧ (wPaired 2 .primary id).twinActive 0 = true ∧ (wPaired 2 .primary id).twn.pair = .paired ∧
    ((wPaired 2 .primary id).link 24).queued = [] ∧ (wPaired 2 .primary id).twn.ckpt.building = none ∧ (wPaired 2 .primary id).follower = false ∧
    (wPaired 2 .primary id).twn.proposals = [] ∧ (wPaired 2 .primary id).lmp.running = [] := by decide +kernel

/-- A block in HELD that drives TWIN_ALIVE_OUT high. -/
def wHeldAlive : State := { base with dev := { base.dev with dev := .held }, twn := { base.twn with aliveOut := true } }

theorem wit_alive : wHeldAlive.sound ∧ wHeldAlive.dev.dev = .held ∧ wHeldAlive.twn.aliveOut = true ∧
    base.devIn [.firstLight, .standby, .printing] = true := by decide +kernel

/-- A primary whose partner's heartbeats (and, where said, its TWIN_ALIVE) are silent. -/
def wSilent (both : Bool) : State := wPaired 2 .primary fun w => { w with aliveAt := if both then 0 else 3000000000 }

theorem wit_partnerTimeout : (wSilent true).sound ∧ (wSilent true).hbSilent = true ∧ (wSilent true).aliveSilent = true ∧
    (wSilent true).twn.role = .primary ∧ (wSilent true).twn.proposals = [] ∧ (wSilent true).lmp.running = [] ∧
    (wSilent true).lmp.queue = [] ∧ (wSilent false).sound ∧ (wSilent false).hbSilent ≠ (wSilent false).aliveSilent ∧
    (wSilent false).twn.hbBroken = false := by decide +kernel

theorem wit_give : (wPaired 2 .standby id).twinMode = 2 ∧ (wPaired 2 .standby id).twn.role = .standby ∧
    (wPaired 2 .standby id).twn.held = [] ∧ (wPaired 2 .standby id).hears 0 0x1A (wTw (.give 1) 0) ∧
    byteAt (framePayload (wTw (.give 1) 0)) 0 ≠ 2 := by decide +kernel

/-- A printing DUAL secondary whose pipeline 3 misses the announcement of its next line. -/
def wMiss : State :=
  let s := wPaired 3 .secondary id
  { s with dev := { s.dev with dev := .printing },
           pipes := s.pipes.modify 3 fun q => { q with running := true, opens := [0, 0] } }

theorem wit_announceTimeout : wMiss.sound ∧ wMiss.twn.pair = .paired ∧ wMiss.twinMode = 3 ∧ wMiss.twn.role = .secondary ∧ wMiss.twn.held = [] ∧
    wMiss.dev.dev = .printing ∧ (wMiss.pipe 3).running = true ∧ wMiss.twn.anns = [] ∧ (wMiss.pipe 3).openSince = some 0 ∧
    wMiss.elapsed 0 2500 = true ∧ wMiss.elapsed wMiss.twn.aliveAt 2000 = true := by decide +kernel

/-- An OPEN section of one plane, without lines, of one page. -/
def wOpened : Section' := ⟨.opened, 4096, 0, [⟨true, 1200, 1200⟩], [⟨0, [], [], true⟩], [0]⟩

/-- The pair with section 4 OPEN and complete. -/
def wAgree (r : Role) (f : Twin → Twin) : State := stored (wPaired 2 r f) 4 wOpened

/-- A SEAL of section 4 under agreement. -/
def wSeal (c : Option Ctx) : Proposal := ⟨6, none, .seal 4, 0, c, 0, none, false⟩

theorem wit_follower : (wAgree .standby id).sound ∧ (wAgree .standby id).twn.pair = .paired ∧ 2 ≤ (wAgree .standby id).twinMode ∧
    (wAgree .standby id).follower = true ∧ (wAgree .standby id).hears 0 0x13 (wTw (.announce [⟨2, false, 9, 100⟩]) 0) ∧
    readAnnounce (framePayload (wTw (.announce [⟨2, false, 9, 100⟩]) 0)) = [⟨2, false, 9, 100⟩] ∧
    (wAgree .standby id).newAnn ⟨2, false, 9, 100⟩ = true := by decide +kernel

/-- The CHANGE frame of a SEAL of section 4 at an epoch line, and one whose record has no good CRC. -/
def wSealFrame (good : Bool) : Bytes :=
  let b := changeRecord 6 (some 100) (.seal 4)
  finishFrame ((chunkFrames 0x14 6 0 (if good then b else b.dropLast ++ [0xFF])).headD []) 0

theorem wit_change : let f := wSealFrame true
    let s := wAgree .standby id
    s.hears 0 0x14 f ∧ s.twinOpen ∧ s.twn.chunks = [] ∧ leAt f 12 4 = 0 ∧ leAt f 16 4 = leAt f 2 2 ∧ leAt f 8 4 ∉ s.twn.seen ∧
    readChangeRecord (framePayload f) = some (6, some 100, .seal 4) ∧ s.changeIn (.seal 4) = true ∧ s.changeOk (.seal 4) = true ∧
    s.anyBegun (s.changeAffects (.seal 4)) 100 = false := by
  decide +kernel

theorem wit_changeBad : let f := wSealFrame false
    let s := wAgree .standby id
    s.hears 0 0x14 f ∧ s.twinOpen ∧ s.twn.chunks = [] ∧ leAt f 12 4 = 0 ∧ leAt f 16 4 = leAt f 2 2 ∧ leAt f 8 4 ∉ s.twn.seen ∧
    readChangeRecord (framePayload f) = none := by decide +kernel

theorem wit_heldSeal : let s := wAgree .standby fun w => { w with held := [wSeal none] }
    s.sound ∧ s.twn.held = [wSeal none] ∧ s.sto.sections.find? 4 = some wOpened ∧ s.elapsed (wSeal none).since 2000000 = true ∧
    s.dev.dev = .standby ∧ s.hears 0 0x16 (wTw (.decide 6 true) 0) ∧ leAt (framePayload (wTw (.decide 6 true) 0)) 0 4 = 6 ∧
    byteAt (framePayload (wTw (.decide 6 true) 0)) 4 = 1 ∧ s.hears 0 0x16 (wTw (.decide 6 false) 0) ∧
    leAt (framePayload (wTw (.decide 6 false) 0)) 0 4 = 6 ∧ byteAt (framePayload (wTw (.decide 6 false) 0)) 4 ≠ 1 := by decide +kernel

/-- The descriptor of a SEAL of ring 0. -/
def cSeal : Ctx := ⟨0, 0, 2, 9, false, false, 0⟩

theorem wit_vote : let s := wAgree .primary fun w => { w with proposals := [wSeal (some cSeal)] }
    s.sound ∧ s.twn.role = .primary ∧ s.twinOpen ∧ s.twn.proposals = [wSeal (some cSeal)] ∧ cSeal.gen = s.hst.gen ∧
    s.sto.sections.find? 4 = some wOpened ∧ s.elapsed (wSeal (some cSeal)).since 1000000 = true ∧
    s.hears 0 0x15 (wTw (.vote 6 true 0) 0) ∧ leAt (framePayload (wTw (.vote 6 true 0) 0)) 0 4 = 6 ∧
    byteAt (framePayload (wTw (.vote 6 true 0) 0)) 4 = 1 ∧ s.hears 0 0x15 (wTw (.vote 6 false 1) 0) ∧
    leAt (framePayload (wTw (.vote 6 false 1) 0)) 0 4 = 6 ∧ byteAt (framePayload (wTw (.vote 6 false 1) 0)) 4 ≠ 1 := by decide +kernel

/-- A follower in COLD. -/
def wCold : State := wPaired 1 .standby id

theorem wit_data : wCold.sound ∧ wCold.twn.pair = .paired ∧ wCold.follower = true ∧ wCold.twn.unvoted = [] ∧ wCold.twn.ckpt.building = none ∧
    wCold.hears 0 0x17 (wTw (.data 1 2 3 4 [5]) 0) := by decide +kernel

theorem wit_journal : let f := wSealFrame true
    wCold.twinMode = 1 ∧ wCold.hears 0 0x14 f ∧ wCold.twn.chunks = [] ∧ leAt f 12 4 = 0 ∧ leAt f 16 4 = leAt f 2 2 ∧
    leAt f 8 4 ∉ wCold.twn.seen ∧ readChangeRecord (framePayload f) = some (6, some 100, .seal 4) := by decide +kernel

/-- A checkpoint that holds nothing. -/
def wCkpt : CkptBody := ⟨50, 3, 5, [], [], [], [], [], [], List.replicate 24 [], List.replicate 64 0, []⟩

/-- Its bytes, as they are and with a byte of its header altered. -/
def wCkptBytes (good : Bool) : Bytes := if good then CkptBody.bytes wCkpt 0 else 0 :: (CkptBody.bytes wCkpt 0).drop 1

/-- The CKPT frame of them, and of their first 16 bytes. -/
def wCkptFrame (good whole : Bool) : Bytes :=
  finishFrame (twinRaw 0x18 (toLe 4 3 ++ toLe 4 0 ++ toLe 4 (wCkptBytes good).length ++ toLe 4 6)
    (if whole then wCkptBytes good else (wCkptBytes good).take 16)) 0

set_option maxRecDepth 20000 in
theorem wit_ckpt : wCold.hears 0 0x18 (wCkptFrame true true) ∧ (wCold.collect 0x18 (wCkptFrame true true)).2 = some (wCkptBytes true) ∧
    readCkpt (wCkptBytes true) = some wCkpt := by decide +kernel

set_option maxRecDepth 20000 in
theorem wit_ckptBad : wCold.hears 0 0x18 (wCkptFrame false true) ∧ (wCold.collect 0x18 (wCkptFrame false true)).2 = some (wCkptBytes false) ∧
    readCkpt (wCkptBytes false) = none := by decide +kernel

theorem wit_ckptPart : wCold.hears 0 0x18 (wCkptFrame true false) ∧ (wCold.collect 0x18 (wCkptFrame true false)).2 = none := by decide +kernel

theorem wit_checkPos : let s := wPaired 2 .standby fun w => { w with index := some (1000, 0) }
    s.sound ∧ s.twn.index = some (1000, 0) ∧ (sdiff (1000 : Pos) 1256).natAbs ≤ s.get .TWN_POS_TOL_tol ∧
    s.get .TWN_POS_TOL_tol < (sdiff (1000 : Pos) 1257).natAbs ∧ s.dev.dev = .standby ∧
    s.hears 0 0x19 (wTw (.check (.pos 1256)) 0) ∧ readCheck (framePayload (wTw (.check (.pos 1256)) 0)) = some (.pos 1256) ∧
    s.hears 0 0x19 (wTw (.check (.pos 1257)) 0) ∧ readCheck (framePayload (wTw (.check (.pos 1257)) 0)) = some (.pos 1257) := by
  decide +kernel

theorem wit_checkFire : let s := wPaired 2 .primary fun w => { w with fires := [(0, 7, 100, 3)] }
    s.sound ∧ 2 ≤ s.twinMode ∧ s.twinOpen ∧ (s.twn.fires.find? fun x => x.1 == s.twn.firePort) = some (0, 7, 100, 3) := by
  decide +kernel

theorem wit_checkpointNow : (wPaired 1 .primary id).sound ∧ (wPaired 1 .primary id).coldPrimary = true ∧ (wPaired 1 .primary id).twinOpen ∧
    (wPaired 1 .primary id).dev.dev = .standby ∧ (wPaired 1 .primary id).lmp.running = [] ∧ (wPaired 1 .primary id).lmp.queue = [] ∧
    ((wPaired 1 .primary id).link 24).unacked = [] := by
  decide +kernel

/-- A message of one frame, of the twin port's first number, and DATA: both carry good CRCs, and a frame with an altered header is bad. -/
theorem wit_twinFrames : wTw (.give 1) 0 = finishFrame ((TwMsg.frames (.give 1) 0).headD []) 0 ∧
    (TwMsg.frames (.give 1) 0).length = 1 ∧ headerGood (0xFF :: (wTw (.give 1) 0).drop 1) = false ∧
    payloadGood ((wTw (.give 1) 0).take 47 ++ [1]) = true ∧ payloadGood ((wTw (.give 1) 0).take 32 ++ List.replicate 16 9) = false := by
  decide +kernel
/-! ### The host interface -/

/-- The host state on which nothing is in flight, L1 enabled. -/
def wL1 : State :=
  { host with hst := { host.hst with cfg := { host.hst.cfg with l1En := true } } }

theorem wit_link : host.sound ∧ host.hst.dlUp = true ∧ host.hst.d3hot = false ∧ host.devIn [.standby, .printing, .held] = true ∧
    wL1.sound ∧ wL1.hst.cfg.l1En = true ∧ wL1.printing = false ∧ wL1.hst.reading = false ∧
    (∀ g, g ∈ wL1.hst.rings → g.inflight = 0) ∧ wL1.elapsed wL1.hst.busyAt 10000 = true ∧ host.configRetry = false ∧ host.rd .HST_MSIX_PBA 0 = 0 ∧ host.rd .HST_MSIX_PBA 1 = 0 := by
  decide +kernel

/-- The doorbell block at 0x8000, the status block at 0x9000, polled every 10 µs. -/
def wDb (f : Host' → Host') : State :=
  let s := reg (reg host .HST_DB_BASE_LO 0x8000) .HST_SB_BASE_LO 0x9000
  let s := reg s .HST_CTRL (s.rd .HST_CTRL ||| BitVec.ofNat 32 (10 * 2 ^ Fld.HST_CTRL_poll_us.lo)).toNat
  { s with hst := f s.hst }

theorem wit_kick : base.dev.dev ≠ .dark ∧ base.sound ∧ base.anyRunning = false ∧ (wDb id).sound ∧ (wDb id).anyRunning = true ∧
    (wDb id).hst.reading = false ∧ (wDb id).windowOk false (wDb id).dbBase 512 = true ∧ (wDb id).get .HST_CTRL_poll_us ≠ 0 ∧
    (wDb id).elapsed (wDb id).hst.pollAt ((wDb id).get .HST_CTRL_poll_us * 1000) = true := by decide +kernel

/-- A read of the doorbell block is in flight. -/
def wReading : State := wDb fun h => { h with reading := true }

/-- The doorbell entries of rings 0 to 2: ring 0 at index 5 with kick_seq 9, ring 1 as it was, ring 2 with a wrong CRC. -/
def wEntries : Bytes :=
  (toLe 2 5 ++ toLe 2 (crcNat (toLe 2 5 ++ toLe 4 9) 0xFFFF) ++ toLe 4 9) ++ List.replicate 8 0 ++ (toLe 2 5 ++ toLe 2 1 ++ toLe 4 9)

/-- A doorbell block with them. -/
def wBlock : Bytes := wEntries ++ List.replicate 488 0

theorem wEntries_length : wEntries.length = 24 := by decide

theorem wit_doorbell : wReading.sound ∧ wReading.hst.reading = true ∧ wReading.hst.again = false ∧ wReading.dev.dev ≠ .dark ∧
    wReading.anyRunning = true ∧ (wReading.ring 0).st = .running ∧
    (wReading.ring 2).st = .running := by decide +kernel

theorem wBlock_length : wBlock.length = 512 := by
  simp only [wBlock, List.length_append, List.length_replicate, wEntries_length]

/-- The entry of ring 0 is good and new, that of ring 1 is as it was, that of ring 2 fails its CRC. -/
theorem wit_doorbellEntries : leAt (wBlock.take 8) 0 2 ≠ (wReading.ring 0).acc ∧
    crc16 ((wBlock.take 8).take 2 ++ (wBlock.take 8).drop 4) = BitVec.ofNat 16 (leAt (wBlock.take 8) 2 2) ∧
    leAt (wBlock.take 8) 0 2 < wReading.ringSize 0 ∧ leAt ((wBlock.drop 8).take 8) 0 2 = (wReading.ring 1).acc ∧
    BitVec.ofNat 32 (leAt ((wBlock.drop 8).take 8) 4 4) = (wReading.ring 1).kick ∧
    leAt ((wBlock.drop 16).take 8) 0 2 ≠ (wReading.ring 2).acc ∧
    crc16 (((wBlock.drop 16).take 8).take 2 ++ ((wBlock.drop 16).take 8).drop 4) ≠
      BitVec.ofNat 16 (leAt ((wBlock.drop 16).take 8) 2 2) := by decide +kernel

/-- Ring 5 DISABLED, at 0x5000. -/
def wFive : State := reg (wDb id) .HST_RING_BASE_LO 0x5000 5

theorem wit_ringEnable : wFive.sound ∧ wFive.reaches (Reg.HST_RING_CFG.addr 5 0 0) = true ∧ (0x82040100 : Word).msb = true ∧
    (wFive.ring 5).st = .disabled ∧ wFive.enableReason 5 0x82040100 = 0 ∧ wFive.enableReason 5 0x82030100 ≠ 0 := by decide +kernel

theorem wit_ringDisable : host.reaches (Reg.HST_RING_CFG.addr 2 0 0) = true ∧ (0x08040100 : Word).msb = false ∧
    (host.ring 2).st = .running ∧ (host.rd .HST_RING_CFG 2 ^^^ 0x08040100) &&& Reg.HST_RING_CFG.maskOf [.rw] &&& 0x7FFFFFFF = 0 ∧
    host.namedRing 2 = false ∧ host.waits = [] ∧ host.lmp.queue = [] ∧ host.tim.tx = [] := by decide +kernel

theorem wit_captureNop : host.tim.rxWait = [] ∧ host.running 2 = true ∧ host.ringKind 2 = 2 ∧ (host.ring 2).bufs.length < host.pendingEntries 2 ∧
    (desc [0]).length = 32 := by decide +kernel

/-- Ring 3 with entries not yet signalled, its interrupt on vector 4 after 10 µs. -/
def wIrq : State :=
  let s := reg (wDb fun h => { h with cfg := { h.cfg with msixEn := true, msixMask := false } }) .HST_RING_IRQ
    (2 ^ Fld.HST_RING_IRQ_en.lo + 4 * 2 ^ Fld.HST_RING_IRQ_vector.lo + 10 * 2 ^ Fld.HST_RING_IRQ_time_us.lo) 3
  reg (s.updRing 3 fun g => { g with unsignalled := 2, dirty := true, dev := 2 }) .HST_MSIX_TABLE 0 4 3

theorem wit_ringIrq : wIrq.sound ∧ wIrq.windowOk true (wIrq.sbBase + 24) 8 = true ∧ (wIrq.ring 3).st = .running ∧ (wIrq.ring 3).dirty = true ∧
    wIrq.on .HST_RING_IRQ_en 3 = true ∧ wIrq.get .HST_RING_IRQ_time_us 3 ≠ 0 ∧ (wIrq.ring 3).unsignalled ≠ 0 ∧
    wIrq.elapsed (wIrq.ring 3).unsigAt (wIrq.get .HST_RING_IRQ_time_us 3 * 1000) = true ∧ wIrq.hst.cfg.msixEn = true ∧
    wIrq.hst.dlUp = true ∧ wIrq.hst.d3hot = false ∧ wIrq.hst.cfg.msixMask = false ∧
    (wIrq.rd .HST_MSIX_TABLE (wIrq.get .HST_RING_IRQ_vector 3) 3).getLsbD 0 = false := by decide +kernel

/-- CHECKPOINT into a buffer at 0x100000. -/
def dCkpt (n : Nat) : Bytes := desc ([7, 0, 0, 0, 0, 0, 0, 0] ++ toLe 8 0x100000 ++ toLe 4 n)

/-- Every head of 64 nozzles, and checkpoint bodies stored as they are. -/
def wSmall : State := reg { host with links := host.links.map fun l => { l with geom := some ⟨1, 1, 64⟩ } } .STO_CTRL 0

theorem wit_hostDescriptors : host.accepts 0 (desc [0]) 0 ∧ host.ringKind 0 = 0 ∧ wSmall.sound ∧ wSmall.drm.ready = true ∧
    wSmall.accepts 0 (dCkpt 0) 7 ∧ leAt (dCkpt 0) 16 4 = 0 ∧ wSmall.accepts 0 (dCkpt 0x100000) 7 ∧ leAt (dCkpt 0x100000) 16 4 = 0x100000 ∧
    leAt (dCkpt 0x100000) 8 8 = 0x100000 ∧ wSmall.get .STO_CTRL_mirror_effort = 0 ∧ wSmall.windowOk true 0x100000 106528 = true := by
  decide +kernel

theorem ckpt_length (b : CkptBody) : (CkptBody.bytes b 0).length = 64 + ((CkptBody.items b).map fun e => 16 + e.2.length).sum := by
  have h (t : Nat) (x : Bytes) : (recordOf t 0 x).length = 16 + x.length := by simp [recordOf, withCrc, toLe]; omega
  simp only [CkptBody.bytes, ite_self, List.length_append, List.length_flatMap, h]
  simp [withCrc, toLe, lineBytes]

set_option maxRecDepth 20000 in
theorem ckpt_items : ((CkptBody.items (wSmall.checkpoint wSmall.epochLine (wSmall.twn.ckpt.number + 1))).map fun e =>
    16 + e.2.length).sum = 106464 := by decide +kernel

/-- The checkpoint is longer than no buffer, and fits the other. -/
theorem wit_checkpointLength :
    (CkptBody.bytes (wSmall.checkpoint wSmall.epochLine (wSmall.twn.ckpt.number + 1)) (wSmall.get .STO_CTRL_mirror_effort)).length = 106528 := by
  rw [wit_hostDescriptors.2.2.2.2.2.2.2.2.2.1, ckpt_length, ckpt_items]

/-- Two completions wait for ring 1, which stands at its last entry. -/
def wPost : State :=
  (host.updRing 1 fun g => { g with dev := 15, acc := 3, waiting := [⟨⟨0, 2, 0, 9, false, false, 0⟩, 0, 0⟩, ⟨⟨0, 3, 0, 9, false, false, 0⟩, 3, 0⟩] }).updRing 0
    fun g => { g with inflight := 2 }

theorem wit_completionPost : wPost.sound ∧ wPost.running 1 = true ∧ wPost.ringKind 1 = 1 ∧ wPost.ringFull 1 = false ∧
    (wPost.ring 1).waiting = [⟨⟨0, 2, 0, 9, false, false, 0⟩, 0, 0⟩, ⟨⟨0, 3, 0, 9, false, false, 0⟩, 3, 0⟩] ∧
    wPost.on .HST_RING_IRQ_en 1 = false ∧ wPost.windowOk true (wPost.ringBase 1 + 16 * (wPost.ring 1).dev) 16 = true := by decide +kernel


/-- Before the factory record is loaded, with the link not up. -/
theorem wit_configuration : State.reset.sound ∧ State.reset.configRetry = true ∧ host.sound ∧ host.configRetry = false := by decide +kernel
/-! ### Lantern -/

/-- The host state with one raise: PHO.SHORT of camera 2 as class `cls`. -/
def wRaise (cls : Nat) : State :=
  { host with ltn := { host.ltn with raises := [⟨Src.num .phoShort, cls, 2, 0xFF, 6, 7, false, 900000⟩] } }

theorem wit_faultHandle : (wRaise 1).sound ∧ (wRaise 1).ltn.raises = [⟨Src.num .phoShort, 1, 2, 0xFF, 6, 7, false, 900000⟩] ∧
    Src.num .phoShort < 45 ∧ (wRaise 3).sound ∧ (wRaise 3).dev.dev = .standby ∧
    ((wRaise 3).handledClass ⟨Src.num .phoShort, 3, 2, 0xFF, 6, 7, false, 900000⟩).1 = 3 := by decide +kernel

/-- HELD after a fatal fault in STANDBY, port 1 ACTIVE. -/
def wFatal : State :=
  let s := base.updLink 1 fun l => { l with st := .active, version := 2, geom := some ⟨1, 1, 64⟩ }
  { s with dev := { s.dev with dev := .held }, ltn := { s.ltn with fatalAt := some 900000 } }

theorem wit_fatalQuiesce : wFatal.sound ∧ wFatal.dev.dev = .held ∧ wFatal.ltn.fatalAt = some 900000 ∧ wFatal.ltn.fatalPrinting = false ∧
    wFatal.active 1 = true ∧ (wFatal.link 1).unacked = [] ∧ (wFatal.link 1).queued = [] := by decide +kernel

/-- Class U RAISED since MONO 0, its quiet period 1 ms long. -/
def wQuiet : State :=
  reg { base with ltn := { base.ltn with classes := base.ltn.classes.modify 1 fun q => { q with raised := true } } } .LTN_QUIET 1 1

theorem wit_quiet : wQuiet.sound ∧ (wQuiet.ltn.classes.getD 1 ClassState.reset).raised = true ∧ wQuiet.get .LTN_QUIET_ms 1 ≠ 0 ∧
    wQuiet.elapsed (wQuiet.ltn.classes.getD 1 ClassState.reset).since (wQuiet.get .LTN_QUIET_ms 1 * 1000000) = true ∧
    wQuiet.dev.dev ≠ .dark ∧ base.reaches (Reg.LTN_SRC_CFG.addr 5 0 0) = true ∧ (0x80010203 : Word).msb = true ∧
    Fld.LTN_SRC_CFG_min_class.of 0x80010202 ≠ 3 ∧ (0x80010202 : Word).msb = true := by decide +kernel

/-! ### Power, resets and the device -/

/-- The block with a change of its supplies. -/
def wPwr (f : Power → Power) : State := { base with pwr := f base.pwr }

theorem wit_railsRise : (wPwr fun w => { w with pwrEn := false, vinUp := true, rails := .off }).sound ∧
    (wPwr fun w => { w with pwrEn := false, vinUp := true, rails := .falling }).sound := by decide +kernel

theorem wit_railsLow : (wPwr fun w => { w with vinUp := false, rails := .off }).sound ∧
    (wPwr fun w => { w with rails := .rising }).sound := by decide +kernel

theorem wit_railsRetry : (wPwr fun w => { w with rails := .retryWait, pwrEn := true, vinUp := true }).sound ∧
    (wPwr fun w => { w with rails := .falling, pwrEn := true, vinUp := true, riseHeld := true }).sound := by decide +kernel

theorem wit_railsUp : base.sound ∧ base.alm.job = none ∧ base.pwr.rails = .inWindow ∧ base.pwr.pgood = true ∧ base.pwr.pwrEn = true ∧
    base.pwr.vinUp = true ∧ base.pwr.resetN = true ∧ base.pwr.dieHeld = false ∧ base.dev.lossReset = false := by decide +kernel

/-- DARK, held by RESET_N, by the hold behind PGOOD, or by a clock-loss reset. -/
def wDark (f : State → State) : State := f { base with dev := { base.dev with dev := .dark } }

def wDarkReset : State := wDark fun s => { s with pwr := { s.pwr with resetN := false } }
def wDarkHold : State := wDark fun s => { s with pwr := { s.pwr with dieHeld := true } }
def wDarkLoss : State := wDark fun s => { s with dev := { s.dev with lossReset := true } }

theorem wit_leaveDark : wDarkReset.sound ∧ wDarkReset.dev.dev = .dark ∧ wDarkReset.pwr.rails = .inWindow ∧ wDarkReset.pwr.pgood = true ∧
    wDarkReset.dev.warm = false ∧ wDarkReset.pwr.dieHeld = false ∧ wDarkReset.dev.lossReset = false := by decide +kernel

theorem wit_leaveDarkHold : wDarkHold.sound ∧ wDarkHold.dev.dev = .dark ∧
    wDarkHold.pwr.dieHeld = true ∧ wDarkHold.pwr.resetN = true ∧ wDarkHold.dev.lossReset = false := by decide +kernel

theorem wit_leaveDarkLoss : wDarkLoss.sound ∧ wDarkLoss.dev.dev = .dark ∧
    wDarkLoss.pwr.dieHeld = false ∧ wDarkLoss.pwr.resetN = true ∧ wDarkLoss.dev.lossReset = true := by decide +kernel

/-- First Light after the factory load. -/
def wFirst : State :=
  { base with dev := { base.dev with dev := .firstLight, locked := false, factoryLoaded := true, factoryOk := true } }

theorem wit_startUp : State.reset.sound ∧ State.reset.dev.dev ≠ .dark ∧ State.reset.clk.rootLock = false ∧
    State.reset.clk.pcieUp = false := by decide +kernel

theorem wit_finish : wFirst.sound ∧ wFirst.dev.dev = .firstLight ∧ wFirst.dev.factoryLoaded = true ∧
    wFirst.drm.ready = true ∧ wFirst.dev.factoryOk = true ∧ wFirst.twinMode = 0 ∧ wFirst.reaches (Reg.GLB_CMD.addr 0 0 0) = true := by
  decide +kernel

theorem wit_factoryLoad : State.sound { base with dev := { base.dev with factoryLoading := true } } := by decide +kernel

/-- A warm reset under way. -/
def wWarm : State := { base with dev := { base.dev with dev := .dark, warm := true }, drm := { base.drm with sr := .inside } }

theorem wit_warmReset : base.dev.dev = .standby ∧ Fld.GLB_RESET_key.of (BitVec.ofNat 32 (0xA5 * 2 ^ Fld.GLB_RESET_key.lo + 1)) = 0xA5 ∧ (BitVec.ofNat 32 (0xA5 * 2 ^ Fld.GLB_RESET_key.lo + 1)).getLsbD 0 = true ∧
    base.reaches (Reg.GLB_RESET.addr 0 0 0) = true ∧ wWarm.sound ∧ wWarm.dev.warm = true ∧ wWarm.dev.dev = .dark ∧
    base.ltn.fHold = false ∧ base.alm.job = none := by decide +kernel

/-- Every block ready: the geometry in force, port 1 ACTIVE with its GEOM acknowledged and its wave table acknowledged. -/
def wReady : State :=
  let s := (reg wGeom .MER_ENC_CTRL 0x80000000).updLink 1 fun l =>
    { l with st := .active, version := 2, rate := 1, lock := true, geomSent := true, fireEff := 134000 }
  let s := s.updWick 1 fun w => { w with loaded := true, bankAcked := true, heads := w.heads.map fun h => { h with valid := true } }
  { s with mer := { s.mer with geom := wGeom.shadow } }

theorem wit_print : wReady.twn.role = .none ∧ wReady.twn.pair = .unpaired ∧ wReady.reaches (Reg.GLB_CMD.addr 0 0 0) = true ∧
    wReady.dev.dev = .standby ∧ base.ready = false := by decide +kernel

theorem wit_ready : wReady.rdySto = true ∧ wReady.rdyTrn = true ∧ wReady.rdyWck = true ∧ wReady.rdyGhl = true ∧ wReady.sound := by
  decide +kernel

theorem wit_readyMeridian : wReady.on .MER_ENC_CTRL_en 0 = true ∧ (List.range 4).all wReady.barGeomOk = true ∧
    ((List.range 4).map (· + 4)).all wReady.barGeomOk = true := by decide +kernel

theorem wit_stop : let s : State := { base with dev := { base.dev with dev := .printing } }
    s.sound ∧ s.twn.role = .none ∧ s.twn.pair = .unpaired ∧ s.reaches (Reg.GLB_CMD.addr 0 0 0) = true ∧ s.printing = true ∧
    s.dev.stopLine = none ∧ base.printing = false ∧
    State.sound { s with dev := { s.dev with stopLine := some 9 } } := by decide +kernel

/-- A joining module at step 7 whose partner prints, every block ready. -/
def wJoinReady : State :=
  let s := reg wReady .TWN_CTRL (2 * 2 ^ Fld.TWN_CTRL_mode.lo + 2 ^ Fld.TWN_CTRL_auto_rejoin.lo + 2 * 2 ^ Fld.TWN_CTRL_max_ver.lo)
  wPort0 { s with twn := { s.twn with pair := .pairing, step := 7, joining := true, since := 0, peerState := 3, role := .standby } }

theorem wit_joinReady : wJoinReady.rdySto = true ∧ wJoinReady.rdyTrn = true ∧ wJoinReady.rdyWck = true ∧ wJoinReady.rdyGhl = true ∧
    wJoinReady.sound ∧ wJoinReady.on .MER_ENC_CTRL_en 0 = true ∧ wJoinReady.dev.dev = .standby ∧ wJoinReady.twinMode ≠ 1 ∧
    wJoinReady.hears 0 0x1B (wTw (.join 100) 0) := by decide +kernel

theorem wit_joinReadyGeometry : (List.range 4).all wJoinReady.barGeomOk = true ∧
    ((List.range 4).map (· + 4)).all wJoinReady.barGeomOk = true := by decide +kernel

/-! ### Lamplighter -/

/-- MAINT of a code and target, `n` parameter bytes at 0x20000. -/
def dMaint (k x n : Nat) : Bytes :=
  desc ([8, 0, 0, 0, BitVec.ofNat 8 k, BitVec.ofNat 8 x, 0, 0] ++ toLe 8 (if n = 0 then 0 else 0x20000) ++ toLe 4 n)

/-- The host state with port 1 ACTIVE. -/
def wMaint : State := host.updLink 1 fun l => { l with st := .active, version := 2, rate := 1, lock := true, geom := some ⟨1, 1, 64⟩ }

theorem wit_maint : wMaint.sound ∧ wMaint.dev.dev = .standby ∧ wMaint.lmp.running = [] ∧ wMaint.rtActive = false ∧
    (wMaint.link 1).st = .active ∧ (wMaint.wick 1).write = none ∧ (wMaint.wick 1).bankFrom = none ∧ wMaint.coldPrimary = false := by
  decide +kernel

theorem wit_maintDescriptors :
    ([(1, 2), (2, 0xFF), (3, 0), (4, 1), (5, 1), (7, 0)] : List (Nat × Nat)).all (fun e =>
      decide (wMaint.accepts 0 (dMaint e.1 e.2 0) 8 ∧ byteAt (dMaint e.1 e.2 0) 4 = e.1 ∧ byteAt (dMaint e.1 e.2 0) 5 = e.2 ∧
        leAt (dMaint e.1 e.2 0) 16 4 = 0)) = true := by decide +kernel

/-- The same in HELD. -/
def wMaintHeld : State := { wMaint with dev := { wMaint.dev with dev := .held } }

theorem wit_maintHeld : wMaintHeld.sound ∧ wMaintHeld.dev.dev = .held ∧ wMaintHeld.accepts 0 (dMaint 4 1 0) 8 := by decide +kernel

/-- A ZQ calibration of channel 2 runs. -/
def wZq : State := { wMaint with lmp := { wMaint.lmp with running := [⟨2, 2, .register, 0, false, none, [], 0, 0⟩] } }

theorem wit_maintConflict : wZq.sound ∧ wZq.accepts 0 (dMaint 2 2 0) 8 ∧
    wZq.lmp.running = [⟨2, 2, .register, 0, false, none, [], 0, 0⟩] := by decide +kernel

/-- A printing host state, with sections 4 (8 lines) and 5 (2 lines) SEALED and a placement of section 4 running in group 1 at a
pitch of 100 lines; bars 2 and 3 belong to that group. -/
def wGap : State :=
  let x (h : Nat) : Section' := ⟨.sealed', 4096, h, [⟨true, 1200, 1200⟩], [⟨h, [], [], true⟩], []⟩
  let s := reg host .STO_BARGRP 0x0CF3
  let q : Placement := ⟨3, 4, false, 0, 50, 100, 0, 0, some 0, none, none⟩
  let s := stored (stored s 4 (x 8)) 5 (x 2)
  { s with dev := { s.dev with dev := .printing }, sto := { s.sto with groups := s.sto.groups.modify 1 fun _ => ⟨[q], true, [], []⟩ } }

/-- SPIT parameter: 3 gap lines, codes 1, spacing 1, group 1. -/
def qSpit : Bytes := withCrc [3, 0, 1, 1, 1, 0]

/-- STRIP parameter: section 5 in group 1 at line 20 of the pitch, every 2nd repetition, all bars plane 0. -/
def qStrip : Bytes := withCrc ([5, 0, 1, 2] ++ toLe 4 20 ++ toLe 4 0 ++ toLe 4 0 ++ [0, 0])

theorem wit_gap : wGap.sound ∧ wGap.dev.dev = .printing ∧ wGap.twn.role = .none ∧ wGap.lmp.running = [] := by decide +kernel

theorem wit_spit : wGap.accepts 0 (dMaint 9 12 8) 8 ∧ byteAt (dMaint 9 12 8) 5 = 12 ∧ leAt (dMaint 9 12 8) 16 4 = 8 ∧ qSpit.length = 8 ∧
    crcOk qSpit = true ∧ wGap.windowOk false (leAt (dMaint 9 12 8) 8 8) 8 = true ∧ wGap.spitOk 12 qSpit = true ∧
    (wGap.runningPlacement (byteAt qSpit 4)).isSome = true ∧ wGap.heightOf 4 < 100 := by decide +kernel

theorem wit_strip : wGap.accepts 0 (dMaint 10 12 20) 8 ∧ byteAt (dMaint 10 12 20) 5 = 12 ∧ leAt (dMaint 10 12 20) 16 4 = 20 ∧
    qStrip.length = 20 ∧ crcOk qStrip = true ∧ wGap.windowOk false (leAt (dMaint 10 12 20) 8 8) 20 = true ∧
    wGap.stripOk 12 qStrip = true ∧ ((wGap.section (stripSection qStrip)).map fun x => (x.st, x.height)) = some (.sealed', 2) ∧
    ((wGap.runningPlacement (byteAt qStrip 2)).map fun p => (p.sec, p.pitch)) = some (4, 100) ∧ leAt qStrip 4 4 = 20 := by
  decide +kernel

/-- A ZQ calibration of channel 1 that waits for 100 ms, alone or behind one that runs. -/
def wDefer (busy : Bool) : State :=
  { host with lmp := { host.lmp with queue := [⟨2, 1, .maint ⟨0, 0, 8, 9, false, false, 0⟩, 0, true, none, [], 0, 0⟩],
                                     running := if busy then [⟨1, 1, .register, 0, false, none, [], 0, 0⟩] else [] },
              tim := { host.tim with mono := 4000000000 } }

theorem wit_defer : (wDefer false).sound ∧ ((wDefer false).verdict 2 1).1 = .run ∧ (wDefer false).dev.dev = .standby ∧ (wDefer true).sound ∧
    ((wDefer true).verdict 2 1).1 ≠ .run ∧ (wDefer true).hst.gen = 0 := by decide +kernel

theorem wit_deferTime : (wDefer true).elapsed 0 ((wDefer true).get .LMP_CTRL_defer_ms * 1000000) = true ∧
    (wDefer true).lmp.queue = [⟨2, 1, .maint ⟨0, 0, 8, 9, false, false, 0⟩, 0, true, none, [], 0, 0⟩] := by decide +kernel

/-- The host state, or the primary of a pair in COLD, more than an hour after its start. -/
def wLater (s : State) : State := { s with tim := { s.tim with laps := 1000 } }

theorem wit_schedule : (wLater host).sound ∧ (wLater host).scheduleOn = true ∧ (wLater host).lmp.running = [] ∧ (wLater host).on .LMP_SCHED_zq_ms = true ∧
    (wLater host).elapsed (wLater host).lmp.zqAt ((wLater host).get .LMP_SCHED_zq_ms * 1000000) = true ∧
    (wLater host).on .LMP_SCHED_retrain_s = true ∧ (wLater host).lmp.retrainNext < 4 ∧
    (wLater host).elapsed (wLater host).lmp.retrainAt ((wLater host).get .LMP_SCHED_retrain_s * 1000000000) = true ∧ host.sound ∧
    host.scheduleOn = true ∧ host.lmp.running = [] ∧ host.elapsed host.lmp.zqAt (host.get .LMP_SCHED_zq_ms * 1000000) = false ∧
    host.elapsed host.lmp.retrainAt (host.get .LMP_SCHED_retrain_s * 1000000000) = false := by decide +kernel

theorem wit_scheduleCheckpoint : let s := wLater (wPaired 1 .primary id)
    s.sound ∧ s.scheduleOn = true ∧ s.lmp.running = [] ∧ s.coldPrimary = true ∧ s.twinOpen ∧ (s.link 24).unacked = [] ∧ s.lmp.queue = [] ∧
    s.elapsed s.twn.ckpt.at' (s.get .TWN_CKPT_period * 1000000000) = true := by
  decide +kernel
/-- The primary of a pair in COLD, in STANDBY, with its host. -/
def wCkptHost : State := hosted (wPaired 1 .primary id)

theorem wit_twinCkpt : wCkptHost.sound ∧ wCkptHost.coldPrimary = true ∧ wCkptHost.twinOpen ∧ (wCkptHost.link 24).unacked = [] ∧
    wCkptHost.dev.dev = .standby ∧ wCkptHost.lmp.running = [] ∧ wCkptHost.lmp.queue = [] ∧ wCkptHost.accepts 0 (dMaint 7 0 0) 8 ∧
    byteAt (dMaint 7 0 0) 4 = 7 ∧ byteAt (dMaint 7 0 0) 5 = 0 ∧ leAt (dMaint 7 0 0) 16 4 = 0 := by decide +kernel


/-- The secondary of a pair in DUAL, in STANDBY, with its host. -/
def wFollowHost : State := hosted (wPaired 3 .secondary id)

theorem wit_maintRole : wFollowHost.sound ∧ wFollowHost.follower = true ∧ wFollowHost.devIn [.firstLight, .standby, .printing] = true ∧
    wFollowHost.accepts 0 (dMaint 9 12 8) 8 ∧ byteAt (dMaint 9 12 8) 4 = 9 ∧ leAt (dMaint 9 12 8) 16 4 = 8 ∧
    wFollowHost.accepts 0 (dMaint 10 12 20) 8 ∧ byteAt (dMaint 10 12 20) 4 = 10 ∧ leAt (dMaint 10 12 20) 16 4 = 20 := by decide +kernel
/-! ### The DRAM -/

/-- First Light with channel 2 not trained. -/
def wTrainable (run : Option (Nat × Nat × Instant)) : State :=
  let s : State := { base with dev := { base.dev with dev := .firstLight, locked := false }, drm := { base.drm with ready := false } }
  s.updChan 2 fun x => { x with trained := false, running := run }

/-- DRM_TRAIN_CMD of a step with go. -/
def vTrain (op rank : Nat) : Word := BitVec.ofNat 32 (256 * op + 4 * rank + 1)

theorem wit_trainStart : (wTrainable none).sound ∧ (wTrainable none).dev.dev = .firstLight ∧ ((wTrainable none).chan 2).trained = false ∧
    (wTrainable none).drmBusy = false ∧ (wTrainable none).reaches (Reg.DRM_TRAIN_CMD.addr 2 0 0) = true := by decide +kernel

theorem wit_trainWords : (List.range 11).all (fun i => Fld.DRM_TRAIN_CMD_op.of (vTrain (i + 1) 1) == i + 1 &&
    Fld.DRM_TRAIN_CMD_go.of (vTrain (i + 1) 1) == 1 && Fld.DRM_TRAIN_CMD_rank.of (vTrain (i + 1) 1) != 3) = true := by decide +kernel

/-- Channel 2 runs WRITE of one burst of the user pattern at local address 0x40 of rank 1. -/
def wWriting : State :=
  reg (reg (reg (wTrainable (some (6, 1, 0))) .DRM_PAT_CTRL 0x30000 2) .DRM_TRAIN_ADDR 1 2) .DRM_PAT_USER 0x11223344 2 3

theorem wit_trainEnd : (wTrainable (some (3, 0, 0))).sound ∧ ((wTrainable (some (3, 0, 0))).chan 2).running = some (3, 0, 0) ∧
    (wTrainable (some (2, 1, 0))).sound ∧ ((wTrainable (some (2, 1, 0))).chan 2).modes.sorted = true ∧
    ((wTrainable (some (2, 1, 0))).chan 2).running = some (2, 1, 0) := by decide +kernel

theorem wit_trainTimeout' : (wTrainable (some (3, 0, 0))).elapsed 0 (stepLongest 3) = true ∧
    (wTrainable (some (9, 0, 999999))).elapsed 999999 (stepLongest 9) = false ∧ (wTrainable (some (9, 0, 999999))).sound := by decide +kernel

theorem wit_trainEndWrite : wWriting.sound ∧ (wWriting.chan 2).running = some (6, 1, 0) ∧ wWriting.get .DRM_PAT_CTRL_kind 2 = 3 ∧
    wWriting.get .DRM_TRAIN_ADDR_count 2 = 0 ∧ (wTrainable (some (11, 2, 0))).sound ∧ (wTrainable (some (11, 2, 0))).drm.ready = false ∧
    ((wTrainable (some (11, 2, 0))).chan 2).running = some (11, 2, 0) ∧ (0x10000 : Word) &&& 0xFFFF = 0 ∧ (1 : Word) &&& 0xFFFF ≠ 0 := by
  decide +kernel

theorem wit_dramRequest : base.drm.sr = .active ∧ requestOk 25 true 0x1C0 1 = true ∧ requestOk 25 false 0x1C0 1 = true ∧ (base.chan (dChannel 0x1C0)).writes.length < 64 ∧
    (base.chan (dChannel 0x1C0)).reads.length < 64 ∧ (List.replicate 64 (7 : Byte)).length = 64 * 1 := by decide +kernel

/-- Bank 3 of channel 1 with row 5 open, and an RT read of that row queued. -/
def wRt : State :=
  (base.updBank 1 3 fun b => { b with openRow := some 5 }).updChan 1 fun x =>
    { x with reads := [⟨0, 0, false, dAddress 1 (5 * 32768 + (3 ^^^ 5) * 2048), 1, [], 0⟩] }

theorem wit_refresh : (base.chan 1).banks.length = 32 ∧ (base.chan 1).postponed.length = 16 ∧ (base.chan 1).refreshedAt.length = 16 ∧ base.drm.sr = .active ∧ base.sound ∧
    (pairBanks 3).any (base.chan 1).rtQueued = false ∧ (base.chan 1).bandUp = none ∧ wRt.sound ∧ wRt.drm.sr = .active ∧
    (pairBanks 3).any (wRt.chan 1).rtHit = true ∧ (wRt.chan 1).postponed.getD 3 0 < 7 ∧ (wRt.chan 1).banks.length = 32 := by
  decide +kernel

theorem wit_tempPoll : (hotterRank ⟨4, 80, false⟩ ⟨2, 60, true⟩).band = 4 ∧ (base.chan 1).hotLeft = 0 ∧ base.get .DRM_CH_STATUS_band 1 < 4 ∧
    (hotterRank ⟨1, 30, false⟩ ⟨1, 20, true⟩).band = 1 ∧ 1 < base.get .DRM_CH_STATUS_band 1 ∧ (base.chan 1).lowRun ≠ 1 + 1 ∧
    ((base.updChan 1 fun x => { x with lowRun := 2 }).chan 1).lowRun = 1 + 1 ∧
    (base.chan 1).polledAt = none ∧ State.sound (base.updChan 1 fun x => { x with polledAt := some 999999 }) ∧
    State.elapsed (base.updChan 1 fun x => { x with polledAt := some 999999 }) 999999 (base.get .DRM_CTRL_temp_poll * 1000000) = false ∧
    base.elapsed base.drm.windowAt (base.get .DRM_RH_window_ms * 1000000) = false ∧
    (wLater base).elapsed (wLater base).drm.windowAt ((wLater base).get .DRM_RH_window_ms * 1000000) = true ∧ (wLater base).sound := by decide +kernel

/-- A retrain of channel 1 runs. -/
def wSlice : State :=
  let s : State := { base with lmp := { base.lmp with running := [⟨1, 1, .register, 0, false, none, [], 1, 0⟩] } }
  s.updChan 1 fun x => { x with lastSlice := none }

theorem wit_slice : wSlice.sound ∧ wSlice.lmp.running = [⟨1, 1, .register, 0, false, none, [], 1, 0⟩] ∧ wSlice.drm.sr = .active ∧
    (wSlice.chan 1).lastSlice = none ∧ (wSlice.updChan 1 fun x => { x with lastSlice := some 974999 }).elapsed 974999 25000 = true ∧ (wSlice.chan 1).banks.length = 32 := by decide +kernel

theorem wit_sliceCentres : ∀ v, v ∈ List.replicate 16 250 ++ List.replicate 16 300 ++ List.replicate 2 511 → v < 512 := by decide

/-- A ZQ calibration of channel 1, or a self-refresh, that a MAINT of ring 0 asked for. -/
def wActOf (code target : Nat) (sr : SelfRef) : State :=
  { host with lmp := { host.lmp with running := [⟨code, target, .maint ⟨0, 0, 8, 9, false, false, 0⟩, 0, false, none, [], 0, 0⟩] },
              drm := { host.drm with sr := sr }, tim := { host.tim with mono := 200000000 } }

theorem wit_zqLatch : let s := (wActOf 2 1 .active).updChan 1 fun x => { x with zqPending := some 199998000 }
    s.sound ∧ (s.chan 1).zqPending = some 199998000 ∧ s.elapsed 199998000 1000 = true ∧
    s.lmp.running = [⟨2, 1, .maint ⟨0, 0, 8, 9, false, false, 0⟩, 0, false, none, [], 0, 0⟩] ∧ s.hst.gen = 0 := by decide +kernel

theorem wit_selfref : (wActOf 3 0 .entering).sound ∧ (wActOf 3 0 .entering).drm.sr = .entering ∧
    (wActOf 3 0 .entering).queuesEmpty = true ∧ (wActOf 3 0 .entering).rtActive = false ∧
    (wActOf 3 0 .entering).elapsed 0 100000000 = true := by decide +kernel

/-- A queue that is not empty keeps the memory from self-refresh. -/
def wSelfrefBusy : State := (wActOf 3 0 .entering).updChan 0 fun x => { x with writes := [⟨0, 25, true, 0, 1, [], 0⟩] }

theorem wit_selfrefTimeout : wSelfrefBusy.sound ∧ wSelfrefBusy.elapsed 0 100000000 = true ∧ wSelfrefBusy.drm.sr = .entering ∧ wSelfrefBusy.queuesEmpty = false := by decide +kernel

/-- The memory leaves self-refresh. -/
def wExit : State :=
  { base with lmp := { base.lmp with running := [⟨3, 0, .schedule, 0, false, none, [], 0, 0⟩] }, drm := { base.drm with sr := .exiting } }

theorem wit_selfrefExit : wExit.sound ∧ wExit.drm.sr = .exiting ∧
    wExit.lmp.running = [⟨3, 0, .schedule, 0, false, none, [], 0, 0⟩] := by decide +kernel


/-- Pair 3 of rank 0 is due with nothing refreshed yet; straight behind that, pair 4 is not, nor is a pair of the same rank a sixteenth of the
interval later, while one of the other rank is. -/
theorem wit_refreshFalls : base.refreshFalls 1 3 = true ∧ wRt.refreshFalls 1 3 = true ∧ (base.fallDue 1 3).refreshFalls 1 12 = false ∧
    (wLater (base.fallDue 1 3)).refreshFalls 1 4 = false ∧ (wLater (base.fallDue 1 3)).refreshFalls 1 12 = true := by decide +kernel

/-- After band 5, 100 readings are still to come; channel 1 in band 5. -/
def wBandFive (left : Nat) : State :=
  (base.set .DRM_CH_STATUS_band 5 1).updChan 1 fun x => { x with hotLeft := left, lowRun := 5 }

theorem wit_bandFive : (wBandFive 100).sound ∧ (wBandFive 1).sound ∧ (hotterRank ⟨4, 80, false⟩ ⟨2, 60, true⟩).band < (wBandFive 100).get .DRM_CH_STATUS_band 1 ∧
    1 < ((wBandFive 100).chan 1).hotLeft ∧ ((wBandFive 1).chan 1).lowRun = 4 + 1 ∧ ((wBandFive 1).chan 1).hotLeft ≤ 1 ∧
    (wBandFive 1).get .DRM_CH_STATUS_band 1 = 5 := by decide +kernel

/-- MRR of mode register 4 that MRW has written, and of one that it has not. -/
theorem wit_modeRead : let s := (reg (wTrainable (some (3, 0, 0))) .DRM_MR 0x400 2).updChan 2 fun x => { x with modes := [(4, 0x77)] }
    s.sound ∧ (s.chan 2).running = some (3, 0, 0) ∧ (wTrainable (some (3, 0, 0))).modeRead 2 0 9 = 9 := by decide +kernel
/-! ### Crossings, time and the network -/

/-- Crossing 35 (TIM) with a change. -/
def wXing (f : Crossing → Crossing) : State := base.updXing 35 f

/-- A write of TIM_NET_RATE pends. -/
def wPend : State := wXing fun k => { k with writes := [⟨Reg.TIM_NET_RATE.addr 0 0 0, 77, 0⟩] }

theorem wit_crossings : wPend.sound ∧ (wPend.xing 35).sync = .running ∧
    (wPend.xing 35).writes = [⟨Reg.TIM_NET_RATE.addr 0 0 0, 77, 0⟩] ∧
    Reg.ofOffset (Reg.TIM_NET_RATE.addr 0 0 0) = some (.TIM_NET_RATE, []) ∧ (wXing fun k => { k with sync := .waiting }).sound ∧
    ((wXing fun k => { k with sync := .waiting }).xing 35).sync = .waiting ∧
    ((wXing fun k => { k with sync := .waiting }).xing 35).words = 0 ∧ wPend.writeStuck 35 = true := by decide +kernel

/-- CLK_PIX_CTRL: n 25, div 25, en. -/
def vPix (en : Bool) : Word :=
  BitVec.ofNat 32 (25 * 2 ^ Fld.CLK_PIX_CTRL_n.lo + 25 * 2 ^ Fld.CLK_PIX_CTRL_div.lo + (if en then 2 ^ 31 else 0))

/-- The PIX PLL on. -/
def wPix : State := reg base .CLK_PIX_CTRL (vPix true).toNat

theorem wit_pix : base.reaches (Reg.CLK_PIX_CTRL.addr 0 0 0) = true ∧ base.on .CLK_PIX_CTRL_en = false ∧
    pixOk (Fld.CLK_PIX_CTRL_n.of (vPix true)) (Fld.CLK_PIX_CTRL_div.of (vPix true)) (base.get .CLK_PIX_FRAC_frac) (vPix true).msb = true ∧
    wPix.sound ∧ wPix.on .CLK_PIX_CTRL_en = true ∧ (vPix false).msb = false ∧
    Fld.CLK_PIX_CTRL_n.of (vPix false) = wPix.get .CLK_PIX_CTRL_n ∧ Fld.CLK_PIX_CTRL_div.of (vPix false) = wPix.get .CLK_PIX_CTRL_div := by
  decide +kernel

theorem wit_pixOff : pixOk (Fld.CLK_PIX_CTRL_n.of (vPix false)) (Fld.CLK_PIX_CTRL_div.of (vPix false)) (wPix.get .CLK_PIX_FRAC_frac)
    (vPix false).msb = true ∧ wPix.clk.rootLock = true ∧ wPix.clk.pixLock = false ∧ wPix.dev.dev ≠ .dark := by decide +kernel

theorem wit_time : base.on .HST_EVT_ROUTE_tim_en = false ∧ base.reaches (Reg.TIM_NET_RATE.addr 0 0 0) = true ∧
    base.reaches (Reg.TIM_NET_STEP.addr 0 0 0) = true ∧ base.reaches (Reg.TIM_NET_LOAD.addr 0 0 0) = true ∧
    base.reaches (Reg.TIM_SNAP_CMD.addr 0 0 0) = true ∧ base.reaches (Reg.TIM_SEC_LO.addr 0 0 0) = true ∧
    (∀ g, g ∈ base.tim.gens → g.armed = false) := by decide +kernel

/-- NET valid, steps above 1,000 ns refused; both wraps wait; the seconds unit a second behind NET. -/
def wTime : State :=
  let s := reg base .TIM_STEP_MAX 1000
  { s with tim := { s.tim with netValid := true, monoWraps := [(0, 5)], netWraps := [(false, 7, 9)], secValid := true,
                               net := (1500000000 : BitVec 32) ++ (0 : BitVec 40) } }

theorem wit_steps : wTime.sound ∧ (500 : Word).toInt.natAbs ≤ wTime.get .TIM_STEP_MAX_max_ns ∧
    wTime.get .TIM_STEP_MAX_max_ns < (5000 : Word).toInt.natAbs ∧ wTime.on .TIM_CTRL_override = false ∧ wTime.tim.netValid = true ∧
    wTime.tim.monoWraps = [(0, 5)] ∧ wTime.tim.netWraps = [(false, 7, 9)] ∧ wTime.tim.secValid = true ∧
    1000000000 ≤ sdiff wTime.net wTime.tim.base ∧ wTime.on .HST_EVT_ROUTE_tim_en = false := by decide +kernel

/-- NET half a second past base. -/
def wHalf : State := { wTime with tim := { wTime.tim with net := (500000000 : BitVec 32) ++ (0 : BitVec 40) } }

theorem wit_noRollover : wHalf.sound ∧ wHalf.tim.secValid = true ∧ 0 ≤ sdiff wHalf.net wHalf.tim.base ∧
    sdiff wHalf.net wHalf.tim.base < 1000000000 := by decide +kernel

/-- TIM_PULSE_CTRL: arm, ONESHOT or PERIODIC, width 10. -/
def vPulse (arm periodic : Bool) (width : Nat) : Word :=
  BitVec.ofNat 32 (width * 2 ^ Fld.TIM_PULSE_CTRL_width.lo + (if periodic then 2 ^ 30 else 0) + (if arm then 2 ^ 31 else 0))

/-- NET at 5,000; generator 3 with a START. -/
def wNet (start : Nat) : State :=
  reg { base with tim := { base.tim with net := (5000 : BitVec 32) ++ (0 : BitVec 40) } } .TIM_PULSE_START start 3

theorem wit_pulseArm : (wNet 6000).sound ∧ (wNet 6000).reaches (Reg.TIM_PULSE_CTRL.addr 3 0 0) = true ∧ (vPulse true false 10).msb = true ∧
    (vPulse true false 10).getLsbD 30 = false ∧ Fld.TIM_PULSE_CTRL_width.of (vPulse true false 10) ≠ 0 ∧
    sdiff (wNet 6000).net ((wNet 6000).rd .TIM_PULSE_START 3) ≤ 0 ∧ (wNet 4000).sound ∧
    0 < sdiff (wNet 4000).net ((wNet 4000).rd .TIM_PULSE_START 3) ∧ (vPulse false false 10).msb = false ∧
    Fld.TIM_PULSE_CTRL_width.of (vPulse true false 0) = 0 := by decide +kernel

/-- Generator 3 armed for 5,000, NET there; its land active since MONO 0. -/
def wFire (periodic : Bool) : State :=
  let s := reg (wNet 5000) .TIM_PULSE_CTRL (vPulse true periodic 10).toNat 3
  { s with tim := { s.tim with gens := s.tim.gens.modify 3 fun g => { g with armed := true, target := 5000, period := 1000, active := some 0 } } }

theorem wit_pulseFire : (wFire false).sound ∧ ((wFire false).gen 3).armed = true ∧ 0 ≤ (wFire false).netAfter 3 ∧
    (wFire false).get .TIM_PULSE_CTRL_camtrig 3 = 0 ∧ (wFire false).on .TIM_PULSE_CTRL_event 3 = false ∧
    (wFire false).on .TIM_PULSE_CTRL_mode 3 = false ∧ ((wFire false).gen 3).active = some 0 ∧
    (wFire false).elapsed 0 ((wFire false).get .TIM_PULSE_CTRL_width 3 * 8) = true := by decide +kernel

theorem wit_pulsePeriodic : (wFire true).sound ∧ ((wFire true).gen 3).armed = true ∧ 0 ≤ (wFire true).netAfter 3 ∧
    (wFire true).on .TIM_PULSE_CTRL_mode 3 = true ∧
    sdiff (wFire true).net (((wFire true).gen 3).target + BitVec.ofNat 32 ((wFire true).gen 3).period) ≤ 0 := by decide +kernel

/-- The network port on, its TIME records on ring 3 and its buffers on ring 2. -/
def wEth (f : TimeBlock → TimeBlock) : State :=
  let s := reg host .TIM_CTRL (2 ^ Fld.TIM_CTRL_mode.lo + 2 ^ Fld.TIM_CTRL_tx_en.lo + 2 ^ Fld.TIM_CTRL_rx_en.lo + 2 * 2 ^ Fld.TIM_CTRL_rx_ring.lo)
  let s := reg s .HST_EVT_ROUTE (s.rd .HST_EVT_ROUTE ||| BitVec.ofNat 32 (2 ^ Fld.HST_EVT_ROUTE_tim_en.lo + 3 * 2 ^ Fld.HST_EVT_ROUTE_tim_ring.lo)).toNat
  let s := s.updRing 3 fun g => { g with acc := 15 }
  { s with tim := f { s.tim with link := true } }

/-- NET_TX of `n` bytes at 0x20000. -/
def dTx (n : Nat) : Bytes := desc ([10, 0, 0, 0, 0, 0, 0, 0] ++ toLe 8 0x20000 ++ toLe 2 n)

theorem wit_netTx : (wEth id).sound ∧ (wEth id).accepts 0 (dTx 60) 0x0A ∧ (wEth id).accepts 0 (dTx 59) 0x0A ∧ leAt (dTx 60) 16 2 = 60 ∧
    byteAt (dTx 60) 4 = 0 ∧ leAt (dTx 59) 16 2 < 60 := by decide +kernel

theorem wit_netTxState : (wEth id).tim.tx = [] ∧ (wEth id).windowOk false (leAt (dTx 60) 8 8) 60 = true ∧ (wEth id).tim.link = true ∧
    (wEth id).on .TIM_CTRL_tx_en = true := by decide +kernel

theorem wit_netTxOther : (wEth fun t => { t with link := false }).sound ∧ (wEth fun t => { t with link := false }).tim.link = false ∧
    (wEth fun t => { t with link := false }).accepts 0 (dTx 60) 0x0A ∧ (wEth id).accepts 0 (dTx 9217) 0x0A ∧ 9216 < leAt (dTx 9217) 16 2 ∧
    (wEth id).accepts 0 (dTx 9216) 0x0A ∧ leAt (dTx 9216) 16 2 = 9216 ∧ (wEth id).windowOk false (leAt (dTx 9216) 8 8) 9216 = true := by
  decide +kernel

/-- A frame leaves, and a timestamp is wanted. -/
def wTxFrame : TxFrame := ⟨⟨0, 0, 10, 9, false, false, 0⟩, List.replicate 60 1, true, false, 0, some 700⟩

theorem wit_netTxDone : (wEth fun t => { t with tx := [wTxFrame] }).sound ∧
    (wEth fun t => { t with tx := [wTxFrame] }).tim.tx = [wTxFrame] ∧ wTxFrame.stamp = some 700 ∧
    wTxFrame.ctx.gen = (wEth id).hst.gen ∧ (wEth id).tim.txq.length < 16 := by decide +kernel

theorem wit_netRx : (wEth id).running 2 = true ∧ (wEth id).ringKind 2 = 2 ∧ ((wEth id).ring 2).bufs.length < (wEth id).pendingEntries 2 ∧
    (wEth id).tim.rxWait = [] ∧ (wEth id).on .TIM_CTRL_rx_en = true ∧ (wEth id).macAccepts (List.replicate 60 1) = true ∧
    (wEth id).macAccepts (List.replicate 60 2) = false ∧ ((wEth id).ring ((wEth id).get .TIM_CTRL_rx_ring)).bufs = [] := by decide +kernel

/-- A transmit timestamp waits. -/
def wTxq : State := wEth fun t => { t with txq := [(9, 700)] }

theorem wit_txts : wTxq.sound ∧ wTxq.tim.txq = [(9, 700)] ∧ wTxq.dev.dev ≠ .dark ∧ wTxq.get .HST_EVT_ROUTE_tim_ring = 3 ∧
    wTxq.on .HST_EVT_ROUTE_tim_en = true ∧ wTxq.ringKind 3 = 3 ∧ wTxq.running 3 = true ∧ wTxq.ringFull 3 = false ∧
    wTxq.windowOk true (wTxq.ringBase 3 + 32 * (wTxq.ring 3).dev) 32 = true ∧ wTxq.on .TIM_CTRL_mode = true ∧ wTxq.clk.rootLock = true := by
  decide +kernel


/-- A write of TIM_NET_STEP pends in crossing 35, with one of TIM_NET_RATE behind it. -/
def wPendStep : State :=
  wXing fun k => { k with writes := [⟨Reg.TIM_NET_STEP.addr 0 0 0, 500, 999000⟩, ⟨Reg.TIM_NET_RATE.addr 0 0 0, 77, 999500⟩] }

theorem wit_pendStep : wPendStep.sound ∧ (wPendStep.xing 35).sync = .running ∧ wPendStep.xingOf (Reg.TIM_NET_STEP.addr 0 0 0) = some 35 ∧
    Reg.ofOffset (Reg.TIM_NET_STEP.addr 0 0 0) = some (.TIM_NET_STEP, []) ∧ (ruleOf .TIM_NET_STEP ownWrites).isNone = false ∧
    (ruleOf .TIM_NET_RATE ownWrites).isNone = true ∧ wPendStep.writeStuck 35 = false ∧
    (match exec (.netStep 500) (wPendStep.updXing 35 fun k => { k with writes := [] }) with
      | .next u => (u.xing 35).sync == .running
      | _ => false) = true := by decide +kernel

/-- Both clocks of a crossing run, or one does not: camera ports off, the PIX PLL not locked. -/
theorem wit_clocksRun : base.clocksRun 35 = true ∧ base.clocksRun 34 = false ∧ base.clocksRun 30 = false ∧
    (wXing fun k => { k with sync := .waiting, afterTimeout := true, words := 3 }).clocksRun 35 = true := by decide +kernel

/-- What settles the link, and what does not. -/
theorem wit_netLink : (wEth id).get .TIM_CTRL_mode = 1 ∧ (wEth id).netSettles (.inBand 1000 true) = true ∧
    (wEth id).netSettles (.inBand 100 true) = false ∧ (wEth id).netSettles (.clause37 ⟨true, false⟩) = false ∧
    ((wEth id).set .TIM_CTRL_mode 2).netSettles (.clause37 ⟨true, true⟩) = true ∧
    ((wEth id).set .TIM_CTRL_mode 2).netSettles (.clause37 ⟨false, true⟩) = false := by decide +kernel

/-- A step under override. -/
theorem wit_override : (wTime.set .TIM_CTRL_override 1).sound ∧ (wTime.set .TIM_CTRL_override 1).on .TIM_CTRL_override = true ∧
    (wTime.set .TIM_CTRL_override 1).on .HST_EVT_ROUTE_tim_en = false := by decide +kernel
/-! ### Eyepiece -/

/-- PIX on, and the smallest timing that R524 takes: 16 by 16 active of 32 by 19. -/
def wEyePix : State :=
  let s := reg (reg (reg (reg base .EYE_HTIM 0x00200010) .EYE_VTIM 0x00130010) .EYE_HSYNC 0x00100001) .EYE_VSYNC 0x00100001
  let s := reg s .CLK_PIX_CTRL 0x80000000
  { s with clk := { s.clk with pixLock := true } }

theorem wit_eyeEnable : wEyePix.sound ∧ wEyePix.on .EYE_CTRL_en = false ∧ wEyePix.reaches (Reg.EYE_CTRL.addr 0 0 0) = true ∧
    wEyePix.eyeTimingOk = true ∧ wEyePix.on .CLK_PIX_CTRL_en = true := by decide +kernel

theorem wit_eyeEnableRefused : base.sound ∧ base.on .EYE_CTRL_en = false ∧ base.reaches (Reg.EYE_CTRL.addr 0 0 0) = true ∧
    (base.eyeTimingOk && base.on .CLK_PIX_CTRL_en) = false := by decide +kernel

/-- A scan of the host's framebuffer at 0x1000, 8 by 4 XRGB8888 at a stride of 64, in line `y`. -/
def wScan (y : Nat) : State :=
  let s := reg (reg (reg wEyePix .EYE_CTRL 0xC0000000) .EYE_FB_ADDR 0x200) .EYE_FB_STRIDE 64
  { s with eye := { s.eye with line := y, fresh := false, shown := some ⟨0x1000, 64, 2, false, 8, 4⟩ }
           drm := { s.drm with mem := [(0x1040, 0x11), (0x1041, 0x22), (0x1042, 0x33)] } }

theorem wit_eyeDisable : (wScan 3).sound ∧ (wScan 3).on .EYE_CTRL_en = true ∧ (wScan 3).reaches (Reg.EYE_CTRL.addr 0 0 0) = true ∧
    ((wScan 3).rd .EYE_CTRL ^^^ 0x40000000) &&& 0xF7 = 0 := by decide +kernel

theorem wit_eyeCommit : (wScan 3).reaches (Reg.EYE_COMMIT.addr 0 0 0) = true ∧ (wScan 3).on .EYE_CTRL_src = false ∧
    (wScan 3).scanning = true ∧ (wScan 3).eye.pending = none := by decide +kernel

/-- The same with a commit waiting. -/
def wSuper (k : Nat) : State := { wScan 18 with eye := { (wScan 18).eye with pending := some (⟨0x2000, 64, 0, false, 16, 16⟩, k) } }

theorem wit_eyeSupersede : (wSuper 1).sound ∧ (wSuper 1).scanning = true ∧ (wSuper 1).eye.pending.isSome = true ∧
    wEyePix.scanning = false := by decide +kernel

/-- The last active line of a display frame, the signature the same for the 60th time. -/
def wPoint : State := { wScan 15 with eye := { (wScan 15).eye with crc := 0x1234, lastSig := some 0x1234, same := 59 } }

theorem wit_commitPoint : wPoint.sound ∧ wPoint.scanning = true ∧ wPoint.eye.fresh = false ∧ wPoint.eye.pastCommit = false ∧
    wPoint.eye.line + 1 = wPoint.get .EYE_VTIM_lo ∧ wPoint.rd .EYE_INT_EN = 0 ∧ wPoint.eyeLive = true ∧ wPoint.get .EYE_FREEZE = 60 ∧
    wPoint.eye.frozen = false := by decide +kernel

theorem wit_lines : (wScan 0).sound ∧ (wScan 0).scanning = true ∧ (wScan 0).rd .EYE_INT_EN = 0 ∧ 1 ≤ (wScan 0).get .EYE_VTIM_hi ∧
    (wScan 0).get .EYE_VTIM_lo = 16 ∧ (wScan 0).get .EYE_HTIM_lo = 16 ∧ ((wScan 0).eye.line + 1) % (wScan 0).get .EYE_VTIM_hi = 1 ∧
    (wScan 0).eye.underran = false := by decide +kernel

theorem wit_underrun : (wScan 0).eye.shown = some ⟨0x1000, 64, 2, false, 8, 4⟩ ∧ 3 < (wScan 0).get .EYE_HTIM_lo := by decide +kernel

theorem wit_blankLine : ((wScan 15).eye.line + 1) % (wScan 15).get .EYE_VTIM_hi = (wScan 15).get .EYE_VTIM_lo := by decide +kernel

theorem wit_lineZero : (wSuper 1).sound ∧ ((wSuper 1).eye.line + 1) % (wSuper 1).get .EYE_VTIM_hi = 0 ∧
    ((wSuper 1).eye.pending.map (·.2)) = some 1 ∧ ((wSuper 2).eye.pending.map (·.2)) = some 2 := by decide +kernel

/-- Line 1 drives the pixel of DRAM in R, G and B, and HS on its clock 16, the first behind the active ones. -/
theorem test_displayLine : (match execDisplayLineStart none (wScan 0) with
    | .next t => match t.out with
      | [.displayLine 0 1 rgb lands] => decide (rgb.take 6 = [0x33, 0x22, 0x11, 0, 0, 0] ∧ rgb.length = 48 ∧ lands.clocks.length = 32 ∧
          lands.clocks.getD 16 ⟨[], false, false, false⟩ = ⟨[0, 0, 0], false, true, false⟩)
      | _ => false
    | _ => false) = true := by decide +kernel


/-- A write of EYE_CTRL that changes nothing while the output is on. -/
theorem wit_eyeNoChange : ((wScan 3).rd .EYE_CTRL).msb = true ∧
    ((wScan 3).rd .EYE_CTRL ^^^ (wScan 3).rd .EYE_CTRL) &&& 0x400000F7 = 0 ∧
    (match exec (.eyeEnable ((wScan 3).rd .EYE_CTRL)) (wScan 3) with
      | .next t => t.get .GLB_REFUSED_INFO_reason == 2
      | _ => false) = true := by decide +kernel
/-! ### Almanac -/

/-- A HOST record of 4 bytes, kind 7, instance 1. -/
def rHost : Bytes :=
  let v : Bytes := [1, 2, 3, 4]
  let h : Bytes := [7, 1, 1, 0, 20, 0, 0, 0, 0, 0, 0, 0] ++ toLe 2 (crc16 v).toNat
  h ++ toLe 2 (crc16 h).toNat ++ v

/-- MAINT ALM_WRITE of `n` bytes. -/
def dAlm (n : Nat) : Bytes := desc ([8, 0, 0, 0, 6, 0, 0, 0] ++ toLe 8 0x20000 ++ toLe 4 n)

theorem wit_almWrite : host.sound ∧ host.accepts 0 (dAlm 20) 8 ∧ byteAt (dAlm 20) 4 = 6 ∧ byteAt (dAlm 20) 5 = 0 ∧ leAt (dAlm 20) 16 4 = 20 ∧
    host.windowOk false (leAt (dAlm 20) 8 8) 20 = true ∧ host.dev.dev = .standby ∧ host.lmp.running = [] := by decide +kernel

theorem wit_almRecord : rHost.length = 20 ∧ writeCheck rHost = true ∧ recLength rHost = 20 ∧ host.slotErased false 0 = true ∧
    writeCheck (rHost.drop 1 ++ [0]) = false ∧ host.alm.busy = false := by decide +kernel

/-- A record of kind 9, instance `i`, sequence number i + 1 and the value `v`. -/
def rCkpt (i : Nat) (v : Bytes) : Bytes :=
  let h : Bytes := [9, 1, BitVec.ofNat 8 i, 0] ++ toLe 4 (16 + v.length) ++ toLe 4 (i + 1) ++ toLe 2 (if v = [] then 0 else (crc16 v).toNat)
  h ++ toLe 2 (crc16 h).toNat ++ v

/-- The cells of a record in a slot of the checkpoint region. -/
def cellsAt (i : Nat) (l : Bytes) : Memory := (l.zipIdx.map fun (b, k) => (slotAddr true i + k, b)).filter fun e => e.2 != 0xFF

/-- A checkpoint region with a record of its own key in every slot; the one in slot 3 is a deletion where `del` says so. -/
def wFull (del : Bool) : State :=
  let flash : Memory := (List.range 16).flatMap fun i => cellsAt i (rCkpt i (if del && i == 3 then [] else [5]))
  { host with alm := { host.alm with flash := flash } }

theorem wit_almFull : (wFull false).sound ∧ (wFull true).sound := by decide +kernel

theorem wit_almFullSlots : writeCheck (rCkpt 20 [1, 2, 3, 4]) = true ∧
    (List.range 16).all (fun i => !(wFull false).slotErased true i && !(wFull false).slotReclaimable true i) = true ∧
    (List.range 16).all (fun i => !(wFull true).slotErased true i && (wFull true).slotReclaimable true i == (i == 3)) = true := by
  decide +kernel

/-- Registers that name the record for ALM_WR_GO. -/
def wGo : State := reg (reg host .ALM_WR_ADDR_LO 0x20000) .ALM_WR_LEN 20

theorem wit_almWrGo : wGo.sound ∧ wGo.reaches (Reg.ALM_WR_CMD.addr 0 0 0) = true ∧ wGo.almBusy = false ∧
    (wGo.rd .ALM_WR_LEN).toNat = rHost.length ∧ wGo.windowOk false 0x20000 20 = true ∧ wGo.lmp.running = [] ∧
    (wGo.rd .ALM_WR_ADDR_LO).toNat + (wGo.rd .ALM_WR_ADDR_HI).toNat * 2 ^ 32 = 0x20000 := by decide +kernel

/-- A write of the record into slot 0 in progress. -/
def wJob : State :=
  { host with alm := { host.alm with job := some (rHost, slotAddr false 0), flash := [(0x100000, 0), (0x110000, 1)] }
              lmp := { host.lmp with running := [⟨6, 0, .maint ⟨0, 0, 8, 9, false, false, 0⟩, 0, false, none, rHost, 0, 0⟩] } }

theorem wit_almWriteDone : wJob.sound ∧ wJob.alm.job = some (rHost, 0x100000) ∧ wJob.alm.busy = false ∧
    wJob.lmp.running = [⟨6, 0, .maint ⟨0, 0, 8, 9, false, false, 0⟩, 0, false, none, rHost, 0, 0⟩] ∧ wJob.hst.gen = 0 := by decide +kernel

theorem wit_almReadData : base.sound ∧ base.dev.dev ≠ .dark ∧ base.almBusy = false ∧
    ({ base with alm := { base.alm with busy := true } } : State).almBusy = true := by decide +kernel

/-! ### Sensors -/

/-- The sensors with identity trims, channels trained at 50 C, neighbour offsets 0. -/
def wSense (bad good : Nat) (suspect : Bool) : State :=
  let s := reg base .ALM_TJ 110
  let s := (List.range 4).foldl (fun s c => reg s .DRM_CH_STATUS 0x32000000 c) s
  { s with alm := { s.alm with badRun := bad, goodRun := good, suspect := suspect }
           drm := { s.drm with chans := s.drm.chans.map fun c => { c with trained := true, polledAt := some 0 } } }

/-- A sample with the diode at `raw` / 256 C and the power stage at 50 C. -/
def aSample (raw : Int) : DieSample := ⟨raw, 200, 0⟩

theorem wit_dieTemp : (wSense 0 0 false).sound ∧ (wSense 0 0 false).alm.suspect = false ∧ (wSense 0 0 false).alm.badRun < 999 ∧
    (wSense 0 0 false).get .ALM_SENSE_STATUS_band ≤ 4 ∧ (wSense 0 0 false).on .CLK_MARGIN_force_en = false := by decide +kernel

theorem wit_dieSuspect :
    let nb := (wSense 999 0 false).neighboursOf (aSample 256)
    (wSense 999 0 false).sound ∧ (wSense 999 0 false).alm.badRun = 999 ∧ median2 ((nb.filter (·.2)).map (·.1)) = some 400 ∧
      nb = [(200, true), (200, true), (200, true)] ∧ (wSense 999 0 false).get .ALM_TJ_high = 110 := by decide +kernel

theorem wit_dieSuspected : (wSense 0 0 true).sound ∧ (wSense 0 0 true).alm.suspect = true ∧ (wSense 0 0 true).alm.goodRun < 999 := by
  decide +kernel

/-- The same with a sample at an instant, above ALM_TJ.high before, and one sample of 115 C or more before. -/
def wHot (at' : Instant) : State :=
  let s := wSense 0 0 false
  { s with alm := { s.alm with sampledAt := some at', high := true, fatalRun := 1 }, pwr := { s.pwr with vinAt := some at' } }

theorem wit_dieHot : (wHot 0).sound ∧ (wHot 0).dev.dev ≠ .dark ∧ (wHot 0).elapsed 0 1000000 = true ∧ (wHot 0).alm.high = true ∧
    (wHot 0).alm.fatalRun = 1 ∧ (wHot 0).get .ALM_TJ_high = 110 ∧ (wHot 1).sound ∧ (wHot 1).elapsed 1 1000000 = false ∧
    (wHot 1).pwr.vinAt = some 1 ∧ (wHot 0).diode (256 * 110) = 440 ∧ (wHot 0).diode (256 * 115) = 460 ∧
    (wHot 0).diode (256 * 105) = 420 := by decide +kernel

/-- A suspect diode without a valid neighbour, and with three that agree. -/
theorem wit_dieAlone :
    let s : State := { wSense 0 0 true with drm := { base.drm with chans := base.drm.chans.map fun c => { c with trained := false } } }
    s.sound ∧ s.alm.suspect = true ∧ s.alm.goodRun < 999 ∧ median2 (((s.neighboursOf ⟨0, 200, 6⟩).filter (·.2)).map (·.1)) = none ∧
    (wSense 0 0 true).neighboursOf (aSample 0) = [(200, true), (200, true), (200, true)] := by decide +kernel

/-- Three low samples of VIN in a row. -/
def wVin (n : Nat) : State := { base with pwr := { base.pwr with vinLowRun := n } }

theorem wit_vin : (wVin 3).sound ∧ (wVin 3).pwr.vinLowRun = 3 ∧ (wVin 3).pwr.vinLowRaised = false ∧ 200 < (wVin 3).get .PWR_VIN_LOW_limit := by
  decide +kernel

/-! ### Registers -/

/-- PRINTING, and HELD with and without F-HOLD. -/
def wState (d : DevState) (hold : Bool) : State := { base with dev := { base.dev with dev := d }, ltn := { base.ltn with fHold := hold } }

/-- GLB_RESET with key 0xA5 and warm. -/
def vWarm : Word := 0xA501

theorem wit_warmResetKey : Fld.GLB_RESET_key.of vWarm = 0xA5 ∧ vWarm.getLsbD 0 = true ∧ base.sound ∧ base.dev.dev = .standby ∧
    base.ltn.fHold = false ∧ Fld.GLB_RESET_key.of 0x5A01 ≠ 0xA5 := by decide +kernel

theorem wit_warmResetRefused : (wState .printing false).sound ∧ (wState .held true).sound ∧ (wState .printing false).dev.dev = .printing ∧
    (wState .held true).ltn.fHold = true := by decide +kernel

theorem wit_warmResetHeld : (wState .held false).sound ∧ (wState .firstLight false).sound := by decide +kernel

theorem wit_reserved : Reg.ofOffset 0x1D0000 = none ∧ base.dev.dev ≠ .dark := by decide +kernel

theorem wit_partWrite : Reg.ofOffset 0x60004 = some (.STO_REGION, []) ∧ base.blockBusy 0x60004 = false := by decide +kernel

theorem wit_fabWrite : Reg.ofOffset 0x60000 = some (.STO_CTRL, []) ∧ base.reaches 0x60000 = true ∧ base.xingOf 0x60000 = none ∧
    Reg.STO_CTRL.maskOf [.rw, .rws, .rwl, .w1c, .w1s, .wo] ≠ 0 ∧ ruleOf Reg.STO_CTRL ownWrites = none ∧
    ruleOf Reg.STO_CTRL writeEffects = none ∧ (base.writeChecks .STO_CTRL 0 0 0 0x111).all (fun c => !c.2) = true := by decide +kernel

theorem wit_waitingWrite : base.xingOf (Reg.MER_CTRL.addr 0 0 0) = some 36 ∧
    base.reaches (Reg.MER_CTRL.addr 0 0 0) = true ∧ (base.writeChecks .MER_CTRL 0 0 0 (base.rd .MER_CTRL)).all (fun c => !c.2) = true := by
  decide +kernel

theorem wit_refusedWrite : (3, true) ∈ base.writeChecks .MER_CTRL 0 0 0 0 ∧
    (base.writeChecks .MER_CTRL 0 0 0 0).all (fun c => !c.2 || decide (3 ≤ c.1)) = true := by decide +kernel

theorem wit_locked : base.dev.locked = true ∧ Reg.ofOffset (Reg.GLB_CTRL.addr 0 0 0) = some (.GLB_CTRL, []) := by decide +kernel

/-- A result in latch unit 2. -/
def wLatchHeld : State := { base with mer := { base.mer with latches := base.mer.latches.modify 2 fun _ => [⟨0, 0x112345678, 77⟩] } }

theorem wit_latchRead : wLatchHeld.sound ∧ wLatchHeld.mer.latches.getD 2 [] = [⟨0, 0x112345678, 77⟩] := by decide +kernel

/-- ALM_RD_ADDR at 0x100000, with a record there. -/
def wRead (busy : Bool) : State :=
  let s := reg base .ALM_RD_ADDR 0x100000
  { s with alm := { s.alm with flash := [(0x100000, 7), (0x100001, 1)], busy := busy } }

theorem wit_flashRead : (wRead false).sound ∧ ((wRead false).rd .ALM_RD_ADDR).toNat = 0x100000 ∧ (wRead false).almBusy = false ∧
    (wRead true).almBusy = true ∧ (wRead true).sound := by decide +kernel

/-- The read gives the bytes of the flash, the erased ones as 0xFF. -/
theorem test_flashRead : (wRead false).readReg (Reg.ALM_RD_DATA.addr 0 0 0) = some 0xFFFF0107 := by decide +kernel


/-- The second half of an 8-byte write with a part enabled, and a write of GLB_REFUSED in part. -/
theorem wit_partOfGlbRefused : Reg.ofOffset (Reg.GLB_REFUSED.addr 0 0 0) = some (.GLB_REFUSED, []) ∧
    (match exec (.registerWrite (Reg.GLB_REFUSED.addr 0 0 0) 1 3) base with
      | .next t => t.get .GLB_REFUSED_INFO_reason == 3
      | _ => false) = true := by decide +kernel
/-! ### Worked examples of the spec -/

/-- CRC-16 of "123456789" (R370). -/
theorem test_crc16 : crc16 [0x31, 0x32, 0x33, 0x34, 0x35, 0x36, 0x37, 0x38, 0x39] = 0x29B1 := by decide +kernel

/-- The layered words of R543's example: g = 150 and o = -3, and a gain clamped to 255. -/
theorem test_layeredWord : layeredWord 0x8000 (some (35584, -3, 0)) = 0x96F4 ∧
    (layeredWord 0xC800 (some (40960, 0, 0))).extractLsb' 8 8 = 255 := by decide +kernel

/-- One nozzle through the stages: row 61, samples 138 and 143, curve value 2,100, word 0x9AF4. -/
theorem test_nozzle : upsample (fun i => if i = 19000 then some 138 else some 143) 20000 600 true 38001 = some 141 ∧
    correct 2100 0x9AF4 = 2289 := by decide +kernel

/-- The fire time and the row delay unit of the example of R196 at 0.030236220 units/ns. -/
theorem test_fireTime : fireTime ⟨false, 1000000000, 316270000 * 65536, 30236220 / 1000000000, 0⟩ 316270878 = some 1000029038 ∧
    rowDelayUnit ⟨false, 1000000000, 316270000 * 65536, 30236220 / 1000000000, 0⟩ 1000029038 = 529 := by decide +kernel

/-- The link bound of a forerunner HDM of 32,768 nozzles (R235). -/
theorem test_linkBound : linePayload 1 32768 = 8192 ∧ lineBlocks 1 32768 = 514 ∧ linkBound 0 1 32768 = 117664 := by decide +kernel

/-- The entry of three pulses of Wick's example lasts 8,100 ns (R146). -/
theorem test_entryDuration : entryDuration
    [0x64, 0x90, 0x01, 0x40, 0x06, 0xF4, 0x41, 0x1F, 0x64, 0x90, 0x01, 0x40, 0x06, 0xF4, 0x41, 0x1F,
     0xC6, 0x00, 0x00, 0x4C, 0x04, 0xF4, 0x41, 0x1F] = 8100 := by decide +kernel

/-- The identity and capability registers as a driver reads them. -/
theorem test_identity : base.readReg 0 = some 0x4E4C8824 ∧ base.readReg 4 = some 0x00020111 ∧ base.readReg 0x10 = some 0x88184211 ∧
    base.readReg 0x14 = some 0x40848880 ∧ base.readReg 0x18 = some 0x10201000 := by decide +kernel

/-- The lines that rows 0 and 1,023 of a camera frame image in R269's example. -/
theorem test_rowLine :
    let s := reg (reg base .PHO_CAM_POS 26003150 1) .PHO_ROW_PITCH (512 * 65536) 1
    s.rowLine 1 999939528 0 = 3804438 ∧ s.rowLine 1 999939528 1023 = 3802392 := by decide +kernel

/-! ### Ill-formed commands are refused, one for each check -/

theorem test_wfPorts : Instr.wf (.sendDecision 24) = false ∧ Instr.wf (.downTimeout 26) = false ∧ Instr.wf (.tempTimeout 0 8) = false ∧
    Instr.wf (.hbSend 2) = false ∧ Instr.wf (.downTimeout 25) = true ∧ Instr.wf (.sendDecision 23) = true := by decide +kernel

theorem test_wfDescriptors : Instr.wf (.seal 0 (List.replicate 33 0)) = false ∧ Instr.wf (.seal 64 (List.replicate 32 0)) = false ∧
    Instr.wf (.seal 63 (List.replicate 32 0)) = true ∧ Instr.wf (.completionPost 64) = false := by decide +kernel

theorem test_wfMeridian : Instr.wf (.quadWindowEnd 2) = false ∧ Instr.wf (.latchSoft 8) = false ∧ Instr.wf (.cmpFire 16) = false ∧
    Instr.wf (.outputPulseEnd (.strobe 4)) = false ∧ Instr.wf (.outputPulseEnd (.camtrig 4)) = false ∧
    Instr.wf (.outputPulseEnd (.tpulse 8)) = false := by decide +kernel

theorem test_wfPhotometer : Instr.wf (.deskew 4) = false ∧ Instr.wf (.i2cNak 0 16) = false ∧ Instr.wf (.placementResolve 4) = false ∧
    Instr.wf (.waitingLoadCommit 0 0) = false ∧ Instr.wf (.waitingLoadCommit 11 0) = false ∧
    Instr.wf (.waitingLoadCommit 1 24) = false := by decide +kernel

theorem test_wfDram : Instr.wf (.zqLatch 4) = false ∧ Instr.wf (.refreshDue 0 2 0) = false ∧ Instr.wf (.refreshDue 0 0 8) = false ∧
    Instr.wf (.dramRequest 42 false 0 1 []) = false ∧ Instr.wf (.dramRequest 25 false 32 1 []) = false ∧
    Instr.wf (.dramRequest 25 false 192 2 []) = false ∧ Instr.wf (.dramRequest 25 false 0 0 []) = false ∧
    Instr.wf (.dramRequest 25 false (2 ^ 35) 1 []) = false ∧ Instr.wf (.dramRequest 0 false 0 1 []) = false ∧
    Instr.wf (.dramRequest 35 false 0 1 []) = false ∧ Instr.wf (.dramRequest 25 false 0 1 []) = true := by decide +kernel

theorem test_wfOthers : Instr.wf (.vote 2 []) = false ∧ Instr.wf (.quietRecovery 3) = false ∧ Instr.wf (.faultForce 64 0) = false ∧
    Instr.wf (.crossingTimeout 40 ⟨false, 0, false⟩) = false ∧ Instr.wf (.pulseFire 8) = false ∧ Instr.wf (.registerWrite 0x1000000 0 15) = false ∧
    Instr.wf (.registerWrite 0xFFFFFF 0 15) = true := by decide +kernel

/-- No word spells a command (the table gives no row any bits). -/
theorem test_noWordDecodes : decodeTableWord 0 0 = none ∧ decodeTableWord 32 0xFFFFFFFF = none := by decide +kernel

end Sys2Proof.Tests
end

section
/-! The machine right after reset, read through the model's accessors (R15, R430), and the obligation about it. -/

namespace Sys2Proof.Machine

/-- No register is stored, so each one reads as its reset value. -/
@[simp] theorem State.reset_rd (r : Reg) (i j k : Nat) : State.reset.rd r i j k = r.reset i j := rfl

@[simp] theorem State.reset_ring (r : Nat) : State.reset.ring r = Ring.reset :=
  List.getElem?_getD_replicate_default_eq Ring.reset 64 r

@[simp] theorem State.reset_link (p : Nat) : State.reset.link p = Link.reset :=
  List.getElem?_getD_replicate_default_eq Link.reset 26 p

@[simp] theorem State.reset_classRaised (c : Nat) : State.reset.classRaised c = false :=
  congrArg ClassState.raised (List.getElem?_getD_replicate_default_eq ClassState.reset 3 (c - 1))

/-- Settles O3: the register file, the rings, the links and the fault classes by the lemmas above, for every index; the
other parts are fields of the reset state. -/
theorem resetValues : Obligations.ResetValues := by
  unfold Obligations.ResetValues
  have rings : ∀ r, (State.reset.ring r).st = .disabled := fun r => congrArg Ring.st (State.reset_ring r)
  have links : ∀ p, (State.reset.link p).st = .down := fun p => congrArg Link.st (State.reset_link p)
  exact ⟨State.reset_rd, rfl, rfl, rings, links, State.reset_classRaised, rfl, rfl, rfl, rfl, rfl⟩

end Sys2Proof.Machine
end

section
/-! Frames: what a chain of operations leaves alone is what each of its operations leaves alone. -/

namespace Sys2Proof.Machine

theorem Part.same_trans (x : Part) {s t u : State} (h : x.same s t) (h' : x.same t u) : x.same s u := by
  cases x with
  | regs | mem | flash => exact fun a => (h' a).trans (h a)
  | pcie => exact ⟨h'.1.trans h.1, h'.2.trans h.2⟩
  | _ => exact Eq.trans h' h

theorem Part.same_refl (x : Part) (s : State) : x.same s s := by
  cases x with
  | regs | mem | flash => exact fun _ => rfl
  | pcie => exact ⟨rfl, rfl⟩
  | _ => exact rfl

theorem State.onlyIn.refl (s : State) (l : List Part) : s.onlyIn s l := fun x => .inr (x.same_refl s)

theorem State.onlyIn.mono {s t : State} {l m : List Part} (h : s.onlyIn t l) (hm : l ⊆ m) : s.onlyIn t m := fun x =>
  (h x).imp_left fun hx => hm hx

theorem State.onlyIn.trans {s t u : State} {l m : List Part} (h : s.onlyIn t l) (h' : t.onlyIn u m) : s.onlyIn u (l ++ m) := by
  intro x
  rcases h x, h' x with ⟨hx | hx, hx' | hx'⟩
  case inr.inr => exact .inr (x.same_trans hx hx')
  all_goals exact .inl (by simp [*])

theorem State.onlyIn.same {s t : State} {l : List Part} (h : s.onlyIn t l) (x : Part) (hx : x ∉ l := by decide) : x.same s t :=
  (h x).resolve_left hx

theorem State.onlyIn.pipe {s t : State} {l : List Part} (h : s.onlyIn t l) (q : Nat) (hx : .pipes ∉ l := by decide) :
    t.pipe q = s.pipe q := congrArg (·.getD q Pipe.reset) (h.same .pipes hx)

theorem State.onlyIn.link {s t : State} {l : List Part} (h : s.onlyIn t l) (q : Nat) (hx : .links ∉ l := by decide) :
    t.link q = s.link q := congrArg (·.getD q Link.reset) (h.same .links hx)

theorem State.onlyIn_ite {s t u : State} {l : List Part} (c : Prop) [Decidable c] (h : s.onlyIn t l) (h' : s.onlyIn u l) :
    s.onlyIn (if c then t else u) l := by
  split
  · exact h
  · exact h'

theorem State.onlyIn_if {s t : State} {l : List Part} (c : Prop) [Decidable c] (h : s.onlyIn t l) : s.onlyIn (if c then t else s) l :=
  State.onlyIn_ite c h (.refl s l)

/-- A fold of operations stays in a preorder that each of them stays in. -/
theorem State.each_rel {α : Type} {R : State → State → Prop} (refl : ∀ s, R s s) (trans : ∀ {s t u}, R s t → R t u → R s u)
    {f : State → α → State} (hf : ∀ s a, R s (f s a)) (s : State) (l : List α) : R s (s.each l f) := by
  unfold State.each
  induction l generalizing s with
  | nil => exact refl s
  | cons a t ih => exact trans (hf s a) (ih (f s a))

theorem State.each_onlyIn {α : Type} {parts : List Part} {f : State → α → State} (hf : ∀ (s : State) a, s.onlyIn (f s a) parts)
    (s : State) (l : List α) : s.onlyIn (s.each l f) parts :=
  State.each_rel (R := fun s t => s.onlyIn t parts) (fun s => .refl s parts) (fun h h' => (h.trans h').mono (by simp)) hf s l

theorem State.each_same {α β : Type} (g : State → β) {f : State → α → State} (hf : ∀ s a, g (f s a) = g s) (s : State) (l : List α) :
    g (s.each l f) = g s :=
  State.each_rel (R := fun s t => g t = g s) (fun _ => rfl) (fun h h' => h'.trans h) hf s l

/-- From `s` to `t` nothing changes but the parts named, and no register but those at the offsets named. -/
def State.touches (s t : State) (parts : List Part) (offs : List Nat) : Prop := s.onlyIn t parts ∧ s.regsOnlyAt t offs

theorem State.touches.refl (s : State) (l : List Part) (a : List Nat) : s.touches s l a := ⟨.refl s l, s.regsOnlyAt_refl a⟩

theorem State.touches.mono {s t : State} {l m : List Part} {a b : List Nat} (h : s.touches t l a) (hl : l ⊆ m := by decide)
    (ha : a ⊆ b := by simp) : s.touches t m b := ⟨h.1.mono hl, fun off => (h.2 off).imp_left fun hx => ha hx⟩

theorem State.touches.trans {s t u : State} {l m : List Part} {a b : List Nat} (h : s.touches t l a) (h' : t.touches u m b) :
    s.touches u (l ++ m) (a ++ b) := ⟨h.1.trans h'.1, State.regsOnlyAt_trans h.2 h'.2⟩

theorem State.onlyIn.touches {s t : State} {l : List Part} (h : s.onlyIn t l) (hl : .regs ∉ l := by decide) : s.touches t l [] :=
  ⟨h, fun off => .inr (h.same .regs hl off)⟩

theorem State.touches_if {s t : State} {l : List Part} {a : List Nat} (c : Prop) [Decidable c] (h : s.touches t l a) :
    s.touches (if c then t else s) l a := by
  split
  · exact h
  · exact .refl s l a

theorem State.each_touches {α : Type} {parts : List Part} {offs : List Nat} {f : State → α → State}
    (hf : ∀ (s : State) a, s.touches (f s a) parts offs) (s : State) (l : List α) : s.touches (s.each l f) parts offs :=
  State.each_rel (R := fun s t => s.touches t parts offs) (fun s => .refl s parts offs)
    (fun h h' => (h.trans h').mono (by simp) (by simp)) hf s l

/-- What an update leaves of every element of a list, it leaves of the one updated. -/
theorem getD_upd_proj {α β : Type} (g : α → β) {f : α → α} (hf : ∀ x, g (f x) = g x) (i j : Nat) (l : List α) (d : α) :
    g ((upd i f l).getD j d) = g (l.getD j d) := by
  by_cases same : j = i
  · subst same
    by_cases inside : j < l.length
    · rw [getD_upd_same inside, hf]
    · rw [List.getD_eq_default _ _ (by rw [length_upd]; omega), List.getD_eq_default _ _ (by omega)]
  · rw [getD_upd_ne same]

/-! ### One frame for each update -/

theorem State.wr_onlyIn (s : State) (r : Reg) (v : Word) (i j k : Nat) : s.onlyIn (s.wr r v i j k) [.regs] := by
  intro x; cases x <;> simp [Part.same]

theorem State.count_touches (s : State) (f : Fld) (i j k n : Nat) : s.touches (s.count f i j k n) [.regs] [f.reg.addr i j k] :=
  ⟨s.wr_onlyIn _ _ _ _ _, s.wr_regsOnlyAt _ _ _ _ _⟩

theorem State.raise_onlyIn (s : State) (x : Src) (detail : Word) (inst0 inst1 : Nat) (cls action : Option Nat) :
    s.onlyIn (s.raise x detail inst0 inst1 cls action) [.ltn] := by
  intro x; cases x <;> simp [Part.same]

theorem State.emit_onlyIn (s : State) (o : Output) : s.onlyIn (s.emit o) [.out] := by
  intro x; cases x <;> simp [Part.same]

theorem State.updPipe_onlyIn (s : State) (p : Nat) (f : Pipe → Pipe) : s.onlyIn (s.updPipe p f) [.pipes] := by
  intro x; cases x <;> simp [Part.same]

theorem State.updLink_onlyIn (s : State) (p : Nat) (f : Link → Link) : s.onlyIn (s.updLink p f) [.links] := by
  intro x; cases x <;> simp [Part.same]

theorem State.updWick_onlyIn (s : State) (p : Nat) (f : WickPort → WickPort) : s.onlyIn (s.updWick p f) [.wck] := by
  intro x; cases x <;> simp [Part.same]

theorem State.traffic_onlyIn (s : State) : s.onlyIn s.traffic [.pcie] := by
  intro x; cases x <;> simp [Part.same, State.traffic]

theorem State.setTab_onlyIn (s : State) (x : Tab) : s.onlyIn (s.setTab x) [.tabs] := by
  intro x; cases x <;> simp [Part.same, State.setTab]

/-- A register outside the offsets named stays. -/
theorem State.regsOnlyAt.rd {s t : State} {l : List Nat} (h : s.regsOnlyAt t l) (r : Reg) (i j k : Nat) (hr : r.addr i j k ∉ l) :
    t.rd r i j k = s.rd r i j k := by
  unfold State.rd SMap.get
  rw [(h _).resolve_left hr]

theorem State.regsOnlyAt.get {s t : State} {l : List Nat} (h : s.regsOnlyAt t l) (f : Fld) (i j k : Nat)
    (hr : f.reg.addr i j k ∉ l) : t.get f i j k = s.get f i j k := by
  unfold State.get
  rw [h.rd f.reg i j k hr]

/-! ### Fields of a register -/

theorem testBit_field (w : Word) (hi lo i : Nat) : (field w hi lo).testBit i = (decide (i < hi + 1 - lo) && w.toNat.testBit (lo + i)) := by
  simp [field, nbits, Nat.testBit_mod_two_pow, Nat.testBit_shiftRight]

/-- A word with a field replaced, as the parts above, in and below the field. -/
theorem putField_parts (w : Word) (hi lo v : Nat) : w.toNat - field w hi lo <<< lo + (v % 2 ^ (hi + 1 - lo)) <<< lo =
    2 ^ lo * (2 ^ (hi + 1 - lo) * (w.toNat / 2 ^ lo / 2 ^ (hi + 1 - lo)) + v % 2 ^ (hi + 1 - lo)) + w.toNat % 2 ^ lo := by
  have low := Nat.div_add_mod w.toNat (2 ^ lo)
  have high := congrArg (2 ^ lo * ·) (Nat.div_add_mod (w.toNat / 2 ^ lo) (2 ^ (hi + 1 - lo)))
  simp only [field, nbits, Nat.shiftLeft_eq, Nat.shiftRight_eq_div_pow, Nat.mul_add, Nat.mul_comm _ (2 ^ lo)] at high ⊢
  omega

/-- A word with a field replaced, bit by bit. -/
theorem testBit_putField (w : Word) {hi lo : Nat} (v i : Nat) (h : lo ≤ hi) (h32 : hi < 32) :
    (putField w hi lo v).toNat.testBit i = if lo ≤ i ∧ i ≤ hi then v.testBit (i - lo) else w.toNat.testBit i := by
  unfold putField
  rw [putField_parts, BitVec.toNat_ofNat, Nat.testBit_mod_two_pow, Nat.testBit_two_pow_mul_add _ (Nat.mod_lt _ (Nat.two_pow_pos lo)),
    Nat.testBit_two_pow_mul_add _ (Nat.mod_lt _ (Nat.two_pow_pos _))]
  simp only [Nat.testBit_mod_two_pow, Nat.testBit_div_two_pow]
  have top : ¬ i < 32 → w.toNat.testBit i = false := fun hi => BitVec.testBit_toNat w ▸ BitVec.getLsbD_of_ge w i (by omega)
  by_cases inside : lo ≤ i ∧ i ≤ hi
  · simp [inside, show ¬ i < lo by omega, show i < 32 by omega, show i - lo < hi + 1 - lo by omega]
  · by_cases below : i < lo
    · simp [inside, below, show i < 32 by omega]
    · have back : i - lo - (hi + 1 - lo) + (hi + 1 - lo) + lo = i := by omega
      by_cases h1 : i < 32
      · simp [inside, below, h1, back, show ¬ i - lo < hi + 1 - lo by omega]
      · simp [inside, h1, top h1]

/-- A field that has been put is read back. -/
theorem field_putField_same (w : Word) {hi lo : Nat} (v : Nat) (h : lo ≤ hi) (h32 : hi < 32) :
    field (putField w hi lo v) hi lo = v % 2 ^ (hi + 1 - lo) := by
  refine Nat.eq_of_testBit_eq fun i => ?_
  rw [testBit_field, testBit_putField w v _ h h32, Nat.testBit_mod_two_pow]
  by_cases hi' : i < hi + 1 - lo
  · rw [if_pos (by omega), Nat.add_sub_cancel_left]
  · simp [hi']

/-- A field beside the one put stays. -/
theorem field_putField_ne (w : Word) {hi lo hi' lo' : Nat} (v : Nat) (h : lo ≤ hi) (h32 : hi < 32) (h' : hi' < lo ∨ hi < lo') :
    field (putField w hi lo v) hi' lo' = field w hi' lo' := by
  refine Nat.eq_of_testBit_eq fun i => ?_
  rw [testBit_field, testBit_field, testBit_putField w v _ h h32]
  by_cases hi : i < hi' + 1 - lo'
  · rw [if_neg (by omega)]
  · simp [hi]

/-- A field written is read back. -/
theorem State.get_set_same {s : State} (f : Fld) (v i j k : Nat) (hs : s.regs.sorted = true) (h : f.lo ≤ f.hi) (h32 : f.hi < 32) :
    (s.set f v i j k).get f i j k = v % 2 ^ (f.hi + 1 - f.lo) := by
  unfold State.get State.set
  rw [State.rd_wr_same _ _ _ _ _ _ hs, field_putField_same _ _ h h32]

/-- A field beside the one written, in the same register, stays. -/
theorem State.get_set_ne {s : State} (f g : Fld) (v i j k : Nat) (hs : s.regs.sorted = true) (hr : g.reg = f.reg) (h : f.lo ≤ f.hi)
    (h32 : f.hi < 32) (hd : g.hi < f.lo ∨ f.hi < g.lo) : (s.set f v i j k).get g i j k = s.get g i j k := by
  unfold State.get State.set
  rw [hr, State.rd_wr_same _ _ _ _ _ _ hs, field_putField_ne _ _ h h32 hd]

/-- A counter that counts is one higher, or stays at its greatest value. -/
theorem State.counted_count {s : State} (f : Fld) (i : Nat) (hs : s.regs.sorted = true) (h : f.lo ≤ f.hi) (h32 : f.hi < 32) :
    s.counted (s.count f i) f i := by
  have top : min (s.get f i + 1) (2 ^ (f.hi + 1 - f.lo) - 1) < 2 ^ (f.hi + 1 - f.lo) :=
    Nat.lt_of_le_of_lt (Nat.min_le_right _ _) (Nat.sub_lt (Nat.two_pow_pos _) Nat.one_pos)
  exact (State.get_set_same f _ i 0 0 hs h h32).trans (Nat.mod_eq_of_lt top)

/-- Operations around a count that leave the counter alone leave it counted. -/
theorem State.counted.around {s u v t : State} {f : Fld} {i : Nat} (h : u.counted v f i) (hu : u.get f i = s.get f i)
    (hv : t.get f i = v.get f i) : s.counted t f i := by
  unfold State.counted at h ⊢
  rw [hv, h, hu]

end Sys2Proof.Machine
end

section
/-! Link frames: what leaves a link, and the fields of a LINE frame as they stand on the wire (R223, R243, R244). -/

namespace Sys2Proof.Machine

theorem toLe_length (n v : Nat) : (toLe n v).length = n := by
  induction n generalizing v with
  | zero => rfl
  | succ n ih => rw [toLe, List.length_cons, ih]

theorem le_toLe (n v : Nat) : le (toLe n v) = v % 2 ^ (8 * n) := by
  induction n generalizing v with
  | zero => simp [toLe, le, Nat.mod_one]
  | succ n ih =>
    rw [toLe, le, ih, BitVec.toNat_ofNat, Nat.mul_succ, Nat.add_comm (8 * n), Nat.pow_add, Nat.mod_mul]

/-- A field within the first of two runs of bytes is read there. -/
theorem leAt_append (a b : Bytes) {o n : Nat} (h : o + n ≤ a.length) : leAt (a ++ b) o n = leAt a o n := by
  unfold leAt
  rw [List.drop_append_of_le_length (by omega), List.take_append_of_le_length (by simp; omega)]

theorem byteAt_append (a b : Bytes) {o : Nat} (h : o < a.length) : byteAt (a ++ b) o = byteAt a o := by
  unfold byteAt
  rw [List.getD_append _ _ _ _ h]

/-- The first 30 bytes of a LINE header: flags, payload length, sequence number and bytes 8 to 23, and zeros for the rest. -/
def lineHead (flags len : Nat) (seq : BitVec 32) (mid : Bytes) : Bytes :=
  [1, BitVec.ofNat 8 flags] ++ toLe 2 len ++ toLe 4 seq.toNat ++ mid ++ List.replicate 6 0

theorem lineMid_length (l : Line) (f : Time) (rdu bar blanks bands port : Nat) : (lineMid l f rdu bar blanks bands port).length = 16 := by
  simp [lineMid, toLe_length]

theorem lineHead_length (flags len : Nat) (seq : BitVec 32) {mid : Bytes} (h : mid.length = 16) : (lineHead flags len seq mid).length = 30 := by
  simp [lineHead, toLe_length, h]

/-- A LINE frame as it leaves: its header with the CRC, its payload, and zero bytes up to a whole block. -/
theorem finishFrame_line (flags : Nat) (l : Line) (f : Time) (rdu bar blanks bands port : Nat) (pay : Bytes) (seq : BitVec 32) :
    finishFrame (rawFrame 1 flags (lineMid l f rdu bar blanks bands port) pay) seq =
      withCrc (lineHead flags pay.length seq (lineMid l f rdu bar blanks bands port)) ++ (pay ++
        List.replicate ((16 - (32 + pay.length) % 16) % 16) 0) := by
  have kind : byteAt (rawFrame 1 flags (lineMid l f rdu bar blanks bands port) pay) 0 = 1 := rfl
  have payload : (rawFrame 1 flags (lineMid l f rdu bar blanks bands port) pay).drop 32 = pay := rfl
  have head : splice ((rawFrame 1 flags (lineMid l f rdu bar blanks bands port) pay).take 28) 4 (toLe 4 seq.toNat) ++ toLe 2 0
      = lineHead flags pay.length seq (lineMid l f rdu bar blanks bands port) := rfl
  have length : (withCrc (lineHead flags pay.length seq (lineMid l f rdu bar blanks bands port)) ++ pay).length = 32 + pay.length := by
    simp [withCrc, toLe_length, lineHead_length, lineMid_length]
    omega
  unfold finishFrame
  simp only [kind, true_or, if_true, payload, head, length, List.append_assoc]

section
variable (flags : Nat) (l : Line) (f : Time) (rdu bar blanks bands port : Nat) (pay : Bytes) (seq : BitVec 32)

/-- A field within the first 30 bytes of a LINE frame. -/
theorem leAt_line {o n : Nat} (h : o + n ≤ 30) :
    leAt (finishFrame (rawFrame 1 flags (lineMid l f rdu bar blanks bands port) pay) seq) o n =
      leAt (lineHead flags pay.length seq (lineMid l f rdu bar blanks bands port)) o n := by
  rw [finishFrame_line, withCrc, List.append_assoc, leAt_append]
  rwa [lineHead_length _ _ _ (lineMid_length ..)]

theorem byteAt_line {o : Nat} (h : o < 30) :
    byteAt (finishFrame (rawFrame 1 flags (lineMid l f rdu bar blanks bands port) pay) seq) o =
      byteAt (lineHead flags pay.length seq (lineMid l f rdu bar blanks bands port)) o := by
  rw [finishFrame_line, withCrc, List.append_assoc, byteAt_append]
  rwa [lineHead_length _ _ _ (lineMid_length ..)]

theorem line_type : byteAt (finishFrame (rawFrame 1 flags (lineMid l f rdu bar blanks bands port) pay) seq) 0 = 1 :=
  byteAt_line _ _ _ _ _ _ _ _ _ _ (by decide)

theorem line_flags : byteAt (finishFrame (rawFrame 1 flags (lineMid l f rdu bar blanks bands port) pay) seq) 1 = flags % 256 :=
  (byteAt_line _ _ _ _ _ _ _ _ _ _ (by decide)).trans (BitVec.toNat_ofNat ..)

theorem line_payloadLength :
    leAt (finishFrame (rawFrame 1 flags (lineMid l f rdu bar blanks bands port) pay) seq) 2 2 = pay.length % 65536 :=
  (leAt_line _ _ _ _ _ _ _ _ _ _ (by decide)).trans (le_toLe 2 _)

theorem line_seq : leAt (finishFrame (rawFrame 1 flags (lineMid l f rdu bar blanks bands port) pay) seq) 4 4 = seq.toNat :=
  (leAt_line _ _ _ _ _ _ _ _ _ _ (by decide)).trans ((le_toLe 4 _).trans (Nat.mod_eq_of_lt seq.isLt))

theorem line_index :
    leAt (finishFrame (rawFrame 1 flags (lineMid l f rdu bar blanks bands port) pay) seq) 8 4 = l.toNat % 2 ^ 32 :=
  (leAt_line _ _ _ _ _ _ _ _ _ _ (by decide)).trans ((le_toLe 4 _).trans (Nat.mod_mod _ _))

theorem line_fireTime : leAt (finishFrame (rawFrame 1 flags (lineMid l f rdu bar blanks bands port) pay) seq) 12 4 = f.toNat :=
  (leAt_line _ _ _ _ _ _ _ _ _ _ (by decide)).trans ((le_toLe 4 _).trans (Nat.mod_eq_of_lt f.isLt))

theorem line_rowDelayUnit :
    leAt (finishFrame (rawFrame 1 flags (lineMid l f rdu bar blanks bands port) pay) seq) 16 2 = rdu % 65536 :=
  (leAt_line _ _ _ _ _ _ _ _ _ _ (by decide)).trans (le_toLe 2 _)

theorem line_payload :
    ((finishFrame (rawFrame 1 flags (lineMid l f rdu bar blanks bands port) pay) seq).drop 32).take pay.length = pay := by
  have length : (withCrc (lineHead flags pay.length seq (lineMid l f rdu bar blanks bands port))).length = 32 := by
    simp [withCrc, toLe_length, lineHead_length, lineMid_length]
  rw [finishFrame_line, List.drop_left' length, List.take_left]

theorem line_blank_length :
    (finishFrame (rawFrame 1 flags (lineMid l f rdu bar blanks bands port) []) seq).length = 32 := by
  rw [finishFrame_line]
  simp [withCrc, toLe_length, lineHead_length, lineMid_length]

end

/-! ### What leaves a link -/

theorem State.sendFrame_onlyIn (s : State) (p : Nat) (frame : Bytes) : s.onlyIn (s.sendFrame p frame) [.links, .out] := by
  unfold State.sendFrame State.sendIdle
  exact (((s.updLink_onlyIn p _).trans (State.emit_onlyIn _ _)).trans ((State.updLink_onlyIn _ p _).trans (State.emit_onlyIn _ _))).mono
    (by decide)

/-- A frame leaves on its lane, and an IDLE block behind it (R223). -/
theorem State.sendFrame_out (s : State) (p : Nat) (frame : Bytes) :
    ∃ lane block lane', (s.sendFrame p frame).out = s.out ++ [.linkFrame p frame lane, .idle p block lane'] :=
  ⟨_, _, _, List.append_assoc ..⟩

theorem State.sendFrame_link_ne (s : State) {p q : Nat} (frame : Bytes) (h : q ≠ p) : (s.sendFrame p frame).link q = s.link q :=
  (State.link_updLink_ne _ _ h).trans (State.link_updLink_ne _ _ h)

theorem State.emit_link (s : State) (o : Output) (q : Nat) : (s.emit o).link q = s.link q := rfl

theorem State.link_updLink_proj {α : Type} (s : State) (p q : Nat) {f : Link → Link} (g : Link → α)
    (hf : ∀ l, g (f l) = g l := by exact fun _ => rfl) : g ((s.updLink p f).link q) = g (s.link q) :=
  getD_upd_proj g hf p q s.links Link.reset

/-- A frame moves only the scrambler on: the line numbers of a link stay. -/
theorem State.sendFrame_lineNext (s : State) (p q : Nat) (frame : Bytes) :
    ((s.sendFrame p frame).link q).lineNext = (s.link q).lineNext := by
  unfold State.sendFrame State.sendIdle
  simp only [State.emit_link]
  refine (State.link_updLink_proj _ p q Link.lineNext).trans ?_
  rw [State.emit_link]
  exact State.link_updLink_proj s p q Link.lineNext

end Sys2Proof.Machine
end

section
/-! The send decision (R23 to R28): what it brings into force on its port, what it sends, and that the line leaves the pipeline. -/

namespace Sys2Proof.Machine

/-! ### What a line brings into force on its port (R155, R158, R165) -/

theorem State.headRaises_touches (s : State) (p h : Nat) (temp : BitVec 16) (e : HeadEvents) (d : Word) :
    s.touches (s.headRaises p h temp e d) [.ltn, .regs] [Reg.WCK_HOT_RECOVER_CNT.addr p 0 0] := by
  unfold State.headRaises
  exact ((((State.touches_if _ (s.raise_onlyIn _ _ _ _ _ _).touches).trans
    (State.touches_if _ (State.raise_onlyIn _ _ _ _ _ _ _).touches)).trans
    (State.touches_if _ (State.raise_onlyIn _ _ _ _ _ _ _).touches)).trans
    (State.touches_if _ (State.count_touches _ .WCK_HOT_RECOVER_CNT p 0 0 1))).mono (ha := fun _ h => h)

theorem State.reevalHeads_touches (s : State) (p : Nat) (body : Bytes) :
    s.touches (s.reevalHeads p body) [.wck, .ltn, .regs] [Reg.WCK_HOT_RECOVER_CNT.addr p 0 0] :=
  State.each_touches (fun s h => ((((s.updWick_onlyIn p _).touches).trans (State.headRaises_touches _ p h _ _ _)).trans
    (State.updWick_onlyIn _ p _).touches).mono) s _

theorem State.waveInForce_touches (s : State) (p : Nat) (body : Bytes) (since : Line) (loaded : Bool) :
    s.touches (s.waveInForce p body since loaded) [.tabs, .wck, .ltn, .regs] [Reg.WCK_HOT_RECOVER_CNT.addr p 0 0] :=
  (((s.setTab_onlyIn _).touches.trans (State.updWick_onlyIn _ p _).touches).trans (State.reevalHeads_touches _ p body)).mono

/-- The wave table and the bank that a line reaches. -/
theorem State.reachBank_touches (s : State) (p : Nat) (l : Line) :
    s.touches (s.reachBank p l) [.tabs, .wck, .ltn, .regs] [Reg.WCK_HOT_RECOVER_CNT.addr p 0 0] := by
  have bank (s : State) : s.touches (match (s.wick p).bankFrom with
      | some (e, b) => if lineLe e l then s.takeBank p b else s
      | none => s) [.wck] [] := by
    split
    · exact State.touches_if _ (s.updWick_onlyIn p _).touches
    · exact .refl s _ _
  have table : s.touches (match (s.tab 8 p).pend with
      | some (e, v) => if lineLe e l then (s.updWick p fun w => { w with bankAcked := false }).waveInForce p v.bytes e else s
      | none => s) [.wck, .tabs, .wck, .ltn, .regs] [Reg.WCK_HOT_RECOVER_CNT.addr p 0 0] := by
    split
    · exact State.touches_if _ ((s.updWick_onlyIn p _).touches.trans (State.waveInForce_touches _ p _ _ _))
    · exact .refl s _ _
  exact (table.trans (bank _)).mono

/-- What a send decision of line `l` on port `p` brings into force there. -/
def State.reach (s : State) (p : Nat) (l : Line) : State := (s.reachBank p l).reachHeads p l

theorem State.reach_touches (s : State) (p : Nat) (l : Line) :
    s.touches (s.reach p l) [.tabs, .wck, .ltn, .regs] [Reg.WCK_HOT_RECOVER_CNT.addr p 0 0] :=
  ((s.reachBank_touches p l).trans (State.updWick_onlyIn _ p _).touches).mono

theorem State.reach_sound {s : State} (p : Nat) (l : Line) (h : s.sound) : (s.reach p l).sound :=
  State.reachHeads_sound _ p l (State.reachBank_sound s p l h)

theorem State.reach_part (s : State) (p : Nat) (l : Line) (x : Part) (h : x ∉ [.tabs, .wck, .ltn, .regs] := by decide) :
    x.same s (s.reach p l) := (s.reach_touches p l).1.same x h

theorem State.reach_pipe (s : State) (p : Nat) (l : Line) (q : Nat) : (s.reach p l).pipe q = s.pipe q :=
  (s.reach_touches p l).1.pipe q

theorem State.reach_link (s : State) (p : Nat) (l : Line) (q : Nat) : (s.reach p l).link q = s.link q :=
  (s.reach_touches p l).1.link q

theorem State.reach_printing (s : State) (p : Nat) (l : Line) : (s.reach p l).printing = s.printing :=
  congrArg (·.dev == .printing) (s.reach_part p l .dev)

/-- While the device prints, the check of the lookahead is that of the entry to PRINTING (R236). -/
theorem State.lineActive_of_printing {s : State} (p : Nat) (h : s.printing = true) :
    s.lineActive p = (s.active p && !(s.link p).laShort) := by
  have prints : s.dev.dev = .printing := by simpa [State.printing] using h
  simp [State.lineActive, State.tooShort, State.devIn, prints]

theorem State.reach_lineActive {s : State} (p : Nat) (l : Line) (h : s.printing = true) : (s.reach p l).lineActive p = s.lineActive p := by
  rw [State.lineActive_of_printing p h, State.lineActive_of_printing p ((s.reach_printing p l).trans h)]
  simp only [State.active, State.reach_link]

/-! ### A LINE frame leaves (R24, R25) -/

section
variable (s : State) (p : Nat) (l : Line) (f : Time) (rdu : Nat) (seq : BitVec 32) (ovs : Bool) (payload : Option Bytes)

theorem State.sendLine_touches :
    s.touches (s.sendLine p l f rdu seq ovs payload) [.pipes, .links, .wck, .regs, .out] [Reg.GHL_SEQ.addr p 0 0] := by
  have number : s.touches (s.wr .GHL_SEQ seq p) [.regs] [Reg.GHL_SEQ.addr p 0 0] := ⟨s.wr_onlyIn _ _ _ _ _, s.wr_regsOnlyAt _ _ _ _ _⟩
  exact ((((number.trans (State.updLink_onlyIn _ p _).touches).trans (State.updWick_onlyIn _ p _).touches).trans
    (State.updPipe_onlyIn _ p _).touches).trans (State.sendFrame_onlyIn _ p _).touches).mono

/-- One LINE frame leaves, blank where there is no payload, and an IDLE block behind it. -/
theorem State.sendLine_out : ∃ flags blanks bands lane block lane', (s.sendLine p l f rdu seq ovs payload).out = s.out ++
      [.linkFrame p (finishFrame (rawFrame 1 flags (lineMid l f rdu (barOf p) blanks bands p) (payload.getD [])) seq) lane,
        .idle p block lane'] ∧ flags % 2 = payload.isNone.toNat := by
  obtain ⟨lane, block, lane', h⟩ := State.sendFrame_out _ p (finishFrame (rawFrame 1 _ (lineMid l f rdu (barOf p) _ _ p) (payload.getD [])) seq)
  refine ⟨_, _, _, lane, block, lane', h, ?_⟩
  have bit : payload.isNone.toNat < 2 := Bool.toNat_lt _
  omega

theorem State.sendLine_pipe_same (h : p < s.pipes.length) :
    (s.sendLine p l f rdu seq ovs payload).pipe p = { s.pipe p with lastSent := some (l, f), sent := some l, back := false } :=
  s.pipe_updPipe_same (fun q => { q with lastSent := some (l, f), sent := some l, back := false }) h

theorem State.sendLine_pipe_ne {q : Nat} (h : q ≠ p) : (s.sendLine p l f rdu seq ovs payload).pipe q = s.pipe q :=
  s.pipe_updPipe_ne (fun q => { q with lastSent := some (l, f), sent := some l, back := false }) h

/-- The frame takes the line sequence number; the next line has the next. -/
theorem State.sendLine_lineNext (h : p < s.links.length) : ((s.sendLine p l f rdu seq ovs payload).link p).lineNext = seq + 1 :=
  (State.sendFrame_lineNext _ p p _).trans
    (congrArg Link.lineNext (s.link_updLink_same (fun k => { k with lineNext := seq + 1, sentActive := true, lastSeq := seq }) h))

theorem State.sendLine_link_ne {q : Nat} (h : q ≠ p) : (s.sendLine p l f rdu seq ovs payload).link q = s.link q :=
  (State.sendFrame_link_ne _ _ h).trans (s.link_updLink_ne (fun k => { k with lineNext := seq + 1, sentActive := true, lastSeq := seq }) h)

end

/-! ### A line leaves its pipeline -/

/-- The line has gone through its send decision: the next one is the oldest. -/
def Pipe.pass (l : Line) (now : Instant) (q : Pipe) : Pipe :=
  { q with begun := q.begun.drop 1, opens := now :: q.opens.take 1, passed := some l }

/-- A line that is no overspeed slot goes out, and leaves its pipeline. -/
def State.sendPass (s : State) (p : Nat) (l : Line) (f : Time) (rdu : Nat) (seq : BitVec 32) (payload : Option Bytes) (now : Instant) :
    State := (s.sendLine p l f rdu seq false payload).updPipe p (Pipe.pass l now)

section
variable (s : State) (p : Nat) (l : Line) (f : Time) (rdu : Nat) (seq : BitVec 32) (payload : Option Bytes) (now : Instant)

theorem State.sendPass_touches :
    s.touches (s.sendPass p l f rdu seq payload now) [.pipes, .links, .wck, .regs, .out] [Reg.GHL_SEQ.addr p 0 0] :=
  ((s.sendLine_touches p l f rdu seq false payload).trans (State.updPipe_onlyIn _ p _).touches).mono

theorem State.sendPass_out : ∃ flags blanks bands lane block lane', (s.sendPass p l f rdu seq payload now).out = s.out ++
      [.linkFrame p (finishFrame (rawFrame 1 flags (lineMid l f rdu (barOf p) blanks bands p) (payload.getD [])) seq) lane,
        .idle p block lane'] ∧ flags % 2 = payload.isNone.toNat := s.sendLine_out p l f rdu seq false payload

theorem State.sendPass_lineNext (h : p < s.links.length) : ((s.sendPass p l f rdu seq payload now).link p).lineNext = seq + 1 :=
  s.sendLine_lineNext p l f rdu seq false payload h

theorem State.sendPass_link_ne {q : Nat} (h : q ≠ p) : (s.sendPass p l f rdu seq payload now).link q = s.link q :=
  s.sendLine_link_ne p l f rdu seq false payload h

theorem State.sendPass_pipe_same (h : p < s.pipes.length) : (s.sendPass p l f rdu seq payload now).pipe p =
    Pipe.pass l now { s.pipe p with lastSent := some (l, f), sent := some l, back := false } := by
  have kept : p < (s.sendLine p l f rdu seq false payload).pipes.length := h.trans_eq (length_upd _ _ _).symm
  exact (State.pipe_updPipe_same _ _ kept).trans (congrArg (Pipe.pass l now) (s.sendLine_pipe_same p l f rdu seq false payload h))

theorem State.sendPass_pipe_ne {q : Nat} (h : q ≠ p) : (s.sendPass p l f rdu seq payload now).pipe q = s.pipe q :=
  (State.pipe_updPipe_ne _ _ h).trans (s.sendLine_pipe_ne p l f rdu seq false payload h)

end

section
variable (s : State) (p : Nat) (b : Option Begun) (l : Line) (f : Time)

theorem State.passLine_onlyIn : s.onlyIn (s.passLine p b l f) [.pipes] := s.updPipe_onlyIn p _

theorem State.passLine_pipe_same (h : p < s.pipes.length) : ((s.passLine p b l f).pipe p).begun = (s.pipe p).begun.drop 1 ∧
    ((s.passLine p b l f).pipe p).passed = some l ∧ ((s.passLine p b l f).pipe p).lastSent = some (l, f) := by
  unfold State.passLine
  rw [State.pipe_updPipe_same _ _ h]
  exact ⟨rfl, rfl, rfl⟩

theorem State.passLine_pipe_ne {q : Nat} (h : q ≠ p) : (s.passLine p b l f).pipe q = s.pipe q := State.pipe_updPipe_ne _ _ h

end

/-! ### The cases of a decision -/

theorem State.settleStop_of_none {s : State} (h : s.dev.stopLine = none) : s.settleStop = s := by simp [State.settleStop, h]

section
variable {s : State} {p : Nat} (l : Line) (f : Time) {b : Option Begun} (seq : BitVec 32) {ovs : Bool}

/-- On a port that is not ACTIVE the line is counted as skipped, and passed (R35); at most the next line number moves (R40). -/
theorem State.decideLine_inactive (agreed : (s.announced || s.announces l) = false) (prints : s.printing = true)
    (inactive : s.lineActive p = false) :
    ∃ v, s.decideLine p b l seq f ovs = v.passLine p b l f ∧ ((s.reach p l).count .GHL_SKIP_CNT p).onlyIn v [.links] := by
  have here : ((s.reachBank p l).reachHeads p l).lineActive p = false := (State.reach_lineActive p l prints).trans inactive
  unfold State.decideLine
  simp only [agreed, here, Bool.not_false, Bool.false_or, Bool.false_eq_true, if_false, if_true]
  exact ⟨_, rfl, State.onlyIn_if _ (State.updLink_onlyIn _ p _)⟩

theorem State.announced_of_single (h : s.twn.role = .none) : s.announced = false := by simp [State.announced, State.follower, h]

theorem State.announces_of_single (h : s.twn.role = .none) : s.announces l = false := by simp [State.announces, h]

/-- A module without a partner that has not taken over sends its lines itself. -/
theorem State.sendsLines_of_single (h : s.twn.role = .none) (h' : s.twn.tookOver = none) : s.sendsLines p = true := by
  simp [State.sendsLines, h, h']

theorem State.not_held_of_printing (h : s.printing = true) : (s.dev.dev == .held) = false := by
  have prints : s.dev.dev = .printing := by simpa [State.printing] using h
  rw [prints]; rfl

/-- An ACTIVE port of a printing module without a partner sends its lines, also once the line has brought its changes into force. -/
theorem State.reach_sends (prints : s.printing = true) (single : s.twn.role = .none) (alone : s.twn.tookOver = none)
    (active : s.lineActive p = true) :
    (s.reach p l).lineActive p = true ∧ (s.reach p l).sendsLines p = true ∧ (s.reach p l).printing = true := by
  have twin : (s.reach p l).twn = s.twn := s.reach_part p l .twn
  exact ⟨(State.reach_lineActive p l prints).trans active,
    State.sendsLines_of_single ((congrArg Twin.role twin).trans single) ((congrArg Twin.tookOver twin).trans alone),
    (s.reach_printing p l).trans prints⟩

/-- A packed line on an ACTIVE port that is Wick-ready goes out with its payload (R23, R24). -/
theorem State.decideLine_packed {b : Begun} {pay : Bytes} {subs : Nat} (prints : s.printing = true) (single : s.twn.role = .none)
    (alone : s.twn.tookOver = none) (active : s.lineActive p = true) (ready : (s.reach p l).wickReady p = true)
    (packed : b.packed = some (pay, subs)) :
    ∃ now, s.decideLine p (some b) l seq f false =
      ((s.reach p l).count .TRN_ROWSUB_CNT p 0 0 subs).sendPass p l f (rowDelayUnit s.mer.est f) seq (some pay) now := by
  obtain ⟨here, sends, prints'⟩ := State.reach_sends l prints single alone active
  unfold State.reach at here sends prints' ready
  unfold State.decideLine
  simp only [State.announced_of_single single, State.announces_of_single l single, here, sends, prints', ready,
    State.not_held_of_printing prints', Option.bind_some, packed, Option.map_some, Option.getD_some, Option.isNone_some, Bool.or_self,
    Bool.not_true, Bool.false_and, Bool.false_eq_true, if_false, if_true]
  exact ⟨_, rfl⟩

/-- A line that is not packed is counted and raised as late, and is not sent: its codes in the delay memory are zero (R28, R129). -/
def State.late (s : State) (p : Nat) (l : Line) : State :=
  ((s.count .TRN_LATE_CNT p).raise .trnLate (l.setWidth 32) p).updPipe p fun q =>
    { q with delay := remember q.delay l (List.replicate (s.nozzles p) 0) }

theorem State.late_touches (s : State) (p : Nat) (l : Line) :
    s.touches (s.late p l) [.regs, .ltn, .pipes] [Reg.TRN_LATE_CNT.addr p 0 0] :=
  (((s.count_touches .TRN_LATE_CNT p 0 0 1).trans (State.raise_onlyIn _ _ _ _ _ _ _).touches).trans
    (State.updPipe_onlyIn _ p _).touches).mono (ha := fun _ h => h)

theorem State.late_sound {s : State} (p : Nat) (l : Line) (h : s.sound) : (s.late p l).sound :=
  State.updPipe_sound _ _ _ (State.raise_sound _ _ _ _ _ _ _ (State.count_sound s _ _ _ _ _ h))

theorem State.late_counted {s : State} (p : Nat) (l : Line) (h : s.sound) : s.counted (s.late p l) .TRN_LATE_CNT p :=
  State.counted_count .TRN_LATE_CNT p (State.sound_regs h) (by decide) (by decide)

/-- TRN.LATE is raised as class U with the line in its detail (R28). -/
theorem State.late_raised (s : State) (p : Nat) (l : Line) :
    s.raised (s.late p l) .trnLate 2 p 0xFF (srcDefaults.getD Src.trnLate.num (0, 0)).2 (l.setWidth 32) := rfl

theorem State.late_begun {s : State} {p : Nat} (l : Line) (h : p < s.pipes.length) : ((s.late p l).pipe p).begun = (s.pipe p).begun := by
  unfold State.late
  rw [State.pipe_updPipe_same]
  · rfl
  · exact h

theorem State.late_pipe_ne (s : State) {p q : Nat} (l : Line) (h : q ≠ p) : (s.late p l).pipe q = s.pipe q :=
  s.pipe_updPipe_ne (fun q => { q with delay := remember q.delay l (List.replicate (s.nozzles p) 0) }) h

/-- A line that is not packed goes out blank on an ACTIVE port (R28); one that is not Wick-ready is counted besides (R160). -/
theorem State.decideLine_late {b : Begun} (prints : s.printing = true) (single : s.twn.role = .none)
    (alone : s.twn.tookOver = none) (active : s.lineActive p = true) (unpacked : b.packed = none) :
    ∃ u now, s.decideLine p (some b) l seq f false = u.sendPass p l f (rowDelayUnit s.mer.est f) seq none now ∧
      ((s.reach p l).late p l).touches u [.regs] [Reg.WCK_NOTREADY_CNT.addr p 0 0] ∧ (((s.reach p l).late p l).sound → u.sound) := by
  obtain ⟨here, sends, prints'⟩ := State.reach_sends l prints single alone active
  unfold State.reach at here sends prints'
  unfold State.decideLine
  simp only [State.announced_of_single single, State.announces_of_single l single, here, sends, prints',
    State.not_held_of_printing prints', Option.bind_some, unpacked, Option.isNone_none, Bool.or_self, Bool.not_true, Bool.false_and,
    Bool.and_false, Bool.and_self, Bool.false_eq_true, if_false, if_true]
  refine ⟨_, _, rfl, ?_, fun sound => ?_⟩ <;> split
  · exact .refl _ _ _
  · exact State.count_touches _ .WCK_NOTREADY_CNT p 0 0 1
  · exact sound
  · exact State.count_sound _ _ _ _ _ _ sound

end

/-- The send decision of the oldest line begun, which is no overspeed slot, falls: it lies within the lookahead and no less than T_min
behind the last (R23, R168). -/
theorem exec_sendDecision_oldest {s t : State} {p : Nat} {b : Begun} {rest : List Begun} {f : Time} (hp : p < 24)
    (runs : (s.pipe p).running = true) (prints : s.printing = true) (forward : s.movedBack p = false)
    (oldest : (s.pipe p).begun = b :: rest) (own : b.ovs = false)
    (apart : ∀ k, (s.pipe p).lastSent = some k → 0 ≤ sdiff f (k.2 + BitVec.ofNat 32 (s.tMin p)))
    (fires : s.fireTimeOf p b.line = some f) (near : sdiff f s.mono ≤ s.lookahead) (endless : s.dev.stopLine = none)
    (decided : s.decideLine p (some b) b.line (b.seq.getD (s.link p).lineNext) f false = t) (dev : t.dev = s.dev) :
    exec (.sendDecision p) s = .next t := by
  have decides : s.decides = true := by simp [State.decides, prints]
  have goesOn : s.stopped b.line = false := by simp [State.stopped, endless]
  rw [← State.settleStop_of_none (s := t) (by rw [dev, endless]), ← decided]
  show execSendDecision p s = _
  unfold execSendDecision
  cases last : (s.pipe p).lastSent with
  | none => simp [last, runs, decides, forward, oldest, own, fires, goesOn, Nat.not_le.mpr hp, Int.not_lt.mpr near]
  | some k =>
    have onTime : ¬ sdiff f (k.2 + BitVec.ofNat 32 (s.tMin p)) < 0 := Int.not_lt.mpr (apart k last)
    simp [last, onTime, runs, decides, forward, oldest, own, fires, goesOn, Nat.not_le.mpr hp, Int.not_lt.mpr near]

end Sys2Proof.Machine
end

section
/-! The obligations about a line that is packed, late, or skipped (R23, R24, R28, R35). -/

namespace Sys2Proof.Machine

/-- A counter that fills its register, as the register's word. -/
theorem State.get_whole (s : State) (f : Fld) (i j k : Nat) (hi : f.hi = 31) (lo : f.lo = 0) : s.get f i j k = (s.rd f.reg i j k).toNat := by
  unfold State.get field nbits
  rw [hi, lo, Nat.shiftRight_zero]
  exact Nat.mod_eq_of_lt (s.rd f.reg i j k).isLt

theorem State.counted.whole {s t : State} {f : Fld} {i : Nat} (h : s.counted t f i) (hi : f.hi = 31) (lo : f.lo = 0) :
    (t.rd f.reg i).toNat = min ((s.rd f.reg i).toNat + 1) (2 ^ 32 - 1) := by
  unfold State.counted at h
  rwa [State.get_whole _ _ _ _ _ hi lo, State.get_whole _ _ _ _ _ hi lo, hi, lo] at h

/-- Settles O12: the count and the pass of `decideLine_inactive`, behind what the line brings into force. -/
theorem inactivePortSkipsLines : Obligations.InactivePortSkipsLines := by
  unfold Obligations.InactivePortSkipsLines
  intro s p b rest f sound hp runs prints oldest own forward apart fires near endless single inactive
  have agreed : (s.announced || s.announces b.line) = false := by
    rw [State.announced_of_single single, State.announces_of_single b.line single]; rfl
  obtain ⟨v, passes, links⟩ := State.decideLine_inactive b.line f (b := some b) (b.seq.getD (s.link p).lineNext) (ovs := false)
    agreed prints inactive
  have counts := (s.reach p b.line).count_touches .GHL_SKIP_CNT p 0 0 1
  have frame : (s.reach p b.line).onlyIn (v.passLine p (some b) b.line f) [.pipes, .links, .regs] :=
    ((counts.1.trans links).trans (v.passLine_onlyIn p (some b) b.line f)).mono (by decide)
  have whole : s.onlyIn (v.passLine p (some b) b.line f) [.tabs, .wck, .ltn, .regs, .pipes, .links] :=
    ((s.reach_touches p b.line).1.trans frame).mono (by decide)
  have before := ((s.reach_touches p b.line).1.trans counts.1).trans links
  have here : p < v.pipes.length := by rw [before.same .pipes, State.sound_pipes sound]; exact hp
  have counted : s.counted (v.passLine p (some b) b.line f) .GHL_SKIP_CNT p := by
    refine State.counted.around (State.counted_count .GHL_SKIP_CNT p (State.sound_regs (State.reach_sound p b.line sound)) (by decide)
      (by decide)) ?_ ?_
    · refine (s.reach_touches p b.line).2.get .GHL_SKIP_CNT p 0 0 ?_
      simp [Reg.addr, Fld.GHL_SKIP_CNT, Reg.GHL_SKIP_CNT, Reg.WCK_HOT_RECOVER_CNT]
      omega
    · exact ((links.trans (v.passLine_onlyIn p (some b) b.line f)).touches).2.get .GHL_SKIP_CNT p 0 0 (by simp)
  obtain ⟨left, passed, last⟩ := v.passLine_pipe_same p (some b) b.line f here
  refine ⟨v.passLine p (some b) b.line f, ?_, whole.same .out, ?_, ?_, passed, last, fun q hq => ?_, frame⟩
  · exact exec_sendDecision_oldest hp runs prints forward oldest own apart fires near endless passes (whole.same .dev)
  · exact counted.whole rfl rfl
  · rw [left, before.pipe p, oldest]; rfl
  · rw [v.passLine_pipe_ne p (some b) b.line f hq, before.pipe q]

/-- The blank or packed frame of the oldest line leaves from a state that differs from `s` in what the decision counts, raises and brings
into force: the line is gone from its pipeline, the next line has the next number, and no other port changes. -/
theorem State.sendPass_oldest {s u : State} {p : Nat} {b : Begun} {rest : List Begun} (f : Time) (rdu : Nat) (seq : BitVec 32)
    (payload : Option Bytes) (now : Instant) (hp : p < 24) (sound : u.sound)
    (before : s.onlyIn u [.tabs, .wck, .ltn, .regs, .pipes]) (oldest : (u.pipe p).begun = b :: rest)
    (others : ∀ q, q ≠ p → u.pipe q = s.pipe q) :
    (∃ flags blanks bands lane block lane', (u.sendPass p b.line f rdu seq payload now).out = s.out ++
      [.linkFrame p (finishFrame (rawFrame 1 flags (lineMid b.line f rdu (barOf p) blanks bands p) (payload.getD [])) seq) lane,
        .idle p block lane'] ∧ flags % 256 % 2 = payload.isNone.toNat) ∧
    ((u.sendPass p b.line f rdu seq payload now).pipe p).begun = rest ∧
    ((u.sendPass p b.line f rdu seq payload now).pipe p).passed = some b.line ∧
    ((u.sendPass p b.line f rdu seq payload now).pipe p).lastSent = some (b.line, f) ∧
    ((u.sendPass p b.line f rdu seq payload now).link p).lineNext = seq + 1 ∧
    (∀ q, q ≠ p → (u.sendPass p b.line f rdu seq payload now).pipe q = s.pipe q ∧
      (u.sendPass p b.line f rdu seq payload now).link q = s.link q) ∧
    (u.sendPass p b.line f rdu seq payload now).dev = s.dev := by
  have here : p < u.pipes.length := (State.sound_pipes sound).symm ▸ hp
  have there : p < u.links.length := by rw [State.sound_links sound]; omega
  have out : u.out = s.out := before.same .out
  have left := u.sendPass_pipe_same p b.line f rdu seq payload now here
  refine ⟨?_, ?_, congrArg Pipe.passed left, congrArg Pipe.lastSent left, u.sendPass_lineNext _ _ _ _ _ _ _ there, fun q hq => ⟨?_, ?_⟩,
    (before.trans (u.sendPass_touches p b.line f rdu seq payload now).1).same .dev⟩
  · obtain ⟨flags, blanks, bands, lane, block, lane', leaves, blank⟩ := u.sendPass_out p b.line f rdu seq payload now
    exact ⟨flags, blanks, bands, lane, block, lane', leaves.trans (by rw [out]), (Nat.mod_mod_of_dvd _ (by decide)).trans blank⟩
  · exact (congrArg Pipe.begun left).trans (congrArg (List.drop 1) oldest)
  · rw [u.sendPass_pipe_ne _ _ _ _ _ _ _ hq, others q hq]
  · rw [u.sendPass_link_ne _ _ _ _ _ _ _ hq, before.link q]

/-- Settles O10: the frame leaves behind the count of substituted row slots, with its fields as `finishFrame_line` lays them out. -/
theorem packedLineGoesOut : Obligations.PackedLineGoesOut := by
  unfold Obligations.PackedLineGoesOut
  intro s p b rest f pay subs sound hp runs prints forward oldest packed unnumbered own apart fires near endless single alone active ready
  obtain ⟨now, sends⟩ := State.decideLine_packed b.line f (s.link p).lineNext prints single alone active ready packed
  have counts := (s.reach p b.line).count_touches .TRN_ROWSUB_CNT p 0 0 subs
  have counted := State.count_sound _ .TRN_ROWSUB_CNT p 0 0 subs (State.reach_sound p b.line sound)
  generalize (s.reach p b.line).count .TRN_ROWSUB_CNT p 0 0 subs = u at sends counts counted
  have before := ((s.reach_touches p b.line).trans counts).1
  obtain ⟨⟨flags, blanks, bands, lane, block, lane', leaves, full⟩, left, passed, last, next, others, dev⟩ :=
    State.sendPass_oldest f (rowDelayUnit s.mer.est f) (s.link p).lineNext (some pay) now hp counted (before.mono (by decide))
      ((congrArg Pipe.begun (before.pipe p)).trans oldest) fun q _ => before.pipe q
  exact ⟨_, _, lane, block, lane', exec_sendDecision_oldest hp runs prints forward oldest own apart fires near endless
    (by rw [unnumbered]; exact sends) dev, leaves, line_type .., (congrArg (· % 2) (line_flags ..)).trans full, line_payloadLength ..,
    line_seq .., line_index .., line_fireTime .., line_rowDelayUnit .., line_payload .., left, passed, last, next, others,
    (counts.trans (u.sendPass_touches ..)).1.mono (by decide)⟩

/-- Settles O11: the blank frame leaves behind the count and the raise of a late line. -/
theorem lateLineGoesOutBlank : Obligations.LateLineGoesOutBlank := by
  unfold Obligations.LateLineGoesOutBlank
  intro s p b rest f sound hp runs prints oldest unpacked unnumbered own forward apart fires near endless single alone active
  obtain ⟨u, now, sends, unready, keeps⟩ := State.decideLine_late b.line f (s.link p).lineNext prints single alone active unpacked
  have reached := State.reach_sound p b.line sound
  have late := ((s.reach p b.line).late_touches p b.line).trans unready
  have before := ((s.reach_touches p b.line).trans late).1
  have reachPipe := s.reach_pipe p b.line
  have pipe (q : Nat) : u.pipe q = ((s.reach p b.line).late p b.line).pipe q := unready.1.pipe q
  have begun : (u.pipe p).begun = b :: rest := by
    rw [pipe, State.late_begun b.line (by rw [State.sound_pipes reached]; exact hp), reachPipe, oldest]
  obtain ⟨⟨flags, blanks, bands, lane, block, lane', leaves, blank⟩, left, passed, last, next, others, dev⟩ :=
    State.sendPass_oldest f (rowDelayUnit s.mer.est f) (s.link p).lineNext none now hp (keeps (State.late_sound p b.line reached))
      (before.mono (by decide)) begun fun q hq => by rw [pipe, State.late_pipe_ne _ b.line hq, reachPipe]
  have frame := u.sendPass_touches p b.line f (rowDelayUnit s.mer.est f) (s.link p).lineNext none now
  refine ⟨_, _, lane, block, lane', exec_sendDecision_oldest hp runs prints forward oldest own apart fires near endless
    (by rw [unnumbered]; exact sends) dev, leaves, line_blank_length .., line_type .., (congrArg (· % 2) (line_flags ..)).trans blank,
    line_payloadLength .., line_seq .., line_index .., line_fireTime .., ?_, ?_, left, passed, next, others,
    (late.trans frame).1.mono (by decide)⟩
  · refine (State.late_counted p b.line reached).around ((s.reach_touches p b.line).2.get .TRN_LATE_CNT p 0 0 ?_)
      ((unready.trans frame).2.get .TRN_LATE_CNT p 0 0 ?_)
    · simp [Reg.addr, Fld.TRN_LATE_CNT, Reg.TRN_LATE_CNT, Reg.WCK_HOT_RECOVER_CNT]
      omega
    · simp [Reg.addr, Fld.TRN_LATE_CNT, Reg.TRN_LATE_CNT, Reg.WCK_NOTREADY_CNT, Reg.GHL_SEQ]
      omega
  · exact ((unready.1.trans frame.1).same .ltn).trans (State.late_raised (s.reach p b.line) p b.line)

end Sys2Proof.Machine
end

section
/-! PRINT and STOP (R419, R421, R422): a write that reaches a register of FAB, a refusal, and the entry to PRINTING. -/

namespace Sys2Proof.Machine

theorem State.set_touches (s : State) (f : Fld) (v i j k : Nat) : s.touches (s.set f v i j k) [.regs] [f.reg.addr i j k] :=
  ⟨s.wr_onlyIn _ _ _ _ _, s.wr_regsOnlyAt _ _ _ _ _⟩

/-! ### A write to a register of FAB (R428, R484) -/

section
variable {s : State} {off : Nat} {v : Word} {checks : List (Nat × Bool)} {act : State → State}

/-- Below 0x120000 no register is written through a crossing (R489). -/
theorem State.xingOf_fab (s : State) (fab : off < 0x120000) : s.xingOf off = none := by
  unfold State.xingOf
  rw [if_neg (by omega), if_neg (by omega), if_neg (by omega), if_neg (by omega), if_neg (by omega)]

/-- A write that no check refuses acts at once. -/
theorem State.gate_fab_acts (fab : off < 0x120000) (up : s.dev.dev ≠ .dark) (pass : checks.filter (·.2) = []) :
    s.gate off v checks act = act s.traffic := by
  simp [State.gate, State.bar0, State.xingBlocked, State.drain, State.xingOf_fab _ fab, up, pass]

/-- A write that fails a check is refused with the lowest reason. -/
theorem State.gate_fab_refuses (fab : off < 0x120000) (up : s.dev.dev ≠ .dark) {r : Nat} {t : List Nat}
    (fail : (checks.filter (·.2)).map (·.1) = r :: t) : s.gate off v checks act = s.traffic.refuse off (t.foldl min r) := by
  simp [State.gate, State.bar0, State.xingBlocked, State.xingOf_fab _ fab, up, fail]

/-- What a refusal counts and shows, and that it changes nothing else (R428). -/
theorem State.refusedAt_refuse (sound : s.sound) (reason : Nat) (hr : reason < 16) (ho : off < 2 ^ 24) :
    s.refusedAt (s.traffic.refuse off reason) off reason := by
  have busy := State.traffic_sound s sound
  have counts := State.count_sound s.traffic .GLB_REFUSED 0 0 0 1 busy
  have shows := State.set_sound _ .GLB_REFUSED_INFO_reason reason 0 0 0 counts
  have info := (State.set_touches (s.traffic.count .GLB_REFUSED) .GLB_REFUSED_INFO_reason reason 0 0 0).trans
    (State.set_touches _ .GLB_REFUSED_INFO_offset off 0 0 0)
  have frame := (s.traffic_onlyIn.touches.trans (s.traffic.count_touches .GLB_REFUSED 0 0 0 1)).trans info
  refine ⟨?_, ?_, ?_, ?_, frame.1.mono (by decide)⟩
  · exact (State.counted_count .GLB_REFUSED 0 (State.sound_regs busy) (by decide) (by decide)).around rfl
      (info.2.get .GLB_REFUSED 0 0 0 (by decide))
  · exact ((State.get_set_ne .GLB_REFUSED_INFO_offset .GLB_REFUSED_INFO_reason off 0 0 0 (State.sound_regs shows) rfl (by decide)
      (by decide) (.inr (by decide))).trans (State.get_set_same .GLB_REFUSED_INFO_reason reason 0 0 0 (State.sound_regs counts)
      (by decide) (by decide))).trans (Nat.mod_eq_of_lt hr)
  · exact (State.get_set_same .GLB_REFUSED_INFO_offset off 0 0 0 (State.sound_regs shows) (by decide) (by decide)).trans
      (Nat.mod_eq_of_lt ho)
  · exact (frame.mono (m := [.pcie, .regs]) (by decide) (by
      simp [Fld.GLB_REFUSED, Fld.GLB_REFUSED_INFO_reason, Fld.GLB_REFUSED_INFO_offset])).2

end

/-! ### Interrupts (R386, R388) -/

theorem State.msix_touches (s : State) (vec : Nat) (cause : Option IrqSrc) :
    s.touches (s.msix vec cause) [.hst, .regs, .pcie, .out] [Reg.HST_MSIX_PBA.addr (vec / 32) 0 0] := by
  unfold State.msix
  split
  · exact .refl s _ _
  · split
    · have pend : s.onlyIn { s with hst := { s.hst with pend := s.hst.pend.erase (vec, cause) ++ [(vec, cause)] } } [.hst] := by
        intro x; cases x <;> simp [Part.same]
      exact (pend.touches.trans ⟨State.wr_onlyIn _ _ _ _ _ _, State.wr_regsOnlyAt _ _ _ _ _ _⟩).mono
    · exact (s.traffic_onlyIn.touches.trans (State.emit_onlyIn _ _).touches).mono

theorem State.irq_onlyIn (s : State) (x : IrqSrc) (bit : Nat) : s.onlyIn (s.irq x bit) [.hst, .regs, .pcie, .out] := by
  have sets := s.wr_onlyIn x.regs.1 (s.rd x.regs.1 ||| (1 <<< bit)) 0 0 0
  exact (sets.trans (State.onlyIn_if _ (State.msix_touches _ _ _).1)).mono (by decide)

/-- The status bit of a device interrupt is set, whether or not it signals (R388). -/
theorem State.irq_device_bit {s : State} (bit : Nat) (hbit : bit < 32) (sorted : s.regs.sorted = true) :
    ((s.irq .device bit).rd .GLB_INT_STATUS).getLsbD bit = true := by
  have stored := State.rd_wr_same s .GLB_INT_STATUS (s.rd .GLB_INT_STATUS ||| (1 <<< bit)) 0 0 0 sorted
  have signals : (s.wr .GLB_INT_STATUS (s.rd .GLB_INT_STATUS ||| (1 <<< bit))).touches (s.irq .device bit) [.hst, .regs, .pcie, .out]
      [Reg.HST_MSIX_PBA.addr (State.get (s.wr .GLB_INT_STATUS (s.rd .GLB_INT_STATUS ||| (1 <<< bit))) .HST_MSIX_SRC1_vec1 / 32) 0 0] :=
    State.touches_if _ (State.msix_touches _ _ _)
  rw [signals.2.rd .GLB_INT_STATUS 0 0 0 (by simp [Reg.addr, Reg.GLB_INT_STATUS, Reg.HST_MSIX_PBA]; omega), stored,
    BitVec.getLsbD_or]
  have one : ((1 <<< bit : Nat) : Word).getLsbD bit = true := by simp [hbit, BitVec.natCast_eq_ofNat, BitVec.getLsbD_ofNat, Nat.testBit_shiftLeft]
  rw [one, Bool.or_true]

/-! ### The pipelines start (R124) -/

/-- What says whether a pipeline takes lines: that it runs, that it primes, and the lines begun. -/
def Pipe.stage (q : Pipe) : Bool × Bool × List Begun := (q.running, q.priming, q.begun)

theorem State.pipe_updPipe_proj {α : Type} (s : State) (p q : Nat) {f : Pipe → Pipe} (g : Pipe → α)
    (hf : ∀ x, g (f x) = g x := by exact fun _ => rfl) : g ((s.updPipe p f).pipe q) = g (s.pipe q) :=
  getD_upd_proj g hf p q s.pipes Pipe.reset

theorem State.badStrips_onlyIn (s : State) (p : Nat) (l : List (Nat × Nat × Nat)) : s.onlyIn (s.badStrips p l) [.regs, .ltn] :=
  State.each_onlyIn (fun s _ => ((s.count_touches .STO_BADSTREAM_CNT 0 0 0 1).1.trans (State.raise_onlyIn _ _ _ _ _ _ _)).mono (by decide)) s l

theorem State.badStrips_count_onlyIn (s : State) (p : Nat) (m : Screened) :
    s.onlyIn ((s.badStrips p m.bad).count .TRN_NOC_LOST_CNT p 0 0 m.lost) [.regs, .ltn] :=
  ((s.badStrips_onlyIn p m.bad).trans (State.count_touches _ _ _ _ _ _).1).mono (by decide)

theorem State.screened_onlyIn (s : State) (p : Nat) (m : Screened) : s.onlyIn (s.screened p m) [.regs, .ltn, .pipes] :=
  ((s.badStrips_count_onlyIn p m).trans (State.updPipe_onlyIn _ p _)).mono (by decide)

/-- Screening moves only the decompressor of a pipeline. -/
theorem State.screened_pipe_proj {α : Type} (s : State) (p q : Nat) (m : Screened) (g : Pipe → α)
    (hf : ∀ x d, g { x with dec := d } = g x := by exact fun _ _ => rfl) : g ((s.screened p m).pipe q) = g (s.pipe q) :=
  (State.pipe_updPipe_proj _ p q g fun x => hf x m.dec).trans (congrArg g ((s.badStrips_count_onlyIn p m).pipe q))

theorem State.prime_onlyIn (s : State) (p : Nat) (f : Line) : s.onlyIn (s.prime p f) [.regs, .ltn, .pipes] :=
  State.each_onlyIn (fun s _ => ((s.screened_onlyIn p _).trans (State.updPipe_onlyIn _ p _)).mono (by decide)) s _

theorem State.prime_stage (s : State) (p q : Nat) (f : Line) : ((s.prime p f).pipe q).stage = (s.pipe q).stage :=
  State.each_same (fun s => (s.pipe q).stage)
    (by exact fun s l => (State.pipe_updPipe_proj _ p q Pipe.stage).trans (s.screened_pipe_proj p q (s.screen p l (s.pipe p).dec) Pipe.stage)) s _

theorem State.startPipe_onlyIn (s : State) (e : Option Line) (p : Nat) : s.onlyIn (s.startPipe e p) [.regs, .ltn, .pipes, .links] :=
  ((((State.onlyIn_if _ (s.count_touches .STO_SEEK_CNT 0 0 0 1).1).trans (State.updPipe_onlyIn _ p _)).trans
    (State.prime_onlyIn _ p _)).trans ((State.updLink_onlyIn _ p _).trans (State.onlyIn_if _ (State.raise_onlyIn _ _ _ _ _ _ _)))).mono
    (by decide)

/-- The check of the lookahead, with which the entry ends, leaves the pipelines (R236). -/
theorem State.checked_pipe (s : State) (p q : Nat) (g : Link → Link) (short : Bool) :
    (if short then (s.updLink p g).raise .ghlDown 0x100 p else s.updLink p g).pipe q = s.pipe q := by
  split <;> rfl

theorem State.seeked_pipes (s : State) (c : Bool) : (if c then s.count .STO_SEEK_CNT else s).pipes = s.pipes := by
  split <;> rfl

/-- A pipeline that starts runs and primes, with no line begun. -/
theorem State.startPipe_stage_same {s : State} (e : Option Line) {p : Nat} (h : p < s.pipes.length) :
    ((s.startPipe e p).pipe p).stage = (true, true, []) := by
  refine (congrArg Pipe.stage (State.checked_pipe _ p p _ _)).trans ((State.prime_stage _ p p _).trans ?_)
  rw [State.pipe_updPipe_same]
  · rfl
  · rwa [State.seeked_pipes]

theorem State.startPipe_stage_ne (s : State) (e : Option Line) {p q : Nat} (h : q ≠ p) :
    ((s.startPipe e p).pipe q).stage = (s.pipe q).stage := by
  refine (congrArg Pipe.stage (State.checked_pipe _ p q _ _)).trans ((State.prime_stage _ p q _).trans ?_)
  rw [State.pipe_updPipe_ne _ _ h]
  exact congrArg (fun l : List Pipe => (l.getD q Pipe.reset).stage) (s.seeked_pipes _)

/-! A frame names the controller of the DRAM and its bytes apart; the entry leaves the whole of it. -/

theorem State.badStrips_drm (s : State) (p : Nat) (l : List (Nat × Nat × Nat)) : (s.badStrips p l).drm = s.drm :=
  State.each_same State.drm (by intros; rfl) s l

theorem State.prime_drm (s : State) (p : Nat) (f : Line) : (s.prime p f).drm = s.drm :=
  State.each_same State.drm (by exact fun s l => s.badStrips_drm p (s.screen p l (s.pipe p).dec).bad) s _

theorem State.startPipe_drm (s : State) (e : Option Line) (p : Nat) : (s.startPipe e p).drm = s.drm := by
  have checked (u : State) (g : Link → Link) (short : Bool) :
      (if short then (u.updLink p g).raise .ghlDown 0x100 p else u.updLink p g).drm = u.drm := by split <;> rfl
  have seeked (c : Bool) : (if c then s.count .STO_SEEK_CNT else s).drm = s.drm := by split <;> rfl
  exact (checked _ _ _).trans ((State.prime_drm _ p _).trans (seeked _))

theorem State.irq_drm (s : State) (x : IrqSrc) (bit : Nat) : (s.irq x bit).drm = s.drm := by
  have sends (u : State) (vec : Nat) (c : Option IrqSrc) : (u.msix vec c).drm = u.drm := by
    unfold State.msix
    split
    · rfl
    · split <;> rfl
  unfold State.irq
  dsimp only
  split
  · exact sends _ _ _
  · rfl

/-- Under an invariant, a fold brings about for each element what its operation does, where the operations of the others keep it. -/
theorem State.each_makes {α : Type} {I : State → Prop} {Q : α → State → Prop} {f : State → α → State} (inv : ∀ s a, I s → I (f s a))
    (makes : ∀ s a, I s → Q a (f s a)) (keeps : ∀ s a b, I s → Q b s → Q b (f s a)) (l : List α) {s : State} (hs : I s) {b : α}
    (hb : b ∈ l ∨ Q b s) : Q b (s.each l f) := by
  unfold State.each
  induction l generalizing s with
  | nil => exact hb.resolve_left List.not_mem_nil
  | cons a t ih =>
    refine ih (inv s a hs) ?_
    rcases hb with hb | hb
    · rcases List.mem_cons.mp hb with rfl | hb
      · exact .inr (makes s b hs)
      · exact .inl hb
    · exact .inr (keeps s a b hs hb)

/-- Every pipeline starts. -/
theorem State.startPipes_stage {s : State} (e : Option Line) (sound : s.sound) {p : Nat} (hp : p < 24) :
    ((s.each (List.range 24) fun s p => s.startPipe e p).pipe p).stage = (true, true, []) := by
  refine State.each_makes (I := State.sound) (Q := fun p s => p < 24 → (s.pipe p).stage = (true, true, []))
    (fun s p h => State.startPipe_sound s e p h) (fun s p h hp => ?_) (fun s p q h stage hq => ?_) _ sound (.inl (List.mem_range.mpr hp)) hp
  · exact State.startPipe_stage_same e ((State.sound_pipes h).symm ▸ hp)
  · by_cases same : q = p
    · subst same
      exact State.startPipe_stage_same e ((State.sound_pipes h).symm ▸ hq)
    · rw [State.startPipe_stage_ne s e same]
      exact stage hq

/-! ### The entry to PRINTING (R419, R423, R470) -/

theorem State.enter_printing {s : State} (h : s.dev.dev ≠ .printing) : s.enter .printing =
    State.irq { s with dev := { s.dev with dev := .printing }, hst := { s.hst with l1 := false } } .device 2 := by
  simp [State.enter, h]

theorem State.enter_printing_onlyIn {s : State} (h : s.dev.dev ≠ .printing) :
    s.onlyIn (s.enter .printing) [.dev, .hst, .regs, .pcie, .out] := by
  have turns : s.onlyIn { s with dev := { s.dev with dev := .printing }, hst := { s.hst with l1 := false } } [.dev, .pcie] := by
    intro x; cases x <;> simp [Part.same]
  rw [State.enter_printing h]
  exact (turns.trans (State.irq_onlyIn _ _ _)).mono (by decide)

theorem State.enter_printing_dev {s : State} (h : s.dev.dev ≠ .printing) : (s.enter .printing).dev = { s.dev with dev := .printing } := by
  rw [State.enter_printing h]
  exact (State.irq_onlyIn _ .device 2).same .dev

theorem State.wakeDram_onlyIn (s : State) : s.onlyIn s.wakeDram [.drm] :=
  State.onlyIn_if _ (by intro x; cases x <;> simp [Part.same])

/-- A printing device ends self-refresh (R470). -/
theorem State.wakeDram_of_printing {s : State} (h : s.printing = true) :
    s.wakeDram = { s with drm := if s.drm.sr = .inside then { s.drm with sr := .exiting } else s.drm } := by
  by_cases inside : s.drm.sr = .inside
  · simp [State.wakeDram, State.rtActive, h, inside]
  · simp [State.wakeDram, inside]

/-- The device that enters PRINTING: every pipeline starts, the interrupt bit of the entry is set, and self-refresh ends. -/
theorem State.enterPrinting_enters {s : State} (e : Option Line) (sound : s.sound) (h : s.dev.dev ≠ .printing) :
    (s.enterPrinting e).dev = { s.dev with dev := .printing } ∧
    (∀ p, p < 24 → ((s.enterPrinting e).pipe p).running = true ∧ ((s.enterPrinting e).pipe p).priming = true ∧
      ((s.enterPrinting e).pipe p).begun = []) ∧
    ((s.enterPrinting e).rd .GLB_INT_STATUS).getLsbD 2 = true ∧ (s.enterPrinting e).twn = { s.twn with entering := false } ∧
    (s.enterPrinting e).drm = (if s.drm.sr = .inside then { s.drm with sr := .exiting } else s.drm) ∧
    s.onlyIn (s.enterPrinting e) [.dev, .pipes, .links, .ltn, .regs, .hst, .pcie, .out, .twn, .drm] := by
  let w : State := { s with twn := { s.twn with entering := false } }
  have soundW : w.sound := State.sound_set_twn sound
  have starts : w.onlyIn (w.each (List.range 24) fun s p => s.startPipe e p) [.regs, .ltn, .pipes, .links] :=
    State.each_onlyIn (fun s p => s.startPipe_onlyIn e p) w _
  have soundU := State.each_sound w (List.range 24) (fun s p => s.startPipe e p) soundW fun s p h => State.startPipe_sound s e p h
  have stage (p : Nat) (hp : p < 24) := State.startPipes_stage e soundW hp
  have drmU : (w.each (List.range 24) fun s p => s.startPipe e p).drm = w.drm :=
    State.each_same State.drm (fun s p => s.startPipe_drm e p) w _
  have result : s.enterPrinting e = ((w.each (List.range 24) fun s p => s.startPipe e p).enter .printing).wakeDram := rfl
  rw [result]
  generalize (w.each (List.range 24) fun s p => s.startPipe e p) = u at starts soundU stage drmU
  have devU : u.dev = s.dev := starts.same .dev
  have outside : u.dev.dev ≠ .printing := devU ▸ h
  have enters := State.enter_printing_onlyIn outside
  have devV : (u.enter .printing).dev = { s.dev with dev := .printing } := (State.enter_printing_dev outside).trans (by rw [devU])
  have whole : s.onlyIn (u.enter .printing) [.twn, .regs, .ltn, .pipes, .links, .dev, .hst, .pcie, .out] := by
    have turns : s.onlyIn w [.twn] := by
      intro x; cases x <;> simp [Part.same, w]
    exact ((turns.trans starts).trans enters).mono (by decide)
  have drmV : (u.enter .printing).drm = s.drm := by
    rw [State.enter_printing outside, State.irq_drm]
    exact drmU
  have printsV : (u.enter .printing).printing = true := by rw [State.printing, devV]; rfl
  rw [State.wakeDram_of_printing printsV]
  refine ⟨devV, fun p hp => ?_, ?_, (starts.trans enters).same .twn, ?_, ?_⟩
  · have same : (u.enter .printing).pipe p = u.pipe p := enters.pipe p
    have begins : ((u.enter .printing).pipe p).stage = (true, true, []) := same ▸ stage p hp
    obtain ⟨runs, others⟩ := Prod.mk.inj begins
    obtain ⟨primes, empty⟩ := Prod.mk.inj others
    exact ⟨runs, primes, empty⟩
  · show ((u.enter .printing).rd .GLB_INT_STATUS).getLsbD 2 = true
    rw [State.enter_printing outside]
    exact State.irq_device_bit 2 (by decide) (State.sound_regs soundU)
  · rw [drmV]
  · rw [← State.wakeDram_of_printing printsV]
    exact (whole.trans (State.wakeDram_onlyIn _)).mono (by decide)

theorem State.traffic_epochLine (s : State) : s.traffic.epochLine = s.epochLine :=
  congrArg (fun l => upTo64 (l + 256)) (by rfl : s.traffic.highestAll = s.highestAll)

theorem State.setStop_onlyIn (s : State) (l : Line) : s.onlyIn (s.setStop l) [.dev] := by
  intro x; cases x <;> simp [Part.same, State.setStop]

/-- Settles O43: each write passes or fails the checks of its gate, and acts or is refused. -/
theorem printCommandsComplete : Obligations.PrintCommandsComplete := by
  unfold Obligations.PrintCommandsComplete
  intro s sound single unpaired reaches
  have fab : Reg.GLB_CMD.addr 0 0 0 < 0x120000 := by decide
  have up : s.dev.dev ≠ .dark := by
    intro dark
    simp [State.reaches, dark] at reaches
  have alone : s.paired = false := by simp [State.paired, unpaired]
  have leads : s.follower = false := by simp [State.follower, single]
  have agrees : s.traffic.agreeing = false := by simp [State.agreeing, State.pairedAgree, State.paired, unpaired]
  refine ⟨fun standby ready => ?_, fun unready => ?_, fun prints endless => ?_, fun prints stopped => ?_, fun idle => ?_⟩
  · have acts : s.print = s.traffic.enterPrinting none := by
      unfold State.print
      rw [State.gate_fab_acts fab up (by simp [standby, ready, leads]), agrees]
      exact if_neg Bool.false_ne_true
    obtain ⟨dev, pipes, bit, twn, drm, frame⟩ :=
      State.enterPrinting_enters none (State.traffic_sound s sound) (by rw [State.traffic_dev, standby]; decide)
    exact ⟨_, rfl, acts ▸ dev, acts ▸ pipes, acts ▸ bit, acts ▸ twn, acts ▸ drm,
      (acts ▸ s.traffic_onlyIn.trans frame : s.onlyIn s.print _).mono (by decide)⟩
  · have fails : s.print = s.traffic.refuse (Reg.GLB_CMD.addr 0 0 0) 2 := by
      have check : (s.dev.dev != .standby || !s.ready) = true := by simpa using unready
      exact State.gate_fab_refuses fab up (t := []) (by simp [check, leads])
    exact ⟨_, rfl, fails ▸ State.refusedAt_refuse sound 2 (by decide) (by decide)⟩
  · have acts : s.stop = s.traffic.setStop s.epochLine := by
      unfold State.stop
      rw [State.gate_fab_acts fab up (by simp [prints, alone, State.pairedAgree]), agrees, State.traffic_dev, endless,
        State.traffic_epochLine]
      exact (if_neg Bool.false_ne_true).trans (if_neg Bool.false_ne_true)
    refine ⟨_, rfl, acts ▸ rfl, ?_⟩
    rw [acts]
    exact (s.traffic_onlyIn.trans (State.setStop_onlyIn _ _)).mono (by decide)
  · have acts : s.stop = s.traffic := by
      unfold State.stop
      rw [State.gate_fab_acts fab up (by simp [prints, alone, State.pairedAgree]), State.traffic_dev, if_pos stopped]
    exact ⟨_, rfl, acts ▸ s.traffic_onlyIn⟩
  · have fails : s.stop = s.traffic.refuse (Reg.GLB_CMD.addr 0 0 0) 2 :=
      State.gate_fab_refuses fab up (t := []) (by simp [idle, alone, State.pairedAgree])
    exact ⟨_, rfl, fails ▸ State.refusedAt_refuse sound 2 (by decide) (by decide)⟩

end Sys2Proof.Machine
end

section
/-! The beginning of a line (R27), and why the first clause about it fails: lines are compared by the sign of their difference, which says
of two lines half the range apart that neither lies at or below the other (R175). -/

namespace Sys2Proof.Machine

theorem State.settleGroups_onlyIn (s : State) : s.onlyIn s.settleGroups [.sto] :=
  State.each_onlyIn (fun s g => by intro x; cases x <;> simp [Part.same, State.settleGroup, State.releaseOld]) s (List.range 4)

theorem State.actEnd_onlyIn (s : State) (code target : Nat) (st : Status) : s.onlyIn (s.actEnd code target st) [.lmp, .hst] := by
  have ring (u : State) (r : Nat) (f : Ring → Ring) : u.onlyIn (u.updRing r f) [.hst] := by
    intro x; cases x <;> simp [Part.same, State.updRing]
  have completes (u : State) (c : Ctx) (st : Status) (n : Nat) : u.onlyIn (u.complete c st n) [.hst] :=
    State.onlyIn_ite _ (.refl u _) (ring u _ _)
  have reports (u : State) (a : Activity) : u.onlyIn (u.actReport a st) [.hst] := by
    unfold State.actReport
    split
    · exact completes u _ _ _
    · exact .refl u _
  unfold State.actEnd
  split
  · exact .refl s _
  · next a _ =>
    have ends : s.onlyIn { s with lmp := { s.lmp with running := s.lmp.running.erase a } } [.lmp] := by
      intro x; cases x <;> simp [Part.same]
    exact ends.trans (reports _ a)

theorem State.settleActs_onlyIn (s : State) : s.onlyIn s.settleActs [.lmp, .hst] := by
  have moves (u : State) (code target : Nat) (f : Activity → Activity) : u.onlyIn (u.updAct code target f) [.lmp, .hst] := by
    intro x; cases x <;> simp [Part.same]
  refine State.each_onlyIn (fun u a => ?_) s _
  have spits (past : Prop) [Decidable past] (spent : Prop) [Decidable spent] (f : Activity → Activity) : u.onlyIn
      (if past then u else if spent then u.actEnd 9 a.target .ok else u.updAct 9 a.target f) [.lmp, .hst] :=
    State.onlyIn_ite _ (.refl u _) (State.onlyIn_ite _ (u.actEnd_onlyIn _ _ _) (moves u _ _ f))
  refine State.onlyIn_ite _ (.refl u _) (State.onlyIn_ite _ (spits _ _ _) (State.onlyIn_if _ ?_))
  split
  · exact State.onlyIn_if _ (u.actEnd_onlyIn _ _ _)
  · exact u.actEnd_onlyIn _ _ _

/-- A module without a partner and without a change under agreement begins a line: it counts as begun where it is the later one. -/
theorem State.beginLine_highest {s : State} {p : Nat} {h : Line} (l : Line) (ovs : Bool) (skipped : Nat) (seq : Option (BitVec 32))
    (single : s.twn.role = .none) (settled : s.twn.proposals = []) (here : p < s.pipes.length) (known : (s.pipe p).highest = some h) :
    ((s.beginLine p l ovs skipped seq).pipe p).highest = some (lineMax h l) := by
  have quiet : s.abortDue p l = s := by simp [State.abortDue, State.each, settled]
  unfold State.beginLine
  rw [quiet]
  refine (congrArg (fun t : State => (t.pipe p).highest) (if_neg ?_)).trans ?_
  · refine Bool.eq_false_iff.mp (State.announces_of_single l (Eq.trans (congrArg Twin.role ?_) single))
    exact (((((s.updPipe_onlyIn p _).trans (State.settleGroups_onlyIn _)).trans (State.count_touches _ _ _ _ _ _).1).trans
      (State.screened_onlyIn _ p _)).trans ((State.updPipe_onlyIn _ p _).trans (State.settleActs_onlyIn _))).same .twn
  · rw [(State.settleActs_onlyIn _).pipe p]
    refine (State.pipe_updPipe_proj _ p p Pipe.highest).trans ((State.screened_pipe_proj _ p p _ Pipe.highest).trans ?_)
    rw [(State.count_touches _ _ _ _ _ _).1.pipe p, (State.settleGroups_onlyIn _).pipe p, State.pipe_updPipe_same s _ here]
    simp only [known]

/-- LINE_BEGIN begins the line that the port's own prediction names (R27). -/
theorem exec_lineBegin_own {s : State} {p : Nat} (hp : p < 24) (runs : (s.pipe p).running = true) (room : (s.pipe p).begun.length < 2)
    (prints : s.printing = true) (endless : s.dev.stopLine = none) (own : s.announced = false) (unheld : s.twn.anns = []) :
    exec (.lineBegin p) s = .next (s.beginLine p (s.ownNext p).1 (s.ownNext p).2.1 (s.ownNext p).2.2 none) := by
  show execLineBegin p s = _
  have goesOn (l : Line) : s.stopped l = false := by simp [State.stopped, endless]
  simp [execLineBegin, runs, room, prints, own, goesOn, State.heldAnn, unheld, Nat.not_le.mpr hp]

/-- The first line of a pipeline that has begun, passed and sent none. -/
theorem State.ownNext_first {s : State} {p : Nat} {f : Line} (empty : (s.pipe p).begun = []) (unsent : (s.pipe p).lastSent = none)
    (unpassed : (s.pipe p).passed = none) (first : (s.pipe p).first = some f) : s.ownNext p = (f, false, 0) := by
  simp [State.ownNext, State.lastFire, State.startLine, empty, unsent, unpassed, first]

/-- A printing machine whose port 0 is to begin line 2^39 and has begun line 0: the two lie half the range of 40 bits apart. -/
def antipodal : State :=
  State.updPipe { State.reset with dev := { State.reset.dev with dev := .printing } } 0 fun q =>
    { q with running := true, first := some (2 ^ 39), highest := some 0 }

theorem State.reset_sound : State.reset.sound := by decide

theorem antipodal_sound : antipodal.sound := State.updPipe_sound _ 0 _ (State.sound_set_dev State.reset_sound)

/-- Refutes O9: by its first clause the line begun lies at or below the highest line begun. In `antipodal` line 2^39 is begun behind line 0;
neither lies at or below the other, so line 0 stays the highest. -/
theorem not_lineCommandsComplete : ¬ Obligations.LineCommandsComplete := by
  unfold Obligations.LineCommandsComplete
  intro holds
  obtain ⟨begins, -⟩ := holds antipodal 0 antipodal_sound (by decide)
  obtain ⟨t, b, h, ran, -, line, -, -, highest, below, -⟩ := begins rfl (by decide) rfl rfl rfl rfl rfl
  have next : antipodal.ownNext 0 = (2 ^ 39, false, 0) := State.ownNext_first rfl rfl rfl rfl
  rw [exec_lineBegin_own (by decide) rfl (by decide) rfl rfl rfl rfl, next] at ran
  obtain rfl := Host.Outcome.next.inj ran
  rw [State.beginLine_highest _ _ _ _ rfl rfl (by decide) rfl] at highest
  obtain rfl := Option.some.inj highest
  rw [line, next] at below
  exact absurd below (by decide)

end Sys2Proof.Machine
end

section
/-! The pages of a section (R51, R52): what is written through its page table is read back through it, and nothing else of the DRAM
changes. -/

namespace Sys2Proof.Machine

/-! ### Runs of bytes written through a page table -/

theorem Memory.read_writeThrough_out {f : Nat → Nat} (l : Bytes) (m : Memory) (v : Nat) {a : Nat} (h : ∀ i < l.length, f (v + i) ≠ a) :
    (Memory.writeThrough f m v l).read Memory.dramFill a = m.read Memory.dramFill a := by
  induction l generalizing m v with
  | nil => rfl
  | cons b t ih =>
    have behind : ∀ i < t.length, f (v + 1 + i) ≠ a := fun i hi => by
      rw [Nat.add_assoc, Nat.add_comm 1]
      exact h (i + 1) (by simpa using hi)
    have here : f v ≠ a := h 0 (by simp)
    rw [Memory.writeThrough, ih _ _ behind, Memory.read_write_ne _ _ _ here.symm]

theorem Memory.read_writeThrough_in {f : Nat → Nat} {n : Nat} (inj : Set.InjOn f (Set.Iio n)) (l : Bytes) (m : Memory) (v : Nat)
    (fits : v + l.length ≤ n) (hm : m.wf Memory.dramFill = true) {i : Nat} (hi : i < l.length) :
    (Memory.writeThrough f m v l).read Memory.dramFill (f (v + i)) = l[i] := by
  induction l generalizing m v i with
  | nil => simp at hi
  | cons b t ih =>
    simp only [List.length_cons] at fits hi
    cases i with
    | zero =>
      rw [Memory.writeThrough, Memory.read_writeThrough_out, Nat.add_zero, Memory.read_write_same _ _ _ _ hm, List.getElem_cons_zero]
      intro i hi same
      have := inj (Set.mem_Iio.mpr (by omega)) (Set.mem_Iio.mpr (by omega)) same
      omega
    | succ i =>
      rw [Memory.writeThrough, List.getElem_cons_succ, Nat.add_comm i, ← Nat.add_assoc]
      exact ih _ _ (by omega) (Memory.wf_write _ _ _ _ hm) (by omega)

theorem Memory.read_runs_out {f : Nat → Nat} (runs : List (Nat × Bytes)) (m : Memory) {a : Nat}
    (h : ∀ e ∈ runs, ∀ i, i < e.2.length → f (e.1 + i) ≠ a) :
    (runs.foldl (fun m e => Memory.writeThrough f m e.1 e.2) m).read Memory.dramFill a = m.read Memory.dramFill a := by
  induction runs generalizing m with
  | nil => rfl
  | cons d t ih =>
    rw [List.forall_mem_cons] at h
    rw [List.foldl_cons, ih _ h.2, Memory.read_writeThrough_out _ _ _ h.1]

/-- Runs one behind the other, each byte of them at an address of its own, are all read back. -/
theorem Memory.read_runs_in {f : Nat → Nat} {n : Nat} (inj : Set.InjOn f (Set.Iio n)) (runs : List (Nat × Bytes)) (m : Memory)
    (apart : runs.Pairwise fun d e => d.1 + d.2.length ≤ e.1) (fits : ∀ e ∈ runs, e.1 + e.2.length ≤ n)
    (hm : m.wf Memory.dramFill = true) {e : Nat × Bytes} (he : e ∈ runs) {i : Nat} (hi : i < e.2.length) :
    (runs.foldl (fun m e => Memory.writeThrough f m e.1 e.2) m).read Memory.dramFill (f (e.1 + i)) = e.2[i] := by
  induction runs generalizing m with
  | nil => cases he
  | cons d t ih =>
    rw [List.pairwise_cons] at apart
    rw [List.forall_mem_cons] at fits
    rw [List.foldl_cons]
    rcases List.mem_cons.mp he with rfl | he
    · rw [Memory.read_runs_out, Memory.read_writeThrough_in inj _ _ _ fits.1 hm hi]
      intro b hb j hj same
      have above := apart.1 b hb
      have below := fits.2 b hb
      have := inj (Set.mem_Iio.mpr (by omega)) (Set.mem_Iio.mpr (by omega)) same
      omega
    · exact ih _ apart.2 fits.2 (Memory.wf_writeThrough _ _ _ _ hm) he

/-! ### The places of a section's runs -/

theorem align256_le (n : Nat) : n ≤ align256 n := by
  unfold align256
  omega

theorem spotsFrom_map_snd (a : Nat) (l : List Bytes) : (spotsFrom a l).map (·.2) = l := by
  induction l generalizing a with
  | nil => rfl
  | cons b t ih => rw [spotsFrom, List.map_cons, ih]

theorem spotsSize_cons (b : Bytes) (t : List Bytes) : spotsSize (b :: t) = align256 b.length + spotsSize t := List.sum_cons

theorem spotsFrom_within {a : Nat} {l : List Bytes} {e : Nat × Bytes} (h : e ∈ spotsFrom a l) :
    a ≤ e.1 ∧ e.1 + e.2.length ≤ a + spotsSize l := by
  induction l generalizing a with
  | nil => cases h
  | cons b t ih =>
    rw [spotsSize_cons]
    rcases List.mem_cons.mp h with rfl | h
    · have := align256_le b.length
      exact ⟨Nat.le_refl a, by dsimp only; omega⟩
    · have := ih h
      omega

theorem spotsFrom_aligned {a : Nat} {l : List Bytes} {e : Nat × Bytes} (ha : a % 256 = 0) (h : e ∈ spotsFrom a l) : e.1 % 256 = 0 := by
  induction l generalizing a with
  | nil => cases h
  | cons b t ih =>
    rcases List.mem_cons.mp h with rfl | h
    · exact ha
    · exact ih (by unfold align256; omega) h

theorem spotsFrom_apart (a : Nat) (l : List Bytes) : (spotsFrom a l).Pairwise fun d e => d.1 + d.2.length ≤ e.1 := by
  induction l generalizing a with
  | nil => exact .nil
  | cons b t ih =>
    refine List.pairwise_cons.mpr ⟨fun e he => ?_, ih _⟩
    exact Nat.le_trans (Nat.add_le_add_left (align256_le b.length) a) (spotsFrom_within he).1

theorem le_pageUp (n : Nat) : n ≤ pageUp n := by
  unfold pageUp
  omega

/-- A section's spots: its streams in the first pages, its tables in the pages behind them. -/
theorem Section'.mem_spots {x : Section'} {e : Nat × Bytes} (h : e ∈ x.spots) :
    e ∈ spotsFrom 0 x.streams ∨ e ∈ spotsFrom (pageUp (spotsSize x.streams)) x.tables := List.mem_append.mp h

theorem Section'.spots_aligned {x : Section'} {e : Nat × Bytes} (h : e ∈ x.spots) : e.1 % 256 = 0 := by
  rcases Section'.mem_spots h with h | h
  · exact spotsFrom_aligned rfl h
  · exact spotsFrom_aligned (by unfold pageUp; omega) h

theorem Section'.spots_apart (x : Section') : x.spots.Pairwise fun d e => d.1 + d.2.length ≤ e.1 := by
  refine List.pairwise_append.mpr ⟨spotsFrom_apart _ _, spotsFrom_apart _ _, fun d hd e he => ?_⟩
  have stream := spotsFrom_within hd
  have table := spotsFrom_within he
  have := le_pageUp (spotsSize x.streams)
  omega

/-- The pages that a section needs hold all its spots. -/
theorem Section'.spots_fit {x : Section'} {e : Nat × Bytes} (h : e ∈ x.spots) : e.1 + e.2.length ≤ x.need * 65536 := by
  have streams := le_pageUp (spotsSize x.streams)
  have tables := le_pageUp (spotsSize x.tables)
  have pages : pageUp (spotsSize x.streams) + pageUp (spotsSize x.tables) ≤ x.need * 65536 := by
    unfold Section'.need pageUp
    omega
  rcases Section'.mem_spots h with h | h <;> have := spotsFrom_within h <;> omega

theorem Section'.spots_streams (x : Section') : (x.spots.map (·.2)).take x.streams.length = x.streams := by
  rw [Section'.spots, List.map_append, spotsFrom_map_snd, List.take_left]

/-! ### The page table -/

/-- Pages held no more than once give each byte of the section's address space a DRAM address of its own. -/
theorem Section'.physical_injOn (x : Section') (base : Nat) (h : x.table.Nodup) :
    Set.InjOn (x.physical base) (Set.Iio (x.table.length * 65536)) := by
  intro v hv w hw same
  rw [Set.mem_Iio] at hv hw
  have hv' : v / 65536 < x.table.length := by omega
  have hw' : w / 65536 < x.table.length := by omega
  simp only [Section'.physical, List.getD_eq_getElem _ _ hv', List.getD_eq_getElem _ _ hw'] at same
  have page : x.table[v / 65536] = x.table[w / 65536] := by omega
  have := (List.Nodup.getElem_inj_iff h).mp page
  omega

theorem Section'.physical_page (x : Section') (base : Nat) {v : Nat} (hv : v < x.table.length * 65536) :
    ∃ k ∈ x.table, base + k * 65536 ≤ x.physical base v ∧ x.physical base v < base + (k + 1) * 65536 := by
  have hv' : v / 65536 < x.table.length := by omega
  refine ⟨x.table[v / 65536], List.getElem_mem hv', ?_⟩
  simp only [Section'.physical, List.getD_eq_getElem _ _ hv']
  omega

theorem takePages_length (used : List Nat) (n k : Nat) : (takePages used n k).length = n := by
  induction n generalizing k with
  | zero => rfl
  | succ n ih => rw [takePages, List.length_cons, ih]

/-- The pages that a section of a number holds, none where it is FREE. -/
def State.heldPages (s : State) (n : Nat) : List Nat := ((s.sto.sections.find? n).map (·.table)).getD []

theorem State.mem_heldPages {s : State} {n k : Nat} (h : k ∈ s.heldPages n) : ∃ x, s.sto.sections.find? n = some x ∧ k ∈ x.table := by
  unfold State.heldPages at h
  cases here : s.sto.sections.find? n with
  | none => simp [here] at h
  | some x => exact ⟨x, rfl, by simpa [here] using h⟩

theorem State.pageTable_length (s : State) (n need : Nat) (held : List Nat) : (s.pageTable n need held).length = need := by
  simp only [State.pageTable, List.length_append, List.length_take, takePages_length]
  omega

theorem State.pageTable_keeps (s : State) (n need : Nat) (held : List Nat) {k : Nat} (hk : k < need) (hh : k < held.length) :
    (s.pageTable n need held).getD k 0 = held.getD k 0 := by
  have first : k < (held.take need).length := by rw [List.length_take]; omega
  simp only [State.pageTable]
  rw [List.getD_append _ _ _ _ first, List.getD_eq_getElem _ _ first, List.getD_eq_getElem _ _ hh, List.getElem_take]

/-- A page of the table is one that the section holds already, or one that no section holds. -/
theorem State.mem_pageTable {s : State} {n need k : Nat} {held : List Nat} (h : k ∈ s.pageTable n need held) :
    k ∈ held ∨ ∀ e ∈ s.sto.sections, e.1 ≠ n → k ∉ e.2.table := by
  rcases List.mem_append.mp h with h | h
  · exact .inl (List.mem_of_mem_take h)
  · refine .inr fun e he hn hk => ((takePages_spec _ _ _).2 k h).2 (List.mem_flatMap.mpr ⟨e, he, ?_⟩)
    rwa [if_neg hn]

/-! ### A section stored -/

/-- A section with the page table under which `State.setSection` stores it. -/
def State.paged (s : State) (n : Nat) (x : Section') : Section' := { x with table := s.pageTable n x.need (s.heldPages n) }

theorem State.setSection_eq (s : State) (n : Nat) (x : Section') : s.setSection n x =
    { s.putSection n (s.paged n x) with drm := { s.drm with mem := (s.paged n x).spots.foldl (fun m e =>
      Memory.writeThrough ((s.paged n x).physical s.regionBase) m e.1 e.2) s.drm.mem } } := rfl

theorem State.find?_setSection_same (s : State) (n : Nat) (x : Section') :
    (s.setSection n x).sto.sections.find? n = some (s.paged n x) := SMap.find?_ins_same _

theorem State.find?_setSection_ne (s : State) {n m : Nat} (x : Section') (h : m ≠ n) :
    (s.setSection n x).sto.sections.find? m = s.sto.sections.find? m := SMap.find?_ins_ne _ h

@[simp] theorem State.setSection_groups (s : State) (n : Nat) (x : Section') : (s.setSection n x).sto.groups = s.sto.groups := rfl

theorem State.setSection_onlyIn (s : State) (n : Nat) (x : Section') : s.onlyIn (s.setSection n x) [.sto, .mem] := by
  intro p; cases p <;> simp [Part.same, State.setSection_eq]

theorem Section'.need_withTable (x : Section') (l : List Nat) : Section'.need { x with table := l } = x.need := rfl

theorem Section'.streams_withTable (x : Section') (l : List Nat) : Section'.streams { x with table := l } = x.streams := rfl

theorem State.paged_need (s : State) (n : Nat) (x : Section') : (s.paged n x).need = x.need := Section'.need_withTable x _

theorem State.paged_streams (s : State) (n : Nat) (x : Section') : (s.paged n x).streams = x.streams := Section'.streams_withTable x _

theorem State.paged_length (s : State) (n : Nat) (x : Section') : (s.paged n x).table.length = (s.paged n x).need := by
  rw [State.paged_need]
  exact State.pageTable_length _ _ _ _

theorem State.paged_nodup {s : State} (n : Nat) (x : Section') (sound : s.sound) : (s.paged n x).table.Nodup :=
  State.pageTable_nodup s n x.need (State.sound_sto sound).2.1

/-- A byte of the DRAM at which no run of the section lies stays. -/
theorem State.setSection_read_out (s : State) (n : Nat) (x : Section') {a : Nat}
    (h : ∀ e ∈ (s.paged n x).spots, ∀ i, i < e.2.length → (s.paged n x).physical s.regionBase (e.1 + i) ≠ a) :
    (s.setSection n x).drm.mem.read Memory.dramFill a = s.drm.mem.read Memory.dramFill a := Memory.read_runs_out _ _ h

/-- Every byte of a run lies in a page of the section. -/
theorem State.paged_page {s : State} {n : Nat} {x : Section'} {e : Nat × Bytes} (he : e ∈ (s.paged n x).spots) {i : Nat}
    (hi : i < e.2.length) : ∃ k ∈ (s.paged n x).table, s.regionBase + k * 65536 ≤ (s.paged n x).physical s.regionBase (e.1 + i) ∧
      (s.paged n x).physical s.regionBase (e.1 + i) < s.regionBase + (k + 1) * 65536 := by
  have fits := Section'.spots_fit he
  exact Section'.physical_page _ _ (by rw [State.paged_length]; omega)

/-- Every run of the section reads back. -/
theorem State.sectionBytes_setSection {s : State} {n : Nat} {x : Section'} (sound : s.sound) {e : Nat × Bytes}
    (he : e ∈ (s.paged n x).spots) : (s.setSection n x).sectionBytes (s.paged n x) e.1 e.2.length = e.2 := by
  have inj := Section'.physical_injOn (s.paged n x) s.regionBase (State.paged_nodup n x sound)
  rw [State.paged_length] at inj
  refine List.ext_getElem (by simp [State.sectionBytes]) fun i hi hi' => ?_
  simp only [State.sectionBytes, List.getElem_map, List.getElem_range]
  exact Memory.read_runs_in inj _ _ (s.paged n x).spots_apart (fun _ => Section'.spots_fit)
    (State.sound_mem sound) he hi'

/-- Settles O16: the lemmas on the page table, the section's spots and the runs written through it, put together. -/
theorem sectionPagesHoldData : Obligations.SectionPagesHoldData := by
  unfold Obligations.SectionPagesHoldData
  rintro s n x t sound rfl
  refine ⟨s.paged n x, s.find?_setSection_same n x, rfl, (s.paged_length n x).trans (s.paged_need n x),
    State.paged_nodup n x sound, ?_, ?_, s.paged_streams n x ▸ (s.paged n x).spots_streams,
    fun e he => ⟨Section'.spots_aligned he, State.sectionBytes_setSection sound he⟩, ?_,
    fun m hm => s.find?_setSection_ne x hm, rfl, s.setSection_onlyIn n x⟩
  · intro h k here hk hh
    have held : s.heldPages n = h.table := by simp [State.heldPages, here]
    rw [← held] at hh ⊢
    exact s.pageTable_keeps n x.need (s.heldPages n) hk hh
  · intro m z k hm hz kz ky
    exact (State.mem_pageTable ky).elim State.mem_heldPages fun free => absurd kz (free (m, z) (SMap.mem_of_find? m _ hz) hm)
  · intro a outside
    refine s.setSection_read_out n x fun e he i hi same => ?_
    obtain ⟨k, hk, low, high⟩ := State.paged_page he hi
    have := outside k hk
    omega

end Sys2Proof.Machine
end

section
/-! Descriptors (R362, R363, R374, R380): what the taking of an accepted one and its completion change, of the rings and of all else. -/

namespace Sys2Proof.Machine

/-! ### The rings of an accepted descriptor -/

section
variable {s : State} {r op : Nat} {d : Bytes}

theorem State.hasWork_of_accepts (h : s.accepts r d op) : s.hasWork r = true := by
  obtain ⟨-, takes, -⟩ := h
  simp only [State.takes, Bool.and_eq_true] at takes
  exact takes.1.1

theorem State.ring_lt_of_accepts (h : s.accepts r d op) : r < 64 := by
  have work := State.hasWork_of_accepts h
  simp only [State.hasWork, State.running, Bool.and_eq_true, decide_eq_true_eq] at work
  exact work.1.1.1.1.1

theorem State.ringKind_of_accepts (h : s.accepts r d op) : s.ringKind r = 0 := by
  have work := State.hasWork_of_accepts h
  simp only [State.hasWork, Bool.and_eq_true, beq_iff_eq] at work
  exact work.1.1.2

/-- A COMPLETE ring is one of the 64: its number is a field of six bits. -/
theorem State.cring_lt (s : State) (r : Nat) : s.cring r < 64 := Nat.mod_lt _ (by decide)

theorem State.cring_ne_of_accepts (h : s.accepts r d op) : s.cring r ≠ r := by
  have work := State.hasWork_of_accepts h
  simp only [State.hasWork, State.cringTakes, Bool.and_eq_true, beq_iff_eq] at work
  intro same
  have complete := work.2.1.2
  rw [same, State.ringKind_of_accepts h] at complete
  exact absurd complete (by decide)

/-- A command acts on the descriptor that its ring accepts, once it is taken. -/
theorem State.descriptor_of_accepts (h : s.accepts r d op) {mine : Bytes → Bool} (row : mine d = true) (act : State → Ctx → State) :
    s.descriptor r d op mine act = act (s.take r) (s.ctxOf r d) := by
  have submit := State.ringKind_of_accepts h
  obtain ⟨len, takes, window, crc, opcode, isOp, unreserved⟩ := h
  simp [State.descriptor, len, takes, window, crc, isOp, row, unreserved, submit, submit ▸ opcode]

end

/-! ### The taking of a descriptor -/

/-- Taking a descriptor changes the host interface alone. -/
theorem State.take_eq (s : State) (r : Nat) : s.take r = { s with hst := (s.take r).hst } := by
  unfold State.take
  dsimp only
  split <;> rfl

@[simp] theorem State.take_regs (s : State) (r : Nat) : (s.take r).regs = s.regs := by rw [State.take_eq]
@[simp] theorem State.take_dev (s : State) (r : Nat) : (s.take r).dev = s.dev := by rw [State.take_eq]
@[simp] theorem State.take_sto (s : State) (r : Nat) : (s.take r).sto = s.sto := by rw [State.take_eq]
@[simp] theorem State.take_twn (s : State) (r : Nat) : (s.take r).twn = s.twn := by rw [State.take_eq]
@[simp] theorem State.take_drm (s : State) (r : Nat) : (s.take r).drm = s.drm := by rw [State.take_eq]
@[simp] theorem State.take_get (s : State) (r : Nat) (f : Fld) (i j k : Nat) : (s.take r).get f i j k = s.get f i j k := by
  rw [State.take_eq]; rfl
@[simp] theorem State.take_cring (s : State) (r q : Nat) : (s.take r).cring q = s.cring q := s.take_get r _ q 0 0
@[simp] theorem State.take_windowOk (s : State) (r : Nat) (write : Bool) (addr len : Nat) :
    (s.take r).windowOk write addr len = s.windowOk write addr len := by rw [State.take_eq]; rfl

theorem State.take_hst (s : State) (r : Nat) : ∃ turn, (s.take r).hst = { s.hst with
    turn := turn, l1 := false, busyAt := s.clock,
    rings := upd r (fun g => { g with dev := (g.dev + 1) % s.ringSize r, inflight := g.inflight + 1, dirty := true }) s.hst.rings } := by
  unfold State.take
  dsimp only
  split <;> exact ⟨_, rfl⟩

theorem State.take_onlyIn (s : State) (r : Nat) : s.onlyIn (s.take r) [.hst, .pcie] := by
  intro x
  rw [State.take_eq]
  cases x <;> simp [Part.same]

theorem State.take_gen (s : State) (r : Nat) : (s.take r).hst.gen = s.hst.gen := by
  obtain ⟨turn, hst⟩ := s.take_hst r
  rw [hst]

theorem State.take_rings_length (s : State) (r : Nat) : (s.take r).hst.rings.length = s.hst.rings.length := by
  obtain ⟨turn, hst⟩ := s.take_hst r
  rw [hst]
  exact length_upd _ _ _

theorem State.ring_take_ne (s : State) {r q : Nat} (h : q ≠ r) : (s.take r).ring q = s.ring q := by
  obtain ⟨turn, hst⟩ := s.take_hst r
  unfold State.ring
  rw [hst]
  exact getD_upd_ne h

theorem State.waiting_take (s : State) (r q : Nat) : ((s.take r).ring q).waiting = (s.ring q).waiting := by
  obtain ⟨turn, hst⟩ := s.take_hst r
  unfold State.ring
  rw [hst]
  refine getD_upd_proj Ring.waiting ?_ r q _ _
  exact fun _ => rfl

theorem State.took_take {s : State} {r : Nat} (inside : r < s.hst.rings.length) : s.took (s.take r) r := by
  obtain ⟨turn, hst⟩ := s.take_hst r
  unfold State.took State.ring
  rw [hst]
  constructor <;> dsimp only <;> rw [getD_upd_same inside]

theorem State.ringsOnly_take (s : State) (r : Nat) : s.ringsOnly (s.take r) [r] := by
  refine ⟨?_, fun q => ?_⟩
  · obtain ⟨turn, hst⟩ := s.take_hst r
    rw [hst]
  · by_cases same : q = r
    · exact .inl (by simp [same])
    · exact .inr (s.ring_take_ne same)

/-! ### A completion -/

theorem State.complete_eq {s : State} {c : Ctx} (known : c.gen = s.hst.gen) (st : Status) (result : Nat) :
    s.complete c st result = s.updRing (s.cring c.ring) fun g =>
      { g with waiting := g.waiting ++ [⟨c, st.code, if st = .ok then BitVec.ofNat 56 result else 0⟩] } := by
  unfold State.complete
  rw [if_neg (not_not_intro known)]

/-- A completion changes the host interface alone. -/
theorem State.complete_eq_withHst (s : State) (c : Ctx) (st : Status) (result : Nat) :
    s.complete c st result = { s with hst := (s.complete c st result).hst } := by
  unfold State.complete
  split <;> rfl

@[simp] theorem State.complete_sto (s : State) (c : Ctx) (st : Status) (result : Nat) : (s.complete c st result).sto = s.sto := by
  rw [State.complete_eq_withHst]
@[simp] theorem State.complete_drm (s : State) (c : Ctx) (st : Status) (result : Nat) : (s.complete c st result).drm = s.drm := by
  rw [State.complete_eq_withHst]
@[simp] theorem State.complete_regs (s : State) (c : Ctx) (st : Status) (result : Nat) : (s.complete c st result).regs = s.regs := by
  rw [State.complete_eq_withHst]

theorem State.complete_onlyIn (s : State) (c : Ctx) (st : Status) (result : Nat) : s.onlyIn (s.complete c st result) [.hst] := by
  refine State.onlyIn_ite _ (.refl s _) ?_
  intro x; cases x <;> simp [Part.same, State.updRing]

theorem State.ring_complete_same {s : State} {c : Ctx} (known : c.gen = s.hst.gen) (inside : s.cring c.ring < s.hst.rings.length)
    (st : Status) (result : Nat) : (s.complete c st result).ring (s.cring c.ring) = { s.ring (s.cring c.ring) with
      waiting := (s.ring (s.cring c.ring)).waiting ++ [⟨c, st.code, if st = .ok then BitVec.ofNat 56 result else 0⟩] } := by
  rw [State.complete_eq known, State.ring_updRing_same _ _ inside]

theorem State.ring_complete_ne {s : State} {c : Ctx} {q : Nat} (h : q ≠ s.cring c.ring) (st : Status) (result : Nat) :
    (s.complete c st result).ring q = s.ring q := by
  unfold State.complete
  split
  · rfl
  · exact State.ring_updRing_ne _ _ h

theorem State.complete_hst (s : State) (c : Ctx) (st : Status) (result : Nat) :
    { (s.complete c st result).hst with rings := [] } = { s.hst with rings := [] } := by
  unfold State.complete
  split <;> rfl

/-- A descriptor that has been taken completes OK: nothing else of the host interface changes. -/
theorem State.answered_complete {s u : State} {r op : Nat} {d : Bytes} (sound : s.sound) (h : s.accepts r d op)
    (hst : u.hst = (s.take r).hst) (cring : u.cring r = s.cring r) (result : Nat) :
    s.answered (u.complete (s.ctxOf r d) .ok result) r d .ok result := by
  have inside : r < s.hst.rings.length := by
    rw [State.sound_rings sound]
    exact State.ring_lt_of_accepts h
  have there : s.cring r < u.hst.rings.length := by
    rw [hst, State.take_rings_length, State.sound_rings sound]
    exact s.cring_lt r
  have known : (s.ctxOf r d).gen = u.hst.gen := by rw [hst, State.take_gen]; rfl
  have ring (q : Nat) : u.ring q = (s.take r).ring q := congrArg (fun x : Host' => x.rings.getD q Ring.reset) hst
  have others {q : Nat} (hq : q ≠ s.cring r) : (u.complete (s.ctxOf r d) .ok result).ring q = (s.take r).ring q :=
    (State.ring_complete_ne (cring.symm ▸ hq) _ _).trans (ring q)
  refine ⟨?_, ?_, ?_, fun q => ?_⟩
  · unfold State.took
    rw [others (State.cring_ne_of_accepts h).symm]
    exact State.took_take inside
  · have same := State.ring_complete_same known (show u.cring r < _ from cring ▸ there) .ok result
    rw [show u.cring (s.ctxOf r d).ring = s.cring r from cring, ring] at same
    unfold State.completes
    rw [show s.cring (s.ctxOf r d).ring = s.cring r from rfl, same, s.waiting_take]
    rfl
  · refine Eq.trans ?_ (s.ringsOnly_take r).1
    rw [← hst]
    exact congrArg (fun x : Host' => { x with l1 := false, busyAt := 0, turn := 0 }) (u.complete_hst _ _ _)
  · by_cases own : q = s.cring r
    · exact .inl (by simp [own])
    · by_cases taken : q = r
      · exact .inl (by simp [taken])
      · exact .inr ((others own).trans (s.ring_take_ne taken))

end Sys2Proof.Machine
end

section
/-! Ingest, SEAL and CANCEL of a section on a module without a partner (R46 to R61). -/

namespace Sys2Proof.Machine

theorem State.onlyIn.hst {s t : State} {l : List Part} (h : s.onlyIn t l) (hx : .hst ∉ l := by decide) (hy : .pcie ∉ l := by decide) :
    t.hst = s.hst := by
  have rest := h.same .hst hx
  obtain ⟨l1, busy⟩ : _ ∧ _ := h.same .pcie hy
  calc t.hst = { { t.hst with l1 := false, busyAt := 0 } with l1 := t.hst.l1, busyAt := t.hst.busyAt } := rfl
    _ = { { s.hst with l1 := false, busyAt := 0 } with l1 := s.hst.l1, busyAt := s.hst.busyAt } := by rw [rest, l1, busy]
    _ = s.hst := rfl

/-! ### A module without a partner -/

section
variable {s : State}

theorem State.storeGate_open (ready : s.drm.ready = true) (awake : s.dev.dev ≠ .held) (single : s.twn.role = .none) (c : Ctx)
    (act : State → State) : s.storeGate c act = act s := by
  simp [State.storeGate, State.follower, ready, awake, single]

theorem State.agree_alone (single : s.twn.role = .none) (line : Option Line) (body : ChangeBody) (ctx : Option Ctx) (result : Nat)
    (undo : Option (Nat × Option Section')) : s.agree line body ctx result undo = s.applyChange line body ctx result := by
  simp [State.agree, State.agreeing, State.journal, State.coldPrimary, single]

theorem State.finishIngest_alone (single : s.twn.role = .none) (n : Nat) (x : Section') (c : Ctx) (result : Nat)
    (old : Option Section') : s.finishIngest n x c result old = s.complete c .ok result := by
  rw [State.finishIngest, State.agree_alone single]
  rfl

theorem State.mirrorPlane_alone (single : s.twn.role = .none) (n plane : Nat) (old new : PlaneData) :
    s.mirrorPlane n plane old new = s := by
  simp [State.mirrorPlane, single]

theorem State.verifyRaises_touches (s : State) (n plane : Nat) (strips : List Nat) :
    s.touches (s.verifyRaises n plane strips) [.regs, .ltn, .free] [Reg.STO_VERIFY_CNT.addr 0 0 0] := by
  refine State.each_touches (fun u i => ?_) s strips
  have free (v : State) : v.onlyIn { v with free := v.free + 1 } [.free] := by
    intro x; cases x <;> simp [Part.same]
  exact (((u.count_touches .STO_VERIFY_CNT 0 0 0 1).trans (State.raise_onlyIn _ _ _ _ _ _ _).touches).trans (free _).touches).mono
    (ha := fun _ h => h)

/-- A plane that fits is stored, behind what its blocks stored RAW count and raise (R53, R89). -/
theorem State.storePlane_alone {n plane : Nat} {x : Section'} {new : PlaneData} (single : s.twn.role = .none)
    (room : s.storeFull n { x with data := upd plane (fun _ => new) x.data } = false) (c : Ctx) (raws : List Nat) :
    s.storePlane n plane x new c raws =
      ((s.verifyRaises n plane raws).setSection n { x with data := upd plane (fun _ => new) x.data }).complete c .ok raws.length := by
  have alone : (s.verifyRaises n plane raws).twn.role = .none := by rw [(s.verifyRaises_touches n plane raws).1.same .twn, single]
  have stored (y : Section') : ((s.verifyRaises n plane raws).setSection n y).twn.role = .none := by
    rw [(State.setSection_onlyIn _ n y).same .twn, alone]
  unfold State.storePlane
  simp only [room, Bool.false_eq_true, if_false]
  rw [State.mirrorPlane_alone alone, State.finishIngest_alone (stored _)]

end

/-! ### A section behind a descriptor -/

@[simp] theorem State.take_section (s : State) (r n : Nat) : (s.take r).section n = s.section n := by rw [State.take_eq]; rfl

@[simp] theorem State.take_storeFull (s : State) (r n : Nat) (x : Section') : (s.take r).storeFull n x = s.storeFull n x := by
  rw [State.take_eq]; rfl

@[simp] theorem State.take_restoreFailed (s : State) (r n plane : Nat) : (s.take r).restoreFailed n plane = s.restoreFailed n plane := by
  rw [State.take_eq]; rfl

/-- What a section's bytes are depends on the DRAM and the registers alone. -/
theorem State.fromDram_congr {s t : State} (drm : t.drm = s.drm) (regs : t.regs = s.regs) (x : Section') : t.fromDram x = s.fromDram x := by
  simp [State.fromDram, State.sectionBytes, State.regionBase, State.get, State.rd, drm, regs]

theorem State.section_congr {s t : State} {n : Nat} (drm : t.drm = s.drm) (regs : t.regs = s.regs)
    (sections : t.sto.sections.find? n = s.sto.sections.find? n) : t.section n = s.section n := by
  unfold State.section
  rw [sections, funext (State.fromDram_congr drm regs)]

/-- An ingest that an accepted descriptor names is stored and completes, behind what it has counted and raised: only the rings of the
descriptor, the section and its bytes in the DRAM change besides. -/
theorem State.ingested {s v : State} {r op : Nat} {d : Bytes} {l : List Part} (sound : s.sound) (h : s.accepts r d op)
    (before : (s.take r).touches v l [Reg.STO_VERIFY_CNT.addr 0 0 0]) (apart : l ⊆ [.regs, .ltn, .free]) (n : Nat) (x : Section')
    (result : Nat) : let t := (v.setSection n x).complete (s.ctxOf r d) .ok result
    t.sto.sections.find? n = some (v.paged n x) ∧ (∀ m, m ≠ n → t.sto.sections.find? m = s.sto.sections.find? m) ∧
      t.sto.groups = s.sto.groups ∧ s.answered t r d .ok result ∧
      (∀ a, (∀ e ∈ (v.paged n x).spots, ∀ i, i < e.2.length → (v.paged n x).physical s.regionBase (e.1 + i) ≠ a) →
        t.drm.mem.read Memory.dramFill a = s.drm.mem.read Memory.dramFill a) ∧
      s.onlyIn t (l ++ [.sto, .mem, .hst, .pcie]) := by
  intro t
  have wide := before.1.mono apart
  have sto : v.sto = s.sto := (wide.same .sto).trans (s.take_sto r)
  have base : v.regionBase = s.regionBase :=
    congrArg (· * 2 ^ 20) ((before.2.get .STO_REGION_base_mb 0 0 0 (by decide)).trans (s.take_get r _ 0 0 0))
  have cring : v.cring r = s.cring r := by
    refine (before.2.get .HST_RING_CFG_cring r 0 0 ?_).trans (s.take_cring r r)
    have := State.ring_lt_of_accepts h
    simp [Reg.addr, Fld.HST_RING_CFG_cring, Reg.HST_RING_CFG, Reg.STO_VERIFY_CNT]
    omega
  refine ⟨?_, fun m hm => ?_, ?_, ?_, fun a ha => ?_, ?_⟩
  · rw [State.complete_sto]
    exact v.find?_setSection_same n x
  · rw [State.complete_sto, v.find?_setSection_ne x hm, sto]
  · rw [State.complete_sto, State.setSection_groups, sto]
  · exact State.answered_complete (u := v.setSection n x) sound h wide.hst cring result
  · have mem : v.drm.mem.read Memory.dramFill a = (s.take r).drm.mem.read Memory.dramFill a := wide.same .mem (by decide) a
    rw [State.complete_drm, v.setSection_read_out n x (by rwa [base]), mem, State.take_drm]
  · refine (((s.take_onlyIn r).trans before.1).trans ((v.setSection_onlyIn n x).trans (State.complete_onlyIn _ _ _ _))).mono ?_
    intro p
    simp only [List.mem_append, List.mem_cons, List.not_mem_nil]
    tauto

/-- A plane is stored behind a taken descriptor (R56, R60, R61): the section keeps its size and its other planes. -/
theorem State.storePlane_stores {s : State} {r op n plane : Nat} {d : Bytes} {x : Section'} {new : PlaneData} {raws : List Nat}
    (sound : s.sound) (h : s.accepts r d op) (single : s.twn.role = .none) (inside : plane < x.data.length)
    (room : s.storeFull n { x with data := upd plane (fun _ => new) x.data } = false) :
    let t := (s.take r).storePlane n plane x new (s.ctxOf r d) raws
    ∃ y : Section', t.sto.sections.find? n = some y ∧ y = { x with data := y.data, table := y.table } ∧
      y.data.getD plane ⟨0, [], [], true⟩ = new ∧
      (∀ i, i ≠ plane → y.data.getD i ⟨0, [], [], true⟩ = x.data.getD i ⟨0, [], [], true⟩) ∧
      (∀ m, m ≠ n → t.sto.sections.find? m = s.sto.sections.find? m) ∧ t.sto.groups = s.sto.groups ∧
      s.answered t r d .ok raws.length ∧
      (∀ a, (∀ e ∈ y.spots, ∀ i, i < e.2.length → y.physical s.regionBase (e.1 + i) ≠ a) →
        t.drm.mem.read Memory.dramFill a = s.drm.mem.read Memory.dramFill a) ∧
      (raws = [] → s.onlyIn t [.sto, .mem, .hst, .pcie]) := by
  intro t
  have stored : t = _ := State.storePlane_alone (by rwa [State.take_twn]) (by rwa [State.take_storeFull]) (s.ctxOf r d) raws
  rw [stored]
  obtain ⟨found, others, groups, answered, bytes, -⟩ := State.ingested sound h ((s.take r).verifyRaises_touches n plane raws)
    (List.Subset.refl _) n { x with data := upd plane (fun _ => new) x.data } raws.length
  refine ⟨_, found, rfl, getD_upd_same inside, fun i hi => getD_upd_ne hi, others, groups, answered, bytes, ?_⟩
  rintro rfl
  obtain ⟨-, -, -, -, -, frame⟩ := State.ingested sound h (State.touches.refl (s.take r) [] _) (List.nil_subset _) n
    { x with data := upd plane (fun _ => new) x.data } 0
  exact frame

end Sys2Proof.Machine
end

section
/-! The obligations about sections and the ingest of their planes (R46, R49, R50, R56 to R61). -/

namespace Sys2Proof.Machine

/-! ### The section that a header record makes (R45, R46) -/

theorem sectionOf_nexts (record : Bytes) : (sectionOf record).nexts = List.replicate (byteAt record 12) 0 := by
  simp [Section'.nexts, sectionOf, recordPlanes, Function.comp_def]

theorem Section'.nexts_withTable (x : Section') (l : List Nat) : Section'.nexts { x with table := l } = x.nexts := rfl

theorem State.paged_nexts (s : State) (n : Nat) (x : Section') : (s.paged n x).nexts = x.nexts := Section'.nexts_withTable x _

theorem recordPlanes_length (record : Bytes) : (recordPlanes record).length = byteAt record 12 := by simp [recordPlanes]

theorem recordPlanes_get {record : Bytes} {i : Nat} {q : Plane} (h : (recordPlanes record)[i]? = some q) :
    q.contone = !(byteAt record (16 + i)).testBit 7 ∧ q.xres = resOf (nbits (byteAt record (16 + i)) 6 5) ∧
      q.yres = resOf (nbits (byteAt record (16 + i)) 4 3) := by
  simp only [recordPlanes, List.getElem?_map, Option.map_eq_some_iff] at h
  obtain ⟨j, hj, rfl⟩ := h
  obtain ⟨-, rfl⟩ := List.getElem?_eq_some_iff.mp hj
  simp

/-! ### What the commands come to where their checks pass -/

section
variable {s : State} {r : Nat} {d : Bytes} (ready : s.drm.ready = true) (awake : s.dev.dev ≠ .held) (single : s.twn.role = .none)
include ready awake single

theorem State.storeGate_take (c : Ctx) (act : State → State) : (s.take r).storeGate c act = act (s.take r) :=
  State.storeGate_open (by rwa [State.take_drm]) (by rwa [State.take_dev]) (by rwa [State.take_twn]) c act

theorem exec_ingestHeader_opens {record : Bytes} (h : s.accepts r d 1) (kind : dIngestKind d = 0)
    (free : s.section (dSection d 4) = none) (named : leAt d 16 4 = 64) (window : s.windowOk false (leAt d 8 8) 64 = true)
    (len : record.length = 64) (crc : crcOk record = true) (good : recordOk record (dSection d 4) = true)
    (room : s.storeFull (dSection d 4) (sectionOf record) = false) : exec (.ingestHeader r d record) s =
      .next (((s.take r).setSection (dSection d 4) (sectionOf record)).complete (s.ctxOf r d) .ok 0) := by
  have alone : ((s.take r).setSection (dSection d 4) (sectionOf record)).twn.role = .none := by
    rw [(State.setSection_onlyIn _ _ _).same .twn, State.take_twn, single]
  show execIngestHeader r d record s = _
  unfold execIngestHeader
  rw [State.descriptor_of_accepts h (by simp [kind]), State.storeGate_take ready awake single]
  simp [kind, free, named, State.withRead, window, len, crc, good, room, State.finishIngest_alone alone]

theorem exec_seal_seals {x : Section'} (h : s.accepts r d 2) (here : s.section (dSection d 4) = some x) (opened : x.st = .opened)
    (whole : (x.planes.zip x.data).all (fun e => e.2.next == x.planeHeight e.1) = true) : ∃ y,
      s.sto.sections.find? (dSection d 4) = some y ∧ x = s.fromDram y ∧ exec (.seal r d) s =
        .next (((s.take r).putSection (dSection d 4) { y with st := .sealed' }).complete (s.ctxOf r d) .ok y.pages) := by
  obtain ⟨y, found, rfl⟩ := Option.map_eq_some_iff.mp here
  refine ⟨y, found, rfl, ?_⟩
  show execSeal r d s = _
  unfold execSeal
  rw [State.descriptor_of_accepts h rfl, State.storeGate_take ready awake single]
  simp only [State.take_section, here, opened, whole, State.agree_alone (show (s.take r).twn.role = .none by rwa [State.take_twn]),
    State.applyChange, State.take_sto, found]
  rfl

theorem exec_ingestPlaneRaw_stores {x : Section'} {q : Plane} {old : PlaneData} {band : Bytes} {e len : Nat} (h : s.accepts r d 1)
    (kind : dIngestKind d = 1) (here : s.section (dSection d 4) = some x) (opened : x.st = .opened)
    (plane : nbits (byteAt d 6) 4 2 < x.planes.length) (hq : q = x.planes.getD (nbits (byteAt d 6) 4 2) ⟨true, 1200, 1200⟩)
    (hold : old = if (byteAt d 6).testBit 5 then ⟨0, [], [], true⟩ else x.data.getD (nbits (byteAt d 6) 4 2) ⟨0, [], [], true⟩)
    (effort : nbits (byteAt d 7) 3 0 ≤ 8)
    (he : e = if nbits (byteAt d 7) 3 0 = 8 then s.get .STO_CTRL_effort_default else nbits (byteAt d 7) 3 0)
    (pitch : x.planeWidth q ≤ leAt d 26 3) (next : nbits (leAt d 20 3) 21 0 = old.next)
    (height : old.next + nbits (leAt d 23 3) 22 0 ≤ x.planeHeight q) (codec : old.codecOk = true)
    (hlen : len = if nbits (leAt d 23 3) 22 0 = 0 then 0 else (nbits (leAt d 23 3) 22 0 - 1) * leAt d 26 3 + x.planeWidth q)
    (window : len = 0 ∨ s.windowOk false (leAt d 8 8) len = true) (whole : band.length = len) :
    exec (.ingestPlaneRaw r d band) s =
      let made := appendPlane x q old band (leAt d 26 3) (nbits (leAt d 23 3) 22 0) e ((byteAt d 6).testBit 6)
      .next ((s.take r).storePlane (dSection d 4) (nbits (byteAt d 6) 4 2) x made.1 (s.ctxOf r d) made.2) := by
  show execIngestPlaneRaw r d band s = _
  unfold execIngestPlaneRaw
  rw [State.descriptor_of_accepts h (by simp [kind]), State.storeGate_take ready awake single]
  simp only [State.take_section, here, opened, ← hq, ← hold, ← hlen]
  simp [Nat.not_le.mpr plane, Nat.not_lt.mpr effort, Nat.not_lt.mpr pitch, next, Nat.not_lt.mpr height, codec, State.withRead,
    window, State.received, whole, he]

theorem exec_ingestPlaneIbrik_stores {x : Section'} {q : Plane} {container : Bytes} {strips : List Strip} (h : s.accepts r d 1)
    (kind : dIngestKind d = 2) (here : s.section (dSection d 4) = some x) (opened : x.st = .opened)
    (plane : nbits (byteAt d 6) 4 2 < x.planes.length) (hq : q = x.planes.getD (nbits (byteAt d 6) 4 2) ⟨true, 1200, 1200⟩)
    (empty : (x.data.getD (nbits (byteAt d 6) 4 2) ⟨0, [], [], true⟩).next = 0)
    (restored : s.restoreFailed (dSection d 4) (nbits (byteAt d 6) 4 2) = false) (header : 16 ≤ leAt d 16 4)
    (window : s.windowOk false (leAt d 8 8) (leAt d 16 4) = true) (whole : container.length = leAt d 16 4)
    (decodes : readContainer (x.planeWidth q) (x.planeHeight q) q.depth container = some strips) :
    exec (.ingestPlaneIbrik r d container) s = .next ((s.take r).storePlane (dSection d 4) (nbits (byteAt d 6) 4 2) x
      ⟨x.planeHeight q, strips, [], true⟩ (s.ctxOf r d) []) := by
  show execIngestPlaneIbrik r d container s = _
  unfold execIngestPlaneIbrik
  rw [State.descriptor_of_accepts h (by simp [kind]), State.storeGate_take ready awake single]
  simp only [State.take_section, here, opened, ← hq, empty, State.take_restoreFailed, restored]
  simp [Nat.not_le.mpr plane, State.withRead, window, State.received, whole, Nat.not_lt.mpr header, decodes]

end

/-! ### CANCEL of a section (R50) -/

theorem State.each_withHst {α : Type} {f : State → α → State} (hf : ∀ (s : State) h a, f { s with hst := h } a = { f s a with hst := h })
    (s : State) (h : Host') (l : List α) : State.each { s with hst := h } l f = { s.each l f with hst := h } := by
  unfold State.each
  induction l generalizing s with
  | nil => rfl
  | cons a t ih => rw [List.foldl_cons, hf, ih, List.foldl_cons]

/-- The groups settle alike whatever the host interface holds. -/
theorem State.settleGroups_take (s : State) (r : Nat) : (s.take r).settleGroups = { s.settleGroups with hst := (s.take r).hst } := by
  rw [State.take_eq]
  exact State.each_withHst (fun _ _ _ => rfl) s _ _

theorem State.inUse_withHst (s : State) (h : Host') (n : Nat) : State.inUse { s with hst := h } n = s.inUse n := rfl

theorem State.settleGroups_sections (s : State) : s.settleGroups.sto.sections = s.sto.sections :=
  State.each_same (fun s => s.sto.sections) (fun _ _ => rfl) s (List.range 4)

/-- The groups settle in the raster store alone. -/
theorem State.settleGroups_eq (s : State) : s.settleGroups = { s with sto := s.settleGroups.sto } := by
  refine State.each_rel (R := fun s t => t = { s with sto := t.sto }) (fun _ => rfl) (fun {s t u} h h' => ?_) (fun _ _ => rfl) s
    (List.range 4)
  rw [h', h]

theorem State.dropSection_onlyIn (s : State) (n : Nat) : s.onlyIn (s.dropSection n) [.sto] := by
  intro x; cases x <;> simp [Part.same, State.dropSection]

theorem State.find?_putSection_same (s : State) (n : Nat) (x : Section') : (s.putSection n x).sto.sections.find? n = some x :=
  SMap.find?_ins_same _

theorem State.find?_putSection_ne (s : State) {n m : Nat} (x : Section') (h : m ≠ n) :
    (s.putSection n x).sto.sections.find? m = s.sto.sections.find? m := SMap.find?_ins_ne _ h

theorem State.putSection_onlyIn (s : State) (n : Nat) (x : Section') : s.onlyIn (s.putSection n x) [.sto] := by
  intro p; cases p <;> simp [Part.same]

/-- A section returns to FREE behind a taken descriptor, in a state that differs from the one that took it in the groups alone. -/
theorem State.dropSection_frees {s v : State} {r op : Nat} {d : Bytes} (sound : s.sound) (h : s.accepts r d op)
    (hst : v.hst = (s.take r).hst) (drm : v.drm = s.drm) (regs : v.regs = s.regs) (sections : v.sto.sections = s.sto.sections)
    (frame : (s.take r).onlyIn v [.sto]) (n : Nat) : let t := (v.dropSection n).complete (s.ctxOf r d) .ok 0
    t.section n = none ∧ (∀ m, m ≠ n → t.section m = s.section m) ∧ s.answered t r d .ok 0 ∧ s.onlyIn t [.sto, .hst, .pcie] := by
  intro t
  have left : t.sto.sections = s.sto.sections.del n := by
    rw [State.complete_sto, ← sections]
    rfl
  refine ⟨?_, fun m hm => State.section_congr ?_ ?_ ?_, ?_, ?_⟩
  · unfold State.section
    rw [left, SMap.find?_del_same _ (State.sound_sto sound).1]
    rfl
  · exact (State.complete_drm _ _ _ _).trans drm
  · exact (State.complete_regs _ _ _ _).trans regs
  · rw [left, SMap.find?_del_ne _ hm]
  · refine State.answered_complete (u := v.dropSection n) sound h hst ?_ 0
    show field (SMap.get _ _ v.regs) _ _ = field (SMap.get _ _ s.regs) _ _
    rw [regs]
  · exact (((s.take_onlyIn r).trans frame).trans ((v.dropSection_onlyIn n).trans (State.complete_onlyIn _ _ _ _))).mono (by decide)

theorem exec_cancelSection_frees {s : State} {r : Nat} {d : Bytes} {x : Section'} (ready : s.drm.ready = true)
    (awake : s.dev.dev ≠ .held) (single : s.twn.role = .none) (h : s.accepts r d 4) (kind : byteAt d 4 = 0)
    (here : s.section (dSection d 6) = some x) (unused : s.settleGroups.inUse (dSection d 6) = false) :
    exec (.cancelSection r d) s = .next (((s.take r).settleGroups.dropSection (dSection d 6)).complete (s.ctxOf r d) .ok 0) := by
  have alone : (s.take r).settleGroups.twn.role = .none := by
    rw [(State.settleGroups_onlyIn _).same .twn, State.take_twn, single]
  have idle : (s.take r).settleGroups.inUse (dSection d 6) = false := by
    rw [State.settleGroups_take, State.inUse_withHst, unused]
  show execCancelSection r d s = _
  unfold execCancelSection
  rw [State.descriptor_of_accepts h (by simp [kind]), State.storeGate_take ready awake single]
  simp only [State.take_section, here, kind]
  refine congrArg Host.Outcome.next ?_
  show (if (s.take r).settleGroups.inUse (dSection d 6) = true then _ else (s.take r).settleGroups.agree _ _ _ _ _) = _
  rw [idle, if_neg Bool.false_ne_true, State.agree_alone alone]
  rfl

/-- Settles O13: each command by its lemma above; INGEST_HEADER by `State.ingested`. -/
theorem sectionCommandsComplete : Obligations.SectionCommandsComplete := by
  unfold Obligations.SectionCommandsComplete
  intro s r d sound ready awake single
  refine ⟨?header, ?seals, ?cancel⟩
  case header =>
    intro record h kind free named window len crc good room
    obtain ⟨found, others, groups, answered, bytes, frame⟩ := State.ingested sound h (State.touches.refl (s.take r) [] _)
      (List.nil_subset _) (dSection d 4) (sectionOf record) 0
    exact ⟨_, _, exec_ingestHeader_opens ready awake single h kind free named window len crc good room, found, rfl, rfl, rfl,
      recordPlanes_length record, (State.paged_nexts _ _ _).trans (sectionOf_nexts record), fun i q => recordPlanes_get, others, bytes,
      groups, answered, frame⟩
  case seals =>
    intro x h here opened whole
    obtain ⟨y, found, rfl, run⟩ := exec_seal_seals ready awake single h here opened whole
    refine ⟨_, run, ?_, fun m hm => ?_, ?_, ?_, ?_⟩
    · unfold State.section
      rw [State.complete_sto, State.find?_putSection_same, Option.map_some, State.fromDram_congr (s := s) (by simp) (by simp)]
      rfl
    · refine State.section_congr (by simp) (by simp) ?_
      rw [State.complete_sto, State.find?_putSection_ne _ _ hm, State.take_sto]
    · simp [State.putSection]
    · exact State.answered_complete (u := (s.take r).putSection _ _) sound h rfl (s.take_cring r r) y.pages
    · exact (((s.take_onlyIn r).trans (State.putSection_onlyIn _ _ _)).trans (State.complete_onlyIn _ _ _ _)).mono (by decide)
  case cancel =>
    intro x h kind here unused
    refine ⟨_, exec_cancelSection_frees ready awake single h kind here unused, ?_⟩
    refine State.dropSection_frees sound h (by rw [State.settleGroups_take]) ?_ ?_ ?_ (State.settleGroups_onlyIn _) _
    · rw [State.settleGroups_eq, State.take_drm]
    · rw [State.settleGroups_eq, State.take_regs]
    · rw [State.settleGroups_sections, State.take_sto]

/-- Settles O14: each command stores its plane as `State.storePlane_stores` says. -/
theorem planeIngestCompletes : Obligations.PlaneIngestCompletes := by
  unfold Obligations.PlaneIngestCompletes
  intro s r d x sound ready awake single h here opened paired plane
  have inside : nbits (byteAt d 6) 4 2 < x.data.length := paired ▸ plane
  refine ⟨?raw, ?ibrik⟩
  case raw =>
    intro band len q old e new raws kind hq hold effort he pitch next height codec hlen window whole made room
    have run := exec_ingestPlaneRaw_stores ready awake single h kind here opened plane hq hold effort he pitch next height codec hlen
      window whole
    rw [made] at run
    obtain ⟨y, found, same, stored, planes, others, groups, answered, bytes, frame⟩ :=
      State.storePlane_stores (raws := raws) sound h single inside room
    have nextLine : new.next = old.next + nbits (leAt d 23 3) 22 0 := congrArg (·.1.next) made.symm
    exact ⟨_, y, run, found, by rw [same, opened], by rw [same], by rw [same], by rw [same], by rw [stored, nextLine], planes, others,
      groups, answered, bytes, frame⟩
  case ibrik =>
    intro container strips kind empty restored header window whole decodes room
    have run := exec_ingestPlaneIbrik_stores ready awake single h kind here opened plane rfl empty restored header window whole decodes
    obtain ⟨y, found, same, stored, planes, others, groups, answered, bytes, frame⟩ :=
      State.storePlane_stores (raws := []) sound h single inside room
    exact ⟨_, y, run, found, by rw [same, opened], by rw [same], by rw [same], by rw [same], by rw [stored], by rw [stored], planes,
      others, groups, answered, bytes, frame rfl⟩

end Sys2Proof.Machine
end

section
/-! PLACEMENT_RESOLVE (R70) of a placement whose PLACE is said to come from no ring of the block, and why the clauses about it fail. -/

namespace Sys2Proof.Machine

/-- A NEXT placement whose PLACE names ring 26,521 as its own; the block has rings 0 to 63. -/
def strayPlacement : Placement := ⟨7, 5, true, 0, 1, 8, 0, 0xFFFFFFFF, none, none, some ⟨26521, 0, 3, 9, false, false, 0⟩⟩

/-- HST_RING_CFG of a ring of that number would lie where MER_CMP_MISSED_CNT lies. -/
theorem ringCfg_addr_stray : Reg.HST_RING_CFG.addr 26521 0 0 = Reg.MER_CMP_MISSED_CNT.addr 0 0 0 := rfl

/-- Compare unit 0 is armed for the items of group 0 at an offset of 4,096 lines behind them, without catchup; the compare units have
missed 255 targets. -/
def strayCompare : State :=
  let s := { State.reset with
    drm := { State.reset.drm with ready := true }
    mer := { State.reset.mer with cmps := upd 0 (fun c => { c with offset := -0x100000 }) State.reset.mer.cmps } }
  (s.wr .MER_CMP_MISSED_CNT 255).wr .MER_CMP_CTRL 0x88000000

/-- The placement waits in group 0. -/
def stray : State := strayCompare.updGroup 0 fun _ => ⟨[strayPlacement], false, [], []⟩

theorem stray_sound : stray.sound :=
  State.updGroup_sound _ _ _ (State.wr_sound _ _ _ _ _ _ (State.wr_sound _ _ _ _ _ _
    (State.sound_set_mer (State.sound_set_drm State.reset_sound ⟨rfl, id⟩) ⟨rfl, rfl, rfl, length_upd _ _ _, rfl, rfl, rfl⟩)))

theorem stray_cring : stray.cring 26521 = 0 := by
  show field (stray.regs.get _ (Reg.HST_RING_CFG.addr 26521 0 0)) 13 8 = 0
  rw [ringCfg_addr_stray]
  decide

/-- The completions that wait for a ring in the state that a command answers. -/
def Out.waiting (r : Nat) : Out → List Completion
  | .next t => (t.ring r).waiting
  | .fault _ => []
  | .refused _ => []

/-- The compare re-arms at a target that it has missed: the count of 256 reads as COMPLETE ring 1, so that nothing waits for ring 0. -/
theorem stray_unanswered : Out.waiting 0 (exec (.placementResolve 0) stray) = [] := by decide +kernel

/-- Refutes O15: its second clause takes a placement whose PLACE may name any number as its ring, and has the completion wait for the
COMPLETE ring that this ring named before. In `stray` the number is none of the block's 64, so that `ringCfg_addr_stray` makes the
ring's COMPLETE ring part of a counter; it is 0 before, and no completion waits there. -/
theorem not_placementCommandsComplete : ¬ Obligations.PlacementCommandsComplete := by
  unfold Obligations.PlacementCommandsComplete
  intro holds
  obtain ⟨-, resolves, -⟩ := holds stray 0 0 [] stray_sound rfl (by decide) rfl
  obtain ⟨t, ran, -, -, -, -, answered⟩ := resolves strayPlacement _ _ (by decide) rfl rfl rfl rfl rfl rfl rfl (by decide)
  have lost : (t.ring 0).waiting = [] := by
    have := stray_unanswered
    rwa [ran] at this
  unfold State.completes at answered
  rw [show stray.cring (Ctx.ring ⟨26521, 0, 3, 9, false, false, 0⟩) = 0 from stray_cring, lost] at answered
  simp at answered

end Sys2Proof.Machine
end

section
/-! Tables and their images (R131, R132, R135): what a change of one table leaves, and what the image of a load says. -/

namespace Sys2Proof.Machine

/-! ### The tables recorded -/

section
variable (s : State) (k t : Nat)

theorem State.tab_eq : s.tab k t = ⟨k, t, (s.tab k t).cur, (s.tab k t).since, (s.tab k t).pend⟩ := by
  have named : (s.tab k t).kind = k ∧ (s.tab k t).target = t := by
    unfold State.tab
    cases found : s.tabs.find? fun x => x.kind == k && x.target == t with
    | none => exact ⟨rfl, rfl⟩
    | some x => simpa using List.find?_some found
  obtain ⟨kind, target⟩ := named
  calc s.tab k t = ⟨(s.tab k t).kind, (s.tab k t).target, (s.tab k t).cur, (s.tab k t).since, (s.tab k t).pend⟩ := rfl
    _ = _ := by rw [kind, target]

theorem State.tab_setTab_same (x : Tab) : (s.setTab x).tab x.kind x.target = x := by
  have gone : (s.tabs.filter fun y => !(y.kind == x.kind && y.target == x.target)).find?
      (fun y => y.kind == x.kind && y.target == x.target) = none :=
    List.find?_eq_none.mpr fun y kept => by simpa [imp_iff_not_or] using (List.mem_filter.mp kept).2
  unfold State.tab State.setTab
  rw [List.find?_append, gone]
  simp

variable {k t} in
theorem State.tab_setTab_ne {x : Tab} (h : (k, t) ≠ (x.kind, x.target)) : (s.setTab x).tab k t = s.tab k t := by
  have other : (x.kind == k && x.target == t) = false := by
    rw [← Bool.not_eq_true, Bool.and_eq_true, beq_iff_eq, beq_iff_eq]
    rintro ⟨rfl, rfl⟩
    exact h rfl
  have kept (y : Tab) : (!(y.kind == x.kind && y.target == x.target) && (y.kind == k && y.target == t)) =
      (y.kind == k && y.target == t) := by
    by_cases same : y.kind = x.kind ∧ y.target = x.target
    · obtain ⟨kind, target⟩ := same
      rw [kind, target, other, Bool.and_false]
    · have : (y.kind == x.kind && y.target == x.target) = false := by simpa using same
      rw [this, Bool.not_false, Bool.true_and]
  unfold State.tab State.setTab
  rw [List.find?_append, List.find?_filter, List.find?_singleton, other]
  simp only [← Bool.and_eq_true, kept, Bool.decide_eq_true, Bool.false_eq_true, if_false, Option.or_none]

variable {s} in
theorem State.onlyIn.tab {u : State} {l : List Part} (h : s.onlyIn u l) (hx : .tabs ∉ l := by decide) : u.tab k t = s.tab k t := by
  unfold State.tab
  rw [h.same .tabs hx]

/-! ### A table with no change pending -/

variable {s k t} (free : (s.tab k t).pend = none)
include free

theorem State.tabNow_of_free : s.tabNow k t = s.tab k t := by
  unfold State.tabNow
  dsimp only
  rw [free]

theorem State.settleTab_of_free : s.settleTab k t = s := by
  rw [State.settleTab, if_pos (State.tabNow_of_free free)]

/-- Nothing of the kind and target is open: no change, no agreement, and of a wave table no bank (R136). -/
theorem State.tabBusy_of_free (unproposed : s.twn.proposals = []) (unheld : s.twn.held = [])
    (bank : k = 8 → (s.wick t).write = none ∧ (s.wick t).bankFrom = none) : s.tabBusy k t = false := by
  have wick : (k == 8 && ((s.wick t).write.isSome || (s.wick t).bankFrom.isSome)) = false := by
    rw [← Bool.not_eq_true, Bool.and_eq_true, beq_iff_eq]
    rintro ⟨wave, opened⟩
    simp [bank wave] at opened
  simp [State.tabBusy, State.tabPending, State.tabNow_of_free free, free, unproposed, unheld, wick]

end

/-! ### The image of a load -/

section
variable {k t first : Nat} (count : Nat) (body : Bytes)

theorem byteAt_imageOf_kind (h : k < 256) : byteAt (imageOf k t first count body) 0 = k :=
  (BitVec.toNat_ofNat k 8).trans (Nat.mod_eq_of_lt h)

theorem byteAt_imageOf_target (h : t < 256) : byteAt (imageOf k t first count body) 1 = t :=
  (BitVec.toNat_ofNat t 8).trans (Nat.mod_eq_of_lt h)

theorem leAt_imageOf_first (h : first < 65536) : leAt (imageOf k t first count body) 2 2 = first :=
  (le_toLe 2 first).trans (Nat.mod_eq_of_lt h)

theorem drop_imageOf : (imageOf k t first count body).drop 16 = body := rfl

end

/-- The header of an image has room for the kind, the target and the first index of a load (R131). -/
structure WaitLoad.Fits (w : WaitLoad) : Prop where
  kind : w.kind < 256
  target : w.target < 256
  first : w.first < 65536

section
variable {w : WaitLoad}

theorem WaitLoad.image_kind (fits : w.Fits) : byteAt w.image 0 = w.kind := byteAt_imageOf_kind _ _ fits.kind
theorem WaitLoad.image_target (fits : w.Fits) : byteAt w.image 1 = w.target := byteAt_imageOf_target _ _ fits.target
theorem WaitLoad.image_first (fits : w.Fits) : leAt w.image 2 2 = w.first := leAt_imageOf_first _ _ fits.first
theorem WaitLoad.image_body : w.image.drop 16 = w.body := drop_imageOf _ _

end

/-! ### What a load makes of its table -/

section
variable (s : State) (w : WaitLoad)

/-- The value that a load makes of the table in force (R132). -/
def State.loadedBy : TabVal := loadValue w.kind (s.tab w.kind w.target).cur w.first w.body

/-- The pipelines that a load affects (R139). -/
def State.loadPorts : List Nat := s.affected w.kind w.target (s.tab w.kind w.target).cur (s.loadedBy w)

/-- The table with the load in force since a line. -/
def State.tabLoaded (e : Line) : Tab := ⟨w.kind, w.target, s.loadedBy w, e, none⟩

/-- The table in force, with the load pending for a line. -/
def State.tabAwaiting (e : Line) : Tab :=
  ⟨w.kind, w.target, (s.tab w.kind w.target).cur, (s.tab w.kind w.target).since, some (e, s.loadedBy w)⟩

variable {s w}

theorem State.imageAffects_of_free (free : (s.tab w.kind w.target).pend = none) (fits : w.Fits) :
    s.imageAffects w.image = s.loadPorts w := by
  simp only [State.imageAffects, WaitLoad.image_kind fits, WaitLoad.image_target fits, WaitLoad.image_first fits, WaitLoad.image_body,
    State.tabNow_of_free free]
  rfl

/-- A Transit load placed for its line: in force where the device does not print and the line lies no further ahead than the first that no
affected pipeline has begun, and pending otherwise (R135, R137). -/
theorem State.placeTable_of_free (free : (s.tab w.kind w.target).pend = none) (fits : w.Fits) (transit : w.kind ≠ 8) (e : Line) :
    s.placeTable w.image e = s.setTab
      (if !s.printing && lineLe e (s.firstUnbegun (s.loadPorts w)) then s.tabLoaded w e else s.tabAwaiting w e) := by
  simp only [State.placeTable, State.imageAffects_of_free free fits, WaitLoad.image_kind fits, WaitLoad.image_target fits, if_neg transit,
    State.settleTab_of_free free, WaitLoad.image_first fits, WaitLoad.image_body, Bool.false_or]
  rw [State.tab_eq]
  split <;> rfl

end

end Sys2Proof.Machine
end

section
/-! Transit loads (R132, R135, R137): the table that a load puts in force or leaves pending, and what else it changes. -/

namespace Sys2Proof.Machine

theorem lineLe_refl {n : Nat} (a : BitVec n) : lineLe a a = true := by simp [lineLe, sdiff]

theorem State.reportLine_some (s : State) (c : Ctx) (e : Line) : s.reportLine (some c) e = s.complete c .ok (lineBits c.v1 e) := by
  simp [State.reportLine]

theorem State.toneCommitted_onlyIn (s : State) (image : Bytes) (loop : Bool) (delta : List Int) :
    s.onlyIn (s.toneCommitted image loop delta) [.pho] := by
  unfold State.toneCommitted
  refine State.onlyIn_ite _ (.refl s _) ?_
  intro x; cases x <;> simp [Part.same]

/-- A load of the host records a table; the offsets of the loop behind a TONE take effect with it (R303). -/
def State.hostLoads (s : State) (w : WaitLoad) (x : Tab) : State :=
  (s.setTab x).toneCommitted w.image false (if w.kind = 1 then s.deltaBehindHost w.target else [])

section
variable (s : State) (w : WaitLoad) (x : Tab)

theorem State.hostLoads_onlyIn : s.onlyIn (s.hostLoads w x) [.tabs, .pho] :=
  (s.setTab_onlyIn x).trans (State.toneCommitted_onlyIn _ _ _ _)

theorem State.tab_hostLoads_same : (s.hostLoads w x).tab x.kind x.target = x :=
  ((State.toneCommitted_onlyIn _ _ _ _).tab _ _).trans (s.tab_setTab_same x)

variable {w x} in
theorem State.tab_hostLoads_ne {k t : Nat} (h : (k, t) ≠ (x.kind, x.target)) : (s.hostLoads w x).tab k t = s.tab k t :=
  ((State.toneCommitted_onlyIn _ _ _ _).tab _ _).trans (s.tab_setTab_ne h)

end

/-! ### A load with nothing ahead of it is committed -/

theorem State.agreeing_alone {s : State} (single : s.twn.role = .none) : s.agreeing = false := by simp [State.agreeing, single]

theorem State.journal_alone {s : State} (single : s.twn.role = .none) (line : Option Line) (body : ChangeBody) :
    s.journal line body = s := by
  simp [State.journal, State.coldPrimary, single]

section
variable {s : State} {w : WaitLoad} (single : s.twn.role = .none) (free : (s.tab w.kind w.target).pend = none) (fits : w.Fits)
include single free fits

/-- At a line that no affected pipeline has begun, the load is pending for it. -/
theorem State.startTransit_at {e : Line} (line : w.at' = some e) (ahead : s.anyBegun (s.loadPorts w) e = false) :
    s.startTransit w = (s.hostLoads w (s.tabAwaiting w e)).reportLine w.ctx e := by
  simp only [State.startTransit, State.settleTab_of_free free, State.imageAffects_of_free free fits, line, ahead,
    State.agreeing_alone single, State.journal_alone single, Bool.false_eq_true, if_false]
  rw [State.tab_eq]
  rfl

/-- At NEXT, the load is placed for the line that R33 or R137 gives. -/
theorem State.startTransit_next (transit : w.kind ≠ 8) (line : w.at' = none) : s.startTransit w =
    (s.hostLoads w (if !s.printing && lineLe (s.nextEpoch (s.loadPorts w)) (s.firstUnbegun (s.loadPorts w))
      then s.tabLoaded w (s.nextEpoch (s.loadPorts w)) else s.tabAwaiting w (s.nextEpoch (s.loadPorts w)))).reportLine w.ctx
      (s.nextEpoch (s.loadPorts w)) := by
  simp only [State.startTransit, State.settleTab_of_free free, State.imageAffects_of_free free fits, line, State.agree_alone single,
    State.applyChange, State.placeTable_of_free free fits transit, Option.getD_some]
  rfl

theorem State.startTransit_still (transit : w.kind ≠ 8) (line : w.at' = none) (still : s.printing = false) : s.startTransit w =
    (s.hostLoads w (s.tabLoaded w (s.firstUnbegun (s.loadPorts w)))).reportLine w.ctx (s.firstUnbegun (s.loadPorts w)) := by
  rw [State.startTransit_next single free fits transit line]
  simp [State.nextEpoch, still, lineLe_refl]

theorem State.startTransit_printing (transit : w.kind ≠ 8) (line : w.at' = none) (prints : s.printing = true) : s.startTransit w =
    (s.hostLoads w (s.tabAwaiting w s.epochLine)).reportLine w.ctx s.epochLine := by
  rw [State.startTransit_next single free fits transit line]
  simp [State.nextEpoch, prints]

end

end Sys2Proof.Machine
end

section
/-! LOAD_TABLE on its way to its kind (R136, R599): an image that passes its checks arrives, and starts where nothing is ahead of it. -/

namespace Sys2Proof.Machine

/-! ### What the taking of a descriptor leaves -/

section
variable (s : State) (r : Nat)

@[simp] theorem State.take_waits : (s.take r).waits = s.waits := by rw [State.take_eq]
@[simp] theorem State.take_link (p : Nat) : (s.take r).link p = s.link p := (s.take_onlyIn r).link p
@[simp] theorem State.take_tab (k t : Nat) : (s.take r).tab k t = s.tab k t := (s.take_onlyIn r).tab k t
@[simp] theorem State.take_wick (p : Nat) : (s.take r).wick p = s.wick p := by rw [State.take_eq]; rfl
@[simp] theorem State.take_tMin (p : Nat) : (s.take r).tMin p = s.tMin p := by rw [State.take_eq]; rfl
@[simp] theorem State.take_active (p : Nat) : (s.take r).active p = s.active p := by rw [State.take_eq]; rfl
@[simp] theorem State.take_unsentLine (p : Nat) : (s.take r).unsentLine p = s.unsentLine p := by rw [State.take_eq]; rfl
@[simp] theorem State.take_printing : (s.take r).printing = s.printing := by rw [State.take_eq]; rfl
@[simp] theorem State.take_epochLine : (s.take r).epochLine = s.epochLine := by rw [State.take_eq]; rfl
@[simp] theorem State.take_firstUnbegun (ports : List Nat) : (s.take r).firstUnbegun ports = s.firstUnbegun ports := by
  rw [State.take_eq]; rfl
@[simp] theorem State.take_anyBegun (ports : List Nat) (e : Line) : (s.take r).anyBegun ports e = s.anyBegun ports e := by
  rw [State.take_eq]; rfl
@[simp] theorem State.take_dLine (v1 : Bool) (d : Bytes) (o : Nat) : (s.take r).dLine v1 d o = s.dLine v1 d o := by
  rw [State.take_eq]; rfl
@[simp] theorem State.take_loadPorts (w : WaitLoad) : (s.take r).loadPorts w = s.loadPorts w := by rw [State.take_eq]; rfl
@[simp] theorem State.take_tabLoaded (w : WaitLoad) (e : Line) : (s.take r).tabLoaded w e = s.tabLoaded w e := by
  rw [State.take_eq]; rfl
@[simp] theorem State.take_tabAwaiting (w : WaitLoad) (e : Line) : (s.take r).tabAwaiting w e = s.tabAwaiting w e := by
  rw [State.take_eq]; rfl
@[simp] theorem State.take_readImage (k t first count : Nat) : (s.take r).readImage k t first count = s.readImage k t first count := by
  rw [State.take_eq]; rfl

end

/-! ### The load that a descriptor carries -/

/-- The load that a LOAD_TABLE of ring `r` with an image asks for: at NEXT, or at the line of its bytes 12:8 (R376). -/
def State.loadOf (s : State) (r : Nat) (d image : Bytes) : WaitLoad :=
  ⟨byteAt image 0, byteAt image 1, if (byteAt d 4).testBit 0 then none else some (s.dLine (s.ctxOf r d).v1 d 8), leAt image 2 2,
    image.drop 16, some (s.ctxOf r d), none⟩

theorem byteAt_lt (l : Bytes) (o : Nat) : byteAt l o < 256 := (l.getD o 0).isLt

theorem le_lt (l : Bytes) : le l < 256 ^ l.length := by
  induction l with
  | nil => simp [le]
  | cons b t ih =>
    have := b.isLt
    rw [le, List.length_cons, Nat.pow_succ]
    omega

theorem leAt_lt (l : Bytes) (o n : Nat) : leAt l o n < 256 ^ n :=
  (le_lt _).trans_le (Nat.pow_le_pow_right (by decide) (List.length_take_le _ _))

theorem State.loadOf_fits (s : State) (r : Nat) (d image : Bytes) : (s.loadOf r d image).Fits :=
  ⟨byteAt_lt _ _, byteAt_lt _ _, leAt_lt _ _ 2⟩

section
variable {s : State} {r : Nat} {d image : Bytes}

theorem State.window_of_imageGood (good : s.imageGood d image) : s.windowOk false (leAt d 16 8) (leAt d 24 4) = true := by
  obtain ⟨-, -, window, -⟩ := good
  exact window

theorem State.headerOk_of_imageGood (good : s.imageGood d image) : headerOk image image.length = true := by
  obtain ⟨-, -, -, -, header, -⟩ := good
  exact header

theorem State.bodyOk_of_imageGood (good : s.imageGood d image) :
    bodyOk (byteAt image 0) (leAt image 4 4) (image.drop 16) (s.link (byteAt image 1)).version = true := by
  obtain ⟨-, -, -, -, -, -, body⟩ := good
  exact body

/-- An image that passes the checks of R599, of a wave table also R152, and of the Photometer's kinds at NEXT, arrives. -/
theorem State.checkLoad_arrives {u : State} {c : Ctx} (good : s.imageGood d image)
    (single : u.twn.role = .none) (next : 8 < byteAt image 0 → (byteAt d 4).testBit 0 = true)
    (link : u.link (byteAt image 1) = s.link (byteAt image 1))
    (short : byteAt image 0 = 8 → longestEntry (image.drop 16) ≤ u.tMin (byteAt image 1)) : u.checkLoad c d image =
      u.arriveLoad ⟨byteAt image 0, byteAt image 1, if (byteAt d 4).testBit 0 then none else some (u.dLine c.v1 d 8), leAt image 2 2,
        image.drop 16, some c, none⟩ := by
  obtain ⟨len, head, -, crc, header, bodyCrc, bodyGood⟩ := good
  have kept : ¬ (8 < byteAt image 0 && !(byteAt d 4).testBit 0) = true := by
    rw [Bool.and_eq_true, decide_eq_true_eq]
    rintro ⟨photometer, at'⟩
    simp [next photometer] at at'
  have fits : ¬ (byteAt image 0 = 8 ∧ u.tMin (byteAt image 1) < longestEntry (image.drop 16)) := fun h =>
    absurd (short h.1) (Nat.not_le_of_gt h.2)
  unfold State.checkLoad
  dsimp only
  rw [if_neg (by simp [crc, head]), if_neg (by rw [← len, header]; simpa using kept), if_neg (by simp [State.follower, single]),
    if_neg (by simp [len, bodyCrc]), link, if_neg (by simp [bodyGood]), if_neg fits]

/-- A command of LOAD_TABLE takes its descriptor, and the load that it carries arrives. -/
theorem State.loadTable_arrives (awake : s.dev.dev ≠ .held) (single : s.twn.role = .none) (h : s.accepts r d 5)
    (good : s.imageGood d image) (next : 8 < byteAt image 0 → (byteAt d 4).testBit 0 = true)
    (short : byteAt image 0 = 8 → longestEntry (image.drop 16) ≤ s.tMin (byteAt image 1)) {mine : Nat → Bool}
    (row : mine (byteAt image 0) = true) : s.loadTable r d image mine = (s.take r).arriveLoad (s.loadOf r d image) := by
  have window : (s.take r).windowOk false (leAt d 16 8) (leAt d 24 4) = true := by
    rw [State.take_windowOk, State.window_of_imageGood good]
  unfold State.loadTable
  rw [State.descriptor_of_accepts h row, if_neg (by simpa using awake), State.withRead, if_pos (.inr window),
    State.checkLoad_arrives good (by rwa [State.take_twn]) next (s.take_link r _) (by rwa [State.take_tMin]), State.take_dLine]
  rfl

end

/-- A load with nothing open of its kind and target, and none that waits for them, starts as it arrives (R135, R136). -/
theorem State.arriveLoad_starts {s : State} {w : WaitLoad} (free : s.tabBusy w.kind w.target = false)
    (alone : s.waits.any (fun x => x.kind == w.kind && x.target == w.target) = false) : s.arriveLoad w = s.startLoad w := by
  simp [State.arriveLoad, free, alone]

theorem State.startLoad_transit {s : State} {w : WaitLoad} (transit : w.kind ≤ 6) (host : w.loop = none) :
    s.startLoad w = s.startTransit w := by
  unfold State.startLoad
  rw [if_neg (by omega), if_neg (by omega), host]

end Sys2Proof.Machine
end

section
/-! The obligation about Transit loads (R132, R135 to R137): LOAD_TABLE, and WAITING_LOAD_COMMIT of one load. -/

namespace Sys2Proof.Machine

/-- A load of the host behind a taken descriptor: the table recorded is what it is to be, every other one stays, and the descriptor completes
OK with its line. -/
theorem State.hostLoads_answered {s : State} {r : Nat} {d : Bytes} (sound : s.sound) (h : s.accepts r d 5) (w : WaitLoad) (x : Tab)
    (result : Nat) : let t := ((s.take r).hostLoads w x).complete (s.ctxOf r d) .ok result
    t.tab x.kind x.target = x ∧ (∀ k t', (k, t') ≠ (x.kind, x.target) → t.tab k t' = s.tab k t') ∧
      s.answered t r d .ok result ∧ s.onlyIn t [.tabs, .pho, .hst, .pcie] := by
  intro t
  have loads := (s.take r).hostLoads_onlyIn w x
  have tabs (k t' : Nat) : t.tab k t' = ((s.take r).hostLoads w x).tab k t' := (State.complete_onlyIn _ _ _ _).tab k t'
  refine ⟨?_, fun k t' other => ?_, ?_, ?_⟩
  · rw [tabs, State.tab_hostLoads_same]
  · rw [tabs, State.tab_hostLoads_ne _ other, State.take_tab]
  · exact State.answered_complete sound h loads.hst ((loads.touches.2.get .HST_RING_CFG_cring r 0 0 (by simp)).trans (s.take_cring r r)) _
  · exact (((s.take_onlyIn r).trans loads).trans (State.complete_onlyIn _ _ _ _)).mono (by decide)

section
variable {s : State} {k g : Nat} (unproposed : s.twn.proposals = []) (unheld : s.twn.held = []) (transit : k ≤ 6)
  (free : (s.tab k g).pend = none)
include unproposed unheld transit free

/-- LOAD_TABLE of a Transit kind starts its load where nothing is open of its kind and target. -/
theorem exec_loadTable_starts {r : Nat} {d image : Bytes} (single : s.twn.role = .none) (awake : s.dev.dev ≠ .held)
    (alone : s.waits.any (fun x => x.kind == k && x.target == g) = false) (h : s.accepts r d 5) (good : s.imageGood d image)
    (kind : byteAt image 0 = k) (target : byteAt image 1 = g) :
    exec (.loadTable r d image) s = .next ((s.take r).startTransit (s.loadOf r d image)) := by
  subst kind target
  have unopened : (s.take r).tabBusy (byteAt image 0) (byteAt image 1) = false :=
    State.tabBusy_of_free (by rwa [State.take_tab]) (by rwa [State.take_twn]) (by rwa [State.take_twn]) fun wave => by omega
  show Host.Outcome.next _ = _
  rw [State.loadTable_arrives awake single h good (by omega) (by omega) (by simp; omega),
    State.arriveLoad_starts unopened (by rwa [State.take_waits]), State.startLoad_transit transit rfl]

/-- WAITING_LOAD_COMMIT starts the one load that waits. -/
theorem exec_waitingLoadCommit_starts {w : WaitLoad} (waits : s.waits = [w]) (kind : w.kind = k) (target : w.target = g)
    (host : w.loop = none) : exec (.waitingLoadCommit k g) s = .next (State.startTransit { s with waits := [] } w) := by
  subst kind target
  have unopened : s.tabBusy w.kind w.target = false := State.tabBusy_of_free free unproposed unheld fun wave => by omega
  show execWaitingLoadCommit w.kind w.target s = _
  unfold execWaitingLoadCommit
  rw [waits, List.find?_cons_of_pos (by simp)]
  dsimp only
  rw [unopened, host, List.erase_cons_head, State.startLoad_transit transit host]
  rfl

end

/-- A completion waits for the COMPLETE ring that its own ring names, whatever ring that is. -/
theorem State.completes_complete {s u : State} {c : Ctx} (sound : s.sound) (known : c.gen = s.hst.gen) (hst : u.hst = s.hst)
    (cring : u.cring c.ring = s.cring c.ring) (result : Nat) : s.completes (u.complete c .ok result) c .ok result := by
  have same := State.ring_complete_same (s := u) (c := c) (by rw [hst, known])
    (by rw [hst, State.sound_rings sound]; exact u.cring_lt _) .ok result
  unfold State.completes
  rw [← cring, same]
  exact congrArg (fun x : Host' => (x.rings.getD (u.cring c.ring) Ring.reset).waiting ++ _) hst

theorem State.dropWaits_onlyIn (s : State) : s.onlyIn { s with waits := [] } [.waits] := by
  intro x; cases x <;> simp [Part.same]

/-- The one load that has waited: no load waits any more, the table recorded is what it is to be, every other one stays, and its descriptor
completes OK with its line. -/
theorem State.hostLoads_completes {s : State} {c : Ctx} (sound : s.sound) (known : c.gen = s.hst.gen) (w : WaitLoad) (x : Tab)
    (result : Nat) : let t := (State.hostLoads { s with waits := [] } w x).complete c .ok result
    t.waits = [] ∧ t.tab x.kind x.target = x ∧ (∀ k t', (k, t') ≠ (x.kind, x.target) → t.tab k t' = s.tab k t') ∧
      s.completes t c .ok result ∧ s.onlyIn t [.tabs, .waits, .pho, .hst] := by
  intro t
  have loads := State.hostLoads_onlyIn { s with waits := [] } w x
  have ends : (State.hostLoads { s with waits := [] } w x).onlyIn t [.hst] := State.complete_onlyIn _ _ _ _
  refine ⟨?_, ?_, fun k t' other => ?_, ?_, ?_⟩
  · exact (ends.same .waits).trans (loads.same .waits)
  · exact (ends.tab _ _).trans (State.tab_hostLoads_same _ w x)
  · exact (ends.tab k t').trans (State.tab_hostLoads_ne _ other)
  · exact State.completes_complete sound known loads.hst (loads.touches.2.get .HST_RING_CFG_cring c.ring 0 0 (by simp)) _
  · exact ((s.dropWaits_onlyIn.trans loads).trans ends).mono (by decide)

/-- Settles O17: `exec_loadTable_starts`, then the lemma about `State.startTransit` for NEXT in and out of PRINTING, and AT; a load that has
waited starts alike. -/
theorem tableLoadsComplete : Obligations.TableLoadsComplete := by
  unfold Obligations.TableLoadsComplete
  intro s k g sound single unproposed unheld awake transit free
  refine ⟨?arrives, ?waited⟩
  case arrives =>
    rintro r d image v ports alone h good rfl rfl rfl rfl
    have runs := exec_loadTable_starts unproposed unheld transit free single awake alone h good rfl rfl
    have single' : (s.take r).twn.role = .none := by rwa [State.take_twn]
    have free' : ((s.take r).tab (s.loadOf r d image).kind (s.loadOf r d image).target).pend = none := by rwa [State.take_tab]
    have fits := s.loadOf_fits r d image
    have kind : (s.loadOf r d image).kind ≠ 8 := fun wave => absurd (wave ▸ transit : 8 ≤ 6) (by decide)
    have ctx : (s.loadOf r d image).ctx = some (s.ctxOf r d) := rfl
    refine ⟨fun next still => ?_, fun next prints => ?_, fun at' ahead => ?_⟩
    · rw [State.startTransit_still single' free' fits kind (if_pos next) (by rwa [State.take_printing]), ctx, State.reportLine_some,
        State.take_loadPorts, State.take_firstUnbegun, State.take_tabLoaded] at runs
      exact ⟨_, runs, State.hostLoads_answered sound h _ _ _⟩
    · rw [State.startTransit_printing single' free' fits kind (if_pos next) (by rwa [State.take_printing]), ctx, State.reportLine_some,
        State.take_epochLine, State.take_tabAwaiting] at runs
      exact ⟨_, runs, State.hostLoads_answered sound h _ _ _⟩
    · have line : (s.loadOf r d image).at' = some (s.dLine (s.ctxOf r d).v1 d 8) := if_neg (by simp [at'])
      rw [State.startTransit_at single' free' fits line (by rw [State.take_anyBegun, State.take_loadPorts]; exact ahead), ctx,
        State.reportLine_some, State.take_tabAwaiting] at runs
      exact ⟨_, runs, State.hostLoads_answered sound h _ _ _⟩
  case waited =>
    rintro w c v waits rfl rfl next host ctx known first kind target still rfl
    have runs := exec_waitingLoadCommit_starts unproposed unheld transit free waits rfl rfl host
    rw [State.startTransit_still (s := { s with waits := [] }) single free ⟨kind, target, first⟩ (by omega) next still, ctx,
      State.reportLine_some] at runs
    exact ⟨_, runs, State.hostLoads_completes sound known w _ _⟩

end Sys2Proof.Machine
end

section
/-! WAVE_LOAD (R155, R156): the table of a port that is not ACTIVE takes effect at once, that of an ACTIVE one is to be written to its HDM. -/

namespace Sys2Proof.Machine

/-! ### The wave table of a port in force -/

section
variable (s : State) (p : Nat) (body : Bytes)

theorem State.wick_updWick_proj {α : Type} (s : State) (p q : Nat) {f : WickPort → WickPort} (g : WickPort → α)
    (hf : ∀ w, g (f w) = g w) : g ((s.updWick p f).wick q) = g (s.wick q) := getD_upd_proj g hf p q s.wck WickPort.reset

theorem State.onlyIn.wick {s t : State} {l : List Part} (h : s.onlyIn t l) (q : Nat) (hx : .wck ∉ l := by decide) :
    t.wick q = s.wick q := congrArg (·.getD q WickPort.reset) (h.same .wck hx)

/-- The evaluation of the heads under a new band block changes their states alone, of the port's own (R158). -/
theorem State.reevalHeads_loaded : ((s.reevalHeads p body).wick p).loaded = (s.wick p).loaded := by
  refine State.each_same (fun u => (u.wick p).loaded) (fun u h => ?_) s _
  refine (State.wick_updWick_proj _ p p WickPort.loaded ?_).trans ?_
  · exact fun _ => rfl
  · rw [(State.headRaises_touches _ p h _ _ _).1.wick p]
    exact State.wick_updWick_proj u p p WickPort.loaded fun _ => rfl

variable {p} in
theorem State.reevalHeads_wick_ne {q : Nat} (other : q ≠ p) : (s.reevalHeads p body).wick q = s.wick q := by
  refine State.each_same (fun u => u.wick q) (fun u h => ?_) s _
  refine (State.wick_updWick_ne _ _ other).trans ?_
  rw [(State.headRaises_touches _ p h _ _ _).1.wick q]
  exact State.wick_updWick_ne u _ other

variable (since : Line) (loaded : Bool)

theorem State.waveInForce_tab_same : (s.waveInForce p body since loaded).tab 8 p = ⟨8, p, .body body, since, none⟩ := by
  unfold State.waveInForce
  dsimp only
  rw [(State.reevalHeads_touches _ p body).1.tab 8 p, (State.updWick_onlyIn _ p _).tab 8 p, State.tab_eq s 8 p]
  exact s.tab_setTab_same ⟨8, p, .body body, since, none⟩

variable {p} in
theorem State.waveInForce_tab_ne {k g : Nat} (other : (k, g) ≠ (8, p)) :
    (s.waveInForce p body since loaded).tab k g = s.tab k g := by
  unfold State.waveInForce
  dsimp only
  rw [(State.reevalHeads_touches _ p body).1.tab k g, (State.updWick_onlyIn _ p _).tab k g, State.tab_eq s 8 p]
  exact s.tab_setTab_ne (x := ⟨8, p, .body body, since, none⟩) other

variable {p} in
theorem State.waveInForce_loaded (inside : p < s.wck.length) : ((s.waveInForce p body since loaded).wick p).loaded = loaded := by
  refine (State.reevalHeads_loaded _ p body).trans ?_
  rw [State.wick_updWick_same _ _ (by exact inside)]

variable {p} in
theorem State.waveInForce_wick_ne {q : Nat} (other : q ≠ p) : (s.waveInForce p body since loaded).wick q = s.wick q :=
  (State.reevalHeads_wick_ne _ body other).trans (State.wick_updWick_ne _ _ other)

end

/-! ### The load of a wave table starts -/

/-- A body that passes the checks of R145 to R151 passes those against the port's link again as its load starts. -/
theorem State.waveCheck_passes {s : State} {p : Nat} {body : Bytes} (good : waveOk body (s.link p).version = true)
    (short : longestEntry body ≤ s.tMin p) (ctx : Option Ctx) (act : State → State) : s.waveCheck p body ctx act = act s := by
  simp only [waveOk, Bool.and_eq_true, Bool.or_eq_true, bne_iff_ne] at good
  obtain ⟨-, link⟩ := good
  have gahild1 : ¬ ((s.link p).version = 1 ∧ (!gahild1Ok body) = true) := by
    rintro ⟨version, bad⟩
    rcases link with other | fits
    · exact other version
    · simp [fits] at bad
  rw [State.waveCheck, if_neg gahild1, if_neg (Nat.not_lt_of_ge short)]

/-- The state in which a wave table has come into force at once on a port that is not ACTIVE (R156). -/
def State.waveLoaded (s : State) (p : Nat) (body : Bytes) (e : Line) : State :=
  (s.updWick p fun w => { w with bankAcked := false }).waveInForce p body e

theorem State.waveLoaded_touches (s : State) (p : Nat) (body : Bytes) (e : Line) :
    s.touches (s.waveLoaded p body e) [.tabs, .wck, .ltn, .regs] [Reg.WCK_HOT_RECOVER_CNT.addr p 0 0] :=
  ((s.updWick_onlyIn p _).touches.trans (State.waveInForce_touches _ p body e true)).mono

theorem State.placeWave_inactive {s : State} {p : Nat} (inactive : s.active p = false) (body : Bytes) (e : Line) :
    s.placeWave p body e true = s.waveLoaded p body e := by
  have idle : (s.waveLoaded p body e).active p = false := by
    rw [State.active, (s.waveLoaded_touches _ _ _).1.link, ← State.active, inactive]
  exact if_pos (show (!(s.waveLoaded p body e).active p) = true by rw [idle, Bool.not_false])

section
variable {s : State} {w : WaitLoad} (wave : w.kind = 8) (good : waveOk w.body (s.link w.target).version = true)
  (short : longestEntry w.body ≤ s.tMin w.target)
include wave good short

theorem State.startLoad_waveActive (active : s.active w.target = true) :
    s.startLoad w = s.startBank w.target w.body (.load w.at' w.ctx) := by
  rw [State.startLoad, if_pos wave, State.waveCheck_passes good short, if_pos active]

theorem State.startLoad_waveInactive (single : s.twn.role = .none) (next : w.at' = none) (inactive : s.active w.target = false) :
    s.startLoad w = (s.waveLoaded w.target w.body (s.unsentLine w.target)).reportLine w.ctx (s.unsentLine w.target) := by
  rw [State.startLoad, if_pos wave, State.waveCheck_passes good short, if_neg (by simp [inactive])]
  simp only [State.commitWave, next, inactive, State.agreeing_alone single, State.journal_alone single]
  exact congrArg (State.reportLine · _ _) (State.placeWave_inactive inactive _ _)

end

end Sys2Proof.Machine
end

section
/-! PHO_TABLE_LOAD and READ_TABLE (R134, R308), and the obligation about the loads and reads of tables beside LOAD_TABLE. -/

namespace Sys2Proof.Machine

/-- The header of a good image names a kind and one of its instances (R131). -/
theorem names_of_headerOk {h : Bytes} {n : Nat} (ok : headerOk h n = true) :
    kindKnown (byteAt h 0) = true ∧ byteAt h 1 < kindTargets (byteAt h 0) := by
  simp only [headerOk, Bool.and_eq_true, decide_eq_true_eq] at ok
  obtain ⟨⟨⟨names, -⟩, -⟩, -⟩ := ok
  exact names

/-- The kinds known above that of a wave table are the Photometer's (R291, R308). -/
theorem photometer_of_kindKnown {k : Nat} (known : kindKnown k = true) (above : 9 ≤ k) : k = 9 ∨ k = 10 := by
  simp [kindKnown] at known
  omega

section
variable {s : State} {r : Nat} {d image : Bytes} (single : s.twn.role = .none) (unproposed : s.twn.proposals = [])
  (unheld : s.twn.held = []) (awake : s.dev.dev ≠ .held) (h : s.accepts r d 5) (good : s.imageGood d image)
  (alone : s.waits.any (fun x => x.kind == byteAt image 0 && x.target == byteAt image 1) = false)
  (free : (s.tab (byteAt image 0) (byteAt image 1)).pend = none) (next : (byteAt d 4).testBit 0 = true)
include single unproposed unheld awake h good alone free next

theorem exec_waveLoad_starts (kind : byteAt image 0 = 8) (short : longestEntry (image.drop 16) ≤ s.tMin (byteAt image 1))
    (write : (s.wick (byteAt image 1)).write = none) (bank : (s.wick (byteAt image 1)).bankFrom = none) :
    exec (.waveLoad r d image) s = .next ((s.take r).startLoad (s.loadOf r d image)) := by
  have unopened : (s.take r).tabBusy (byteAt image 0) (byteAt image 1) = false :=
    State.tabBusy_of_free (by rwa [State.take_tab]) (by rwa [State.take_twn]) (by rwa [State.take_twn]) fun _ => by
      rw [State.take_wick]
      exact ⟨write, bank⟩
  show Host.Outcome.next _ = _
  rw [State.loadTable_arrives awake single h good (fun _ => next) (fun _ => short) (by simp [kind]),
    State.arriveLoad_starts unopened (by rwa [State.take_waits])]

theorem exec_phoTableLoad_starts (kind : 9 ≤ byteAt image 0) :
    exec (.phoTableLoad r d image) s = .next ((s.take r).startLoad (s.loadOf r d image)) := by
  have unopened : (s.take r).tabBusy (byteAt image 0) (byteAt image 1) = false :=
    State.tabBusy_of_free (by rwa [State.take_tab]) (by rwa [State.take_twn]) (by rwa [State.take_twn]) fun wave => by omega
  obtain ⟨known, -⟩ := names_of_headerOk (State.headerOk_of_imageGood good)
  have row := photometer_of_kindKnown known kind
  show Host.Outcome.next _ = _
  rw [State.loadTable_arrives awake single h good (fun _ => next) (by omega) (by simpa using row),
    State.arriveLoad_starts unopened (by rwa [State.take_waits])]

end

/-- A table of the Photometer waits for the next frame start (R308). -/
theorem State.startLoad_photometer {s : State} {w : WaitLoad} (kind : 8 < w.kind) :
    s.startLoad w = (s.setTab ⟨w.kind, w.target, (s.tab w.kind w.target).cur, (s.tab w.kind w.target).since,
      some (0, .body w.body)⟩).completeOpt w.ctx .ok := by
  rw [State.startLoad, if_neg (by omega), if_pos kind, State.tab_eq]

theorem exec_readTable_writes {s : State} {r : Nat} {d image : Bytes} {since : Line} (h : s.accepts r d 6)
    (ok : readOk (byteAt d 4) (byteAt d 5) (leAt d 6 2) (leAt d 8 4) = true)
    (read : s.readImage (byteAt d 4) (byteAt d 5) (leAt d 6 2) (leAt d 8 4) = (image, since)) (room : image.length ≤ leAt d 20 4)
    (window : s.windowOk true (leAt d 12 8) image.length = true) : exec (.readTable r d) s =
      .next (((s.take r).hostWrite (leAt d 12 8) image true).complete (s.ctxOf r d) .ok (lineBits (s.ctxOf r d).v1 since)) := by
  show execReadTable r d s = _
  unfold execReadTable
  rw [State.descriptor_of_accepts h rfl]
  simp only [ok, State.take_readImage, read, Nat.not_lt_of_ge room, State.withWrite, State.take_windowOk, window, State.reportLine_some]
  rfl

/-- Host memory is written behind a taken descriptor, whose taking has been traffic on the link already. -/
theorem State.hostWrite_take_hst (s : State) (r addr : Nat) (bytes : Bytes) (data : Bool) :
    ((s.take r).hostWrite addr bytes data).hst = (s.take r).hst := by
  obtain ⟨turn, hst⟩ := s.take_hst r
  show { (s.take r).hst with l1 := false, busyAt := (s.take r).clock } = _
  rw [show (s.take r).clock = s.clock by rw [State.take_eq]; rfl, hst]

theorem State.hostWrite_take_out (s : State) (r addr : Nat) (bytes : Bytes) (data : Bool) :
    ((s.take r).hostWrite addr bytes data).out = s.out ++ [.hostWrite addr bytes (data && s.hst.cfg.relaxed)] := by
  obtain ⟨turn, hst⟩ := s.take_hst r
  show (s.take r).out ++ [.hostWrite addr bytes (data && (s.take r).hst.cfg.relaxed)] = _
  rw [(s.take_onlyIn r).same .out, hst]

theorem State.hostWrite_onlyIn (s : State) (addr : Nat) (bytes : Bytes) (data : Bool) :
    s.onlyIn (s.hostWrite addr bytes data) [.pcie, .out] := s.traffic_onlyIn.trans (State.emit_onlyIn _ _)

section
variable {s : State} {r op : Nat} {d : Bytes} (sound : s.sound) (h : s.accepts r d op)
include sound h

/-- A wave table of a port that is not ACTIVE comes into force behind a taken descriptor, which completes OK with its line (R156). -/
theorem State.waveLoaded_answered {p : Nat} (inside : p < 24) (body : Bytes) (e : Line) (result : Nat) :
    let t := ((s.take r).waveLoaded p body e).complete (s.ctxOf r d) .ok result
    t.tab 8 p = ⟨8, p, .body body, e, none⟩ ∧ (t.wick p).loaded = true ∧ (∀ k g, (k, g) ≠ (8, p) → t.tab k g = s.tab k g) ∧
      (∀ q, q ≠ p → t.wick q = s.wick q) ∧ s.answered t r d .ok result ∧ s.onlyIn t [.tabs, .wck, .regs, .ltn, .hst, .pcie] := by
  intro t
  have loads := (s.take r).waveLoaded_touches p body e
  have ends : ((s.take r).waveLoaded p body e).onlyIn t [.hst] := State.complete_onlyIn _ _ _ _
  refine ⟨?_, ?_, fun k g other => ?_, fun q other => ?_, ?_, ?_⟩
  · exact (ends.tab 8 p).trans (State.waveInForce_tab_same _ p body e true)
  · rw [ends.wick p]
    refine State.waveInForce_loaded _ body e true ?_
    show p < (upd p _ (s.take r).wck).length
    rwa [length_upd, (s.take_onlyIn r).same .wck, State.sound_wck sound]
  · rw [ends.tab k g, State.waveLoaded, State.waveInForce_tab_ne _ body e true other, (State.updWick_onlyIn _ p _).tab k g, State.take_tab]
  · rw [ends.wick q, State.waveLoaded, State.waveInForce_wick_ne _ body e true other, State.wick_updWick_ne _ _ other, State.take_wick]
  · refine State.answered_complete sound h loads.1.hst ((loads.2.get .HST_RING_CFG_cring r 0 0 ?_).trans (s.take_cring r r)) _
    have := State.ring_lt_of_accepts h
    simp [Reg.addr, Fld.HST_RING_CFG_cring, Reg.HST_RING_CFG, Reg.WCK_HOT_RECOVER_CNT]
    omega
  · exact (((s.take_onlyIn r).trans loads.1).trans ends).mono (by decide)

/-- A wave table of an ACTIVE port is to be written into the bank not in use, behind a taken descriptor that stays in flight (R155). -/
theorem State.startBank_inFlight {p : Nat} (inside : p < 24) (body : Bytes) (at' : Option Line) (ctx : Option Ctx) :
    let t := (s.take r).startBank p body (.load at' ctx)
    (t.wick p).write = some ⟨!(s.wick p).bank, body, .load at' ctx, false, none⟩ ∧ (∀ q, q ≠ p → t.wick q = s.wick q) ∧
      s.inFlight t r ∧ s.onlyIn t [.wck, .hst, .pcie] := by
  intro t
  have ring : r < s.hst.rings.length := by
    rw [State.sound_rings sound]
    exact State.ring_lt_of_accepts h
  refine ⟨?_, fun q other => ?_, ⟨State.took_take ring, s.waiting_take r, s.ringsOnly_take r⟩, ?_⟩
  · show (((s.take r).updWick p _).wick p).write = _
    rw [State.wick_updWick_same _ _ (by rwa [(s.take_onlyIn r).same .wck, State.sound_wck sound]), State.take_wick]
    rfl
  · exact (State.wick_updWick_ne _ _ other).trans (s.take_wick r q)
  · exact ((s.take_onlyIn r).trans (State.updWick_onlyIn _ p _)).mono (by decide)

/-- A table of the Photometer is pending behind a taken descriptor, which completes OK (R308). -/
theorem State.setTab_answered (x : Tab) (result : Nat) : let t := ((s.take r).setTab x).complete (s.ctxOf r d) .ok result
    t.tab x.kind x.target = x ∧ (∀ k g, (k, g) ≠ (x.kind, x.target) → t.tab k g = s.tab k g) ∧ s.answered t r d .ok result ∧
      s.onlyIn t [.tabs, .hst, .pcie] := by
  intro t
  have ends : ((s.take r).setTab x).onlyIn t [.hst] := State.complete_onlyIn _ _ _ _
  refine ⟨?_, fun k g other => ?_, ?_, ?_⟩
  · exact (ends.tab _ _).trans (State.tab_setTab_same _ x)
  · rw [ends.tab k g, State.tab_setTab_ne _ other, State.take_tab]
  · exact State.answered_complete (u := (s.take r).setTab x) sound h rfl (s.take_cring r r) result
  · exact (((s.take_onlyIn r).trans (State.setTab_onlyIn _ x)).trans ends).mono (by decide)

end

/-- Settles O18: each command by its lemma above, and its descriptor by `State.answered_complete`. -/
theorem otherLoadsComplete : Obligations.OtherLoadsComplete := by
  unfold Obligations.OtherLoadsComplete
  intro s r d sound single unproposed unheld
  refine ⟨?waveLoad, ?photometer, ?read⟩
  case waveLoad =>
    rintro image p awake h good kind rfl short free write bank alone next
    have starts := exec_waveLoad_starts single unproposed unheld awake h good (by rwa [kind]) (by rwa [kind]) next kind short write
      bank
    have inside : byteAt image 1 < kindTargets 8 := by
      obtain ⟨-, target⟩ := names_of_headerOk (State.headerOk_of_imageGood good)
      rwa [kind] at target
    have waveOk' : waveOk (image.drop 16) ((s.take r).link (byteAt image 1)).version = true := by
      have body := State.bodyOk_of_imageGood good
      rwa [kind, ← s.take_link r] at body
    have short' : longestEntry (image.drop 16) ≤ (s.take r).tMin (byteAt image 1) :=
      short.trans_eq (s.take_tMin r _).symm
    have now : (s.loadOf r d image).at' = none := if_pos next
    refine ⟨fun inactive => ?_, fun active => ?_⟩
    · rw [State.startLoad_waveInactive (w := s.loadOf r d image) kind waveOk' short' (by rwa [State.take_twn]) now
        ((s.take_active r _).trans inactive), State.take_unsentLine,
        show (s.loadOf r d image).ctx = some (s.ctxOf r d) from rfl, State.reportLine_some] at starts
      exact ⟨_, starts, State.waveLoaded_answered sound h inside _ _ _⟩
    · rw [State.startLoad_waveActive (w := s.loadOf r d image) kind waveOk' short' ((s.take_active r _).trans active), now] at starts
      exact ⟨_, starts, State.startBank_inFlight sound h inside _ _ _⟩
  case photometer =>
    rintro image k g awake h good rfl kind rfl free alone next
    have starts := exec_phoTableLoad_starts single unproposed unheld awake h good alone free next kind
    rw [State.startLoad_photometer (w := s.loadOf r d image) kind, State.take_tab] at starts
    exact ⟨_, starts, State.setTab_answered sound h _ 0⟩
  case read =>
    intro image since h ok read room window
    refine ⟨_, exec_readTable_writes h ok read room window, ?_⟩
    have writes := (s.take r).hostWrite_onlyIn (leAt d 12 8) image true
    have ends := State.complete_onlyIn ((s.take r).hostWrite (leAt d 12 8) image true) (s.ctxOf r d) .ok
      (lineBits (s.ctxOf r d).v1 since)
    obtain ⟨took, completes, -⟩ := State.answered_complete sound h (s.hostWrite_take_hst r (leAt d 12 8) image true)
      ((writes.touches.2.get .HST_RING_CFG_cring r 0 0 (by simp)).trans (s.take_cring r r)) (lineBits (s.ctxOf r d).v1 since)
    refine ⟨(ends.same .out).trans ?_, took, completes, (((s.take_onlyIn r).trans writes).trans ends).mono (by decide)⟩
    exact s.hostWrite_take_out r _ _ true

end Sys2Proof.Machine
end

section
/-! The reports of a head's temperature, and their absence (R162 to R166): what they change of the head, and that no other head changes. -/

namespace Sys2Proof.Machine

/-! ### One head of a port -/

section
variable {s : State} {p h : Nat}

theorem State.heads_length (sound : s.sound) (inside : p < 24) : (s.wick p).heads.length = 8 := by
  have there : p < s.wck.length := by rwa [State.sound_wck sound]
  have port : s.wick p = s.wck[p] := List.getD_eq_getElem s.wck WickPort.reset there
  exact port ▸ State.sound_heads sound _ (List.getElem_mem there)

theorem State.onlyIn.head {t : State} {l : List Part} (only : s.onlyIn t l) (q i : Nat) (hx : .wck ∉ l := by decide) :
    t.head q i = s.head q i := congrArg (fun w : WickPort => w.heads.getD i Head.reset) (only.wick q hx)

theorem State.onlyIn.clock {t : State} {l : List Part} (only : s.onlyIn t l) (hx : .tim ∉ l := by decide) : t.clock = s.clock :=
  congrArg (fun x : TimeBlock => x.laps * 2 ^ 32 + x.mono.toNat) (only.same .tim hx)

theorem State.head_updHead_same (f : Head → Head) (sound : s.sound) (inside : p < 24) (place : h < 8) :
    (s.updHead p h f).head p h = f (s.head p h) := by
  unfold State.head State.updHead
  rw [State.wick_updWick_same _ _ (by rwa [State.sound_wck sound])]
  exact getD_upd_same (by rwa [State.heads_length sound inside])

theorem State.head_updHead_ne {i : Nat} (f : Head → Head) (other : i ≠ h) : (s.updHead p h f).head p i = s.head p i :=
  State.wick_updWick_proj s p p (fun w => w.heads.getD i Head.reset) fun _ => getD_upd_ne other

/-- What an update of a head leaves of every head, it leaves of the one updated. -/
theorem State.head_updHead_proj {α : Type} (g : Head → α) {f : Head → Head} (kept : ∀ x, g (f x) = g x) :
    g ((s.updHead p h f).head p h) = g (s.head p h) :=
  State.wick_updWick_proj s p p (fun w => g (w.heads.getD h Head.reset)) fun w => getD_upd_proj g kept h h w.heads Head.reset

end

/-! ### A report of one head (R162, R165) -/

/-- Whatever the report says of hot, derate and band, it is the newest temperature. -/
theorem evalHead_temp (body : Bytes) (x : Head) (temp : BitVec 16) : (evalHead body x temp).1.temp = temp := by
  unfold evalHead
  dsimp only
  split
  · rfl
  · split
    · rfl
    · rw [apply_ite Prod.fst, apply_ite Head.temp]
      exact ite_self temp

/-- No temperature: the head is stale, and that is raised where it was not. -/
theorem evalHead_absent (body : Bytes) (x : Head) : evalHead body x 0x8000 =
    ({ x with temp := 0x8000, stale := true, quiet := 0 }, ⟨!x.stale, false, false, false⟩) := rfl

section
variable (s : State) (p h : Nat) (lr : Line)

/-- A result is noted in its head, for now or for its line; where its line has passed, that is counted besides (R165). -/
theorem State.applyResult_updHead (r : Bool × Nat) : ∃ u f, s.applyResult p h lr r = u.updHead p h f ∧
    s.onlyIn u [.regs] ∧ ∀ x : Head, (f x).temp = x.temp ∧ (f x).reportAt = x.reportAt := by
  have counts : s.onlyIn (s.count .WCK_LATE_BAND_CNT p) [.regs] := (State.count_touches s _ p 0 0 1).1
  unfold State.applyResult State.applyNow
  dsimp only
  split
  · exact ⟨s, _, rfl, .refl s _, fun _ => ⟨rfl, rfl⟩⟩
  · split
    · split
      · exact ⟨_, _, rfl, counts, fun _ => ⟨rfl, rfl⟩⟩
      · exact ⟨s, _, rfl, .refl s _, fun _ => ⟨rfl, rfl⟩⟩
    · exact ⟨s, _, rfl, .refl s _, fun _ => ⟨rfl, rfl⟩⟩

variable (temp : BitVec 16)

/-- A head as the evaluation of a report leaves it, its result not yet noted. -/
def State.reportedHead : Head := { (evalHead (s.wave p) (s.head p h) temp).1 with reportAt := s.clock }

/-- A report evaluates its head, raises and counts what that finds, and notes the result in the head. -/
theorem State.headReport_updHead : ∃ u f, s.headReport p h temp lr = u.updHead p h f ∧
    (s.updHead p h fun _ => s.reportedHead p h temp).onlyIn u [.ltn, .regs] ∧
    ∀ x : Head, (f x).temp = x.temp ∧ (f x).reportAt = x.reportAt := by
  have raises := (State.headRaises_touches (s.updHead p h fun _ => s.reportedHead p h temp) p h temp
    (evalHead (s.wave p) (s.head p h) temp).2 0).1
  obtain ⟨u, f, eq, counts, keeps⟩ := State.applyResult_updHead ((s.updHead p h fun _ => s.reportedHead p h temp).headRaises p h temp
    (evalHead (s.wave p) (s.head p h) temp).2 0) p h lr (headResult (s.wave p) (evalHead (s.wave p) (s.head p h) temp).1)
  exact ⟨u, f, eq, (raises.trans counts).mono (by decide), keeps⟩

theorem State.headReport_onlyIn : s.onlyIn (s.headReport p h temp lr) [.wck, .regs, .ltn] := by
  obtain ⟨u, f, eq, raises, -⟩ := s.headReport_updHead p h lr temp
  rw [eq]
  exact (((State.updWick_onlyIn s p _).trans raises).trans (State.updWick_onlyIn u p _)).mono (by decide)

variable {p} in
theorem State.headReport_wick_ne {q : Nat} (other : q ≠ p) : (s.headReport p h temp lr).wick q = s.wick q := by
  obtain ⟨u, f, eq, raises, -⟩ := s.headReport_updHead p h lr temp
  rw [eq]
  exact (u.wick_updWick_ne _ other).trans ((raises.wick q).trans (s.wick_updWick_ne _ other))

variable {h} in
theorem State.headReport_head_ne {i : Nat} (other : i ≠ h) : (s.headReport p h temp lr).head p i = s.head p i := by
  obtain ⟨u, f, eq, raises, -⟩ := s.headReport_updHead p h lr temp
  rw [eq]
  exact (State.head_updHead_ne f other).trans ((raises.head p i).trans (State.head_updHead_ne _ other))

variable {s p h} in
theorem State.headReport_head_same (sound : s.sound) (inside : p < 24) (place : h < 8) :
    ((s.headReport p h temp lr).head p h).temp = temp ∧ ((s.headReport p h temp lr).head p h).reportAt = s.clock := by
  obtain ⟨u, f, eq, raises, keeps⟩ := s.headReport_updHead p h lr temp
  have reported : u.head p h = s.reportedHead p h temp := (raises.head p h).trans (State.head_updHead_same _ sound inside place)
  rw [eq]
  constructor
  · rw [State.head_updHead_proj Head.temp fun x => (keeps x).1, reported]
    exact evalHead_temp _ _ temp
  · rw [State.head_updHead_proj Head.reportAt fun x => (keeps x).2, reported]
    rfl

end

/-! ### TEMP_REPORT and TEMP_TIMEOUT -/

section
variable {s : State} {p : Nat} (sound : s.sound) (inside : p < 24)
include sound inside

/-- The reports of a port's heads, each with the temperature of its own. -/
theorem State.each_headReport_head (temp : Nat → BitVec 16) (lr : Line) {n h : Nat} (fits : n ≤ 8) (place : h < n) :
    ((s.each (List.range n) fun s h => s.headReport p h (temp h) lr).head p h).temp = temp h ∧
      ((s.each (List.range n) fun s h => s.headReport p h (temp h) lr).head p h).reportAt = s.clock := by
  refine State.each_makes (I := fun u => u.sound ∧ u.clock = s.clock)
    (Q := fun h u => h < 8 → (u.head p h).temp = temp h ∧ (u.head p h).reportAt = s.clock) ?inv ?makes ?keeps _ ⟨sound, rfl⟩
    (.inl (List.mem_range.mpr place)) (by omega)
  case inv =>
    rintro u i ⟨good, now⟩
    exact ⟨State.headReport_sound u p i _ lr good, (State.headReport_onlyIn u p i lr _).clock.trans now⟩
  case makes =>
    rintro u i ⟨good, now⟩ eight
    exact now ▸ State.headReport_head_same lr (temp i) good inside eight
  case keeps =>
    rintro u i j ⟨good, now⟩ had eight
    by_cases same : j = i
    · subst same
      exact now ▸ State.headReport_head_same lr (temp j) good inside eight
    · rw [State.headReport_head_ne u p lr _ same]
      exact had eight

end

theorem exec_tempReport_reports {s : State} {p : Nat} {frame : Bytes} (active : s.active p = true) (good : statOf frame 1 32 = true) :
    ∃ lr, exec (.tempReport p frame) s = .next (s.each (List.range (s.heads p).heads) fun s h =>
      s.headReport p h (BitVec.ofNat 16 (leAt (framePayload frame) (8 + 2 * h) 2)) lr) := by
  show ∃ lr, execTempReport p frame s = _
  unfold execTempReport
  rw [active, good]
  exact ⟨_, rfl⟩

theorem mem_insertRaise (x : Raise) (l : List Raise) : x ∈ insertRaise x l := by
  induction l with
  | nil => exact List.mem_singleton_self x
  | cons y t ih =>
    unfold insertRaise
    split
    · exact List.mem_cons_self
    · exact List.mem_cons_of_mem y ih

theorem State.headRaises_stale (s : State) (p h : Nat) (temp : BitVec 16) (fresh : Bool) (detail : Word) :
    s.headRaises p h temp ⟨fresh, false, false, false⟩ detail = if fresh then s.raise .wckTempStale detail p h else s := rfl

/-- A head without a report for too long: it is evaluated as stale, and the result applies from now (R166). -/
def State.headLost (s : State) (p h : Nat) : State :=
  ((s.updHead p h fun _ => s.reportedHead p h 0x8000).headRaises p h 0x8000 ⟨!(s.head p h).stale, false, false, false⟩ 1).applyNow p h
    (headResult (s.wave p) { s.head p h with temp := 0x8000, stale := true, quiet := 0 })

theorem exec_tempTimeout_loses {s : State} {p h : Nat} (active : s.active p = true) (there : h < (s.heads p).heads)
    (late : s.elapsed (s.head p h).reportAt (s.get .WCK_CTRL_temp_timeout * 1000000) = true) :
    exec (.tempTimeout p h) s = .next (s.headLost p h) := by
  show execTempTimeout p h s = _
  unfold execTempTimeout
  rw [active, late, decide_eq_true there]
  rfl

section
variable {s : State} {p h : Nat}

theorem State.headLost_onlyIn : s.onlyIn (s.headLost p h) [.wck, .ltn] := by
  have raises (u : State) (fresh : Bool) : u.onlyIn (u.headRaises p h 0x8000 ⟨fresh, false, false, false⟩ 1) [.ltn] := by
    rw [State.headRaises_stale]
    exact State.onlyIn_if _ (u.raise_onlyIn _ _ _ _ _ _)
  exact (((s.updWick_onlyIn p _).trans (raises _ _)).trans (State.updWick_onlyIn _ p _)).mono (by decide)

theorem State.headLost_wick_ne {q : Nat} (other : q ≠ p) : (s.headLost p h).wick q = s.wick q := by
  refine (State.wick_updWick_ne _ _ other).trans ?_
  exact ((State.headRaises_touches _ p h _ _ _).1.wick q).trans (s.wick_updWick_ne _ other)

theorem State.headLost_head_ne {i : Nat} (other : i ≠ h) : (s.headLost p h).head p i = s.head p i := by
  refine (State.head_updHead_ne _ other).trans ?_
  exact ((State.headRaises_touches _ p h _ _ _).1.head p i).trans (State.head_updHead_ne _ other)

/-- The head is stale, has no temperature, and is blank from now. -/
theorem State.headLost_head_same (sound : s.sound) (inside : p < 24) (place : h < 8) : ((s.headLost p h).head p h).stale = true ∧
    ((s.headLost p h).head p h).temp = 0x8000 ∧ ((s.headLost p h).head p h).blank = true := by
  have good := State.updHead_sound s p h (fun _ => s.reportedHead p h 0x8000) sound
  have lost : (s.headLost p h).head p h = _ := State.head_updHead_same _ (State.headRaises_sound _ p h 0x8000 _ 1 good) inside place
  rw [lost, (State.headRaises_touches _ p h _ _ _).1.head p h, State.head_updHead_same _ sound inside place]
  exact ⟨rfl, rfl, Bool.or_true _⟩

/-- WCK.TEMP_STALE (U) of a head that was not stale. -/
theorem State.headLost_raises (fresh : (s.head p h).stale = false) : ∃ x, x ∈ (s.headLost p h).ltn.raises ∧
    x.src = Src.wckTempStale.num ∧ x.cls = 2 ∧ x.inst0 = p ∧ x.inst1 = h ∧ x.detail = 1 := by
  unfold State.headLost
  rw [fresh, State.headRaises_stale]
  exact ⟨_, mem_insertRaise _ _, rfl, rfl, rfl, rfl, rfl⟩

end

end Sys2Proof.Machine
end

section
/-! Control frames that leave a link, or wait behind those that are unacknowledged (R255): at most four are under way. -/

namespace Sys2Proof.Machine

/-- What decides whether a control frame leaves a link at once: the frames under way and those that wait, the link's state, and whether
its lookahead is too long (R236, R255). -/
def Link.sending (l : Link) : List CtlFrame × List Bytes × LinkState × Bool := (l.unacked, l.queued, l.st, l.laShort)

/-- A control frame that has left with the next sequence number is under way until it is acknowledged (R255). -/
def Link.underWay (raw : Bytes) (now : Instant) (l : Link) : Link :=
  { l with ctlNext := l.ctlNext + 1, unacked := l.unacked ++ [⟨l.ctlNext, raw, now, 0⟩] }

/-- A control frame waits behind those under way (R255). -/
def Link.waiting (raw : Bytes) (l : Link) : Link := { l with queued := l.queued ++ [raw] }

/-- CTRL QUIESCE has left a link (R260). -/
def Link.quiet (l : Link) : Link := { l with quiesced := true }

/-- A bank write but for when its last frame left. -/
def WaveWrite.untimed (w : WaveWrite) : WaveWrite := { w with lastAt := none }

/-- The last frame of the bank write leaves: its time is noted (R157). -/
def WickPort.timed (now : Instant) (w : WickPort) : WickPort := { w with write := w.write.map fun x => { x with lastAt := some now } }

/-- Wick's state of a port but for when the last frame of its bank write left. -/
def WickPort.untimed (w : WickPort) : WickPort := { w with write := w.write.map WaveWrite.untimed }

theorem WickPort.untimed_write (w : WickPort) : w.untimed.write = w.write.map WaveWrite.untimed := rfl

theorem WickPort.untimed_timed (now : Instant) (w : WickPort) : (w.timed now).untimed = w.untimed := by
  unfold WickPort.untimed WickPort.timed
  rw [Option.map_map]
  rfl

theorem upd_id {α : Type} (i : Nat) (l : List α) : upd i id l = l := by
  induction l generalizing i with
  | nil => cases i <;> rfl
  | cons a t ih =>
    cases i with
    | zero => rfl
    | succ n => exact congrArg (a :: ·) (ih n)

theorem State.updLink_id (s : State) (p : Nat) : s.updLink p id = s := by
  unfold State.updLink
  rw [upd_id]

theorem State.updWick_id (s : State) (p : Nat) : s.updWick p id = s := by
  unfold State.updWick
  rw [upd_id]

section
variable (s : State) (p : Nat) (raw : Bytes) (seq : BitVec 32)

theorem State.sendFrame_sending (q : Nat) (frame : Bytes) : ((s.sendFrame p frame).link q).sending = (s.link q).sending :=
  (State.link_updLink_proj _ p q Link.sending).trans (State.link_updLink_proj s p q Link.sending)

/-- A control frame that is no SYNC REQ: a QUIESCE is noted before it leaves, and the last frame of a bank write behind it. -/
theorem State.transmitCtl_other (other : ¬ isSyncReq raw = true) : ∃ f w,
    s.transmitCtl p raw seq = ((s.updLink p f).sendFrame p (finishFrame raw seq)).updWick p w ∧
      (∀ l, (f l).sending = l.sending) ∧ ∀ x, (w x).untimed = x.untimed := by
  obtain ⟨f, quiet, noted⟩ : ∃ f, (if isQuiesce raw then s.updLink p Link.quiet else s) = s.updLink p f ∧
      ∀ l, (f l).sending = l.sending := by
    split
    · exact ⟨_, rfl, fun _ => rfl⟩
    · exact ⟨id, (s.updLink_id p).symm, fun _ => rfl⟩
  obtain ⟨w, last, timed⟩ : ∃ w, (if byteAt raw 0 = 2 ∧ byteAt raw 9 = 21 then
        ((s.updLink p f).sendFrame p (finishFrame raw seq)).updWick p
          (WickPort.timed ((s.updLink p f).sendFrame p (finishFrame raw seq)).clock)
      else (s.updLink p f).sendFrame p (finishFrame raw seq)) = ((s.updLink p f).sendFrame p (finishFrame raw seq)).updWick p w ∧
      ∀ x, (w x).untimed = x.untimed := by
    split
    · exact ⟨_, rfl, WickPort.untimed_timed _⟩
    · exact ⟨id, (State.updWick_id _ p).symm, fun _ => rfl⟩
  refine ⟨f, w, ?_, noted, timed⟩
  rw [← last, ← quiet]
  exact if_neg other

/-- What a control frame on its way out can do: one frame leaves, and its kind notes something of it, in its link or in Wick, that does not
decide over the next frame. -/
theorem State.transmitCtl_form : ∃ f frame g w,
    s.transmitCtl p raw seq = (((s.updLink p f).sendFrame p frame).updLink p g).updWick p w ∧
      (∀ l, (f l).sending = l.sending) ∧ (∀ l, (g l).sending = l.sending) ∧ ∀ x, (w x).untimed = x.untimed := by
  by_cases sync : isSyncReq raw = true
  · refine ⟨id, finishFrame (splice raw 12 (toLe 4 s.mono.toNat)) seq,
      fun l => { l with syncWait := some (byteAt raw 9, s.mono, false) }, id, ?_, fun _ => rfl, fun _ => rfl, fun _ => rfl⟩
    rw [State.updWick_id, State.updLink_id]
    exact if_pos sync
  · obtain ⟨f, w, eq, noted, timed⟩ := s.transmitCtl_other p raw seq sync
    refine ⟨f, finishFrame raw seq, id, w, ?_, noted, fun _ => rfl, timed⟩
    rwa [State.updLink_id]

theorem State.transmitCtl_onlyIn : s.onlyIn (s.transmitCtl p raw seq) [.links, .wck, .out] := by
  obtain ⟨f, frame, g, w, eq, -⟩ := s.transmitCtl_form p raw seq
  rw [eq]
  exact ((((s.updLink_onlyIn p f).trans (State.sendFrame_onlyIn _ p frame)).trans (State.updLink_onlyIn _ p g)).trans
    (State.updWick_onlyIn _ p w)).mono (by decide)

theorem State.transmitCtl_sending (q : Nat) : ((s.transmitCtl p raw seq).link q).sending = (s.link q).sending := by
  obtain ⟨f, frame, g, w, eq, before, after, -⟩ := s.transmitCtl_form p raw seq
  rw [eq, (State.updWick_onlyIn _ p w).link q]
  calc ((((s.updLink p f).sendFrame p frame).updLink p g).link q).sending
      = (((s.updLink p f).sendFrame p frame).link q).sending := State.link_updLink_proj _ p q Link.sending after
    _ = ((s.updLink p f).link q).sending := State.sendFrame_sending _ p q frame
    _ = (s.link q).sending := State.link_updLink_proj s p q Link.sending before

variable {p} in
theorem State.transmitCtl_link_ne {q : Nat} (other : q ≠ p) : (s.transmitCtl p raw seq).link q = s.link q := by
  obtain ⟨f, frame, g, w, eq, -⟩ := s.transmitCtl_form p raw seq
  rw [eq, (State.updWick_onlyIn _ p w).link q, State.link_updLink_ne _ g other, State.sendFrame_link_ne _ frame other,
    State.link_updLink_ne s f other]

variable {p} in
theorem State.transmitCtl_wick_ne {q : Nat} (other : q ≠ p) : (s.transmitCtl p raw seq).wick q = s.wick q := by
  obtain ⟨f, frame, g, w, eq, -⟩ := s.transmitCtl_form p raw seq
  rw [eq, State.wick_updWick_ne _ w other, (State.updLink_onlyIn _ p g).wick q, (State.sendFrame_onlyIn _ p frame).wick q,
    (s.updLink_onlyIn p f).wick q]

theorem State.transmitCtl_untimed : ((s.transmitCtl p raw seq).wick p).untimed = (s.wick p).untimed := by
  obtain ⟨f, frame, g, w, eq, -, -, timed⟩ := s.transmitCtl_form p raw seq
  rw [eq, State.wick_updWick_proj _ p p WickPort.untimed timed, (State.updLink_onlyIn _ p g).wick p,
    (State.sendFrame_onlyIn _ p frame).wick p, (s.updLink_onlyIn p f).wick p]

/-- The two ways of a control frame: it leaves and is under way, or it waits (R255). -/
theorem State.sendCtl_eq : s.sendCtl p raw =
    if (s.link p).unacked.length < 4 && (s.link p).queued.isEmpty && !s.muted p then
      (s.transmitCtl p raw (s.link p).ctlNext).updLink p (Link.underWay raw s.clock)
    else s.updLink p (Link.waiting raw) := rfl

theorem State.sendCtl_onlyIn : s.onlyIn (s.sendCtl p raw) [.links, .wck, .out] := by
  rw [State.sendCtl_eq]
  refine State.onlyIn_ite _ ?_ ?_
  · exact ((s.transmitCtl_onlyIn p raw _).trans (State.updLink_onlyIn _ p _)).mono (by decide)
  · exact (s.updLink_onlyIn p _).mono (by decide)

variable {p} in
theorem State.sendCtl_link_ne {q : Nat} (other : q ≠ p) : (s.sendCtl p raw).link q = s.link q := by
  rw [State.sendCtl_eq]
  split
  · exact (State.link_updLink_ne _ _ other).trans (s.transmitCtl_link_ne raw _ other)
  · exact s.link_updLink_ne _ other

variable {p} in
theorem State.sendCtl_wick_ne {q : Nat} (other : q ≠ p) : (s.sendCtl p raw).wick q = s.wick q := by
  rw [State.sendCtl_eq]
  split
  · exact ((State.updLink_onlyIn _ p _).wick q).trans (s.transmitCtl_wick_ne raw _ other)
  · exact (s.updLink_onlyIn p _).wick q

theorem State.sendCtl_untimed : ((s.sendCtl p raw).wick p).untimed = (s.wick p).untimed := by
  rw [State.sendCtl_eq]
  split
  · rw [(State.updLink_onlyIn _ p _).wick p]
    exact s.transmitCtl_untimed p raw _
  · rw [(s.updLink_onlyIn p _).wick p]

end

/-! ### A run of control frames -/

/-- On link `p`, which may send more than IDLE, the frames of a list have been sent: the first four are under way, and the others wait,
in order. -/
structure State.CtlRun (s : State) (p : Nat) (frames : List Bytes) : Prop where
  sound : s.sound
  inside : p < 26
  loud : s.muted p = false
  unacked : (s.link p).unacked.map (·.frame) = frames.take 4
  queued : (s.link p).queued = frames.drop 4

theorem State.muted_congr {s t : State} {p : Nat} (dev : t.dev = s.dev) (sending : (t.link p).sending.2.2 = (s.link p).sending.2.2) :
    t.muted p = s.muted p := by
  obtain ⟨st, short⟩ : (t.link p).st = (s.link p).st ∧ (t.link p).laShort = (s.link p).laShort := Prod.mk.inj sending
  unfold State.muted State.printing State.active
  rw [dev, st, short]

section
variable {s : State} {p : Nat} {frames : List Bytes} (raw : Bytes)

theorem State.CtlRun.unacked_length (run : s.CtlRun p frames) : (s.link p).unacked.length = min 4 frames.length := by
  rw [← List.length_map, run.unacked, List.length_take]

/-- While fewer than four are under way, one more leaves. -/
theorem State.CtlRun.sendCtl_leaves (run : s.CtlRun p frames) (room : frames.length < 4) :
    (s.sendCtl p raw).CtlRun p (frames ++ [raw]) := by
  have number := run.unacked_length
  have none : (s.link p).queued = [] := run.queued.trans (List.drop_of_length_le (by omega))
  have fewer : (s.link p).unacked.length < 4 := by omega
  have leaves : s.sendCtl p raw = (s.transmitCtl p raw (s.link p).ctlNext).updLink p (Link.underWay raw s.clock) := by
    rw [State.sendCtl_eq, if_pos (by simp [fewer, none, run.loud])]
  have link : (s.sendCtl p raw).link p = Link.underWay raw s.clock ((s.transmitCtl p raw (s.link p).ctlNext).link p) := by
    rw [leaves, State.link_updLink_same]
    rw [State.sound_links (State.transmitCtl_sound s p raw _ run.sound)]
    exact run.inside
  have kept := s.transmitCtl_sending p raw (s.link p).ctlNext p
  refine ⟨State.sendCtl_sound s p raw run.sound, run.inside, ?_, ?_, ?_⟩
  · rw [State.muted_congr ((s.sendCtl_onlyIn p raw).same .dev) (by rw [link]; exact congrArg (·.2.2) kept), run.loud]
  · have unacked : ((s.transmitCtl p raw (s.link p).ctlNext).link p).unacked = (s.link p).unacked := congrArg (·.1) kept
    rw [link, List.take_of_length_le (by simp; omega)]
    show List.map _ (_ ++ [_]) = _
    rw [List.map_append, unacked, run.unacked, List.take_of_length_le (by omega)]
    rfl
  · rw [link, List.drop_of_length_le (by simp; omega)]
    exact (congrArg (·.2.1) kept).trans none

/-- With four under way, one more waits. -/
theorem State.CtlRun.sendCtl_waits (run : s.CtlRun p frames) (full : 4 ≤ frames.length) :
    (s.sendCtl p raw).CtlRun p (frames ++ [raw]) := by
  have number := run.unacked_length
  have four : ¬ (s.link p).unacked.length < 4 := by omega
  have link : (s.sendCtl p raw).link p = Link.waiting raw (s.link p) := by
    rw [State.sendCtl_eq, if_neg (by simp [four]), State.link_updLink_same]
    rw [State.sound_links run.sound]
    exact run.inside
  refine ⟨State.sendCtl_sound s p raw run.sound, run.inside, ?_, ?_, ?_⟩
  · rw [State.muted_congr ((s.sendCtl_onlyIn p raw).same .dev) (by rw [link]; rfl), run.loud]
  · rw [link, List.take_append_of_le_length full]
    exact run.unacked
  · rw [link, List.drop_append_of_le_length full]
    exact congrArg (· ++ [raw]) run.queued

theorem State.CtlRun.each_sendCtl (run : s.CtlRun p frames) (l : List Bytes) :
    (s.each l fun s raw => s.sendCtl p raw).CtlRun p (frames ++ l) := by
  induction l generalizing s frames with
  | nil => rwa [List.append_nil]
  | cons raw t ih =>
    rw [List.append_cons]
    by_cases room : frames.length < 4
    · exact ih (run.sendCtl_leaves raw room)
    · exact ih (run.sendCtl_waits raw (by omega))

end

end Sys2Proof.Machine
end

section
/-! Bank writes and their acknowledgement (R154 to R157, R246 to R248), and the commands of Wick together. -/

namespace Sys2Proof.Machine

/-! ### A bank write leaves (R246, R247) -/

section
variable (s : State) (p : Nat) (w : WaveWrite)

/-- The bank write is under way, and no frame of it has left yet. -/
def State.bankBegun (s : State) (p : Nat) (w : WaveWrite) : State :=
  s.updWick p fun x => { x with write := some { w with sent := true, lastAt := none } }

/-- The 22 WAVE frames of a bank write, in order (R246). -/
def WaveWrite.frames (w : WaveWrite) : List Bytes := (List.range 22).map (waveFrame w.bank w.body)

/-- A bank write is its 22 frames, sent one after the other. -/
theorem State.sendBank_eq : s.sendBank p w = (s.bankBegun p w).each w.frames fun s raw => s.sendCtl p raw :=
  (List.foldl_map ..).symm

theorem State.sendBank_onlyIn : s.onlyIn (s.sendBank p w) [.wck, .links, .out] := by
  rw [State.sendBank_eq]
  exact ((s.updWick_onlyIn p _).trans (State.each_onlyIn (fun u raw => u.sendCtl_onlyIn p raw) _ _)).mono (by decide)

variable {p} in
theorem State.sendBank_link_ne {q : Nat} (other : q ≠ p) : (s.sendBank p w).link q = s.link q := by
  rw [State.sendBank_eq]
  exact State.each_same (fun u => u.link q) (fun u raw => u.sendCtl_link_ne raw other) (s.bankBegun p w) _

variable {p} in
theorem State.sendBank_wick_ne {q : Nat} (other : q ≠ p) : (s.sendBank p w).wick q = s.wick q := by
  rw [State.sendBank_eq]
  refine (State.each_same (fun u => u.wick q) (fun u raw => u.sendCtl_wick_ne raw other) (s.bankBegun p w) _).trans ?_
  exact s.wick_updWick_ne _ other

variable {s p}

/-- The write stays open, sent, with its bank and its table, until it is acknowledged. -/
theorem State.sendBank_write (inside : p < s.wck.length) : ∃ w', ((s.sendBank p w).wick p).write = some w' ∧ w'.sent = true ∧
    w'.bank = w.bank ∧ w'.body = w.body := by
  have kept : ((s.sendBank p w).wick p).untimed = ((s.bankBegun p w).wick p).untimed := by
    rw [State.sendBank_eq]
    exact State.each_same (fun u => (u.wick p).untimed) (fun u raw => u.sendCtl_untimed p raw) (s.bankBegun p w) _
  have begun : ((s.bankBegun p w).wick p).write = some { w with sent := true, lastAt := none } := by
    unfold State.bankBegun
    rw [State.wick_updWick_same _ _ inside]
  have write : ((s.sendBank p w).wick p).write.map WaveWrite.untimed = some { w with sent := true, lastAt := none } := by
    rw [← WickPort.untimed_write, kept, WickPort.untimed_write, begun]
    rfl
  obtain ⟨w', open', same⟩ := Option.map_eq_some_iff.mp write
  exact ⟨w', open', (congrArg WaveWrite.sent same :), (congrArg WaveWrite.bank same :), (congrArg WaveWrite.body same :)⟩

/-- On a port with nothing under way, four of the frames leave at once, and the other 18 wait (R255). -/
theorem State.sendBank_run (sound : s.sound) (inside : p < 24) (loud : s.muted p = false) (none : (s.link p).unacked = [])
    (still : (s.link p).queued = []) : (s.sendBank p w).CtlRun p w.frames := by
  have only : s.onlyIn (s.bankBegun p w) [.wck] := s.updWick_onlyIn p _
  have link : (s.bankBegun p w).link p = s.link p := only.link p
  have begun : (s.bankBegun p w).CtlRun p [] := by
    refine ⟨?_, by omega, (State.muted_congr (only.same .dev) (by rw [link])).trans loud, ?_, ?_⟩
    · exact State.updWick_sound s p _ sound
    · rw [link, none]
      rfl
    · rw [link, still]
      rfl
  rw [State.sendBank_eq]
  have run := begun.each_sendCtl w.frames
  rwa [List.nil_append] at run

end

theorem exec_waveBankWrite_sends {s : State} {p : Nat} {w : WaveWrite} (write : (s.wick p).write = some w) (unsent : w.sent = false)
    (active : s.active p = true) (free : s.bankFree p w.bank = true) (single : s.actFind 5 p = none) :
    exec (.waveBankWrite p) s = .next (s.sendBank p w) := by
  show execWaveBankWrite p s = _
  unfold execWaveBankWrite
  simp [single, write, active, unsent, free]

/-! ### The acknowledgement of a bank write, and its absence (R154, R157, R248) -/

/-- The bank write is over. -/
def WickPort.ended (w : WickPort) : WickPort := { w with write := none }

/-- The HDM has acknowledged the bank in use (R154). -/
def WickPort.acked (w : WickPort) : WickPort := { w with bankAcked := true }

theorem State.bankStored_afterCaps {s : State} {p : Nat} {w : WaveWrite} (purpose : w.purpose = .afterCaps) :
    s.bankStored p w = (s.updWick p WickPort.ended).updWick p WickPort.acked := by
  unfold State.bankStored
  rw [purpose]
  rfl

theorem exec_waveAck_acknowledges {s : State} {p : Nat} {w : WaveWrite} {frame : Bytes} (write : (s.wick p).write = some w)
    (left : w.lastAt.isSome = true) (active : s.active p = true) (good : statOf frame 3 8 = true)
    (bank : byteAt (framePayload frame) 0 = w.bank.toNat) (chunks : byteAt (framePayload frame) 1 = 22)
    (crc : leAt (framePayload frame) 2 2 = (crc16 w.body).toNat) : exec (.waveAck p frame) s = .next (s.bankStored p w) := by
  have fits : ¬ ((!w.lastAt.isSome) = true ∨ byteAt (framePayload frame) 0 ≠ w.bank.toNat ∨
      byteAt (framePayload frame) 1 ≠ 22) := by
    simp [left, bank, chunks]
  show execWaveAck p frame s = _
  unfold execWaveAck
  rw [active, good, write]
  exact (if_neg fits).trans (if_pos crc)

theorem exec_waveAckTimeout_drops {s : State} {p : Nat} {w : WaveWrite} {at' : Option Line} {c : Ctx} {x : Instant}
    (write : (s.wick p).write = some w) (purpose : w.purpose = .load at' (some c)) (left : w.lastAt = some x)
    (late : s.elapsed x 10000000 = true) :
    exec (.waveAckTimeout p) s = .next ((s.updWick p WickPort.ended).complete c .link) := by
  show execWaveAckTimeout p s = _
  unfold execWaveAckTimeout State.dropBank
  simp only [write, left, late, if_true, purpose]
  rfl

/-- A descriptor that does not complete OK has the result 0 (R380). -/
theorem State.completes_complete_failed {s u : State} {c : Ctx} {st : Status} (sound : s.sound) (known : c.gen = s.hst.gen)
    (hst : u.hst = s.hst) (cring : u.cring c.ring = s.cring c.ring) (failed : st ≠ .ok) : s.completes (u.complete c st) c st 0 := by
  have same := State.ring_complete_same (s := u) (c := c) (by rw [hst, known])
    (by rw [hst, State.sound_rings sound]; exact u.cring_lt _) st 0
  rw [if_neg failed] at same
  unfold State.completes
  rw [← cring, same]
  exact congrArg (fun x : Host' => (x.rings.getD (u.cring c.ring) Ring.reset).waiting ++ _) hst

/-- Settles O19: each command by what `exec` does in its clause, and by the lemmas above about that: the reports of the heads under the
invariant of `State.each_makes`, and the 22 frames as a run of control frames. -/
theorem wickCommandsComplete : Obligations.WickCommandsComplete := by
  unfold Obligations.WickCommandsComplete
  intro s p sound inside
  have port : p < s.wck.length := by rwa [State.sound_wck sound]
  refine ⟨?report, ?silence, ?write, ?acknowledged, ?unacknowledged⟩
  case report =>
    intro frame active good fits
    obtain ⟨lr, runs⟩ := exec_tempReport_reports active good
    refine ⟨_, runs, fun h place => ?_, fun q other => ?_, ?_⟩
    · exact State.each_headReport_head sound inside _ lr fits place
    · exact State.each_same (fun u => u.wick q) (fun u h => u.headReport_wick_ne h lr _ other) s _
    · exact State.each_onlyIn (fun u h => u.headReport_onlyIn p h lr _) s _
  case silence =>
    intro h active there place late
    obtain ⟨stale, temp, blank⟩ := State.headLost_head_same sound inside place
    exact ⟨_, exec_tempTimeout_loses active there late, stale, temp, blank, fun i other => State.headLost_head_ne other,
      fun q other => State.headLost_wick_ne other, State.headLost_onlyIn, State.headLost_raises⟩
  case write =>
    intro w write unsent active free single none still loud
    obtain ⟨w', open', sent, bank, body⟩ := State.sendBank_write w port
    have run := State.sendBank_run w sound inside loud none still
    refine ⟨_, w', exec_waveBankWrite_sends write unsent active free single, open', sent, bank, body, ?_, ?_, fun q other => ?_,
      s.sendBank_onlyIn p w⟩
    · rw [run.unacked, run.queued]
      exact List.take_append_drop 4 w.frames
    · rw [run.unacked_length]
      rfl
    · exact ⟨s.sendBank_link_ne w other, s.sendBank_wick_ne w other⟩
  case acknowledged =>
    intro w frame write left purpose active good bank chunks crc
    have acks := exec_waveAck_acknowledges write left active good bank chunks crc
    rw [State.bankStored_afterCaps purpose] at acks
    have there : p < (s.updWick p WickPort.ended).wck.length := port.trans_eq (length_upd _ _ _).symm
    refine ⟨_, acks, ?_, ?_, ?_, fun q other => ?_, ?_⟩
    · rw [State.wick_updWick_same _ _ there, State.wick_updWick_same _ _ port]
      rfl
    · rw [State.wick_updWick_same _ _ there]
      rfl
    · rw [State.wick_updWick_same _ _ there, State.wick_updWick_same _ _ port]
      rfl
    · rw [State.wick_updWick_ne _ _ other, State.wick_updWick_ne _ _ other]
    · exact ((s.updWick_onlyIn p _).trans (State.updWick_onlyIn _ p _)).mono (by decide)
  case unacknowledged =>
    intro w at' c x write purpose known left late
    have ends := State.complete_onlyIn (s.updWick p WickPort.ended) c .link 0
    refine ⟨_, exec_waveAckTimeout_drops write purpose left late, ?_, ?_, ends.same .tabs, fun q other => ?_, ?_⟩
    · rw [ends.wick p, State.wick_updWick_same _ _ port]
      rfl
    · exact State.completes_complete_failed sound known rfl rfl (by decide)
    · rw [ends.wick q, State.wick_updWick_ne _ _ other]
    · exact ((s.updWick_onlyIn p _).trans ends).mono (by decide)

end Sys2Proof.Machine
end

section
/-! Writes that cross into another clock domain (R483, R484, R490): one that is not held on its way acts at once, or is refused. -/

namespace Sys2Proof.Machine

/-- An update that leaves its element as it is leaves the list. -/
theorem upd_eq_self {α : Type} {i : Nat} {f : α → α} {l : List α} {d : α} (h : f (l.getD i d) = l.getD i d) : upd i f l = l := by
  induction l generalizing i with
  | nil => rw [upd]
  | cons a t ih =>
    cases i with
    | zero => exact congrArg (· :: t) h
    | succ n => exact congrArg (a :: ·) (ih h)

section
variable {s : State} {off : Nat} (reaches : s.reaches off = true)
include reaches

theorem State.awake_of_reaches : s.dev.dev ≠ .dark := by
  intro dark
  simp [State.reaches, dark] at reaches

theorem State.idle_of_reaches {x : Nat} (crosses : s.xingOf off = some x) : (s.xing x).writes = [] ∧ (s.xing x).sync = .running := by
  simpa [State.reaches, crosses, State.awake_of_reaches reaches] using reaches

/-- An idle crossing refuses no write. -/
theorem State.xingBlocked_of_reaches : s.xingBlocked off = false := by
  unfold State.xingBlocked
  split
  next x crosses => simp [Crossing.values, (State.idle_of_reaches reaches crosses).1]
  next => rfl

/-- An idle crossing has nothing to apply. -/
theorem State.drain_of_reaches : s.drain off = s := by
  unfold State.drain
  split
  next x crosses =>
    obtain ⟨empty, running⟩ := State.idle_of_reaches reaches crosses
    have same : s.updXing x (fun k => { k with writes := [] }) = s := by
      have kept : ({ s.xing x with writes := [] } : Crossing) = s.xing x := by rw [← empty]
      unfold State.updXing
      rw [upd_eq_self (d := ⟨[], 0, .running, false⟩) kept]
    simp [empty, running, same]
  next => rfl

/-- What an idle crossing holds changes no register and no unit. -/
theorem State.ahead_of_reaches : ∃ c, s.ahead off = { s with clk := c } := by
  unfold State.ahead
  split
  next x crosses =>
    rw [(State.idle_of_reaches reaches crosses).1]
    exact ⟨_, rfl⟩
  next => exact ⟨_, rfl⟩

variable {v : Word} {checks : List (Nat × Bool)} {act : State → State}

/-- A write that no check refuses acts at once. -/
theorem State.gate_acts (pass : checks.filter (·.2) = []) : s.gate off v checks act = act s.traffic := by
  have open' : s.traffic.reaches off = true := reaches
  unfold State.gate State.bar0
  rw [if_neg (State.awake_of_reaches reaches)]
  simp only [State.xingBlocked_of_reaches open', State.drain_of_reaches open', List.filter_cons, pass]
  split
  next =>
    split
    next x crosses =>
      obtain ⟨empty, running⟩ := State.idle_of_reaches open' crosses
      simp [empty, running]
    next => rfl
  next held => simp at held

/-- A write that fails a check is refused with the lowest reason. -/
theorem State.gate_refuses {r : Nat} {t : List Nat} (fail : (checks.filter (·.2)).map (·.1) = r :: t) :
    s.gate off v checks act = s.traffic.refuse off (t.foldl min r) := by
  have open' : s.traffic.reaches off = true := reaches
  unfold State.gate State.bar0
  rw [if_neg (State.awake_of_reaches reaches)]
  simp [State.xingBlocked_of_reaches open', fail]

end

end Sys2Proof.Machine
end

section
/-! The units of Meridian: what an update of one leaves of the others, and of the rest of the block. -/

namespace Sys2Proof.Machine

theorem State.withMer_onlyIn (s : State) (m : Meridian) : s.onlyIn { s with mer := m } [.mer] := by
  intro x; cases x <;> simp [Part.same]

theorem State.updEnc_onlyIn (s : State) (e : Nat) (f : Encoder → Encoder) : s.onlyIn (s.updEnc e f) [.mer] := s.withMer_onlyIn _

theorem State.updCmp_onlyIn (s : State) (n : Nat) (f : Compare → Compare) : s.onlyIn (s.updCmp n f) [.mer] := s.withMer_onlyIn _

theorem State.store_touches (s : State) (r : Reg) (v : Word) (i j k : Nat) : s.touches (s.store r v i j k) [.regs] [r.addr i j k] :=
  ⟨s.wr_onlyIn _ _ _ _ _, s.wr_regsOnlyAt _ _ _ _ _⟩

section
variable {s : State} {e : Nat}

theorem State.enc_updEnc_same (sound : s.sound) (inside : e < 2) (f : Encoder → Encoder) : (s.updEnc e f).enc e = f (s.enc e) :=
  getD_upd_same (inside.trans_eq (State.sound_encs sound).symm)

theorem State.enc_updEnc_ne (s : State) {e q : Nat} (f : Encoder → Encoder) (other : q ≠ e) : (s.updEnc e f).enc q = s.enc q :=
  getD_upd_ne other

theorem State.cmp_updCmp_same {n : Nat} (sound : s.sound) (inside : n < 16) (f : Compare → Compare) :
    (s.updCmp n f).cmp n = f (s.cmp n) := getD_upd_same (inside.trans_eq (State.sound_cmps sound).symm)

theorem State.cmp_updCmp_ne (s : State) {n m : Nat} (f : Compare → Compare) (other : m ≠ n) : (s.updCmp n f).cmp m = s.cmp m :=
  getD_upd_ne other

/-- Outside Meridian nothing changes an encoder. -/
theorem State.onlyIn.enc {t : State} {l : List Part} (h : s.onlyIn t l) (q : Nat) (hx : .mer ∉ l := by decide) : t.enc q = s.enc q :=
  congrArg (fun m : Meridian => m.encs.getD q Encoder.reset) (h.same .mer hx)

/-- Where the registers stay, each field of one does. -/
theorem State.onlyIn.get {t : State} {l : List Part} (h : s.onlyIn t l) (f : Fld) (i j k : Nat) (hx : .regs ∉ l := by decide) :
    t.get f i j k = s.get f i j k := State.regsOnlyAt.get (l := []) (fun off => .inr (h.same .regs hx off)) f i j k List.not_mem_nil

end

end Sys2Proof.Machine
end

section
/-! The quadrature of an encoder (R176, R180): what one count does, and what an illegal event does. -/

namespace Sys2Proof.Machine

/-! ### One count (R176, R180) -/

/-- An encoder has counted once, up or down. -/
def Encoder.counted (up : Bool) (x : Encoder) : Encoder :=
  { x with counts := if up then x.counts + 1 else x.counts - 1, lastUp := some up, sinceIndex := x.sinceIndex + if up then 1 else -1 }

/-- Position of the web one count of ENC0 on. -/
def State.nextPos (s : State) (up : Bool) : BitVec 64 :=
  if up then s.mer.pos + (s.rd .MER_ENC_SCALE 0).setWidth 64 else s.mer.pos - (s.rd .MER_ENC_SCALE 0).setWidth 64

section
variable (s : State) (up : Bool) (t : Time)

/-- The compares or the pipelines follow the web, and nothing else (R22, R206). -/
theorem State.moveWeb_follow (u : State) (before after : Pos) :
    u.onlyIn (if up then u.crossTargets before after else { u with pipes := u.pipes.map fun (q : Pipe) => { q with back := true } })
      [.mer, .pipes] := by
  have back : u.onlyIn { u with pipes := u.pipes.map fun (q : Pipe) => { q with back := true } } [.mer, .pipes] := by
    intro x; cases x <;> simp [Part.same]
  exact State.onlyIn_ite _ ((u.withMer_onlyIn _).mono (by decide)) back

theorem State.moveWeb_onlyIn : s.onlyIn (s.moveWeb up t) [.mer, .sto, .pipes] :=
  (((s.withMer_onlyIn _).trans (State.settleGroups_onlyIn _)).trans (State.moveWeb_follow up _ _ _)).mono (by decide)

/-- What the web's move is of Meridian, up to the compares whose targets it reaches. -/
theorem State.moveWeb_mer : ∃ cmps, (s.moveWeb up t).mer =
    { s.mer with pos := s.nextPos up, tickPoint := some (t, s.nextPos up), cmps := cmps } := by
  have settled := (State.settleGroups_onlyIn
    { s with mer := { s.mer with pos := s.nextPos up, tickPoint := some (t, s.nextPos up) } }).same .mer
  cases up with
  | true => exact ⟨_, congrArg (fun m : Meridian => { m with cmps := (s.moveWeb true t).mer.cmps }) settled⟩
  | false => exact ⟨_, settled⟩

end

theorem State.countOne_encs (s : State) (e : Nat) (up : Bool) (t : Time) :
    (s.countOne e up t).mer.encs = upd e (Encoder.counted up) s.mer.encs := by
  unfold State.countOne
  dsimp only
  split
  next =>
    obtain ⟨cmps, moved⟩ := State.moveWeb_mer (s.updEnc e (Encoder.counted up)) up t
    exact congrArg Meridian.encs moved
  next => rfl

/-- A count of ENC0 moves the web (R176). -/
theorem State.countOne_web (s : State) (up : Bool) (t : Time) : (s.countOne 0 up t).mer.pos = s.nextPos up ∧
    (s.countOne 0 up t).mer.tickPoint = some (t, s.nextPos up) ∧ s.onlyIn (s.countOne 0 up t) [.mer, .sto, .pipes] := by
  obtain ⟨cmps, moved⟩ := State.moveWeb_mer (s.updEnc 0 (Encoder.counted up)) up t
  exact ⟨congrArg Meridian.pos moved, congrArg Meridian.tickPoint moved,
    ((s.updEnc_onlyIn 0 _).trans (State.moveWeb_onlyIn _ up t)).mono (by decide)⟩

/-- A count of ENC1 leaves the web (R188). -/
theorem State.countOne_aux (s : State) (up : Bool) (t : Time) : (s.countOne 1 up t).mer.pos = s.mer.pos ∧
    (s.countOne 1 up t).mer.tickPoint = s.mer.tickPoint ∧ s.onlyIn (s.countOne 1 up t) [.mer] := ⟨rfl, rfl, s.withMer_onlyIn _⟩

/-! ### A transition of both lines (R180) -/

/-- Class of an illegal event: U where it brings the window's count to the limit (R180). -/
def State.illegalClass (s : State) (e : Nat) : Nat :=
  if s.get .MER_ENC_CTRL_illegal_limit e ≠ 0 ∧ (s.enc e).illegal + 1 = s.get .MER_ENC_CTRL_illegal_limit e then 2 else 1

section
variable (s : State) (e : Nat)

theorem State.illegalEvent_touches : s.touches (s.illegalEvent e) [.mer, .regs, .ltn] [Reg.MER_ENC_ILLEGAL_CNT.addr e 0 0] :=
  (((s.updEnc_onlyIn e _).touches.trans (State.count_touches _ .MER_ENC_ILLEGAL_CNT e 0 0 1)).trans
    (State.raise_onlyIn _ _ _ _ _ _ _).touches).mono (by decide) (List.Subset.refl _)

theorem State.illegalEvent_counted (sorted : s.regs.sorted = true) : s.counted (s.illegalEvent e) .MER_ENC_ILLEGAL_CNT e :=
  State.counted_count (s := s.updEnc e _) .MER_ENC_ILLEGAL_CNT e sorted (by decide) (by decide)

theorem State.illegalEvent_raised :
    s.raised (s.illegalEvent e) .merQuadIllegal (s.illegalClass e) e 0xFF 0 (BitVec.ofNat 32 ((s.enc e).illegal + 1)) := by
  have limit (u : State) (h : u.regs = s.regs) :
      (u.count .MER_ENC_ILLEGAL_CNT e).get .MER_ENC_CTRL_illegal_limit e = s.get .MER_ENC_CTRL_illegal_limit e := by
    refine ((State.count_touches u .MER_ENC_ILLEGAL_CNT e 0 0 1).2.get .MER_ENC_CTRL_illegal_limit e 0 0 ?_).trans ?_
    · simp [Fld.MER_ENC_CTRL_illegal_limit, Fld.MER_ENC_ILLEGAL_CNT, Reg.addr, Reg.MER_ENC_CTRL, Reg.MER_ENC_ILLEGAL_CNT]
    · unfold State.get State.rd
      rw [h]
  unfold State.raised State.illegalEvent State.illegalClass
  simp only [limit _ (State.updEnc_regs s e _)]
  rfl

end

/-! ### The step of the sequence (R180) -/

/-- Steps from one state of A and B to another in the sequence 00, 01, 11, 10. -/
def quadSteps (a b a' b' : Bool) : Nat := (quadIndex a' b' + 4 - quadIndex a b) % 4

section
variable {s : State} {e : Nat} {a b a' b' : Bool} (t : Time) (enabled : s.on .MER_ENC_CTRL_en e = true)
include enabled

theorem State.quadStep_counts (one : quadSteps a b a' b' = 1 ∨ quadSteps a b a' b' = 3) :
    s.quadStep e a b a' b' t = s.countOne e ((quadSteps a b a' b' == 1) != s.on .MER_ENC_CTRL_invert e) t := by
  have moves : quadSteps a b a' b' ≠ 0 ∧ quadSteps a b a' b' ≠ 2 := by omega
  unfold quadSteps at moves
  simp [State.quadStep, enabled, moves, quadSteps]

theorem State.quadStep_illegal (two : quadSteps a b a' b' = 2) : s.quadStep e a b a' b' t = s.illegalEvent e := by
  unfold quadSteps at two
  simp [State.quadStep, enabled, two]

end

/-- The state of the filters, and the samples behind it, an encoder's step keeps; it changes no other encoder. -/
theorem State.quadStep_encs (s : State) (e : Nat) (a b a' b' : Bool) (t : Time) : ∃ f : Encoder → Encoder,
    (∀ x, (f x).a = x.a ∧ (f x).b = x.b ∧ (f x).run = x.run) ∧ (s.quadStep e a b a' b' t).mer.encs = upd e f s.mer.encs := by
  have stays : ∃ f : Encoder → Encoder, (∀ x, (f x).a = x.a ∧ (f x).b = x.b ∧ (f x).run = x.run) ∧
      s.mer.encs = upd e f s.mer.encs :=
    ⟨id, fun _ => ⟨rfl, rfl, rfl⟩, (upd_id e _).symm⟩
  unfold State.quadStep
  split
  next => exact stays
  next =>
    dsimp only
    split
    next => exact stays
    next =>
      split
      next => exact ⟨fun x => { x with illegal := (s.enc e).illegal + 1 }, fun _ => ⟨rfl, rfl, rfl⟩, rfl⟩
      next => exact ⟨Encoder.counted _, fun _ => ⟨rfl, rfl, rfl⟩, s.countOne_encs e _ t⟩

end Sys2Proof.Machine
end

section
/-! ENC_TRANSITION (R178 to R181): what an encoder shows of the samples of A and B. -/

namespace Sys2Proof.Machine

/-- An encoder has taken samples of A and B. -/
def State.sampled (s : State) (e : Nat) (la lb : Land) (run : Nat) : State :=
  s.updEnc e fun x => { x with a := la, b := lb, run := run }

/-- Free values have been drawn, up to a number of them. -/
def State.drawn (s : State) (n : Nat) : State := { s with free := n }

/-- The filters of an encoder show the lands that have passed (R179). -/
def State.shown (s : State) (e : Nat) (la lb : Land) (pa pb : Bool) : State :=
  s.updEnc e fun x => { x with a := if pa then la.pass else la, b := if pb then lb.pass else lb }

/-- The filters of an encoder follow the lands that have passed, and the transition is judged (R179, R180). -/
def State.followed (s : State) (e : Nat) (la lb : Land) (pa pb a b : Bool) (t : Time) : State :=
  (s.shown e la lb pa pb).quadStep e la.out lb.out
    (if pa then a else la.out) (if pb then b else lb.out) t

/-- What becomes of a state of A and B that has lasted `run` samples: a transition of fewer than 8 is counted or lost by a free value
(R181, log 136). -/
def State.judged (s : State) (e : Nat) (la lb : Land) (run : Nat) (pa pb a b : Bool) (t : Time) : Out :=
  if !pa && !pb then .next s
  else
    let (w, u) := if run < 8 then s.fresh else (1, s)
    if !w.getLsbD 0 then .next u else .next (u.followed e la lb pa pb a b t)

/-- ENC_TRANSITION takes the samples, and judges the state that they make. -/
theorem exec_encTransition_eq {s : State} {e : Nat} {a b : Bool} {held : Nat} {t' : Time} {la lb : Land} {pa pb : Bool} {run : Nat}
    {at' : Time} (inside : e < 2) (takesA : la = (s.enc e).a.take a held t' s.pos) (takesB : lb = (s.enc e).b.take b held t' s.pos)
    (runs : run = if a = (s.enc e).a.level ∧ b = (s.enc e).b.level then (s.enc e).run + held else held)
    (passA : pa = (decide (s.encFilter e ≤ run) && a != la.out)) (passB : pb = (decide (s.encFilter e ≤ run) && b != lb.out))
    (first : at' = if pa && (!pb || decide (0 ≤ sdiff la.since lb.since)) then la.since else lb.since) :
    exec (.encTransition e a b held t') s = (s.sampled e la lb run).judged e la lb run pa pb a b at' := by
  subst takesA takesB runs passA passB first
  exact if_neg (Nat.not_le.mpr inside)

section
variable (s : State) (e : Nat) (la lb : Land) {run : Nat} {pa pb : Bool} (a b : Bool) (t : Time)

theorem State.judged_unseen (stayA : pa = false) (stayB : pb = false) : s.judged e la lb run pa pb a b t = .next s := by
  simp [State.judged, stayA, stayB]

variable (passes : pa = true ∨ pb = true)
include passes

theorem State.judged_lost (short : run < 8) (lost : s.fresh.1.getLsbD 0 = false) : s.judged e la lb run pa pb a b t = .next s.fresh.2 := by
  have seen : (!pa && !pb) = false := by rcases passes with h | h <;> simp [h]
  simp only [State.judged, seen, if_pos short, lost, Bool.false_eq_true, if_false, Bool.not_false, if_true]

/-- A transition that is not lost is followed, from a state that differs in the free values drawn at most. -/
theorem State.judged_follows (kept : 8 ≤ run ∨ s.fresh.1.getLsbD 0 = true) : ∃ n, s.judged e la lb run pa pb a b t =
    .next ((s.drawn n).followed e la lb pa pb a b t) := by
  have seen : (!pa && !pb) = false := by rcases passes with h | h <;> simp [h]
  by_cases short : run < 8
  · have odd : s.fresh.1.getLsbD 0 = true := kept.resolve_left (Nat.not_le.mpr short)
    refine ⟨s.free + 1, ?_⟩
    simp only [State.judged, seen, if_pos short, odd, Bool.false_eq_true, if_false, Bool.not_true]
    rfl
  · exact ⟨s.free, by simp [State.judged, seen, short, State.drawn]⟩

end

/-! ### What the filters then show (R179, R180) -/

section
variable {s : State} {e : Nat} {la lb : Land} {pa pb a b : Bool} {t : Time}

theorem State.followed_encs (s : State) (e : Nat) (la lb : Land) (pa pb a b : Bool) (t : Time) : ∃ f : Encoder → Encoder,
    (∀ x, (f x).a = x.a ∧ (f x).b = x.b ∧ (f x).run = x.run) ∧
    (s.followed e la lb pa pb a b t).mer.encs = upd e f (s.shown e la lb pa pb).mer.encs :=
  State.quadStep_encs _ e _ _ _ _ t

theorem State.followed_enc_ne {q : Nat} (other : q ≠ e) : (s.followed e la lb pa pb a b t).enc q = s.enc q := by
  obtain ⟨f, -, encs⟩ := s.followed_encs e la lb pa pb a b t
  exact (congrArg (·.getD q Encoder.reset) encs).trans ((getD_upd_ne other).trans (getD_upd_ne other))

variable (la lb pa pb a b t) in
/-- The filters show the lands that have passed. -/
theorem State.followed_filters (sound : s.sound) (inside : e < 2) :
    ((s.followed e la lb pa pb a b t).enc e).a = (if pa then la.pass else la) ∧
    ((s.followed e la lb pa pb a b t).enc e).b = (if pb then lb.pass else lb) ∧
    ((s.followed e la lb pa pb a b t).enc e).run = (s.enc e).run := by
  have there : e < s.mer.encs.length := inside.trans_eq (State.sound_encs sound).symm
  obtain ⟨f, keeps, encs⟩ := s.followed_encs e la lb pa pb a b t
  have shown := (congrArg (·.getD e Encoder.reset) encs).trans ((getD_upd_same (there.trans_eq (length_upd _ _ _).symm)).trans
    (congrArg f (getD_upd_same there)))
  obtain ⟨keepsA, keepsB, keepsRun⟩ := keeps { s.enc e with a := if pa then la.pass else la, b := if pb then lb.pass else lb }
  exact ⟨(congrArg Encoder.a shown).trans keepsA, (congrArg Encoder.b shown).trans keepsB, (congrArg Encoder.run shown).trans keepsRun⟩

variable {d : Nat} (enabled : s.on .MER_ENC_CTRL_en e = true)
  (steps : d = quadSteps la.out lb.out (if pa then a else la.out) (if pb then b else lb.out))
include enabled steps

/-- One step of the sequence is one count. -/
theorem State.followed_counts (one : d = 1 ∨ d = 3) : s.followed e la lb pa pb a b t =
    (s.shown e la lb pa pb).countOne e ((d == 1) != s.on .MER_ENC_CTRL_invert e) t := by
  subst steps
  exact State.quadStep_counts t enabled one

/-- Two steps at once are an illegal event. -/
theorem State.followed_illegal (two : d = 2) : s.followed e la lb pa pb a b t =
    (s.shown e la lb pa pb).illegalEvent e := by
  subst steps
  exact State.quadStep_illegal t enabled two

end

end Sys2Proof.Machine
end

section
/-! ENC_INDEX and the estimate (R178, R179, R182, R191). -/

namespace Sys2Proof.Machine

/-! ### The index (R182) -/

/-- An encoder has taken samples of Z. -/
def State.sampledZ (s : State) (e : Nat) (z : Land) : State := s.updEnc e fun x => { x with z := z }

section
variable {s : State} {e : Nat} {level : Bool} {held : Nat} {t' : Time} {z : Land} (inside : e < 2)
  (takes : z = (s.enc e).z.take level held t' s.pos)
include inside takes

theorem exec_encIndex_unseen (stays : z.passes (s.encFilter e) = false) :
    exec (.encIndex e level held t') s = .next (s.sampledZ e z) := by
  subst takes
  exact (if_neg (Nat.not_le.mpr inside)).trans (if_neg (Bool.eq_false_iff.mp stays))

theorem exec_encIndex_seen (passes : z.passes (s.encFilter e) = true) : exec (.encIndex e level held t') s =
    .next (if level then (s.sampledZ e z.pass).indexPassed e z.pos z.since
      else s.sampledZ e z.pass) := by
  subst takes
  exact (if_neg (Nat.not_le.mpr inside)).trans (if_pos passes)

end

/-- An index comes at another count than the one expected: it is counted and raised with the difference. -/
def State.indexMiss (s : State) (e : Nat) (d : Int) : State :=
  (s.count .MER_ENC_INDEX_CNT e).raise .merIndex (BitVec.ofInt 32 d) e

/-- The next revolution of an encoder starts, and the index reaches the latch units that select it and the twin block. -/
def State.revolve (s : State) (e : Nat) (x : Pos) (t : Time) : State :=
  let u := (s.updEnc e fun q => { q with sinceIndex := 0, indexDir := q.lastUp }).triggerLatches (25 + e) x t
  if e = 0 then u.twinIndex x t else u

section
variable (s : State) (e : Nat)

theorem State.indexMiss_touches (d : Int) : s.touches (s.indexMiss e d) [.regs, .ltn] [Reg.MER_ENC_INDEX_CNT.addr e 0 0] :=
  ((s.count_touches .MER_ENC_INDEX_CNT e 0 0 1).trans (State.raise_onlyIn _ _ _ _ _ _ _).touches).mono (by decide) (List.Subset.refl _)

theorem State.indexMiss_counted (d : Int) (sorted : s.regs.sorted = true) : s.counted (s.indexMiss e d) .MER_ENC_INDEX_CNT e :=
  State.counted_count (s := s) .MER_ENC_INDEX_CNT e sorted (by decide) (by decide)

/-- Where the encoder travels as it did at the last index, the count since then is the one expected, or the index is a miss. -/
theorem State.indexPassed_up {want : Nat} (x : Pos) (t : Time) (enabled : s.on .MER_ENC_CTRL_en e = true)
    (expects : want = s.get .MER_ENC_REV_counts e) (some' : want ≠ 0) (up : (s.enc e).lastUp = some true)
    (same : (s.enc e).indexDir = some true) : s.indexPassed e x t =
    (if (s.enc e).sinceIndex = want then s else s.indexMiss e ((s.enc e).sinceIndex - want)).revolve e x t := by
  subst expects
  unfold State.indexPassed
  by_cases hit : (s.enc e).sinceIndex = s.get .MER_ENC_REV_counts e
  · simp [enabled, up, same, hit, State.revolve]
  · simp [enabled, up, same, hit, some', State.revolve, State.indexMiss]

theorem State.twinIndex_single (x : Pos) (t : Time) (unpaired : s.twn.pair ≠ .paired) (unpairing : s.twn.pair ≠ .pairing) :
    s.twinIndex x t = { s with twn := { s.twn with index := some (x, t) } } := by
  unfold State.twinIndex
  dsimp only
  split
  next pairing => exact absurd pairing unpairing
  next paired => exact absurd paired unpaired
  next => rfl

/-- What the start of a revolution is of Meridian and of the twin block, in a module that is not paired or pairing. -/
theorem State.revolve_single (x : Pos) (t : Time) (unpaired : s.twn.pair ≠ .paired) (unpairing : s.twn.pair ≠ .pairing) :
    (s.revolve e x t).mer.encs = upd e (fun q => { q with sinceIndex := 0, indexDir := q.lastUp }) s.mer.encs ∧
    (s.revolve e x t).mer.pos = s.mer.pos ∧ s.onlyIn (s.revolve e x t) [.mer, .twn] := by
  have starts : s.onlyIn ((s.updEnc e fun q => { q with sinceIndex := 0, indexDir := q.lastUp }).triggerLatches (25 + e) x t) [.mer] :=
    s.withMer_onlyIn _
  unfold State.revolve
  dsimp only
  split
  next =>
    generalize begun : (s.updEnc e fun q => { q with sinceIndex := 0, indexDir := q.lastUp }).triggerLatches (25 + e) x t = u at starts
    have twn : u.twn = s.twn := starts.same .twn
    rw [State.twinIndex_single u x t (twn ▸ unpaired) (twn ▸ unpairing)]
    refine ⟨begun ▸ rfl, begun ▸ rfl, starts.trans ?_⟩
    intro p; cases p <;> simp [Part.same]
  next => exact ⟨rfl, rfl, starts.mono (by decide)⟩

end

/-- An encoder that travels on in the same direction starts a revolution from 0. -/
theorem State.revolve_enc {s : State} {e : Nat} (x : Pos) (t : Time) (sound : s.sound) (inside : e < 2) (unpaired : s.twn.pair ≠ .paired)
    (unpairing : s.twn.pair ≠ .pairing) (onward : (s.enc e).indexDir = (s.enc e).lastUp) :
    (s.revolve e x t).enc e = { s.enc e with sinceIndex := 0 } := by
  obtain ⟨encs, -, -⟩ := s.revolve_single e x t unpaired unpairing
  have starts : (s.revolve e x t).enc e = { s.enc e with sinceIndex := 0, indexDir := (s.enc e).lastUp } :=
    (congrArg (·.getD e Encoder.reset) encs).trans (getD_upd_same (inside.trans_eq (State.sound_encs sound).symm))
  rw [starts, ← onward]

/-! ### The estimate (R191) -/

section
variable {now : Time} {p : Time × BitVec 64} (older : List (Time × BitVec 64)) {stopNs : Nat} (windowNs aMax : Nat)
  (order2 : Bool) (free : Nat)

theorem estimateOf_stopped (late : (stopNs : Int) < sdiff now p.1) :
    estimateOf now (p :: older) stopNs windowNs aMax order2 free = ⟨true, p.1, p.2, 0, 0⟩ := if_pos late

/-- While the newest point is not older than stop_ms, the web moves from there. -/
theorem estimateOf_moving (recent : sdiff now p.1 ≤ stopNs) : ∃ v a,
    estimateOf now (p :: older) stopNs windowNs aMax order2 free = ⟨false, p.1, p.2, v, a⟩ := by
  unfold estimateOf
  dsimp only
  rw [if_neg (not_lt.mpr recent)]
  split
  next => exact ⟨_, _, rfl⟩
  next =>
    split
    next => exact ⟨_, _, rfl⟩
    next => exact ⟨_, _, rfl⟩

end

end Sys2Proof.Machine
end

section
/-! The obligation about the encoders and the estimate (R176, R178 to R182, R191). -/

namespace Sys2Proof.Machine

/-! ### A transition seen, against the state before its samples (R176, R180) -/

theorem State.countOne_enc_same {s : State} {e : Nat} (sound : s.sound) (inside : e < 2) (up : Bool) (t : Time) :
    (s.countOne e up t).enc e = (s.enc e).counted up :=
  (congrArg (·.getD e Encoder.reset) (s.countOne_encs e up t)).trans
    (getD_upd_same (inside.trans_eq (State.sound_encs sound).symm))

section
variable {s : State} {e : Nat} (la lb : Land) (run n : Nat) (pa pb : Bool)

theorem State.drawn_onlyIn (s : State) (n : Nat) : s.onlyIn (s.drawn n) [.free] := by
  intro x; cases x <;> simp [Part.same, State.drawn]

theorem State.sampled_onlyIn : s.onlyIn ((s.sampled e la lb run).drawn n) [.mer, .free] :=
  (s.updEnc_onlyIn e _).trans (State.drawn_onlyIn _ n)

theorem State.sampled_sound (sound : s.sound) : ((s.sampled e la lb run).drawn n).sound :=
  State.sound_set_free (State.updEnc_sound s e _ sound)

/-- The filters of an encoder show lands sampled: the state from which a transition counts. -/
def State.filtered (s : State) (e : Nat) (la lb : Land) (run n : Nat) (pa pb : Bool) : State :=
  ((s.sampled e la lb run).drawn n).shown e la lb pa pb

theorem State.filtered_sound (sound : s.sound) : (s.filtered e la lb run n pa pb).sound :=
  State.updEnc_sound _ e _ (State.sampled_sound la lb run n sound)

theorem State.filtered_onlyIn : s.onlyIn (s.filtered e la lb run n pa pb) [.mer, .free] :=
  ((State.sampled_onlyIn la lb run n).trans (State.updEnc_onlyIn _ e _)).mono (by decide)

theorem State.filtered_enc (sound : s.sound) (inside : e < 2) : (s.filtered e la lb run n pa pb).enc e =
    { s.enc e with a := if pa then la.pass else la, b := if pb then lb.pass else lb, run := run } := by
  have shown : (s.filtered e la lb run n pa pb).enc e = _ := State.enc_updEnc_same (State.sampled_sound la lb run n sound) inside _
  have sampled : ((s.sampled e la lb run).drawn n).enc e = _ := State.enc_updEnc_same sound inside _
  rw [shown, sampled]

/-- A transition of both lines, against the state before its samples. -/
theorem State.filtered_illegal (sound : s.sound) (inside : e < 2) {t : State}
    (illegal : t = (s.filtered e la lb run n pa pb).illegalEvent e) : t.mer.pos = s.mer.pos ∧ (t.enc e).counts = (s.enc e).counts ∧
    (t.enc e).illegal = (s.enc e).illegal + 1 ∧ s.counted t .MER_ENC_ILLEGAL_CNT e ∧
    s.raised t .merQuadIllegal (s.illegalClass e) e 0xFF 0 (BitVec.ofNat 32 ((s.enc e).illegal + 1)) ∧
    s.touches t [.mer, .ltn, .regs, .free] [Reg.MER_ENC_ILLEGAL_CNT.addr e 0 0] := by
  have before := State.filtered_enc la lb run n pa pb sound inside
  have sound' := State.filtered_sound (e := e) la lb run n pa pb sound
  have frame := (State.filtered_onlyIn (s := s) (e := e) la lb run n pa pb).touches
  have cls : (s.filtered e la lb run n pa pb).illegalClass e = s.illegalClass e := by
    unfold State.illegalClass
    rw [before]
    rfl
  have raised := State.illegalEvent_raised (s.filtered e la lb run n pa pb) e
  rw [cls, before] at raised
  have enc : (((s.filtered e la lb run n pa pb).illegalEvent e).enc e) = _ := State.enc_updEnc_same sound' inside _
  rw [before] at enc
  subst illegal
  refine ⟨rfl, (congrArg Encoder.counts enc :), (congrArg Encoder.illegal enc :), ?_, raised, ?_⟩
  · exact (State.illegalEvent_counted _ e (State.sound_regs sound')).around rfl rfl
  · exact (frame.trans (State.illegalEvent_touches _ e)).mono

/-- A transition of one line, against the state before its samples. -/
theorem State.filtered_counts (sound : s.sound) (inside : e < 2) (up : Bool) (at' : Time) {t : State}
    (counts : t = (s.filtered e la lb run n pa pb).countOne e up at') :
    (t.enc e).counts = (if up then (s.enc e).counts + 1 else (s.enc e).counts - 1) ∧
    (e = 0 → t.mer.pos = s.nextPos up ∧ t.mer.tickPoint = some (at', t.mer.pos) ∧ s.onlyIn t [.mer, .sto, .pipes, .free]) ∧
    (e = 1 → t.mer.pos = s.mer.pos ∧ t.mer.tickPoint = s.mer.tickPoint ∧ s.onlyIn t [.mer, .free]) := by
  have before := State.filtered_enc la lb run n pa pb sound inside
  have frame := State.filtered_onlyIn (s := s) (e := e) la lb run n pa pb
  have enc := State.countOne_enc_same (State.filtered_sound (e := e) la lb run n pa pb sound) inside up at'
  rw [before] at enc
  subst counts
  refine ⟨(congrArg Encoder.counts enc :), fun zero => ?_, fun one => ?_⟩
  · subst zero
    obtain ⟨pos, point, moves⟩ := State.countOne_web (s.filtered 0 la lb run n pa pb) up at'
    exact ⟨pos, pos ▸ point, (frame.trans moves).mono (by decide)⟩
  · subst one
    obtain ⟨pos, point, moves⟩ := State.countOne_aux (s.filtered 1 la lb run n pa pb) up at'
    exact ⟨pos, point, (frame.trans moves).mono (by decide)⟩

end

/-- An index of an encoder that travels up, against the state before the sample of Z that makes it (R182). -/
theorem State.indexed_up {s : State} {e want : Nat} (sound : s.sound) (inside : e < 2) (enabled : s.on .MER_ENC_CTRL_en e = true) (z : Land)
    (x : Pos) (t : Time) (unpaired : s.twn.pair ≠ .paired) (unpairing : s.twn.pair ≠ .pairing)
    (expects : want = s.get .MER_ENC_REV_counts e) (some' : want ≠ 0) (up : (s.enc e).lastUp = some true)
    (same : (s.enc e).indexDir = some true) : ∃ w, (s.sampledZ e z).indexPassed e x t = w ∧
      w.enc e = { s.enc e with z := z, sinceIndex := 0 } ∧ w.mer.pos = s.mer.pos ∧
      ((s.enc e).sinceIndex = want → s.onlyIn w [.mer, .twn]) ∧
      ((s.enc e).sinceIndex ≠ want → s.counted w .MER_ENC_INDEX_CNT e ∧
        s.raised w .merIndex 1 e 0xFF 0 (BitVec.ofInt 32 ((s.enc e).sinceIndex - want)) ∧
        s.regsOnlyAt w [Reg.MER_ENC_INDEX_CNT.addr e 0 0] ∧ s.onlyIn w [.mer, .twn, .ltn, .regs]) := by
  have soundU : (s.sampledZ e z).sound := State.updEnc_sound s e _ sound
  have enc : (s.sampledZ e z).enc e = { s.enc e with z := z } := State.enc_updEnc_same sound inside _
  have frame : s.onlyIn (s.sampledZ e z) [.mer] := s.updEnc_onlyIn e _
  have count : ((s.sampledZ e z).enc e).sinceIndex = (s.enc e).sinceIndex := by rw [enc]
  have passes := State.indexPassed_up (s.sampledZ e z) e x t enabled expects some' (enc ▸ up) (enc ▸ same)
  rw [count] at passes
  refine ⟨_, passes, ?_⟩
  by_cases hit : (s.enc e).sinceIndex = want
  · obtain ⟨-, pos, starts⟩ := (s.sampledZ e z).revolve_single e x t unpaired unpairing
    have next := State.revolve_enc x t soundU inside unpaired unpairing (by rw [enc, up, same])
    rw [enc] at next
    rw [if_pos hit]
    exact ⟨next, pos, fun _ => (frame.trans starts).mono (by decide), fun miss => absurd hit miss⟩
  · have miss := (s.sampledZ e z).indexMiss_touches e ((s.enc e).sinceIndex - want)
    obtain ⟨-, pos, starts⟩ := ((s.sampledZ e z).indexMiss e ((s.enc e).sinceIndex - want)).revolve_single e x t unpaired unpairing
    have soundM : ((s.sampledZ e z).indexMiss e ((s.enc e).sinceIndex - want)).sound :=
      State.raise_sound _ _ _ _ _ _ _ (State.count_sound _ _ _ _ _ _ soundU)
    have next := State.revolve_enc (e := e) x t soundM inside unpaired unpairing
      ((congrArg Encoder.indexDir enc).trans (same.trans (up.symm.trans (congrArg Encoder.lastUp enc).symm)))
    rw [if_neg hit]
    have encM : ((s.sampledZ e z).indexMiss e ((s.enc e).sinceIndex - want)).enc e = { s.enc e with z := z } := enc
    rw [encM] at next
    obtain ⟨parts, regs⟩ := (frame.touches.trans miss).trans starts.touches
    refine ⟨next, pos, fun hit' => absurd hit' hit, fun _ => ⟨?_, starts.same .ltn, regs, parts.mono (by decide)⟩⟩
    exact (State.indexMiss_counted _ e _ (State.sound_regs soundU)).around rfl (starts.get .MER_ENC_INDEX_CNT e 0 0)

/-- Settles O20: the transition by what the filters show and the step of the sequence that they take, the index by the count since the
last one, and the estimate by the age of the newest point. -/
theorem encoderCommandsComplete : Obligations.EncoderCommandsComplete := by
  unfold Obligations.EncoderCommandsComplete
  intro s e sound inside enabled
  have other : 1 - e ≠ e := by omega
  refine ⟨?transition, ?window, ?index, ?tick, ?stop⟩
  case transition =>
    intro a b held t' la lb pa pb run at' d up takesA takesB runs passA passB first steps upward
    have judges := exec_encTransition_eq inside takesA takesB runs passA passB first
    have same : (s.sampled e la lb run).enc e = { s.enc e with a := la, b := lb, run := run } := State.enc_updEnc_same sound inside _
    have rest : (s.sampled e la lb run).enc (1 - e) = s.enc (1 - e) := State.enc_updEnc_ne s _ other
    have still (stayA : pa = false) (stayB : pb = false) := judges.trans (State.judged_unseen _ e la lb a b at' stayA stayB)
    refine ⟨fun stayA stayB => ⟨_, still stayA stayB, same, rest, rfl, s.updEnc_onlyIn e _⟩, fun passes => ?_⟩
    by_cases kept : 8 ≤ run ∨ s.fresh.1.getLsbD 0 = true
    · obtain ⟨n, follows⟩ := State.judged_follows (s.sampled e la lb run) e la lb a b at' passes kept
      obtain ⟨filterA, filterB, lasts⟩ := State.followed_filters la lb pa pb a b at' (State.sampled_sound la lb run n sound) inside
      generalize shows : ((s.sampled e la lb run).drawn n).followed e la lb pa pb a b at' = t at follows filterA filterB lasts
      refine ⟨t, judges.trans follows, ?_, fun lost => ?_, fun _ => ⟨filterA, filterB, ?_, fun one => ?_, fun two => ?_⟩⟩
      · rw [← shows]
        exact (State.followed_enc_ne other).trans rest
      · obtain ⟨short, lost⟩ := lost
        exact absurd kept (not_or.mpr ⟨Nat.not_le.mpr short, Bool.eq_false_iff.mp lost⟩)
      · exact lasts.trans (congrArg Encoder.run same)
      · subst upward
        exact State.filtered_counts la lb run n pa pb sound inside _ at' (shows.symm.trans (State.followed_counts enabled steps one))
      · obtain ⟨pos, counts, illegal, counted, raised, frame, regs⟩ := State.filtered_illegal la lb run n pa pb sound inside
          (shows.symm.trans (State.followed_illegal enabled steps two))
        exact ⟨pos, counts, illegal, counted, raised, regs, frame⟩
    · obtain ⟨short, lost⟩ := not_or.mp kept
      have short : run < 8 := Nat.not_le.mp short
      have lost : s.fresh.1.getLsbD 0 = false := Bool.eq_false_iff.mpr lost
      exact ⟨_, judges.trans (State.judged_lost _ e la lb a b at' passes short lost), rest,
        fun _ => ⟨same, rfl, State.sampled_onlyIn la lb run _⟩, fun kept' => absurd kept' kept⟩
  case window =>
    intro late
    exact ⟨_, if_pos ⟨inside, enabled, late⟩, State.enc_updEnc_same sound inside _, State.enc_updEnc_ne s _ other, rfl,
      s.updEnc_onlyIn e _⟩
  case index =>
    intro level held t' z takes
    refine ⟨fun stays => ?_, fun passes falls => ?_, fun want passes rises unpaired unpairing expects counts up dir => ?_⟩
    · exact ⟨_, exec_encIndex_unseen inside takes stays, State.enc_updEnc_same sound inside _, s.updEnc_onlyIn e _⟩
    · subst falls
      exact ⟨_, exec_encIndex_seen inside takes passes, State.enc_updEnc_same sound inside _, s.updEnc_onlyIn e _⟩
    · subst rises
      obtain ⟨t, passed, enc, pos, hit, miss⟩ := State.indexed_up sound inside enabled z.pass z.pos z.since unpaired unpairing
        expects counts up dir
      exact ⟨t, (exec_encIndex_seen inside takes passes).trans (congrArg _ passed), enc, pos, hit, miss⟩
  case tick =>
    intro p point
    have frame (u : State) (m : Meridian) (n : Nat) : u.onlyIn { u with free := n, mer := m } [.mer, .free] := by
      intro x; cases x <;> simp [Part.same]
    have ticks : exec .estimatorTick s = execEstimatorTick s := rfl
    unfold execEstimatorTick at ticks
    rw [point] at ticks
    refine ⟨_, ticks, rfl, rfl, frame s _ _, fun late => ?_, fun recent => ?_⟩
    · dsimp only
      rw [estimateOf_stopped _ _ _ _ _ late]
      exact ⟨rfl, rfl⟩
    · obtain ⟨v, a, moves⟩ := estimateOf_moving s.mer.points (2 ^ s.get .MER_CTRL_window * 1000) (s.get .MER_ACC_LIMIT_a_max)
        (s.on .MER_CTRL_order) s.free recent
      dsimp only
      rw [moves]
      exact ⟨rfl, rfl, rfl⟩
  case stop =>
    intro p older none points late
    have stops : exec .webStopTimeout s = execWebStopTimeout s := rfl
    unfold execWebStopTimeout at stops
    rw [none, points] at stops
    exact ⟨_, stops.trans (if_pos late), rfl, rfl, rfl, s.withMer_onlyIn _⟩

end Sys2Proof.Machine
end

section
/-! The absolute sensor (R184 to R187, R189): how a transfer starts, and what its reading does. -/

namespace Sys2Proof.Machine

/-! ### A transfer starts (R184, R185) -/

/-- A change of the SSI port. -/
def State.updSsi (s : State) (f : Ssi → Ssi) : State := { s with mer := { s.mer with ssi := f s.mer.ssi } }

theorem State.updSsi_onlyIn (s : State) (f : Ssi → Ssi) : s.onlyIn (s.updSsi f) [.mer] := s.withMer_onlyIn _

/-- The SSI port of a block that starts a transfer now. -/
def State.ssiBegun (s : State) (x : Ssi) : Ssi :=
  { x with busy := true, until' := s.clock + s.ssiLength + s.get .MER_SSI_TIMING_tm * 1000, held := false, startPos := s.mer.pos,
           startAt := s.clock }

section
variable {s : State} (enabled : s.on .MER_SSI_CTRL_en = true)
include enabled

theorem State.ssiAsk_starts (idle : s.ssiBusy = false) : s.ssiAsk = (s.updSsi s.ssiBegun).emit (.ssiClock s.ssiEdges) := by
  unfold State.ssiAsk
  rw [enabled, idle]
  rfl

theorem State.ssiAsk_holds (busy : s.ssiBusy = true) : s.ssiAsk = s.updSsi fun x => { x with held := true } := by
  unfold State.ssiAsk
  rw [enabled, busy]
  rfl

end

theorem State.ssiStarts_onlyIn (s : State) : s.onlyIn ((s.updSsi s.ssiBegun).emit (.ssiClock s.ssiEdges)) [.mer, .out] :=
  (s.updSsi_onlyIn _).trans (State.emit_onlyIn _ _)

/-- SSI_REQUEST asks for a transfer (R185). -/
theorem exec_ssiRequest_asks {s : State} (reaches : s.reaches (Reg.MER_SSI_CMD.addr 0 0 0) = true) (on : s.notStandbyPrinting = false) :
    exec .ssiRequest s = .next s.traffic.ssiAsk :=
  congrArg _ (State.gate_acts reaches (by simp [on]))

/-- SSI_PERIOD asks for a transfer, and the next period begins where this one ended (R185). -/
theorem exec_ssiPeriod_asks {s : State} {us : Nat} (period : us = s.get .MER_SSI_TIMING_period) (some' : us ≠ 0)
    (passed : s.elapsed s.mer.ssi.periodAt (us * 1000) = true) :
    exec .ssiPeriod s = .next (s.updSsi fun x => { x with periodAt := x.periodAt + us * 1000 }).ssiAsk := by
  subst period
  exact if_pos ⟨some', passed⟩

/-! ### A reading (R184, R186, R187) -/

/-- The transfer has ended. -/
def State.ssiTaken (s : State) : State := s.updSsi fun x => { x with busy := false }

/-- A reading fails: it is counted, and raised with its word (R186). -/
def State.ssiFailed (s : State) (raw : Nat) : State := (s.count .MER_SSI_FAIL_CNT).raise .merSsiFail (BitVec.ofNat 32 raw)

/-- The word of a good reading is shown, and its instant reaches the latch units that select it. -/
def State.ssiShown (s : State) (w : Nat) : State :=
  (s.updSsi fun x => { x with raw := w }).triggerLatches 20 (s.mer.ssi.startPos.extractLsb' 16 48) (BitVec.ofNat 32 s.mer.ssi.startAt)

/-- What a good reading does with its position: a pending load takes it, else the slip check does (R187, R189). -/
def State.ssiUsed (s : State) (p : Pos) : State :=
  if s.mer.ssi.loadPending && !s.notStandby then
    (s.loadPos ((p.setWidth 64 <<< 16) + (s.mer.pos - s.mer.ssi.startPos))).updSsi fun x => { x with loadPending := false }
  else s.ssiCheck p

section
variable {s : State} {init : Bool} {edges : List (Nat × Bool)} {n : Nat} {par zero odd fail : Bool} {sample : Nat → Bool} {raw w : Nat}
  {pos : Pos} (bits : n = s.get .MER_SSI_CTRL_bits) (parity : par = s.on .MER_SSI_CTRL_parity) (check : zero = s.on .MER_SSI_CTRL_zero_chk)
  (busy : s.mer.ssi.busy = true) (whole : zero = true → s.mer.ssi.until' ≤ s.clock)
  (taken : zero = false → s.elapsed s.mer.ssi.startAt s.ssiLength = true)
  (samples : ∀ i, sample i = ssiLevel init edges (i * s.ssiPeriodNs + s.ssiDelay))
  (word : raw = (List.range n).foldl (fun w i => 2 * w + (sample (i + 1)).toNat) 0)
  (ones : odd = decide (((List.range (n + par.toNat)).filter fun i => sample (i + 1)).length % 2 = 1))
  (ends : fail = (sample (n + par.toNat + 1) || !ssiLevel init edges (s.ssiLength + s.get .MER_SSI_TIMING_tm * 1000)))
  (binary : w = if s.on .MER_SSI_CTRL_gray then grayToBinary n raw else raw)
  (scaled : pos = BitVec.ofNat 48 (w * (s.rd .MER_SSI_SCALE).toNat / 65536) + ((s.rd .MER_SSI_OFS_HI).setWidth 16 ++ s.rd .MER_SSI_OFS_LO))
include bits parity check busy whole taken samples word ones ends binary scaled

/-- A reading whose last sample is taken is judged by its parity and by the level behind the word. -/
theorem exec_ssiReading_eq : exec (.ssiReading init edges) s =
    .next (if (par && odd) || (zero && fail) then s.ssiTaken.ssiFailed raw else (s.ssiTaken.ssiShown w).ssiUsed pos) := by
  obtain rfl : sample = fun i => ssiLevel init edges (i * s.ssiPeriodNs + s.ssiDelay) := funext samples
  have due : ¬ ((!s.mer.ssi.busy) = true ∨
      (if zero then decide (s.clock < s.mer.ssi.until') else !s.elapsed s.mer.ssi.startAt s.ssiLength) = true) := by
    cases zero with
    | true => simpa [busy] using whole rfl
    | false => simp [busy, taken rfl]
  have late : fail = !(!ssiLevel init edges ((n + par.toNat + 1) * s.ssiPeriodNs + s.ssiDelay) &&
      ssiLevel init edges (s.ssiLength + s.get .MER_SSI_TIMING_tm * 1000)) := by
    rw [ends, Bool.not_and, Bool.not_not]
  subst bits parity check word ones late binary scaled
  rw [apply_ite Host.Outcome.next, State.ssiUsed, apply_ite Host.Outcome.next]
  exact if_neg due
end

section
variable (s : State)

theorem State.ssiFailed_touches (raw : Nat) : s.touches (s.ssiFailed raw) [.regs, .ltn] [Reg.MER_SSI_FAIL_CNT.addr 0 0 0] :=
  ((s.count_touches .MER_SSI_FAIL_CNT 0 0 0 1).trans (State.raise_onlyIn _ _ _ _ _ _ _).touches).mono (by decide) (List.Subset.refl _)

theorem State.ssiFailed_counted (raw : Nat) (sorted : s.regs.sorted = true) : s.counted (s.ssiFailed raw) .MER_SSI_FAIL_CNT :=
  State.counted_count (s := s) .MER_SSI_FAIL_CNT 0 sorted (by decide) (by decide)

/-- What a reading that fails changes, of the state before it. -/
theorem State.ssiFailed_effect (raw : Nat) (sound : s.sound) :
    (s.ssiTaken.ssiFailed raw).mer = { s.mer with ssi := { s.mer.ssi with busy := false } } ∧
    s.counted (s.ssiTaken.ssiFailed raw) .MER_SSI_FAIL_CNT ∧
    s.raised (s.ssiTaken.ssiFailed raw) .merSsiFail 2 0xFF 0xFF 12 (BitVec.ofNat 32 raw) ∧
    s.touches (s.ssiTaken.ssiFailed raw) [.mer, .ltn, .regs] [Reg.MER_SSI_FAIL_CNT.addr 0 0 0] := by
  have counts := s.ssiTaken.ssiFailed_counted raw (State.sound_regs sound)
  have taken : s.onlyIn s.ssiTaken [.mer] := s.updSsi_onlyIn _
  exact ⟨rfl, counts.around rfl rfl, rfl, (taken.touches.trans (s.ssiTaken.ssiFailed_touches raw)).mono⟩

theorem State.ssiShown_onlyIn (w : Nat) : s.onlyIn (s.ssiTaken.ssiShown w) [.mer] := s.withMer_onlyIn _

variable {s} {p : Pos} {w : Nat}

/-- With no load pending in STANDBY, a good reading goes to the slip check. -/
theorem State.ssiUsed_checks (kept : s.mer.ssi.loadPending = true → s.notStandby = true) : s.ssiUsed p = s.ssiCheck p := by
  refine if_neg ?_
  cases pending : s.mer.ssi.loadPending with
  | false => simp
  | true => simp [kept pending]

section
variable (kept : s.mer.ssi.loadPending = true → s.notStandby = true)
include kept

theorem State.ssiShown_used (off : s.on .MER_SLIP_CTRL_ssi_chk = false) :
    (s.ssiTaken.ssiShown w).ssiUsed p = s.ssiTaken.ssiShown w := by
  have off' : (s.ssiTaken.ssiShown w).on .MER_SLIP_CTRL_ssi_chk = false := off
  rw [State.ssiUsed_checks (s := s.ssiTaken.ssiShown w) kept, State.ssiCheck, off']
  rfl

/-- The first reading under the SSI check is the reference of those behind it (R189). -/
theorem State.ssiShown_reference (on : s.on .MER_SLIP_CTRL_ssi_chk = true) (first : s.mer.ssi.dref = none) :
    (s.ssiTaken.ssiShown w).ssiUsed p =
    (s.ssiTaken.ssiShown w).updSsi fun x => { x with dref := some (sdiff p (s.mer.ssi.startPos.extractLsb' 16 48)) } := by
  have on' : (s.ssiTaken.ssiShown w).on .MER_SLIP_CTRL_ssi_chk = true := on
  have first' : (s.ssiTaken.ssiShown w).mer.ssi.dref = none := first
  rw [State.ssiUsed_checks (s := s.ssiTaken.ssiShown w) kept, State.ssiCheck, on', first']
  rfl

end

/-- A pending load takes the position of a good reading, moved by what the web has travelled since the start (R187). -/
theorem State.ssiShown_loads (pending : s.mer.ssi.loadPending = true) (standby : s.notStandby = false) :
    (s.ssiTaken.ssiShown w).ssiUsed p =
    ((s.ssiTaken.ssiShown w).loadPos ((p.setWidth 64 <<< 16) + (s.mer.pos - s.mer.ssi.startPos))).updSsi
      fun x => { x with loadPending := false } := by
  have load : ((s.ssiTaken.ssiShown w).mer.ssi.loadPending && !(s.ssiTaken.ssiShown w).notStandby) = true := by
    have pending' : (s.ssiTaken.ssiShown w).mer.ssi.loadPending = true := pending
    have standby' : (s.ssiTaken.ssiShown w).notStandby = false := standby
    rw [pending', standby']
    rfl
  rw [State.ssiUsed, if_pos load]
  rfl

end

theorem ssiBad_iff {par odd zero fail : Bool}  : ((par && odd) || (zero && fail)) = true ↔
    (par = true ∧ odd = true) ∨ (zero = true ∧ fail = true) := by
  simp

theorem ssiGood_iff {par odd zero fail : Bool} : ¬ ((par && odd) || (zero && fail)) = true ↔
    (par = false ∨ odd = false) ∧ (zero = false ∨ fail = false) := by
  simp only [ssiBad_iff, not_or, not_and_or, Bool.not_eq_true]

/-! ### Position and slip commands (R177, R187 to R189) -/

/-- What an accepted write of MER_POS_CMD does (R177, R187, R189). -/
def State.posCmd (s : State) (v : Word) : State :=
  let s := if v.getLsbD 2 then s.updSsi fun x => { x with dref := none } else s
  let s := if v.getLsbD 1 then s.updSsi fun x => { x with loadPending := true } else s
  if v.getLsbD 0 then s.loadPos (((s.rd .MER_POS_SET_HI).setWidth 16 ++ s.rd .MER_POS_SET_LO).setWidth 64 <<< 16) else s

theorem State.posCmd_now (s : State) : s.posCmd 1 =
    s.loadPos (((s.rd .MER_POS_SET_HI).setWidth 16 ++ s.rd .MER_POS_SET_LO).setWidth 64 <<< 16) := by
  simp [State.posCmd]

theorem State.posCmd_ssi (s : State) : s.posCmd 2 = s.updSsi fun x => { x with loadPending := true } := by
  simp [State.posCmd]

theorem State.posCmd_rebase (s : State) : s.posCmd 4 = s.updSsi fun x => { x with dref := none } := by
  simp [State.posCmd]

/-- A load is accepted in STANDBY, a write that only rebases in PRINTING too. -/
theorem State.writePosCmd_acts {s : State} {v : Word} (reaches : s.reaches (Reg.MER_POS_CMD.addr 0 0 0) = true)
    (on : (s.notStandbyPrinting || (s.notStandby && (v.getLsbD 0 || v.getLsbD 1))) = false) : s.writePosCmd v = s.traffic.posCmd v :=
  State.gate_acts (act := fun s => s.posCmd v) reaches (by rw [on]; rfl)

theorem State.loads_standby {s : State} (standby : s.dev.dev = .standby) (load : Bool) :
    (s.notStandbyPrinting || (s.notStandby && load)) = false := by
  simp [State.notStandby, State.notStandbyPrinting, State.devIn, standby]

theorem State.loadPos_encs (s : State) (x : BitVec 64) : (s.loadPos x).mer.encs = s.mer.encs := rfl

theorem State.loadPos_onlyIn (s : State) (x : BitVec 64) : s.onlyIn (s.loadPos x) [.mer] := s.withMer_onlyIn _

/-- ENC0 has travelled the slip window: the next one starts (R188). -/
def State.slipNext (s : State) : State := { s with mer := { s.mer with slipStart := s.mer.pos, slipAux := s.mer.aux } }

/-- SLIP_WINDOW_END starts the next window, and judges the difference of the two encoders (R188). -/
theorem exec_slipWindowEnd_ends {s : State} {d0 d1 : Int} (travel0 : d0 = (s.mer.pos - s.mer.slipStart).toInt)
    (travel1 : d1 = (s.mer.aux - s.mer.slipAux).toInt) (on : s.on .MER_SLIP_CTRL_enc_chk = true)
    (whole : s.get .MER_SLIP_CTRL_window * 16384 * 65536 ≤ d0.natAbs) : exec .slipWindowEnd s =
    .next (if s.get .MER_SLIP_CTRL_tol * 65536 < (d1 - d0).natAbs then s.slipNext.slip 0 ((d1 - d0) / 65536) else s.slipNext) := by
  subst travel0 travel1
  refine if_neg ?_
  rw [on]
  simpa using whole

theorem State.slip_touches (s : State) (chk : Nat) (d : Int) : s.touches (s.slip chk d) [.regs, .ltn] [Reg.MER_SLIP_CNT.addr 0 0 0] :=
  ((s.count_touches .MER_SLIP_CNT 0 0 0 1).trans (State.raise_onlyIn _ _ _ _ _ _ _).touches).mono (by decide) (List.Subset.refl _)

end Sys2Proof.Machine
end

section
/-! The obligation about the absolute sensor, the position commands and the slip check (R177, R184 to R189). -/

namespace Sys2Proof.Machine

/-- Settles O21: a request that starts or waits, a reading that fails, is shown or is loaded, and a slip window within the tolerance or
beyond it. -/
theorem positionCommandsComplete : Obligations.PositionCommandsComplete := by
  unfold Obligations.PositionCommandsComplete
  intro s sound
  refine ⟨fun enabled at' us period next => ⟨fun reaches on => ⟨fun idle => ?request, fun busy => ?requestHeld⟩,
    fun some' passed => ⟨fun idle => ?period, fun busy => ?periodHeld⟩⟩, fun enabled held idle => ?heldStart,
    ?reading, ?position, ?slip⟩
  case request =>
    have starts : s.traffic.ssiAsk = _ := State.ssiAsk_starts enabled idle
    exact ⟨_, (exec_ssiRequest_asks reaches on).trans (congrArg Host.Outcome.next starts), rfl, rfl,
      (s.traffic_onlyIn.trans s.traffic.ssiStarts_onlyIn).mono (by decide)⟩
  case requestHeld =>
    have holds : s.traffic.ssiAsk = _ := State.ssiAsk_holds enabled busy
    exact ⟨_, (exec_ssiRequest_asks reaches on).trans (congrArg Host.Outcome.next holds), rfl,
      (s.traffic_onlyIn.trans (State.updSsi_onlyIn _ _)).mono (by decide)⟩
  case period =>
    subst next
    have starts : (s.updSsi fun x => { x with periodAt := x.periodAt + us * 1000 }).ssiAsk = _ := State.ssiAsk_starts enabled idle
    exact ⟨_, (exec_ssiPeriod_asks period some' passed).trans (congrArg Host.Outcome.next starts), rfl, rfl,
      ((s.updSsi_onlyIn _).trans (State.ssiStarts_onlyIn _)).mono (by decide)⟩
  case periodHeld =>
    subst next
    have holds : (s.updSsi fun x => { x with periodAt := x.periodAt + us * 1000 }).ssiAsk = _ := State.ssiAsk_holds enabled busy
    exact ⟨_, (exec_ssiPeriod_asks period some' passed).trans (congrArg Host.Outcome.next holds), rfl,
      ((s.updSsi_onlyIn _).trans (State.updSsi_onlyIn _ _)).mono (by decide)⟩
  case heldStart =>
    have due : (s.mer.ssi.held && !s.ssiBusy) = true := by rw [held, idle]; rfl
    have asks : exec .ssiHeldStart s = .next s.ssiAsk := if_pos due
    exact ⟨_, asks.trans (congrArg Host.Outcome.next (State.ssiAsk_starts enabled idle)), rfl, rfl, s.ssiStarts_onlyIn⟩
  case reading =>
    intro init edges n par zero odd fail sample raw w pos bits parity check busy whole taken samples word ones ends binary scaled
    have reads := exec_ssiReading_eq bits parity check busy whole taken samples word ones ends binary scaled
    refine ⟨fun bad => ?failed, fun even high kept => ⟨fun off => ?shown, fun on first => ?referenced⟩,
      fun even high pending standby => ?loaded⟩
    case failed =>
      obtain ⟨mer, counted, raised, frame, regs⟩ := s.ssiFailed_effect raw sound
      exact ⟨_, reads.trans (congrArg Host.Outcome.next (if_pos (ssiBad_iff.mpr bad))), mer, counted, raised, regs, frame⟩
    all_goals have good := reads.trans (congrArg Host.Outcome.next (if_neg (ssiGood_iff.mpr ⟨even, high⟩)))
    case shown =>
      exact ⟨_, good.trans (congrArg Host.Outcome.next (State.ssiShown_used kept off)), rfl, rfl, s.ssiShown_onlyIn w⟩
    case referenced =>
      exact ⟨_, good.trans (congrArg Host.Outcome.next (State.ssiShown_reference kept on first)), rfl, rfl,
        ((s.ssiShown_onlyIn w).trans (State.updSsi_onlyIn _ _)).mono (by decide)⟩
    case loaded =>
      refine ⟨_, good.trans (congrArg Host.Outcome.next (State.ssiShown_loads pending standby)),
        rfl, rfl, rfl, rfl, rfl, rfl, rfl, rfl, ?_⟩
      exact (((s.ssiShown_onlyIn w).trans (State.loadPos_onlyIn _ _)).trans (State.updSsi_onlyIn _ _)).mono (by decide)
  case position =>
    intro reaches
    refine ⟨fun standby => ?_, fun standby => ?_, fun on => ?_⟩
    · have acts := (State.writePosCmd_acts (v := 1) reaches (State.loads_standby standby _)).trans (State.posCmd_now _)
      exact ⟨_, congrArg Host.Outcome.next acts, rfl, rfl, rfl, rfl, rfl, s.traffic.loadPos_encs _,
        (s.traffic_onlyIn.trans (State.loadPos_onlyIn _ _)).mono (by decide)⟩
    · have acts := (State.writePosCmd_acts (v := 2) reaches (State.loads_standby standby _)).trans (State.posCmd_ssi _)
      exact ⟨_, congrArg Host.Outcome.next acts, rfl, (s.traffic_onlyIn.trans (State.updSsi_onlyIn _ _)).mono (by decide)⟩
    · have acts := (State.writePosCmd_acts (v := 4) reaches (by simp [on])).trans (State.posCmd_rebase _)
      exact ⟨_, congrArg Host.Outcome.next acts, rfl, (s.traffic_onlyIn.trans (State.updSsi_onlyIn _ _)).mono (by decide)⟩
  case slip =>
    intro d0 d1 travel0 travel1 on whole
    have next : s.onlyIn s.slipNext [.mer] := s.withMer_onlyIn _
    have judged := exec_slipWindowEnd_ends travel0 travel1 on whole
    by_cases beyond : s.get .MER_SLIP_CTRL_tol * 65536 < (d1 - d0).natAbs
    · obtain ⟨frame, regs⟩ := next.touches.trans (s.slipNext.slip_touches 0 ((d1 - d0) / 65536))
      refine ⟨_, judged.trans (congrArg Host.Outcome.next (if_pos beyond)), rfl,
        fun within => absurd beyond (Nat.not_lt.mpr within), fun _ => ⟨?_, rfl, regs, frame.mono (by decide)⟩⟩
      exact State.counted_count (s := s.slipNext) .MER_SLIP_CNT 0 (State.sound_regs sound) (by decide) (by decide)
    · exact ⟨_, judged.trans (congrArg Host.Outcome.next (if_neg beyond)), rfl, fun _ => next,
        fun beyond' => absurd beyond' beyond⟩

end Sys2Proof.Machine
end

section
/-! An EVENT record posted (R364, R384): a ring of the host interface takes it or drops it, and no register from the raster store on, nor
any unit of Meridian, changes. -/

namespace Sys2Proof.Machine

/-- From `s` to `t` the host interface serves its rings: no register at or above 0x60000 changes, and no unit but those that a ring's
stop takes descriptors from (R360). -/
def State.ringsServed (s t : State) : Prop :=
  s.onlyIn t [.regs, .hst, .pcie, .out, .ltn, .waits, .lmp, .tim] ∧ ∀ off, 0x60000 ≤ off → t.regs.find? off = s.regs.find? off

theorem State.ringsServed.refl (s : State) : s.ringsServed s := ⟨.refl s _, fun _ _ => rfl⟩

theorem State.ringsServed.trans {s t u : State} (h : s.ringsServed t) (h' : t.ringsServed u) : s.ringsServed u :=
  ⟨(h.1.trans h'.1).mono (by simp), fun off far => (h'.2 off far).trans (h.2 off far)⟩

theorem State.touches.served {s t : State} {l : List Part} {offs : List Nat} (h : s.touches t l offs)
    (near : ∀ off ∈ offs, off < 0x60000) (parts : l ⊆ [.regs, .hst, .pcie, .out, .ltn, .waits, .lmp, .tim] := by decide) :
    s.ringsServed t :=
  ⟨h.1.mono parts, fun off far => (h.2 off).resolve_left fun mem => Nat.not_le.mpr (near off mem) far⟩

theorem State.onlyIn.served {s t : State} {l : List Part} (h : s.onlyIn t l)
    (parts : l ⊆ [.hst, .pcie, .out, .ltn, .waits, .lmp, .tim] := by decide) : s.ringsServed t :=
  ⟨h.mono fun _ mem => List.mem_cons_of_mem _ (parts mem), fun off _ => h.same .regs (fun mem => absurd (parts mem) (by decide)) off⟩

theorem State.ringsServed_ite {s t u : State} (c : Prop) [Decidable c] (h : s.ringsServed t) (h' : s.ringsServed u) :
    s.ringsServed (if c then t else u) := by
  split
  · exact h
  · exact h'

theorem State.ringsServed.rd {s t : State} (h : s.ringsServed t) (r : Reg) (i j k : Nat) (far : 0x60000 ≤ r.addr i j k) :
    t.rd r i j k = s.rd r i j k := by
  unfold State.rd SMap.get
  rw [h.2 _ far]

theorem field_lt (w : Word) (hi lo : Nat) : field w hi lo < 2 ^ (hi + 1 - lo) := Nat.mod_lt _ (Nat.two_pow_pos _)

section
variable (s : State) (r : Nat)

theorem State.updRing_onlyIn (f : Ring → Ring) : s.onlyIn (s.updRing r f) [.hst] := by
  intro x; cases x <;> simp [Part.same, State.updRing]

theorem State.windowFault_served (a action : Nat) : s.ringsServed (s.windowFault r a action) :=
  ((s.count_touches .HST_WINDOW_CNT 0 0 0 1).served (by decide)).trans (State.raise_onlyIn _ _ _ _ _ _ _).served

theorem State.writeStatus_served : s.ringsServed (s.writeStatus r) := by
  have marked : s.ringsServed (s.updRing r fun g => { g with dirty := false }) := (s.updRing_onlyIn r _).served
  exact State.ringsServed_ite _ marked (State.ringsServed_ite _ (marked.trans (State.hostWrite_onlyIn _ _ _ _).served)
    (marked.trans (State.windowFault_served _ r _ 9)))

theorem State.signalRing_served : s.ringsServed (s.signalRing r) := by
  have status : s.ringsServed (if (s.ring r).dirty then s.writeStatus r else s) :=
    State.ringsServed_ite _ (s.writeStatus_served r) (.refl s)
  refine (status.trans (State.updRing_onlyIn _ r _).served).trans ((State.msix_touches _ _ _).served ?_)
  have vector : State.get (if (s.ring r).dirty then s.writeStatus r else s) .HST_RING_IRQ_vector r < 2 ^ 6 := field_lt _ 5 0
  simp only [Reg.addr, Reg.HST_MSIX_PBA, List.mem_singleton, forall_eq]
  omega

theorem State.pushEntry_served (entry : Bytes) (irq : Bool) : s.ringsServed (s.pushEntry r entry irq) := by
  have writes (f : Ring → Ring) : s.ringsServed ((s.hostWrite (s.ringBase r + s.entrySize r * (s.ring r).dev) entry).updRing r f) :=
    ((s.hostWrite_onlyIn _ entry false).trans (State.updRing_onlyIn _ r f)).served
  exact State.ringsServed_ite _ ((writes _).trans (State.signalRing_served _ r)) (writes _)

theorem State.abortNotBegun_served : s.ringsServed (s.abortNotBegun r) := by
  have drops (w : List WaitLoad) (l : Lamplighter) (t : TimeBlock) :
      s.onlyIn { s with waits := w, lmp := l, tim := t } [.waits, .lmp, .tim] := by
    intro x; cases x <;> simp [Part.same]
  exact ((drops _ _ _).trans (State.each_onlyIn (fun u c => u.complete_onlyIn c .aborted 0) _ _)).served

theorem State.stopRing_served (a : Nat) : s.ringsServed (s.stopRing r a) :=
  ((s.updRing_onlyIn r _).served.trans (State.windowFault_served _ r a 15)).trans (State.abortNotBegun_served _ r)

end

theorem State.postEvent_served (s : State) (en ringF : Fld) (kind : Nat) (body : Bytes) (narrow : ringF.hi + 1 - ringF.lo ≤ 6) :
    s.ringsServed (s.postEvent en ringF kind body).1 := by
  have ring : s.get ringF < 2 ^ 6 := Nat.lt_of_lt_of_le (field_lt _ _ _) (Nat.pow_le_pow_right (by decide) narrow)
  have near : Reg.HST_RING_DROP_CNT.addr (s.get ringF) 0 0 < 0x60000 := by
    simp only [Reg.addr, Reg.HST_RING_DROP_CNT]
    omega
  have drops := ((s.count_touches .HST_RING_DROP_CNT (s.get ringF) 0 0 1).trans
    (State.updRing_onlyIn _ (s.get ringF) fun g => { g with lost := g.lost + 1 }).touches).served
    (fun off mem => (List.mem_singleton.mp mem).trans_lt near)
  unfold State.postEvent
  dsimp only
  split
  next => exact (s.count_touches .HST_EVT_NOROUTE_CNT 0 0 0 1).served (by decide)
  next =>
    split
    next => exact drops
    next =>
      split
      next => exact (s.updRing_onlyIn _ _).served.trans (State.pushEntry_served _ _ _ _)
      next => exact drops.trans (State.stopRing_served _ _ _)

end Sys2Proof.Machine
end

section
/-! Latch units (R203, R204): how a unit takes a result, and the samples of a LATCH_IN land. -/

namespace Sys2Proof.Machine

/-! ### Fields of a word stored (R13, R592) -/

/-- A field that takes what is written holds it. -/
theorem field_stored (r : Reg) (old v : Word) {hi lo : Nat}
    (takes : ∀ i < 32, lo ≤ i → i ≤ hi → (r.maskOf [.rw, .rws, .rwl]).getLsbD i = true := by decide)
    (top : hi < 32 := by decide) : field (r.stored old v) hi lo = field v hi lo := by
  refine Nat.eq_of_testBit_eq fun i => ?_
  rw [testBit_field, testBit_field]
  by_cases inside : i < hi + 1 - lo
  · have mask := takes (lo + i) (by omega) (by omega) (by omega)
    have bit : (r.stored old v).getLsbD (lo + i) = v.getLsbD (lo + i) := by simp [Reg.stored, mask]
    rw [BitVec.testBit_toNat, BitVec.testBit_toNat, bit]
  · simp [inside]

/-- A field in which no bit is set besides stays. -/
theorem field_or (w u : Word) {hi lo : Nat} (clear : ∀ i < 32, lo ≤ i → i ≤ hi → u.getLsbD i = false := by decide)
    (top : hi < 32 := by decide) : field (w ||| u) hi lo = field w hi lo := by
  refine Nat.eq_of_testBit_eq fun i => ?_
  rw [testBit_field, testBit_field]
  by_cases inside : i < hi + 1 - lo
  · have bit : (w ||| u).getLsbD (lo + i) = w.getLsbD (lo + i) := by simp [clear (lo + i) (by omega) (by omega) (by omega)]
    rw [BitVec.testBit_toNat, BitVec.testBit_toNat, bit]
  · simp [inside]

/-- A field of a register just stored. -/
theorem State.get_store {s : State} (sorted : s.regs.sorted = true) (f : Fld) (v : Word) (i j k : Nat) :
    (s.store f.reg v i j k).get f i j k = field (f.reg.stored (s.rd f.reg i j k) v) f.hi f.lo := by
  unfold State.get State.store
  rw [State.rd_wr_same _ _ _ _ _ _ sorted]

/-! ### A unit takes a result (R204) -/

/-- A latch unit queues a result, or drops and counts it. -/
def State.latchQueued (s : State) (n : Nat) (x : LatchResult) : State :=
  if (s.mer.latches.getD n []).length < 4 then { s with mer := { s.mer with latches := upd n (fun q => q ++ [x]) s.mer.latches } }
  else s.count .MER_LATCH_STATUS_ovf n

section
variable (s : State) (n : Nat) (x : LatchResult)

theorem State.latchQueued_touches : s.touches (s.latchQueued n x) [.mer, .regs] [Reg.MER_LATCH_STATUS.addr n 0 0] := by
  unfold State.latchQueued
  split
  next => exact (s.withMer_onlyIn _).touches.mono
  next => exact (s.count_touches .MER_LATCH_STATUS_ovf n 0 0 1).mono (by decide) (List.Subset.refl _)

theorem State.latchResult_served : (s.latchQueued n x).ringsServed (s.latchResult n x) :=
  State.ringsServed_ite _ (State.postEvent_served _ _ _ _ _ (by decide)) (.refl _)

/-- Posting a result changes nothing of Meridian. -/
theorem State.latchResult_mer : (s.latchResult n x).mer = (s.latchQueued n x).mer := (s.latchResult_served n x).1.same .mer

/-- A unit that does not post its results queues or drops them. -/
theorem State.latchResult_quiet (quiet : s.on .MER_LATCH_CTRL_event n = false) : s.latchResult n x = s.latchQueued n x := by
  have still : (s.latchQueued n x).on .MER_LATCH_CTRL_event n = false := by
    unfold State.on at quiet ⊢
    rw [(s.latchQueued_touches n x).2.get .MER_LATCH_CTRL_event n 0 0]
    · exact quiet
    · simp [Reg.addr, Fld.MER_LATCH_CTRL_event, Reg.MER_LATCH_CTRL, Reg.MER_LATCH_STATUS]
  exact if_neg (Bool.eq_false_iff.mp still)

variable {s n}

theorem State.latchQueued_room (room : (s.mer.latches.getD n []).length < 4) :
    s.latchQueued n x = { s with mer := { s.mer with latches := upd n (fun q => q ++ [x]) s.mer.latches } } := if_pos room

theorem State.latchQueued_full (full : 4 ≤ (s.mer.latches.getD n []).length) : s.latchQueued n x = s.count .MER_LATCH_STATUS_ovf n :=
  if_neg (Nat.not_lt.mpr full)

/-- The queues of the units, where the unit's has room or not. -/
theorem State.latchResult_room (room : (s.mer.latches.getD n []).length < 4) :
    (s.latchResult n x).mer = { s.mer with latches := upd n (fun q => q ++ [x]) s.mer.latches } := by
  rw [State.latchResult_mer, State.latchQueued_room x room]

theorem State.latchResult_full (full : 4 ≤ (s.mer.latches.getD n []).length) : (s.latchResult n x).mer = s.mer := by
  rw [State.latchResult_mer, State.latchQueued_full x full]
  rfl

/-- A result of one unit changes the queue of that unit alone. -/
theorem State.latchResult_others : ∃ f, (s.latchResult n x).mer = { s.mer with latches := upd n f s.mer.latches } := by
  by_cases room : (s.mer.latches.getD n []).length < 4
  · exact ⟨_, State.latchResult_room x room⟩
  · exact ⟨id, by rw [State.latchResult_full x (Nat.not_lt.mp room), upd_id]⟩

theorem State.latchResult_latches_ne {k : Nat} (other : k ≠ n) :
    (s.latchResult n x).mer.latches.getD k [] = s.mer.latches.getD k [] := by
  obtain ⟨f, queues⟩ := State.latchResult_others (s := s) (n := n) x
  rw [queues]
  exact getD_upd_ne other

/-- What selects a unit's trigger stays (R203, R205). -/
theorem State.latchResult_latchTrig (s : State) (n : Nat) (x : LatchResult) : (s.latchResult n x).latchTrig n = s.latchTrig n := by
  have served := s.latchResult_served n x
  have queued := (s.latchQueued_touches n x).2
  have ctrl : (s.latchResult n x).rd .MER_LATCH_CTRL n = s.rd .MER_LATCH_CTRL n := by
    rw [served.rd .MER_LATCH_CTRL n 0 0 (by simp [Reg.addr, Reg.MER_LATCH_CTRL]; omega), queued.rd .MER_LATCH_CTRL n 0 0]
    simp [Reg.addr, Reg.MER_LATCH_CTRL, Reg.MER_LATCH_STATUS]
  have camera : (s.latchResult n x).rd .PHO_CTRL (n - 4) = s.rd .PHO_CTRL (n - 4) := by
    rw [served.rd .PHO_CTRL (n - 4) 0 0 (by simp [Reg.addr, Reg.PHO_CTRL]; omega), queued.rd .PHO_CTRL (n - 4) 0 0]
    simp [Reg.addr, Reg.PHO_CTRL, Reg.MER_LATCH_STATUS]
    omega
  have enabled : (s.latchResult n x).cameraOn (n - 4) = s.cameraOn (n - 4) :=
    congrArg (fun w => decide (n - 4 < 4) && field w 31 31 != 0) camera
  have on : (s.latchResult n x).on .MER_LATCH_CTRL_en n = s.on .MER_LATCH_CTRL_en n := congrArg (fun w => field w 31 31 != 0) ctrl
  have trig : (s.latchResult n x).get .MER_LATCH_CTRL_trig n = s.get .MER_LATCH_CTRL_trig n := congrArg (fun w => field w 4 0) ctrl
  unfold State.latchTrig
  rw [enabled, on, trig]

end

/-! ### LATCH_TRIGGER (R203, R204) -/

/-- The oldest trigger due to a unit is taken. -/
def State.dueTaken (s : State) (n : Nat) (rest : List LatchResult) : State :=
  { s with mer := { s.mer with latchDue := upd n (fun _ => rest) s.mer.latchDue } }

/-- A unit has taken samples of the land that it selects. -/
def State.latchTook (s : State) (n : Nat) (l : Land) : State :=
  { s with mer := { s.mer with latchIn := upd n (fun _ => l) s.mer.latchIn } }

section
variable {s : State} {n : Nat} {level : Bool} {held : Nat} {t' : Time} (inside : n < 8)
include inside

/-- A unit that selects no LATCH_IN land records the oldest trigger due to it. -/
theorem exec_latchTrigger_due {x : LatchResult} {rest : List LatchResult} (due : s.mer.latchDue.getD n [] = x :: rest)
    (inner : ∀ k, s.latchTrig n = some k → 4 ≤ k) :
    exec (.latchTrigger n level held t') s = .next ((s.dueTaken n rest).latchResult n x) := by
  have takes : s.latchDueResult n = (s.dueTaken n rest).latchResult n x := by
    unfold State.latchDueResult
    rw [due]
    rfl
  have trig : (s.latchDueResult n).latchTrig n = s.latchTrig n := by
    rw [takes]
    exact State.latchResult_latchTrig (s.dueTaken n rest) n x
  show execLatchTrigger n level held t' s = _
  unfold execLatchTrigger
  rw [if_neg (Nat.not_le.mpr inside)]
  dsimp only
  rw [trig, takes]
  split
  next k chosen => rw [if_neg (Nat.not_lt.mpr (inner k chosen))]
  next => rfl

/-- A unit that selects a LATCH_IN land, and has no trigger due, takes samples of it. -/
theorem exec_latchTrigger_samples {k : Nat} (none : s.mer.latchDue.getD n [] = []) (trig : s.latchTrig n = some k) (outer : k < 4) :
    exec (.latchTrigger n level held t') s = .next (s.latchSamples n k level held t') := by
  have stays : s.latchDueResult n = s := by
    unfold State.latchDueResult
    rw [none]
  show execLatchTrigger n level held t' s = _
  unfold execLatchTrigger
  rw [if_neg (Nat.not_le.mpr inside)]
  dsimp only
  rw [stays, trig]
  exact congrArg Host.Outcome.next (if_pos outer)

end

/-- The samples that pass the filter as an edge of the kind selected are a result; others change the land alone. -/
theorem State.latchSamples_eq {s : State} {n k : Nat} {level : Bool} {held : Nat} {t' : Time} {l : Land} {pass : Bool}
    (takes : l = (s.mer.latchIn.getD n Land.reset).take level held t' s.pos)
    (passes : pass = l.passes (max 1 (s.get .MER_LATCH_CTRL_filt n))) :
    s.latchSamples n k level held t' = if pass then
      if s.latchEdge n level then (s.latchTook n l.pass).latchResult n ⟨k, l.pos, l.since⟩ else s.latchTook n l.pass
    else s.latchTook n l := by
  subst takes passes
  rfl

end Sys2Proof.Machine
end

section
/-! LATCH_SOFT, LATCH_RESULT_READ and GEOM_COMMIT (R193, R203, R204), and the obligation about the latch units and the bar geometry. -/

namespace Sys2Proof.Machine

/-! ### LATCH_SOFT (R203) -/

/-- The word by which LATCH_SOFT writes a unit's register: its own fields, with soft set. -/
def State.softWord (s : State) (n : Nat) : Word := s.rd .MER_LATCH_CTRL n ||| 0x40000000

section
variable {s : State} {n : Nat}

/-- A write that keeps the unit's fields stores them again. -/
theorem State.get_softStored (sorted : s.regs.sorted = true) (f : Fld) (reg : f.reg = .MER_LATCH_CTRL)
    (takes : ∀ i < 32, f.lo ≤ i → i ≤ f.hi → (Reg.MER_LATCH_CTRL.maskOf [.rw, .rws, .rwl]).getLsbD i = true := by decide)
    (beside : ∀ i < 32, f.lo ≤ i → i ≤ f.hi → (0x40000000 : Word).getLsbD i = false := by decide) (top : f.hi < 32 := by decide) :
    (s.traffic.store .MER_LATCH_CTRL (s.softWord n) n).get f n = s.get f n := by
  have stored := State.get_store (s := s.traffic) sorted f (s.softWord n) n 0 0
  rw [reg, field_stored .MER_LATCH_CTRL _ _ takes top] at stored
  rw [stored, State.softWord, field_or _ _ beside top]
  unfold State.get
  rw [reg]

/-- LATCH_SOFT of an enabled unit is a result at its present position and MONO (log 79). -/
theorem exec_latchSoft_takes (sound : s.sound) (inside : n < 8) (reaches : s.reaches (Reg.MER_LATCH_CTRL.addr n 0 0) = true)
    (on : s.notStandbyPrinting = false) (camera : 4 ≤ n → s.cameraOn (n - 4) = false) (enabled : s.on .MER_LATCH_CTRL_en n = true)
    (edge : s.get .MER_LATCH_CTRL_edge n ≠ 3) (known : trigKnown (s.get .MER_LATCH_CTRL_trig n) = true) :
    exec (.latchSoft n) s = .next ((s.traffic.store .MER_LATCH_CTRL (s.softWord n) n).latchResult n ⟨31, s.pos, s.mono⟩) := by
  have edge' : Fld.MER_LATCH_CTRL_edge.of (s.softWord n) = s.get .MER_LATCH_CTRL_edge n := field_or _ _
  have trig' : Fld.MER_LATCH_CTRL_trig.of (s.softWord n) = s.get .MER_LATCH_CTRL_trig n := field_or _ _
  have free : (decide (4 ≤ n) && s.cameraOn (n - 4)) = false := by
    by_cases h : 4 ≤ n
    · simp [camera h]
    · simp [h]
  have soft : (s.softWord n).getLsbD 30 = true := by simp [State.softWord]
  have enabled' : (s.traffic.store .MER_LATCH_CTRL (s.softWord n) n).on .MER_LATCH_CTRL_en n = true := by
    unfold State.on
    rw [State.get_softStored (State.sound_regs sound) .MER_LATCH_CTRL_en rfl]
    exact enabled
  refine (if_pos inside).trans (congrArg Host.Outcome.next ?_)
  show s.writeLatchCtrl n (s.softWord n) = _
  unfold State.writeLatchCtrl
  refine (State.gate_acts reaches (by simp [on, free, edge', trig', edge, known])).trans ?_
  dsimp only
  rw [soft, enabled']
  rfl

end

/-! ### GEOM_COMMIT (R193) -/

theorem State.refuse_dev (s : State) (off reason : Nat) : (s.refuse off reason).dev = s.dev := by
  simp [State.refuse, State.count]

section
variable (s : State) (c p : Nat)

theorem State.geomStatus_touches (x : Nat × Nat) : s.touches (s.geomStatus x) [.regs] [Reg.MER_GEOM_STATUS.addr 0 0 0] :=
  ((s.set_touches .MER_GEOM_STATUS_fail x.1 0 0 0).trans (State.set_touches _ .MER_GEOM_STATUS_port x.2 0 0 0)).mono (by decide)
    (by simp [Fld.MER_GEOM_STATUS_fail, Fld.MER_GEOM_STATUS_port])

variable {s c p}

theorem State.geomStatus_fail (sound : s.sound) (narrow : c < 8) : (s.geomStatus (c, p)).get .MER_GEOM_STATUS_fail = c := by
  have shown := State.set_sound s .MER_GEOM_STATUS_fail c 0 0 0 sound
  refine (State.get_set_ne .MER_GEOM_STATUS_port .MER_GEOM_STATUS_fail p 0 0 0 (State.sound_regs shown) rfl (by decide) (by decide)
    (.inl (by decide))).trans ?_
  exact (State.get_set_same .MER_GEOM_STATUS_fail c 0 0 0 (State.sound_regs sound) (by decide) (by decide)).trans (Nat.mod_eq_of_lt narrow)

theorem State.geomStatus_port (sound : s.sound) (narrow : p < 32) : (s.geomStatus (c, p)).get .MER_GEOM_STATUS_port = p := by
  have shown := State.set_sound s .MER_GEOM_STATUS_fail c 0 0 0 sound
  exact (State.get_set_same .MER_GEOM_STATUS_port p 0 0 0 (State.sound_regs shown) (by decide) (by decide)).trans (Nat.mod_eq_of_lt narrow)

variable (standby : s.dev.dev = .standby) (reaches : s.reaches (Reg.MER_GEOM_COMMIT.addr 0 0 0) = true)
include standby reaches

omit standby in
/-- The shadow registers are checked as they stand: no write waits ahead of the commit. -/
theorem State.geomFault_ahead : (s.ahead (Reg.MER_GEOM_COMMIT.addr 0 0 0)).geomFault (s.ahead (Reg.MER_GEOM_COMMIT.addr 0 0 0)).shadow =
    s.geomFault s.shadow := by
  obtain ⟨clk, ahead⟩ := State.ahead_of_reaches reaches
  rw [ahead]
  rfl

theorem exec_geomCommit_takes (idle : s.activePorts = []) (good : s.geomFault s.shadow = none) : exec .geomCommit s =
    .next (State.geomStatus { s.traffic with mer := { s.mer with geom := s.shadow } } (0, 0)) := by
  refine congrArg Host.Outcome.next (?_ : s.geomCommit = _)
  have sends (u : State) (ports : u.activePorts = s.activePorts) : u.each u.activePorts State.sendGeom = u := by
    rw [ports, idle]
    rfl
  unfold State.geomCommit
  dsimp only
  rw [State.geomFault_ahead reaches, good]
  rw [State.gate_acts reaches (by simp [State.notStandby, standby])]
  split
  next some' => exact absurd some' (by simp)
  next => exact sends _ rfl

theorem exec_geomCommit_refuses {x : Nat × Nat} (bad : s.geomFault s.shadow = some x) : exec .geomCommit s =
    .next ((s.traffic.refuse (Reg.MER_GEOM_COMMIT.addr 0 0 0) 3).geomStatus x) := by
  refine congrArg Host.Outcome.next (?_ : s.geomCommit = _)
  unfold State.geomCommit
  dsimp only
  rw [State.geomFault_ahead reaches, bad]
  rw [State.gate_refuses reaches (r := 3) (t := []) (by simp [State.notStandby, standby]), List.foldl_nil]
  generalize refused : s.traffic.refuse (Reg.MER_GEOM_COMMIT.addr 0 0 0) 3 = u
  have still : u.notStandby = false := by
    rw [← refused, State.notStandby, State.refuse_dev s.traffic, State.traffic_dev, standby]
    rfl
  rw [still]

end

end Sys2Proof.Machine
end

section
/-! The obligation about the latch units and the bar geometry (R193, R203, R204). -/

namespace Sys2Proof.Machine

section
variable {s : State} {n : Nat} (sound : s.sound) (inside : n < 8)
include sound inside

theorem State.latches_there : n < s.mer.latches.length := inside.trans_eq (State.sound_latches sound).symm

/-- A unit whose queue has room queues a result behind those there. -/
theorem State.latchResult_appends (x : LatchResult) (room : (s.mer.latches.getD n []).length < 4) :
    (s.latchResult n x).mer.latches.getD n [] = s.mer.latches.getD n [] ++ [x] := by
  rw [State.latchResult_room x room]
  exact getD_upd_same (State.latches_there sound inside)

end

/-- A unit that does not post its results queues one in Meridian alone. -/
theorem State.latchResult_onlyIn {s : State} {n : Nat} (x : LatchResult) (quiet : s.on .MER_LATCH_CTRL_event n = false)
    (room : (s.mer.latches.getD n []).length < 4) : s.onlyIn (s.latchResult n x) [.mer] := by
  rw [s.latchResult_quiet n x quiet, State.latchQueued_room x room]
  exact s.withMer_onlyIn _

/-- Settles O22: the trigger by where it comes from and by the room in the unit's queue, the soft latch by the fields that its write
keeps, and the commit by the checks of the shadow registers. -/
theorem latchCommandsComplete : Obligations.LatchCommandsComplete := by
  unfold Obligations.LatchCommandsComplete
  intro s n sound inside
  refine ⟨fun post posts => ⟨?due, ?samples, ?soft⟩, ?read, ?commit⟩
  case due =>
    intro x rest level held t' due inner
    have taken : s.onlyIn (s.dueTaken n rest) [.mer] := s.withMer_onlyIn _
    have soundD : (s.dueTaken n rest).sound := State.sound_set_mer sound ⟨rfl, rfl, length_upd _ _ _, rfl, rfl, rfl, rfl⟩
    obtain ⟨f, queues⟩ := State.latchResult_others (s := s.dueTaken n rest) (n := n) x
    refine ⟨_, exec_latchTrigger_due inside due inner, ?_, fun m other => State.latchResult_latches_ne (s := s.dueTaken n rest) x other,
      ?_, ?_, fun room => ⟨?_, fun quiet => ?_⟩, fun full => ⟨?_, fun quiet => ?_⟩⟩
    · rw [queues]
      exact getD_upd_same (inside.trans_eq (State.sound_latchDue sound).symm)
    · rw [queues]
      rfl
    · rw [queues]
      rfl
    · exact State.latchResult_appends soundD inside x room
    · exact (taken.trans (State.latchResult_onlyIn x (posts.symm.trans quiet) room)).mono (by decide)
    · rw [State.latchResult_full (s := s.dueTaken n rest) x full]
      rfl
    · have drops : (s.dueTaken n rest).latchResult n x = (s.dueTaken n rest).count .MER_LATCH_STATUS_ovf n :=
        (State.latchResult_quiet (s.dueTaken n rest) n x (posts.symm.trans quiet)).trans
          (State.latchQueued_full (s := s.dueTaken n rest) x full)
      obtain ⟨frame, regs⟩ := taken.touches.trans ((s.dueTaken n rest).count_touches .MER_LATCH_STATUS_ovf n 0 0 1)
      rw [drops]
      have counts := State.counted_count (s := s.dueTaken n rest) .MER_LATCH_STATUS_ovf n (State.sound_regs soundD) (by decide) (by decide)
      exact ⟨counts.around rfl rfl, regs, frame.mono (by decide)⟩
  case samples =>
    intro k level held t' l pass none trig outer takes passes
    have took (l : Land) : s.onlyIn (s.latchTook n l) [.mer] := s.withMer_onlyIn _
    have soundT (l : Land) : (s.latchTook n l).sound := State.sound_set_mer sound ⟨rfl, rfl, rfl, rfl, rfl, rfl, rfl⟩
    have runs := exec_latchTrigger_samples (level := level) (held := held) (t' := t') inside none trig outer
    rw [State.latchSamples_eq takes passes] at runs
    clear passes
    cases pass with
    | false =>
      exact ⟨_, runs, rfl, rfl, fun _ _ => rfl, fun _ => ⟨rfl, took l⟩, fun passes => absurd passes (by decide)⟩
    | true =>
      cases edge : s.latchEdge n level with
      | false =>
        rw [edge] at runs
        exact ⟨_, runs, rfl, rfl, fun _ _ => rfl, fun _ => ⟨rfl, took l.pass⟩, fun _ edge' => absurd edge' (by decide)⟩
      | true =>
        rw [edge, if_pos rfl, if_pos rfl] at runs
        obtain ⟨f, queues⟩ := State.latchResult_others (s := s.latchTook n l.pass) (n := n) ⟨k, l.pos, l.since⟩
        refine ⟨_, runs, ?_, ?_, fun m other => State.latchResult_latches_ne (s := s.latchTook n l.pass) _ other,
          fun stays => absurd stays (by decide), fun _ _ room => ⟨?_, fun quiet => ?_⟩⟩
        · exact (congrArg Meridian.latchIn queues :)
        · exact (congrArg Meridian.pos queues :)
        · exact State.latchResult_appends (soundT l.pass) inside _ room
        · exact ((took l.pass).trans (State.latchResult_onlyIn _ (posts.symm.trans quiet) room)).mono (by decide)
  case soft =>
    intro reaches on camera enabled edge known room
    have sorted := State.sound_regs sound
    have soundW : (s.traffic.store .MER_LATCH_CTRL (s.softWord n) n).sound := State.store_sound _ _ _ _ _ _ (State.traffic_sound s sound)
    obtain ⟨f, queues⟩ := State.latchResult_others (s := s.traffic.store .MER_LATCH_CTRL (s.softWord n) n) (n := n)
      ⟨31, s.pos, s.mono⟩
    refine ⟨_, exec_latchSoft_takes sound inside reaches on camera enabled edge known, ?_,
      fun m other => State.latchResult_latches_ne (s := s.traffic.store .MER_LATCH_CTRL (s.softWord n) n) _ other, ?_, fun quiet => ?_⟩
    · exact State.latchResult_appends soundW inside _ room
    · exact (congrArg Meridian.pos queues :)
    · have event : (s.traffic.store .MER_LATCH_CTRL (s.softWord n) n).on .MER_LATCH_CTRL_event n = false := by
        unfold State.on
        rw [State.get_softStored sorted .MER_LATCH_CTRL_event rfl]
        exact posts.symm.trans quiet
      obtain ⟨frame, regs⟩ := (s.traffic_onlyIn.touches.trans (s.traffic.store_touches .MER_LATCH_CTRL (s.softWord n) n 0 0)).trans
        (State.latchResult_onlyIn ⟨31, s.pos, s.mono⟩ event room).touches
      exact ⟨regs, frame.mono (by decide)⟩
  case read =>
    intro up
    refine ⟨_, congrArg Host.Outcome.next (if_neg up), ?_, fun m other => getD_upd_ne other, rfl, ?_⟩
    · exact getD_upd_same (State.latches_there sound inside)
    · exact (s.traffic_onlyIn.trans (s.traffic.withMer_onlyIn _)).mono (by decide)
  case commit =>
    intro standby reaches idle
    cases fault : s.geomFault s.shadow with
    | none =>
      have takes : s.traffic.onlyIn { s.traffic with mer := { s.mer with geom := s.shadow } } [.mer] := s.traffic.withMer_onlyIn _
      obtain ⟨frame, regs⟩ := (s.traffic_onlyIn.trans takes).touches.trans (State.geomStatus_touches _ (0, 0))
      have soundG : State.sound { s.traffic with mer := { s.mer with geom := s.shadow } } :=
        State.sound_set_mer (State.traffic_sound s sound) ⟨rfl, rfl, rfl, rfl, rfl, rfl, rfl⟩
      exact ⟨_, exec_geomCommit_takes standby reaches idle fault,
        fun _ => ⟨rfl, State.geomStatus_fail soundG (by decide), regs, frame.mono (by decide)⟩, fun c p bad => absurd bad (by simp)⟩
    | some x =>
      refine ⟨_, exec_geomCommit_refuses standby reaches fault, fun good => absurd good (by simp), fun c p bad => ?_⟩
      obtain rfl := Option.some.inj bad
      have off : Reg.MER_GEOM_COMMIT.addr 0 0 0 < 2 ^ 24 := by decide
      obtain ⟨counted, reason, -, refused, only⟩ := State.refusedAt_refuse sound 3 (by decide) off
      have soundR := State.refuse_sound s.traffic (Reg.MER_GEOM_COMMIT.addr 0 0 0) 3 (State.traffic_sound s sound)
      generalize s.traffic.refuse (Reg.MER_GEOM_COMMIT.addr 0 0 0) 3 = u at counted reason refused only soundR ⊢
      have shows := u.geomStatus_touches (c, p)
      refine ⟨(only.trans shows.1).same .mer, counted.around rfl (shows.2.get .GLB_REFUSED 0 0 0 (by decide)),
        (shows.2.get .GLB_REFUSED_INFO_reason 0 0 0 (by decide)).trans reason, fun off => ?_, State.geomStatus_fail soundR,
        State.geomStatus_port soundR, (only.trans shows.1).mono (by decide)⟩
      exact (State.regsOnlyAt_trans refused shows.2 off).imp_left fun mem => by simpa [or_comm, or_assoc, or_left_comm] using mem

end Sys2Proof.Machine
end

section
/-! Compare units (R206 to R211): how a unit is armed, aimed, disarmed and fired, and how an output pulse ends. -/

namespace Sys2Proof.Machine

/-! ### A unit's register (R207) -/

/-- The register of a unit is written, and the unit forgets its target. -/
def State.cmpStored (s : State) (n : Nat) (v : Word) : State :=
  (s.store .MER_CMP_CTRL v n).updCmp n fun _ => ⟨none, none, (s.store .MER_CMP_CTRL v n).rd .MER_CMP_POS n, false⟩

section
variable (s : State) (n : Nat) (v : Word)

theorem State.cmpStored_touches : s.touches (s.cmpStored n v) [.regs, .mer] [Reg.MER_CMP_CTRL.addr n 0 0] :=
  ((s.store_touches .MER_CMP_CTRL v n 0 0).trans (State.updCmp_onlyIn _ n _).touches).mono (by decide) (List.Subset.refl _)

/-- The target that the position registers hold. -/
def State.cmpTarget (s : State) (n : Nat) : Pos := (s.rd .MER_CMP_POS_HI n).setWidth 16 ++ s.rd .MER_CMP_POS n

theorem State.cmpStored_target : (s.cmpStored n v).cmpTarget n = s.cmpTarget n := by
  have regs := (s.cmpStored_touches n v).2
  unfold State.cmpTarget
  rw [regs.rd .MER_CMP_POS_HI n 0 0 (by simp [Reg.addr, Reg.MER_CMP_CTRL, Reg.MER_CMP_POS_HI]),
    regs.rd .MER_CMP_POS n 0 0 (by simp [Reg.addr, Reg.MER_CMP_CTRL, Reg.MER_CMP_POS])]

variable {s n v} (reaches : s.reaches (Reg.MER_CMP_CTRL.addr n 0 0) = true) (on : s.notStandbyPrinting = false)
include reaches on

theorem State.writeCmpCtrl_disarms (arm : v.msb = false) : s.writeCmpCtrl n v = s.traffic.cmpStored n v := by
  unfold State.writeCmpCtrl
  refine (State.gate_acts reaches (by simp [on, arm])).trans ?_
  rw [arm]
  rfl

/-- A one-shot, or a compare at an interval, aims at the target that its position registers hold (R207). -/
theorem State.writeCmpCtrl_arms (arm : v.msb = true)
    (mode : Fld.MER_CMP_CTRL_mode.of v = 0 ∨ Fld.MER_CMP_CTRL_mode.of v = 1 ∧ s.rd .MER_CMP_IVL n ≠ 0) : s.writeCmpCtrl n v =
    (s.traffic.cmpStored n v).aim n (some (s.cmpTarget n)) := by
  obtain ⟨clk, ahead⟩ := State.ahead_of_reaches reaches
  have ivl : (s.ahead (Reg.MER_CMP_CTRL.addr n 0 0)).rd .MER_CMP_IVL n = s.rd .MER_CMP_IVL n := by rw [ahead]; rfl
  have known : ¬ Fld.MER_CMP_CTRL_mode.of v = 2 ∧ ((Fld.MER_CMP_CTRL_mode.of v == 3 ||
      (Fld.MER_CMP_CTRL_mode.of v == 1 && s.rd .MER_CMP_IVL n == 0)) = false) := by
    rcases mode with mode | ⟨mode, some'⟩
    · simp [mode]
    · simpa [mode] using some'
  unfold State.writeCmpCtrl
  dsimp only
  rw [ivl]
  refine (State.gate_acts reaches (by rw [on, arm, known.2]; rfl)).trans ?_
  rw [arm, if_neg known.1, if_neg (by decide)]
  exact congrArg (fun x => State.aim _ n (some x)) (s.traffic.cmpStored_target n v)

end

/-! ### A field of the register, by itself (R206 to R208) -/

@[simp] theorem State.updCmp_get (s : State) (n : Nat) (g : Compare → Compare) (f : Fld) (i j k : Nat) :
    (s.updCmp n g).get f i j k = s.get f i j k := rfl

/-- The register of a unit is not the counter of misses. -/
theorem cmpCtrl_ne_missedCnt {n : Nat} (inside : n < 16) : Reg.MER_CMP_CTRL.addr n 0 0 ≠ Reg.MER_CMP_MISSED_CNT.addr 0 0 0 := by
  simp only [Reg.addr, Reg.MER_CMP_CTRL, Reg.MER_CMP_MISSED_CNT]
  omega

/-- A field of a unit's register has been put, by its value and by what it leaves. -/
structure State.CmpPut (s u : State) (f : Fld) (n v : Nat) : Prop where
  sound : u.sound
  touches : s.touches u [.regs] [Reg.MER_CMP_CTRL.addr n 0 0]
  mer : u.mer = s.mer
  value : u.get f n = v % 2 ^ (f.hi + 1 - f.lo)
  others : ∀ g : Fld, g.reg = .MER_CMP_CTRL → g.hi < f.lo ∨ f.hi < g.lo → u.get g n = s.get g n

theorem State.cmpPut_set {s : State} (sound : s.sound) (f : Fld) (n v : Nat) (reg : f.reg = .MER_CMP_CTRL) (h : f.lo ≤ f.hi)
    (top : f.hi < 32) : s.CmpPut (s.set f v n) f n v where
  sound := State.set_sound s f v n 0 0 sound
  touches := reg ▸ s.set_touches f v n 0 0
  mer := rfl
  value := State.get_set_same f v n 0 0 (State.sound_regs sound) h top
  others g same beside := State.get_set_ne f g v n 0 0 (State.sound_regs sound) (same.trans reg.symm) h top beside

/-! ### Disarming (R207) -/

section
variable (s : State) (n : Nat) (sound : s.sound)

/-- A disarmed unit. -/
theorem State.disarm_eq : s.disarm n = (s.set .MER_CMP_CTRL_arm 0 n).updCmp n fun c => { c with due := false } := rfl

include sound

theorem State.disarm_touches : s.touches (s.disarm n) [.regs, .mer] [Reg.MER_CMP_CTRL.addr n 0 0] := by
  obtain ⟨-, sets, -, -, -⟩ := State.cmpPut_set sound .MER_CMP_CTRL_arm n 0 rfl (by decide) (by decide)
  rw [State.disarm_eq]
  generalize s.set .MER_CMP_CTRL_arm 0 n = u at sets
  exact (sets.trans (u.updCmp_onlyIn n _).touches).mono (by decide) (List.Subset.refl _)

theorem State.disarm_armed : (s.disarm n).armed n = false := by
  obtain ⟨-, -, -, clear, -⟩ := State.cmpPut_set sound .MER_CMP_CTRL_arm n 0 rfl (by decide) (by decide)
  rw [State.armed, State.on, State.disarm_eq, State.updCmp_get, clear]
  simp

/-- Every field of the register beside arm stays. -/
theorem State.disarm_get (f : Fld) (reg : f.reg = .MER_CMP_CTRL) (below : f.hi < 31) : (s.disarm n).get f n = s.get f n := by
  obtain ⟨-, -, -, -, others⟩ := State.cmpPut_set sound .MER_CMP_CTRL_arm n 0 rfl (by decide) (by decide)
  rw [State.disarm_eq, State.updCmp_get, others f reg (.inl below)]

/-- Of Meridian, disarming changes the unit alone, which is no longer due. -/
theorem State.disarm_mer (inside : n < 16) : (s.disarm n).mer.pos = s.mer.pos ∧ ((s.disarm n).cmp n).due = false ∧
    ∀ m, m ≠ n → (s.disarm n).cmp m = s.cmp m := by
  obtain ⟨sound', -, mer, -, -⟩ := State.cmpPut_set sound .MER_CMP_CTRL_arm n 0 rfl (by decide) (by decide)
  rw [State.disarm_eq]
  generalize s.set .MER_CMP_CTRL_arm 0 n = u at sound' mer
  have cmp (m : Nat) : u.cmp m = s.cmp m := congrArg (fun x : Meridian => x.cmps.getD m _) mer
  exact ⟨(congrArg Meridian.pos mer :), congrArg Compare.due (State.cmp_updCmp_same sound' inside _),
    fun m other => (State.cmp_updCmp_ne u _ other).trans (cmp m)⟩

end

/-! ### Aiming (R207, R208) -/

/-- A unit aims at a target. -/
def State.aimed (s : State) (n : Nat) (t : Pos) : State := s.updCmp n fun c => { c with target := some t, due := false }

/-- A unit has missed a target: marked, counted and raised (R208). -/
def State.cmpMissed (s : State) (n : Nat) (t : Pos) : State :=
  ((s.set .MER_CMP_CTRL_missed 1 n).count .MER_CMP_MISSED_CNT).raise .merCmpMissed (t.setWidth 32) n

/-- What a miss changes: the mark, the counter and the raise. -/
structure State.CmpMiss (s u : State) (n : Nat) (t : Pos) (v : Nat) : Prop where
  sound : u.sound
  mer : u.mer = s.mer
  touches : s.touches u [.regs, .ltn] [Reg.MER_CMP_CTRL.addr n 0 0, Reg.MER_CMP_MISSED_CNT.addr 0 0 0]
  mark : u.get .MER_CMP_CTRL_missed n = v
  mode : u.get .MER_CMP_CTRL_mode n = s.get .MER_CMP_CTRL_mode n
  counted : s.counted u .MER_CMP_MISSED_CNT
  raised : s.raised u .merCmpMissed 1 n 0xFF 12 (t.setWidth 32)

theorem State.CmpPut.miss {s u : State} {n v : Nat} (put : s.CmpPut u .MER_CMP_CTRL_missed n v) (t : Pos) (inside : n < 16) :
    s.CmpMiss ((u.count .MER_CMP_MISSED_CNT).raise .merCmpMissed (t.setWidth 32) n) n t (v % 2) := by
  have apart := cmpCtrl_ne_missedCnt inside
  obtain ⟨sound', sets, mer, mark, others⟩ := put
  have counts := u.count_touches .MER_CMP_MISSED_CNT 0 0 0 1
  have raises := (u.count .MER_CMP_MISSED_CNT).raise_onlyIn .merCmpMissed (t.setWidth 32) n 0xFF none none
  have kept (f : Fld) (reg : f.reg = .MER_CMP_CTRL) : (u.count .MER_CMP_MISSED_CNT).get f n = u.get f n :=
    counts.2.get f n 0 0 (by rw [reg]; exact fun mem => apart (List.mem_singleton.mp mem))
  refine ⟨State.raise_sound _ _ _ _ _ _ _ (State.count_sound _ _ _ _ _ _ sound'), mer, ?_, (kept _ rfl).trans mark, ?_, ?_, ?_⟩
  · exact ((sets.trans counts).trans raises.touches).mono (by decide) (List.Subset.refl _)
  · exact (kept _ rfl).trans (others _ rfl (.inl (by decide)))
  · have one := State.counted_count (s := u) .MER_CMP_MISSED_CNT 0 (State.sound_regs sound') (by decide) (by decide)
    exact one.around (sets.2.get .MER_CMP_MISSED_CNT 0 0 0 fun mem => apart (List.mem_singleton.mp mem).symm) rfl
  · have clock : u.clock = s.clock := sets.1.clock
    have raised : u.raised ((u.count .MER_CMP_MISSED_CNT).raise .merCmpMissed (t.setWidth 32) n) .merCmpMissed 1 n 0xFF 12
      (t.setWidth 32) := rfl
    unfold State.raised at raised ⊢
    rw [raised, sets.1.same .ltn, clock]

theorem State.cmpMissed_miss {s : State} {n : Nat} (t : Pos) (sound : s.sound) (inside : n < 16) :
    s.CmpMiss (s.cmpMissed n t) n t 1 := by
  have put := State.cmpPut_set sound .MER_CMP_CTRL_missed n 1 rfl (by decide) (by decide)
  unfold State.cmpMissed
  generalize s.set .MER_CMP_CTRL_missed 1 n = u at put
  exact put.miss t inside

section
variable {s : State} {n : Nat} {t : Pos}

/-- A target that lies ahead is waited for. -/
theorem State.aim_ahead (far : lineLe t s.pos = false) : s.aim n (some t) = s.aimed n t := if_neg (Bool.eq_false_iff.mp far)

/-- A one-shot whose target lies behind, without catchup, is missed and disarmed. -/
theorem State.aim_missed (sound : s.sound) (inside : n < 16) (behind : lineLe t s.pos = true)
    (catchup : s.on .MER_CMP_CTRL_catchup n = false) (shot : s.get .MER_CMP_CTRL_mode n = 0) :
    s.aim n (some t) = ((s.aimed n t).cmpMissed n t).disarm n := by
  have mode := (State.cmpMissed_miss t (State.updCmp_sound s n (fun c => { c with target := some t, due := false }) sound) inside).mode
  have moves : ((s.aimed n t).cmpMissed n t).moveOn n t = ((s.aimed n t).cmpMissed n t).disarm n := by
    unfold State.moveOn
    rw [State.aimed, mode, State.updCmp_get, shot]
    rfl
  exact (if_pos behind).trans ((if_neg (Bool.eq_false_iff.mp catchup)).trans moves)

end

end Sys2Proof.Machine
end

section
/-! Compare units (R206 to R211): what their commands leave, and the statement about them. -/

namespace Sys2Proof.Machine

/-- Of the compare units and the web position, one unit alone has changed. -/
def State.cmpOnly (s t : State) (n : Nat) : Prop := (∀ m, m ≠ n → t.cmp m = s.cmp m) ∧ t.mer.pos = s.mer.pos

theorem State.cmpOnly.trans {s t u : State} {n : Nat} (first : s.cmpOnly t n) (second : t.cmpOnly u n) : s.cmpOnly u n :=
  ⟨fun m other => (second.1 m other).trans (first.1 m other), second.2.trans first.2⟩

theorem State.cmpOnly.webPos {s t : State} {n : Nat} (alone : s.cmpOnly t n) : t.pos = s.pos := by
  rw [State.pos, alone.2, State.pos]

theorem State.updCmp_cmpOnly (s : State) (n : Nat) (f : Compare → Compare) : s.cmpOnly (s.updCmp n f) n :=
  ⟨fun _ other => s.cmp_updCmp_ne f other, rfl⟩

theorem State.cmpOnly_of_mer {s t : State} (n : Nat) (mer : t.mer = s.mer) : s.cmpOnly t n := by
  constructor
  · intro m _
    unfold State.cmp
    rw [mer]
  · rw [mer]

/-! ### The register is written (R207) -/

/-- The arm bit of a word for the register. -/
theorem armField_eq_zero (v : Word) : field v 31 31 = 0 ↔ v.msb = false := by
  rw [BitVec.msb_eq_decide, decide_eq_false_iff_not]
  simp only [field, nbits]
  have := v.isLt
  omega

section
variable {s : State} {n : Nat} (v : Word) (sound : s.sound) (inside : n < 16)

theorem State.traffic_cmpStored_touches : s.touches (s.traffic.cmpStored n v) [.mer, .regs, .pcie] [Reg.MER_CMP_CTRL.addr n 0 0] :=
  (s.traffic_onlyIn.touches.trans (s.traffic.cmpStored_touches n v)).mono

theorem State.cmpStored_cmpOnly : s.cmpOnly (s.cmpStored n v) n :=
  (State.cmpOnly_of_mer n rfl : s.cmpOnly (s.store .MER_CMP_CTRL v n) n).trans (State.updCmp_cmpOnly _ _ _)

include sound

theorem State.cmpStored_sound : (s.cmpStored n v).sound := State.updCmp_sound _ _ _ (State.store_sound _ _ _ _ _ _ sound)

theorem State.cmpStored_rd : (s.cmpStored n v).rd .MER_CMP_CTRL n = Reg.MER_CMP_CTRL.stored (s.rd .MER_CMP_CTRL n) v :=
  State.rd_wr_same _ _ _ _ _ _ (State.sound_regs sound)

/-- A field that the host sets takes the value written. -/
theorem State.cmpStored_get (f : Fld) (reg : f.reg = .MER_CMP_CTRL)
    (takes : ∀ i < 32, f.lo ≤ i → i ≤ f.hi → (Reg.MER_CMP_CTRL.maskOf [.rw, .rws, .rwl]).getLsbD i = true := by decide)
    (top : f.hi < 32 := by decide) : (s.cmpStored n v).get f n = f.of v := by
  unfold State.get
  rw [reg, State.cmpStored_rd v sound]
  exact field_stored _ _ _ takes top

theorem State.cmpStored_armed (arm : v.msb = false) : (s.cmpStored n v).armed n = false := by
  have clear : (s.cmpStored n v).get .MER_CMP_CTRL_arm n = 0 :=
    (State.cmpStored_get v sound .MER_CMP_CTRL_arm rfl).trans ((armField_eq_zero v).mpr arm)
  simp [State.armed, State.on, clear]

include inside

theorem State.cmpStored_cmp : ((s.cmpStored n v).cmp n).target = none ∧ ((s.cmpStored n v).cmp n).due = false := by
  have unit := State.cmp_updCmp_same (State.store_sound s .MER_CMP_CTRL v n 0 0 sound) inside
    fun _ => ⟨none, none, (s.store .MER_CMP_CTRL v n).rd .MER_CMP_POS n, false⟩
  exact ⟨congrArg Compare.target unit, congrArg Compare.due unit⟩

end

section
variable {s : State} {n : Nat} (sound : s.sound) (inside : n < 16)
include sound inside

theorem State.aimed_cmp (t : Pos) : ((s.aimed n t).cmp n).target = some t ∧ ((s.aimed n t).cmp n).due = false := by
  have unit := State.cmp_updCmp_same sound inside fun c => { c with target := some t, due := false }
  exact ⟨congrArg Compare.target unit, congrArg Compare.due unit⟩

theorem State.disarm_cmpOnly : s.cmpOnly (s.disarm n) n :=
  have ⟨pos, _, others⟩ := State.disarm_mer s n sound inside
  ⟨others, pos⟩

end

section
variable {s : State} {n : Nat} (t : Pos) (sound : s.sound) (inside : n < 16)
include sound inside

/-- A one-shot aimed at a target behind the web, without catchup: missed, counted, raised and disarmed (R208). -/
theorem State.aim_misses (behind : lineLe t s.pos = true) (catchup : s.on .MER_CMP_CTRL_catchup n = false)
    (shot : s.get .MER_CMP_CTRL_mode n = 0) :
    (s.aim n (some t)).armed n = false ∧ (s.aim n (some t)).on .MER_CMP_CTRL_missed n = true ∧
      s.counted (s.aim n (some t)) .MER_CMP_MISSED_CNT ∧ s.raised (s.aim n (some t)) .merCmpMissed 1 n 0xFF 12 (t.setWidth 32) ∧
      s.cmpOnly (s.aim n (some t)) n ∧
      s.touches (s.aim n (some t)) [.mer, .regs, .ltn] [Reg.MER_CMP_CTRL.addr n 0 0, Reg.MER_CMP_MISSED_CNT.addr 0 0 0] := by
  have aims := State.updCmp_onlyIn s n fun c => { c with target := some t, due := false }
  have aimOnly := State.updCmp_cmpOnly s n fun c => { c with target := some t, due := false }
  have miss := State.cmpMissed_miss t (State.updCmp_sound s n (fun c => { c with target := some t, due := false }) sound) inside
  rw [State.aim_missed sound inside behind catchup shot]
  unfold State.aimed
  generalize ((s.updCmp n fun c => { c with target := some t, due := false }).cmpMissed n t) = u at miss
  obtain ⟨sound', mer, touches, mark, -, counted, raised⟩ := miss
  have disarms := u.disarm_touches n sound'
  refine ⟨u.disarm_armed n sound', ?_, ?_, ?_, ?_, ?_⟩
  · rw [State.on, u.disarm_get n sound' _ rfl (by decide), mark]
    rfl
  · refine counted.around rfl (disarms.2.get .MER_CMP_MISSED_CNT 0 0 0 fun mem => ?_)
    exact cmpCtrl_ne_missedCnt inside (List.mem_singleton.mp mem).symm
  · unfold State.raised at raised ⊢
    rw [disarms.1.same .ltn, raised, aims.clock, aims.same .ltn]
  · exact (aimOnly.trans (State.cmpOnly_of_mer n mer)).trans (State.disarm_cmpOnly sound' inside)
  · exact ((aims.touches.trans touches).trans disarms).mono

end

/-! ### The commands that write it (R207, R208) -/

section
variable {s : State} {n : Nat} {v : Word} (sound : s.sound) (inside : n < 16)
  (reaches : s.reaches (Reg.MER_CMP_CTRL.addr n 0 0) = true) (on : s.notStandbyPrinting = false)
include sound inside reaches on

/-- CMP_DISARM (R207). -/
theorem cmpDisarm_drops (arm : v.msb = false) :
    ∃ t, exec (.cmpDisarm n v) s = .next t ∧ t.rd .MER_CMP_CTRL n = Reg.MER_CMP_CTRL.stored (s.rd .MER_CMP_CTRL n) v ∧
      t.armed n = false ∧ (t.cmp n).target = none ∧ (t.cmp n).due = false ∧ (∀ m, m ≠ n → t.cmp m = s.cmp m) ∧
      t.mer.pos = s.mer.pos ∧ s.regsOnlyAt t [Reg.MER_CMP_CTRL.addr n 0 0] ∧ s.onlyIn t [.mer, .regs, .pcie] := by
  have sound' := State.traffic_sound s sound
  have step : exec (.cmpDisarm n v) s = .next (s.traffic.cmpStored n v) := by
    rw [← State.writeCmpCtrl_disarms reaches on arm]
    exact if_pos ⟨inside, by simp [arm]⟩
  obtain ⟨only, regs⟩ := s.traffic_cmpStored_touches (n := n) v
  obtain ⟨target, due⟩ := State.cmpStored_cmp v sound' inside
  obtain ⟨others, pos⟩ := s.traffic.cmpStored_cmpOnly (n := n) v
  exact ⟨_, step, State.cmpStored_rd v sound', State.cmpStored_armed v sound' arm, target, due, others, pos, regs, only⟩

variable {tgt : Pos} (arm : v.msb = true)
  (mode : Fld.MER_CMP_CTRL_mode.of v = 0 ∨ Fld.MER_CMP_CTRL_mode.of v = 1 ∧ s.rd .MER_CMP_IVL n ≠ 0) (aim : tgt = s.cmpTarget n)
include arm mode aim

omit sound in
theorem cmpArm_eq : exec (.cmpArm n v) s = .next ((s.traffic.cmpStored n v).aim n (some tgt)) := by
  rw [aim, ← State.writeCmpCtrl_arms reaches on arm mode]
  exact if_pos ⟨inside, arm⟩

/-- CMP_ARM whose target lies above the web position (R207). -/
theorem cmpArm_aims (far : lineLe tgt s.pos = false) :
    ∃ t, exec (.cmpArm n v) s = .next t ∧ t.rd .MER_CMP_CTRL n = Reg.MER_CMP_CTRL.stored (s.rd .MER_CMP_CTRL n) v ∧
      (t.cmp n).target = some tgt ∧ (t.cmp n).due = false ∧ (∀ m, m ≠ n → t.cmp m = s.cmp m) ∧ t.mer.pos = s.mer.pos ∧
      s.regsOnlyAt t [Reg.MER_CMP_CTRL.addr n 0 0] ∧ s.onlyIn t [.mer, .regs, .pcie] := by
  have stores := s.traffic_cmpStored_touches (n := n) v
  have alone := s.traffic.cmpStored_cmpOnly (n := n) v
  have sound' := State.cmpStored_sound (n := n) v (State.traffic_sound s sound)
  have word := State.cmpStored_rd (n := n) v (State.traffic_sound s sound)
  have step := cmpArm_eq inside reaches on arm mode aim
  generalize s.traffic.cmpStored n v = u at stores alone sound' word step
  rw [State.aim_ahead ((congrArg (lineLe tgt) alone.webPos).trans far)] at step
  have touches : s.touches (u.aimed n tgt) [.mer, .regs, .pcie] [Reg.MER_CMP_CTRL.addr n 0 0] :=
    (stores.trans (u.updCmp_onlyIn n _).touches).mono
  obtain ⟨others, pos⟩ := alone.trans (u.updCmp_cmpOnly n _)
  obtain ⟨target, due⟩ := State.aimed_cmp sound' inside tgt
  exact ⟨_, step, word, target, due, others, pos, touches.2, touches.1⟩

/-- CMP_ARM of a one-shot whose target the web has passed, without catchup (R208). -/
theorem cmpArm_misses (behind : lineLe tgt s.pos = true) (shot : Fld.MER_CMP_CTRL_mode.of v = 0)
    (catchup : Fld.MER_CMP_CTRL_catchup.of v = 0) :
    ∃ t, exec (.cmpArm n v) s = .next t ∧ t.armed n = false ∧ t.on .MER_CMP_CTRL_missed n = true ∧
      s.counted t .MER_CMP_MISSED_CNT ∧ s.raised t .merCmpMissed 1 n 0xFF 12 (tgt.setWidth 32) ∧
      (∀ m, m ≠ n → t.cmp m = s.cmp m) ∧ t.mer.pos = s.mer.pos ∧
      s.regsOnlyAt t [Reg.MER_CMP_CTRL.addr n 0 0, Reg.MER_CMP_MISSED_CNT.addr 0 0 0] ∧ s.onlyIn t [.mer, .regs, .ltn, .pcie] := by
  have stores := s.traffic_cmpStored_touches (n := n) v
  have alone := s.traffic.cmpStored_cmpOnly (n := n) v
  have sound' := State.cmpStored_sound (n := n) v (State.traffic_sound s sound)
  have shot' := (State.cmpStored_get v (State.traffic_sound s sound) .MER_CMP_CTRL_mode rfl (n := n)).trans shot
  have catchup' := (State.cmpStored_get v (State.traffic_sound s sound) .MER_CMP_CTRL_catchup rfl (n := n)).trans catchup
  have step := cmpArm_eq inside reaches on arm mode aim
  generalize s.traffic.cmpStored n v = u at stores alone sound' shot' catchup' step
  obtain ⟨off, mark, counted, raised, missAlone, touches⟩ := State.aim_misses tgt sound' inside
    ((congrArg (lineLe tgt) alone.webPos).trans behind) (by rw [State.on, catchup']; rfl) shot'
  obtain ⟨only, regs⟩ := (stores.trans touches).mono (m := [.mer, .regs, .ltn, .pcie])
    (b := [Reg.MER_CMP_CTRL.addr n 0 0, Reg.MER_CMP_MISSED_CNT.addr 0 0 0])
  obtain ⟨others, pos⟩ := alone.trans missAlone
  refine ⟨_, step, off, mark, counted.around (stores.2.get .MER_CMP_MISSED_CNT 0 0 0 fun mem => ?_) rfl, ?_, others, pos, regs, only⟩
  · exact cmpCtrl_ne_missedCnt inside (List.mem_singleton.mp mem).symm
  · unfold State.raised at raised ⊢
    rw [raised, stores.1.clock, stores.1.same .ltn]

end

/-! ### A compare fires (R206, R208, R211) -/

/-- A compare that selects no output drives none. -/
theorem State.drive_none {s : State} {n : Nat} (strobe : s.get .MER_CMP_CTRL_strobe n = 0) (camtrig : s.get .MER_CMP_CTRL_camtrig n = 0)
    (tpulse : s.get .MER_CMP_CTRL_tpulse n = 0) : s.drive n = s := by
  unfold State.drive
  simp [strobe, camtrig, tpulse, State.each]

/-- A unit has fired at a target: the latch units take the trigger, and it is no longer due. -/
def State.cmpFired (s : State) (n : Nat) (t : Pos) : State :=
  (s.triggerLatches (4 + n) s.pos s.mono).updCmp n fun c => { c with due := false, above := some t }

/-- What a unit that has fired does next, by its mode (R206, R207, R210). -/
def State.cmpNext (s : State) (n : Nat) (t : Pos) : State :=
  match s.get .MER_CMP_CTRL_mode n with
  | 0 => (s.set .MER_CMP_CTRL_fired 1 n).disarm n
  | 1 => s.aim n (some (t + (s.rd .MER_CMP_IVL n).setWidth 48))
  | _ => s.aim n (s.itemTarget n (some t))

section
variable (s : State) (n : Nat) (t : Pos)

theorem State.cmpNext_shot (mode : s.get .MER_CMP_CTRL_mode n = 0) : s.cmpNext n t = (s.set .MER_CMP_CTRL_fired 1 n).disarm n := by
  rw [State.cmpNext, mode]
  rfl

theorem State.cmpNext_interval (mode : s.get .MER_CMP_CTRL_mode n = 1) :
    s.cmpNext n t = s.aim n (some (t + (s.rd .MER_CMP_IVL n).setWidth 48)) := by
  rw [State.cmpNext, mode]
  rfl

theorem State.cmpFired_onlyIn : s.onlyIn (s.cmpFired n t) [.mer] := s.withMer_onlyIn _

theorem State.cmpFired_cmpOnly : s.cmpOnly (s.cmpFired n t) n :=
  State.updCmp_cmpOnly (s.triggerLatches (4 + n) s.pos s.mono) n _

theorem State.cmpFired_sound (sound : s.sound) : (s.cmpFired n t).sound :=
  State.updCmp_sound _ _ _ (State.triggerLatches_sound _ _ _ _ sound)

end

section
variable {s : State} {n : Nat} {tgt : Pos} (sound : s.sound) (inside : n < 16) (armed : s.armed n = true) (due : (s.cmp n).due = true)
  (target : (s.cmp n).target = some tgt) (strobe : s.get .MER_CMP_CTRL_strobe n = 0) (camtrig : s.get .MER_CMP_CTRL_camtrig n = 0)
  (tpulse : s.get .MER_CMP_CTRL_tpulse n = 0) (irq : s.on .MER_CMP_CTRL_irq n = false)
include sound inside armed due target strobe camtrig tpulse irq

omit sound inside in
/-- A due unit that drives nothing and interrupts nobody. -/
theorem cmpFire_eq : exec (.cmpFire n) s = .next ((s.cmpFired n tgt).cmpNext n tgt) := by
  change execCmpFire n s = _
  unfold execCmpFire State.cmpNext
  rw [armed, due, target]
  dsimp only [Bool.and_self]
  rw [State.drive_none strobe camtrig tpulse, irq, if_neg Bool.false_ne_true]
  change (match (s.cmpFired n tgt).get .MER_CMP_CTRL_mode n with | 0 => _ | 1 => _ | _ => _) = _
  generalize (s.cmpFired n tgt).get .MER_CMP_CTRL_mode n = mode
  match mode with
  | 0 => rfl
  | 1 => rfl
  | _ + 2 => rfl

/-- CMP_FIRE of a one-shot (R206). -/
theorem cmpFire_disarms (shot : s.get .MER_CMP_CTRL_mode n = 0) :
    ∃ t, exec (.cmpFire n) s = .next t ∧ t.on .MER_CMP_CTRL_fired n = true ∧ t.armed n = false ∧
      (t.cmp n).due = false ∧ (∀ m, m ≠ n → t.cmp m = s.cmp m) ∧ t.mer.pos = s.mer.pos ∧
      s.regsOnlyAt t [Reg.MER_CMP_CTRL.addr n 0 0] ∧ s.onlyIn t [.mer, .regs] := by
  have step : exec (.cmpFire n) s = .next (((s.cmpFired n tgt).set .MER_CMP_CTRL_fired 1 n).disarm n) := by
    rw [cmpFire_eq armed due target strobe camtrig tpulse irq]
    exact congrArg _ (State.cmpNext_shot _ _ _ shot)
  have fires := s.cmpFired_onlyIn n tgt
  have alone := s.cmpFired_cmpOnly n tgt
  obtain ⟨sound', sets, mer, mark, -⟩ :=
    State.cmpPut_set (s.cmpFired_sound n tgt sound) .MER_CMP_CTRL_fired n 1 rfl (by decide) (by decide)
  generalize (s.cmpFired n tgt).set .MER_CMP_CTRL_fired 1 n = u at sound' sets mer mark step
  have touches : s.touches (u.disarm n) [.mer, .regs] [Reg.MER_CMP_CTRL.addr n 0 0] :=
    ((fires.touches.trans sets).trans (u.disarm_touches n sound')).mono
  obtain ⟨others, pos⟩ := (alone.trans (State.cmpOnly_of_mer n mer)).trans (State.disarm_cmpOnly sound' inside)
  refine ⟨_, step, ?_, u.disarm_armed n sound', (u.disarm_mer n sound' inside).2.1, others, pos, touches.2, touches.1⟩
  rw [State.on, u.disarm_get n sound' _ rfl (by decide), mark]
  rfl

/-- CMP_FIRE of a compare at an interval whose next target lies ahead (R207). -/
theorem cmpFire_repeats (mode : s.get .MER_CMP_CTRL_mode n = 1)
    (far : lineLe (tgt + (s.rd .MER_CMP_IVL n).setWidth 48) s.pos = false) :
    ∃ t, exec (.cmpFire n) s = .next t ∧ (t.cmp n).target = some (tgt + (s.rd .MER_CMP_IVL n).setWidth 48) ∧ t.armed n = true ∧
      (t.cmp n).due = false ∧ (∀ m, m ≠ n → t.cmp m = s.cmp m) ∧ t.mer.pos = s.mer.pos ∧ s.onlyIn t [.mer] := by
  have alone := s.cmpFired_cmpOnly n tgt
  have step : exec (.cmpFire n) s = .next ((s.cmpFired n tgt).aimed n (tgt + (s.rd .MER_CMP_IVL n).setWidth 48)) := by
    rw [← State.aim_ahead ((congrArg (lineLe _) alone.webPos).trans far), cmpFire_eq armed due target strobe camtrig tpulse irq]
    exact congrArg _ (State.cmpNext_interval _ _ _ mode)
  obtain ⟨aim, clear⟩ := State.aimed_cmp (s.cmpFired_sound n tgt sound) inside (tgt + (s.rd .MER_CMP_IVL n).setWidth 48)
  obtain ⟨others, pos⟩ := alone.trans ((s.cmpFired n tgt).updCmp_cmpOnly n _)
  have only : s.onlyIn ((s.cmpFired n tgt).aimed n (tgt + (s.rd .MER_CMP_IVL n).setWidth 48)) [.mer] :=
    ((s.cmpFired_onlyIn n tgt).trans (State.updCmp_onlyIn _ n _)).mono (by decide)
  exact ⟨_, step, aim, armed, clear, others, pos, only⟩

end

/-! ### The end of an output's pulse (R211) -/

section
variable {s : State} {i : Nat} {t' : Instant} (sound : s.sound) (inside : i < 4)
include sound inside

theorem outputPulseEnd_strobe (busy : s.mer.strobes.getD i none = some t')
    (passed : s.elapsed t' (s.get .MER_STROBE_width i * 5) = true) :
    ∃ t, exec (.outputPulseEnd (.strobe i)) s = .next t ∧ t.mer.strobes.getD i none = none ∧
      (∀ j, j ≠ i → t.mer.strobes.getD j none = s.mer.strobes.getD j none) ∧ t.mer.camtrigs = s.mer.camtrigs ∧
      t.mer.tpulses = s.mer.tpulses ∧ t.out = s.out ++ [.pin (.strobe i) (landLevel (s.on .MER_STROBE_pol i) false)] ∧
      s.onlyIn t [.mer, .out] := by
  refine ⟨_, if_pos (by rw [busy]; exact passed), getD_upd_same (inside.trans_eq (State.sound_strobes sound).symm),
    fun _ other => getD_upd_ne other, rfl, rfl, rfl, ?_⟩
  exact (s.withMer_onlyIn _).trans (State.emit_onlyIn _ _)

theorem outputPulseEnd_camtrig (busy : s.mer.camtrigs.getD i none = some t')
    (passed : s.elapsed t' (s.get .MER_CAMTRIG_width i * 5) = true) :
    ∃ t, exec (.outputPulseEnd (.camtrig i)) s = .next t ∧ t.mer.camtrigs.getD i none = none ∧
      (∀ j, j ≠ i → t.mer.camtrigs.getD j none = s.mer.camtrigs.getD j none) ∧ t.mer.strobes = s.mer.strobes ∧
      t.mer.tpulses = s.mer.tpulses ∧ t.out = s.out ++ [.pin (.camtrig i) (landLevel (s.on .MER_CAMTRIG_pol i) false)] ∧
      s.onlyIn t [.mer, .out] := by
  refine ⟨_, if_pos (by rw [busy]; exact passed), getD_upd_same (inside.trans_eq (State.sound_camtrigs sound).symm),
    fun _ other => getD_upd_ne other, rfl, rfl, rfl, ?_⟩
  exact (s.withMer_onlyIn _).trans (State.emit_onlyIn _ _)

end

/-- Settles O23: the write that arms or disarms a unit is its register's store, after which the unit aims at the target that its position
registers hold; a firing unit with no output drives nothing, and then disarms or aims again; a pulse whose width has passed ends. -/
theorem compareCommandsComplete : Obligations.CompareCommandsComplete := by
  unfold Obligations.CompareCommandsComplete
  intro s n sound inside
  refine ⟨?_, ?_, ?_, ?_, ?_⟩
  · intro v tgt arm mode reaches on aim
    exact ⟨cmpArm_aims sound inside reaches on arm mode aim, cmpArm_misses sound inside reaches on arm mode aim⟩
  · exact fun v arm reaches on => cmpDisarm_drops sound inside reaches on arm
  · intro tgt armed due target strobe camtrig tpulse irq
    exact ⟨cmpFire_disarms sound inside armed due target strobe camtrig tpulse irq,
      cmpFire_repeats sound inside armed due target strobe camtrig tpulse irq⟩
  · exact fun i t' at' busy passed => outputPulseEnd_strobe sound at' busy passed
  · exact fun i t' at' busy passed => outputPulseEnd_camtrig sound at' busy passed

end Sys2Proof.Machine
end

section
/-! What an operation makes of one link (R226): the link's new value, that the other links stay, and which parts of the block and which
registers change beside it. -/

namespace Sys2Proof.Machine

/-- From `s` to `t` link `p` becomes `x`, every other link stays, and nothing changes but in the parts and at the offsets named. -/
structure State.linkMoved (s t : State) (p : Nat) (x : Link) (parts : List Part) (offs : List Nat) : Prop where
  inside : p < 26
  sound : t.sound
  link : t.link p = x
  others : ∀ q, q ≠ p → t.link q = s.link q
  touches : s.touches t parts offs

theorem State.linkMoved.refl {s : State} {p : Nat} (sound : s.sound) (inside : p < 26) : s.linkMoved s p (s.link p) [] [] :=
  ⟨inside, sound, rfl, fun _ _ => rfl, .refl s _ _⟩

section
variable {s t u : State} {p : Nat} {x y : Link} {l m : List Part} {a b : List Nat}

theorem State.linkMoved.onlyIn (h : s.linkMoved t p x l a) (hm : l ⊆ m := by decide) : s.onlyIn t m := h.touches.1.mono hm

theorem State.linkMoved.regsOnlyAt (h : s.linkMoved t p x l a) (hb : a ⊆ b := by simp) : s.regsOnlyAt t b := fun off =>
  (h.touches.2 off).imp_left fun hx => hb hx

theorem State.linkMoved.mono (h : s.linkMoved t p x l a) (hm : l ⊆ m := by decide) (hb : a ⊆ b := by simp) : s.linkMoved t p x m b :=
  { h with touches := h.touches.mono hm hb }

theorem State.linkMoved.to (h : s.linkMoved t p x l a) (same : x = y) : s.linkMoved t p y l a := same ▸ h

theorem State.linkMoved.trans (h : s.linkMoved t p x l a) (h' : t.linkMoved u p y m b) : s.linkMoved u p y (l ++ m) (a ++ b) :=
  ⟨h.inside, h'.sound, h'.link, fun q other => (h'.others q other).trans (h.others q other), h.touches.trans h'.touches⟩

theorem State.linkMoved.updLink (h : s.linkMoved t p x l a) (f : Link → Link) :
    s.linkMoved (t.updLink p f) p (f x) (l ++ [.links]) a where
  inside := h.inside
  sound := t.updLink_sound p f h.sound
  link := by rw [t.link_updLink_same f (by rw [State.sound_links h.sound]; exact h.inside), h.link]
  others q other := (t.link_updLink_ne f other).trans (h.others q other)
  touches := by simpa using h.touches.trans (t.updLink_onlyIn p f).touches

/-- A change beside the links. -/
theorem State.linkMoved.beside (h : s.linkMoved t p x l a) (sound : u.sound) (touches : t.touches u m b)
    (hm : .links ∉ m := by decide) : s.linkMoved u p x (l ++ m) (a ++ b) where
  inside := h.inside
  sound := sound
  link := (touches.1.link p hm).trans h.link
  others q other := (touches.1.link q hm).trans (h.others q other)
  touches := h.touches.trans touches

theorem State.linkMoved.wr (h : s.linkMoved t p x l a) (r : Reg) (v : Word) (i j k : Nat) :
    s.linkMoved (t.wr r v i j k) p x (l ++ [.regs]) (a ++ [r.addr i j k]) :=
  h.beside (t.wr_sound r v i j k h.sound) ⟨t.wr_onlyIn r v i j k, t.wr_regsOnlyAt r v i j k⟩

theorem State.linkMoved.set (h : s.linkMoved t p x l a) (f : Fld) (v i j k : Nat) :
    s.linkMoved (t.set f v i j k) p x (l ++ [.regs]) (a ++ [f.reg.addr i j k]) := h.wr _ _ i j k

theorem State.linkMoved.count (h : s.linkMoved t p x l a) (f : Fld) (i : Nat) (n : Nat := 1) :
    s.linkMoved (t.count f i 0 0 n) p x (l ++ [.regs]) (a ++ [f.reg.addr i 0 0]) := h.set f _ i 0 0

theorem State.linkMoved.emit (h : s.linkMoved t p x l a) (o : Output) : s.linkMoved (t.emit o) p x (l ++ [.out]) a := by
  simpa using h.beside (t.emit_sound o h.sound) (t.emit_onlyIn o).touches

theorem State.linkMoved.raise (h : s.linkMoved t p x l a) (src : Src) (detail : Word) (inst : Nat) :
    s.linkMoved (t.raise src detail inst) p x (l ++ [.ltn]) a := by
  simpa using h.beside (t.raise_sound src detail inst _ _ _ h.sound) (t.raise_onlyIn src detail inst _ _ _).touches

theorem State.linkMoved.clock (h : s.linkMoved t p x l a) (hl : .tim ∉ l := by decide) : t.clock = s.clock := h.touches.1.clock hl

theorem State.onlyIn.mono_eq (h : s.onlyIn t l) (hl : .tim ∉ l := by decide) : t.mono = s.mono := congrArg (·.mono) (h.same .tim hl)

/-- Registers that are laid out alike from different bases never meet. -/
theorem Reg.addr_ne {r q : Reg} (i j k : Nat) (dims : r.dims = q.dims := by rfl) (base : r.base ≠ q.base := by decide) :
    r.addr i j k ≠ q.addr i j k := by
  unfold Reg.addr
  rw [dims]
  split <;> omega

/-- What an operation is known to leave is no part of its frame. -/
theorem State.onlyIn.without (h : s.onlyIn t l) {k : Part} (same : k.same s t) (hl : ∀ z ∈ l, z = k ∨ z ∈ m := by decide) :
    s.onlyIn t m := by
  intro z
  rcases h z with there | kept
  · rcases hl z there with rfl | there
    · exact .inr same
    · exact .inl there
  · exact .inr kept

/-- The first raise of Lantern's alone. -/
theorem State.raised_around {x : Src} {cls inst0 inst1 action : Nat} {detail : Word} {v : State} (raised : t.raised u x cls inst0 inst1 action detail)
    (before : t.ltn = s.ltn) (clock : t.clock = s.clock) (after : v.ltn = u.ltn) : s.raised v x cls inst0 inst1 action detail := by
  unfold State.raised at raised ⊢
  rw [after, raised, before, clock]

end

/-! ### Training (R225, R226) -/

/-- A link in TRAIN or RETRAIN from now on (R225). -/
def Link.starts (st : LinkState) (rate : Nat) (now : Instant) (preset want : Nat) (l : Link) : Link :=
  { l with st := st, since := now, rate := rate, lock := false, cold := false, syncWait := none,
           train := { Training.reset with preset := preset, wanted := want } }

theorem State.startTraining_retrain (s : State) (p rate : Nat) : s.startTraining p .retrain rate =
    (s.updLink p (Link.starts .retrain rate s.clock (s.link p).train.preset (s.link p).train.wanted)).sendTrain p
      (tsA rate (s.link p).train.preset (s.link p).train.wanted false) := rfl

/-! ### Leaving ACTIVE (R157, R160) -/

theorem State.actEnd_of_none {s : State} {code target : Nat} (absent : s.actFind code target = none) (st : Status) :
    s.actEnd code target st = s := by
  unfold State.actEnd
  rw [absent]

theorem State.actFind_of_idle {s : State} (idle : s.lmp.running = []) (code target : Nat) : s.actFind code target = none := by
  simp [State.actFind, idle]

section
variable {s : State} {p : Nat} (unloaded : s.actFind 5 p = none)
include unloaded

/-- The bank write of a port is given up; no reload of Lamplighter's runs there (R157). -/
theorem State.dropBank_onlyIn : s.onlyIn (s.dropBank p) [.wck, .hst] := by
  unfold State.dropBank
  split
  · exact .refl s _
  next w _ =>
    have drops := s.updWick_onlyIn p fun x => { x with write := none }
    have kept : State.actFind (s.updWick p fun x => { x with write := none }) 5 p = none := unloaded
    split
    next c _ =>
      cases c with
      | none => exact drops.mono (by decide)
      | some c => exact drops.trans (State.complete_onlyIn _ c .link 0)
    next => exact drops.mono (by decide)
    next =>
      dsimp only
      rw [State.actEnd_of_none kept]
      exact drops.mono (by decide)

theorem State.wickLeave_eq : s.wickLeave p = (s.dropBank p).updWick p fun w => { w with bankAcked := false } := by
  have kept : (s.dropBank p).actFind 5 p = none := by
    unfold State.actFind
    rw [(State.dropBank_onlyIn unloaded).same .lmp]
    exact unloaded
  unfold State.wickLeave
  rw [State.actEnd_of_none kept]

theorem State.leaveActive_onlyIn : s.onlyIn (s.leaveActive p) [.wck, .hst] := by
  refine State.onlyIn_if _ ?_
  rw [State.wickLeave_eq unloaded]
  exact ((State.dropBank_onlyIn unloaded).trans (State.updWick_onlyIn _ p _)).mono (by decide)

end

theorem State.leaveActive_inactive {s : State} {p : Nat} (inactive : (s.link p).st ≠ .active) : s.leaveActive p = s := by
  simp [State.leaveActive, inactive]

theorem State.twinPortLost_head (s : State) {p : Nat} (head : p < 24) : s.twinPortLost p = s := if_pos (.inl head)

theorem State.twinPortLost_inactive {s : State} {p : Nat} (inactive : (s.link p).st ≠ .active) : s.twinPortLost p = s :=
  if_pos (.inr inactive)

/-! ### RETRAIN (R226, R231) -/

/-- A link in RETRAIN from now on, at a rate; an attempt that goes on with an exchange keeps the set that it began with. -/
def Link.retraining (rate : Nat) (now : Instant) (l : Link) : Link :=
  Link.starts .retrain rate now l.train.preset l.train.wanted
    { l with capsFirst := if l.training || l.st == .lock then l.capsFirst else none, version := 0, unacked := [], queued := [] }

section
variable {s : State} {p : Nat} {parts : List Part}

theorem State.enterRetrain_moved (left : s.linkMoved ((s.leaveActive p).twinPortLost p) p (s.link p) parts []) (rate : Nat)
    (hp : .tim ∉ parts := by decide) :
    s.linkMoved (s.enterRetrain p rate) p ((s.link p).retraining rate s.clock) (parts ++ [.links, .out]) [] := by
  unfold State.enterRetrain
  dsimp only
  generalize (s.leaveActive p).twinPortLost p = u at left
  rw [left.link]
  have moved := left.updLink fun l => { l with
    capsFirst := if (s.link p).training || (s.link p).st == .lock then l.capsFirst else none, version := 0, unacked := [], queued := [] }
  rw [State.startTraining_retrain, moved.link, moved.clock (by simpa using hp)]
  exact ((moved.updLink _).emit _).mono (by simp) (by simp)

theorem State.linkMoved.trainsAt {t : State} {rate : Nat} {l : Link} {offs : List Nat}
    (h : s.linkMoved t p (l.retraining rate s.clock) parts offs) : s.trainsAt t p .retrain rate :=
  ⟨congrArg Link.st h.link, congrArg Link.rate h.link, congrArg Link.since h.link, congrArg Link.lock h.link,
    congrArg (·.train.ready) h.link, h.others⟩

/-- A head port leaves ACTIVE, if it is there, with no reload of Lamplighter's running on it. -/
theorem State.leaves_head (sound : s.sound) (head : p < 24) (unloaded : s.actFind 5 p = none) :
    s.linkMoved ((s.leaveActive p).twinPortLost p) p (s.link p) [.wck, .hst] [] := by
  rw [State.twinPortLost_head _ head]
  exact (State.linkMoved.refl sound (by omega)).beside (s.leaveActive_sound p sound) (State.leaveActive_onlyIn unloaded).touches

theorem State.leaves_inactive (sound : s.sound) (inside : p < 26) (inactive : (s.link p).st ≠ .active) :
    s.linkMoved ((s.leaveActive p).twinPortLost p) p (s.link p) [] [] := by
  rw [State.leaveActive_inactive inactive, State.twinPortLost_inactive inactive]
  exact .refl sound inside

theorem State.enterRetrain_inactive (sound : s.sound) (inside : p < 26) (inactive : (s.link p).st ≠ .active) (rate : Nat) :
    s.linkMoved (s.enterRetrain p rate) p ((s.link p).retraining rate s.clock) [.links, .out] [] :=
  State.enterRetrain_moved (State.leaves_inactive sound inside inactive) rate

theorem State.retrainPort_eq (head : p < 24) (active : (s.link p).st = .active) (why : Nat) : s.retrainPort p why =
    ((s.count .GHL_RETRAIN_CNT p).raise .ghlRetrain (BitVec.ofNat 32 why) p).enterRetrain p (s.link p).rate := by
  simp only [State.retrainPort, active, isHead, head, decide_true, if_true]
  rfl

/-- An ACTIVE head port enters RETRAIN at its rate, and GHL.RETRAIN is counted and raised with the reason as its detail (R226). -/
theorem State.retrainPort_active (sound : s.sound) (head : p < 24) (active : (s.link p).st = .active) (unloaded : s.actFind 5 p = none)
    (why : Nat) : s.linkMoved (s.retrainPort p why) p ((s.link p).retraining (s.link p).rate s.clock)
        [.regs, .ltn, .wck, .hst, .links, .out] [Reg.GHL_RETRAIN_CNT.addr p 0 0] ∧
      s.counted (s.retrainPort p why) .GHL_RETRAIN_CNT p ∧ s.raised (s.retrainPort p why) .ghlRetrain 1 p 0xFF 7 (BitVec.ofNat 32 why) := by
  have raises := ((State.linkMoved.refl sound (p := p) (by omega)).count .GHL_RETRAIN_CNT p).raise .ghlRetrain (BitVec.ofNat 32 why) p
  have trains := State.enterRetrain_moved (State.leaves_head raises.sound head unloaded) (s.link p).rate
  rw [← State.retrainPort_eq head active, raises.link, raises.clock] at trains
  refine ⟨(raises.trans trains).mono (by decide) (by simp [Fld.GHL_RETRAIN_CNT]), ?_, ?_⟩
  · exact (State.counted_count .GHL_RETRAIN_CNT p (State.sound_regs sound) (by decide) (by decide)).around rfl
      (trains.touches.2.get _ _ _ _ List.not_mem_nil)
  · exact trains.touches.1.same .ltn

/-! ### DOWN (R226, R228) -/

/-- A link that is DOWN from now on, with a reason. -/
def Link.fallen (reason : Nat) (now : Instant) (l : Link) : Link :=
  { l with st := .down, since := now, cold := false, reason := reason, version := 0, rate := 0, lock := false, laShort := false,
           fails := [], capsFirst := none, syncs := [], syncWait := none, geomSent := false, unacked := [], queued := [],
           ctlAck := none, naks := 0, viols := 0 }

/-- A head port is taken down; its output is electrically idle, and its side of the crossing is reset. -/
def State.felled (s : State) (p reason : Nat) : State :=
  (((s.leaveActive p).updLink p (Link.fallen reason s.clock)).emit (.electricalIdle p)).resetXing p

theorem State.resetXing_onlyIn (s : State) (x : Nat) : s.onlyIn (s.resetXing x) [.clk] := by
  intro z; cases z <;> simp [Part.same]

theorem State.felled_moved (left : s.linkMoved ((s.leaveActive p).twinPortLost p) p (s.link p) parts []) (head : p < 24) (reason : Nat)  :
    s.linkMoved (s.felled p reason) p ((s.link p).fallen reason s.clock) (parts ++ [.links, .out, .clk]) [] := by
  rw [State.twinPortLost_head _ head] at left
  have falls := left.updLink (Link.fallen reason s.clock)
  have idles := falls.emit (.electricalIdle p)
  exact (idles.beside (State.resetXing_sound _ p idles.sound) (State.resetXing_onlyIn _ p).touches).mono (by simp) (by simp)

/-- Where a port is not BUSY and no activity runs, none ends. -/
theorem State.endBusy_actEnd_idle (free : (s.link p).busy = false) (idle : s.lmp.running = []) (code : Nat) (st : Status) :
    (s.endBusy p).actEnd code p st = s := by
  have quiet : s.endBusy p = s := by simp [State.endBusy, free]
  rw [quiet, State.actEnd_of_none (State.actFind_of_idle idle code p)]

/-- A head port that is not BUSY goes down while Lamplighter runs nothing: GHL.DOWN is raised but for the host's own command. -/
theorem State.portDown_eq (left : s.linkMoved ((s.leaveActive p).twinPortLost p) p (s.link p) parts []) (head : p < 24)
    (free : (s.link p).busy = false) (idle : s.lmp.running = []) (reason : Nat) (fault : Bool) (hp : .tim ∉ parts := by decide)
    (hl : .lmp ∉ parts := by decide) : s.portDown p reason fault =
      if fault then (s.felled p reason).raise .ghlDown (BitVec.ofNat 32 reason) p else s.felled p reason := by
  have falls := State.felled_moved left head reason
  have busy : ((s.felled p reason).link p).busy = false := by rw [falls.link]; exact free
  have running : (s.felled p reason).lmp.running = [] := by rw [falls.touches.1.same .lmp (by simpa using hl), idle]
  have lost := State.twinPortLost_head (s.leaveActive p) head
  have clock : (s.leaveActive p).clock = s.clock := lost ▸ left.clock hp
  have falling : s.portDown p reason fault =
      if isHead p then ((if fault && isHead p then (s.felled p reason).raise .ghlDown (BitVec.ofNat 32 reason) p
        else s.felled p reason).endBusy p).actEnd 4 p .link
      else if fault && isHead p then (s.felled p reason).raise .ghlDown (BitVec.ofNat 32 reason) p else s.felled p reason := by
    unfold State.portDown State.felled
    rw [lost, ← clock]
    rfl
  rw [falling]
  simp only [isHead, head, decide_true, Bool.and_true, if_true]
  cases fault with
  | false => exact State.endBusy_actEnd_idle busy running 4 .link
  | true => exact State.endBusy_actEnd_idle (s := (s.felled p reason).raise .ghlDown (BitVec.ofNat 32 reason) p) busy running 4 .link

theorem State.felled_wentDown (left : s.linkMoved ((s.leaveActive p).twinPortLost p) p (s.link p) parts []) (head : p < 24)
    (reason : Nat) : s.wentDown (s.felled p reason) p reason := by
  have falls := State.felled_moved left head reason
  refine ⟨congrArg Link.st falls.link, congrArg Link.reason falls.link, congrArg Link.version falls.link,
    congrArg Link.unacked falls.link, List.mem_append_right _ (List.mem_singleton.mpr rfl), ?_, falls.others⟩
  have there : p < (((s.leaveActive p).updLink p (Link.fallen reason s.clock)).emit (.electricalIdle p)).clk.xings.length := by
    show p < (s.leaveActive p).clk.xings.length
    rw [State.sound_xings (State.twinPortLost_head (s.leaveActive p) head ▸ left.sound)]
    omega
  exact congrArg Crossing.sync (State.xing_updXing_same _ _ there)

/-- A port that goes down for a fault of its link: GHL.DOWN is raised with the reason (R226). -/
theorem State.portDown_fault (left : s.linkMoved ((s.leaveActive p).twinPortLost p) p (s.link p) parts []) (head : p < 24)
    (free : (s.link p).busy = false) (idle : s.lmp.running = []) (reason : Nat) (hp : .tim ∉ parts := by decide)
    (hl : .lmp ∉ parts := by decide) (hr : .ltn ∉ parts := by decide) :
    s.linkMoved (s.portDown p reason true) p ((s.link p).fallen reason s.clock) (parts ++ [.links, .out, .clk, .ltn]) [] ∧
      s.wentDown (s.portDown p reason true) p reason ∧
      s.raised (s.portDown p reason true) .ghlDown 2 p 0xFF 8 (BitVec.ofNat 32 reason) := by
  have falls := State.felled_moved left head reason
  rw [State.portDown_eq left head free idle reason true hp hl, if_pos rfl]
  refine ⟨(falls.raise .ghlDown (BitVec.ofNat 32 reason) p).mono (by simp) (by simp), State.felled_wentDown left head reason, ?_⟩
  have raised : (s.felled p reason).raised ((s.felled p reason).raise .ghlDown (BitVec.ofNat 32 reason) p) .ghlDown 2 p 0xFF 8
    (BitVec.ofNat 32 reason) := rfl
  exact State.raised_around raised (falls.touches.1.same .ltn (by simpa using hr)) (falls.clock (by simpa using hp)) rfl

end

end Sys2Proof.Machine
end

section
/-! The port commands (R226 to R229): what a write of GHL_CTRL brings about on its port, and how a link leaves DOWN and DETECT. -/

namespace Sys2Proof.Machine

/-! ### A write of GHL_CTRL (R226 to R229, R427, R437) -/

/-- A link in DETECT from now on; `reason` is why a training that timed out came here (R229). -/
def Link.detecting (reason : Nat) (now : Instant) (l : Link) : Link :=
  { l with st := .detect, since := now, cold := false, lock := false, reason := reason }

/-- A link whose block is BUSY (R227). -/
def Link.busied (l : Link) : Link := { l with busy := true }

/-- GHL_CTRL holds the fields of a value written. -/
def State.ghlCtrlStored (s : State) (p : Nat) (v : Word) : State := s.wr .GHL_CTRL (v &&& 0x8CE0FF00) p

/-- What a write of GHL_CTRL does once it is taken: a retrain starts, and the port is enabled or disabled. -/
def State.ghlCtrlTaken (s : State) (p : Nat) (v : Word) : State :=
  let t := if v.getLsbD 30 then (s.ghlCtrlStored p v).registerRetrain p else s.ghlCtrlStored p v
  if s.on .GHL_CTRL_en p && !v.msb then t.portDown p 1 false
  else if !s.on .GHL_CTRL_en p && v.msb then (t.reachStep 10).enablePort p
  else t

theorem State.verdict_idle {s : State} (idle : s.lmp.running = []) (code target : Nat) : s.verdict code target = (.run, 0) := by
  simp [State.verdict, idle]

theorem State.actRun_onlyIn (s : State) (a : Activity) : s.onlyIn (s.actRun a) [.lmp] := by
  intro x; cases x <;> simp [Part.same, State.actRun]

section
variable {s : State} {p : Nat} {v : Word} (sound : s.sound) (head : p < 24) (idle : s.lmp.running = []) (free : (s.link p).busy = false)
  (reaches : s.reaches (Reg.GHL_CTRL.addr p 0 0) = true) (version : Fld.GHL_CTRL_max_ver.of v = 1 ∨ Fld.GHL_CTRL_max_ver.of v = 2)
  (timed : Fld.GHL_CTRL_stat_timeout.of v ≠ 0)

include idle free reaches version timed in
/-- A value that the write may hold is taken where the port is not BUSY and no activity runs. -/
theorem State.writeGhlCtrl_takes : s.writeGhlCtrl p v = s.traffic.ghlCtrlTaken p v := by
  have pass : [(1, (s.traffic.link p).busy), (3, Fld.GHL_CTRL_max_ver.of v == 0 || Fld.GHL_CTRL_max_ver.of v == 3 ||
      Fld.GHL_CTRL_stat_timeout.of v == 0)].filter (·.2) = [] := by
    have busy : (s.traffic.link p).busy = false := free
    rcases version with ver | ver <;> simp [busy, ver, timed]
  have acts := State.gate_acts (v := v) (act := fun s => if v.getLsbD 30 then
    s.registerStart (Reg.GHL_CTRL.addr p 0 0) (s.ownActivity 4 p .register) fun s => s.ghlCtrlTaken p v else s.ghlCtrlTaken p v) reaches pass
  refine acts.trans (ite_eq_right_iff.mpr fun _ => ?_)
  simp [State.registerStart, State.ownActivity, State.verdict_idle (s := s.traffic) idle]

include sound head in
theorem State.ghlCtrlStored_moved : s.linkMoved (s.traffic.ghlCtrlStored p v) p (s.link p) [.pcie, .regs] [Reg.GHL_CTRL.addr p 0 0] :=
  ((State.linkMoved.refl sound (by omega)).beside (s.traffic_sound sound) s.traffic_onlyIn.touches).wr .GHL_CTRL _ p 0 0

include sound in
theorem State.ghlCtrlStored_rd : (s.traffic.ghlCtrlStored p v).rd .GHL_CTRL p = v &&& 0x8CE0FF00 :=
  State.rd_wr_same s.traffic .GHL_CTRL _ p 0 0 (State.sound_regs sound)

theorem State.ghlCtrlTaken_enables (enable : v.msb = true) (alone : v.getLsbD 30 = false) (off : s.on .GHL_CTRL_en p = false) :
    s.ghlCtrlTaken p v = ((s.ghlCtrlStored p v).reachStep 10).enablePort p := by
  rw [State.ghlCtrlTaken, alone, off, enable]
  rfl

theorem State.ghlCtrlTaken_disables (disable : v.msb = false) (alone : v.getLsbD 30 = false) (on : s.on .GHL_CTRL_en p = true) :
    s.ghlCtrlTaken p v = (s.ghlCtrlStored p v).portDown p 1 false := by
  rw [State.ghlCtrlTaken, alone, on, disable]
  rfl

theorem State.ghlCtrlTaken_retrains (enable : v.msb = true) (again : v.getLsbD 30 = true) (on : s.on .GHL_CTRL_en p = true) :
    s.ghlCtrlTaken p v = (s.ghlCtrlStored p v).registerRetrain p := by
  rw [State.ghlCtrlTaken, again, on, enable]
  rfl

include sound head idle free reaches version timed

/-- PORT_ENABLE of a port that is DOWN since the cold reset (R229). -/
theorem exec_portEnable_detects (enable : v.msb = true) (alone : v.getLsbD 30 = false) (off : s.on .GHL_CTRL_en p = false)
    (down : (s.link p).st = .down) (cold : (s.link p).cold = true) :
    ∃ t, exec (.portEnable p v) s = .next t ∧ (t.link p).st = .detect ∧ (t.link p).since = s.clock ∧
      (∀ q, q ≠ p → t.link q = s.link q) ∧ t.rd .GHL_CTRL p = v &&& 0x8CE0FF00 ∧ s.regsOnlyAt t [Reg.GHL_CTRL.addr p 0 0] ∧
      t.dev = { s.dev with flStep := max 10 s.dev.flStep } ∧ s.onlyIn t [.links, .regs, .dev, .pcie] := by
  have stored := State.ghlCtrlStored_moved (v := v) sound head
  have steps : (s.traffic.ghlCtrlStored p v).onlyIn ((s.traffic.ghlCtrlStored p v).reachStep 10) [.dev] := by
    intro x; cases x <;> simp [Part.same, State.reachStep]
  have reached := stored.beside (State.reachStep_sound _ 10 stored.sound) steps.touches
  have moved := reached.updLink (Link.detecting (s.link p).reason s.clock)
  have detects : ((s.traffic.ghlCtrlStored p v).reachStep 10).enablePort p =
      ((s.traffic.ghlCtrlStored p v).reachStep 10).updLink p (Link.detecting (s.link p).reason s.clock) := by
    rw [State.enablePort, reached.link, down, cold]
    rfl
  have runs : exec (.portEnable p v) s = .next (s.writeGhlCtrl p v) := if_pos ⟨head, enable⟩
  rw [State.writeGhlCtrl_takes idle free reaches version timed, State.ghlCtrlTaken_enables (s := s.traffic) enable alone off, detects] at runs
  exact ⟨_, runs, congrArg Link.st moved.link, congrArg Link.since moved.link, moved.others, State.ghlCtrlStored_rd sound,
    moved.regsOnlyAt, rfl, moved.onlyIn⟩

/-- PORT_DISABLE of an enabled port (R228). -/
theorem exec_portDisable_falls (disable : v.msb = false) (alone : v.getLsbD 30 = false) (on : s.on .GHL_CTRL_en p = true) :
    ∃ t, exec (.portDisable p v) s = .next t ∧ s.wentDown t p 1 ∧ t.rd .GHL_CTRL p = v &&& 0x8CE0FF00 ∧
      s.regsOnlyAt t [Reg.GHL_CTRL.addr p 0 0] ∧ s.onlyIn t [.links, .regs, .out, .clk, .wck, .hst, .pcie] := by
  have stored := State.ghlCtrlStored_moved (v := v) sound head
  have left := State.leaves_head stored.sound head (State.actFind_of_idle idle 5 p)
  have falls := stored.trans (State.felled_moved left head 1)
  have down := State.felled_wentDown left head 1
  have off : (!v.msb) = true := by rw [disable]; rfl
  have runs : exec (.portDisable p v) s = .next (s.writeGhlCtrl p v) := if_pos ⟨head, off⟩
  rw [State.writeGhlCtrl_takes idle free reaches version timed, State.ghlCtrlTaken_disables (s := s.traffic) disable alone on,
    State.portDown_eq left head (by rw [stored.link, free]) idle 1 false] at runs
  refine ⟨_, runs, down, ?_, falls.regsOnlyAt, falls.onlyIn⟩
  exact ((State.felled_moved left head 1).touches.2.rd _ _ _ _ List.not_mem_nil).trans (State.ghlCtrlStored_rd sound)

/-- PORT_RETRAIN_CMD of an ACTIVE port (R227). -/
theorem exec_portRetrainCmd_retrains (enable : v.msb = true) (again : v.getLsbD 30 = true) (on : s.on .GHL_CTRL_en p = true)
    (active : (s.link p).st = .active) :
    ∃ t, exec (.portRetrainCmd p v) s = .next t ∧ s.trainsAt t p .retrain (s.link p).rate ∧ (t.link p).busy = true ∧
      t.lmp.running.map (fun a => (a.code, a.target)) = [(4, p)] ∧ s.counted t .GHL_RETRAIN_CNT p ∧
      s.raised t .ghlRetrain 1 p 0xFF 7 1 ∧ t.rd .GHL_CTRL p = v &&& 0x8CE0FF00 ∧
      s.regsOnlyAt t [Reg.GHL_CTRL.addr p 0 0, Reg.GHL_RETRAIN_CNT.addr p 0 0] ∧
      s.onlyIn t [.links, .regs, .out, .wck, .hst, .pcie, .ltn, .lmp] := by
  have stored := State.ghlCtrlStored_moved (v := v) sound head
  have starts := (stored.updLink Link.busied).beside (State.actRun_sound _ (s.ownActivity 4 p .register) (State.updLink_sound _ p _
    stored.sound)) (State.actRun_onlyIn ((s.traffic.ghlCtrlStored p v).updLink p Link.busied) _).touches
  have asks : (s.traffic.ghlCtrlStored p v).registerRetrain p = (((s.traffic.ghlCtrlStored p v).updLink p Link.busied).actRun
      (s.ownActivity 4 p .register)).retrainPort p 1 := rfl
  have running : (((s.traffic.ghlCtrlStored p v).updLink p Link.busied).actRun (s.ownActivity 4 p .register)).lmp.running =
      [s.ownActivity 4 p .register] := congrArg (· ++ [_]) idle
  have held : (((s.traffic.ghlCtrlStored p v).updLink p Link.busied).actRun (s.ownActivity 4 p .register)).rd .GHL_CTRL p =
      v &&& 0x8CE0FF00 := State.ghlCtrlStored_rd sound
  have runs : exec (.portRetrainCmd p v) s = .next (s.writeGhlCtrl p v) := if_pos ⟨head, again⟩
  rw [State.writeGhlCtrl_takes idle free reaches version timed, State.ghlCtrlTaken_retrains (s := s.traffic) enable again on, asks] at runs
  generalize ((s.traffic.ghlCtrlStored p v).updLink p Link.busied).actRun (s.ownActivity 4 p .register) = u at starts running held runs
  have alone : u.actFind 5 p = none := by simp [State.actFind, running, State.ownActivity]
  obtain ⟨moved, counted, raised⟩ := State.retrainPort_active starts.sound head ((congrArg Link.st starts.link).trans active) alone 1
  rw [starts.link, starts.clock] at moved
  have whole := starts.trans moved
  refine ⟨_, runs, whole.trainsAt, congrArg Link.busy whole.link, ?_, ?_, ?_, ?_, whole.regsOnlyAt, whole.onlyIn⟩
  · rw [moved.touches.1.same .lmp, running]
    rfl
  · exact counted.around (starts.touches.2.get _ _ _ _ (by simp [Reg.addr, Fld.GHL_RETRAIN_CNT, Reg.GHL_RETRAIN_CNT, Reg.GHL_CTRL])) rfl
  · exact State.raised_around raised (starts.touches.1.same .ltn) starts.clock rfl
  · rw [moved.touches.2.rd _ _ _ _ (by simp [Reg.addr, Reg.GHL_RETRAIN_CNT, Reg.GHL_CTRL]), held]

end

/-! ### DOWN and DETECT are left (R229) -/

theorem exec_downTimeout_detects {s : State} {p : Nat} (sound : s.sound) (inside : p < 26) (down : (s.link p).st = .down)
    (enabled : s.linkEnabled p = true) (late : s.elapsed (s.link p).since 1000000000 = true) :
    ∃ t, exec (.downTimeout p) s = .next t ∧ (t.link p).st = .detect ∧ (t.link p).since = s.clock ∧
      (t.link p).reason = (s.link p).reason ∧ (∀ q, q ≠ p → t.link q = s.link q) ∧ s.onlyIn t [.links] := by
  have moved : s.linkMoved (s.enterDetect p (s.link p).reason) p ((s.link p).detecting (s.link p).reason s.clock) ([] ++ [.links]) [] :=
    (State.linkMoved.refl sound inside).updLink _
  exact ⟨_, if_pos ⟨inside, by rw [down]; rfl, enabled, by rw [late, Bool.or_true]⟩, congrArg Link.st moved.link,
    congrArg Link.since moved.link, (congrArg Link.reason moved.link).trans rfl, moved.others, moved.onlyIn⟩

theorem exec_detectTest_trains {s : State} {p : Nat} (sound : s.sound) (inside : p < 26) (detect : (s.link p).st = .detect) :
    ∃ t, exec (.detectTest p true true) s = .next t ∧ s.trainsAt t p .train (firstRate p) ∧ (t.link p).train.preset = s.firstPreset p ∧
      t.out = s.out ++ [.trainBlock p (tsA (firstRate p) (s.firstPreset p) 5 false)
        (laneBlock false (tsA (firstRate p) (s.firstPreset p) 5 false))] ∧ s.onlyIn t [.links, .out] := by
  have moved := ((State.linkMoved.refl sound inside).updLink (Link.starts .train (firstRate p) s.clock (s.firstPreset p) 5)).emit
    (.trainBlock p (tsA (firstRate p) (s.firstPreset p) 5 false) (laneBlock false (tsA (firstRate p) (s.firstPreset p) 5 false)))
  have trains : s.trainsAt _ p .train (firstRate p) := ⟨congrArg Link.st moved.link, congrArg Link.rate moved.link,
    congrArg Link.since moved.link, congrArg Link.lock moved.link, congrArg (·.train.ready) moved.link, moved.others⟩
  exact ⟨_, if_pos ⟨inside, by rw [detect]; rfl, rfl, rfl⟩, trains, congrArg (·.train.preset) moved.link, rfl, moved.onlyIn⟩

/-- Settles O24: each write of GHL_CTRL is taken, and does what its fields say; the two timed events by their conditions. -/
theorem portCommandsComplete : Obligations.PortCommandsComplete := by
  unfold Obligations.PortCommandsComplete
  intro s p sound
  refine ⟨fun v head idle free reaches version timed => ⟨?_, ?_, ?_⟩, ?_, ?_⟩
  · exact exec_portEnable_detects sound head idle free reaches version timed
  · exact exec_portDisable_falls sound head idle free reaches version timed
  · exact exec_portRetrainCmd_retrains sound head idle free reaches version timed
  · exact exec_downTimeout_detects sound
  · exact exec_detectTest_trains sound

end Sys2Proof.Machine
end

section
/-! Frames on one link (R220, R223, R255): what a frame that leaves makes of its link. -/

namespace Sys2Proof.Machine

/-- A link whose scrambler has moved on (R220). -/
def Link.scrambled (r : BitVec 23) (l : Link) : Link := { l with lfsr := r }

/-- A link behind a control frame: a SYNC REQ waits for its echo (R237), a QUIESCE is noted (R260). -/
def Link.transmitted (raw : Bytes) (now : Time) (r : BitVec 23) (l : Link) : Link :=
  { l with lfsr := r, quiesced := l.quiesced || (!isSyncReq raw && isQuiesce raw),
           syncWait := if isSyncReq raw then some (byteAt raw 9, now, false) else l.syncWait }

/-- A link but for what the sending of control frames changes. -/
def Link.unsent (l : Link) : Link :=
  { l with lfsr := 0, quiesced := false, syncWait := none, ctlNext := 0, unacked := [], queued := [] }

theorem Link.unsent_leaves (l : Link) (raw : Bytes) (now : Time) (r : BitVec 23) (at' : Instant) :
    ((l.transmitted raw now r).underWay raw at').unsent = l.unsent := rfl

theorem Link.unsent_waits (l : Link) (raw : Bytes) : (l.waiting raw).unsent = l.unsent := rfl

/-- A control frame that ends no bank write (R246). -/
def endsNoBank (raw : Bytes) : Prop := ¬ (byteAt raw 0 = 2 ∧ byteAt raw 9 = 21)

theorem endsNoBank_of_type {raw : Bytes} {type : Nat} (h : byteAt raw 0 = type) (other : type ≠ 2 := by decide) : endsNoBank raw :=
  fun bank => other (h.symm.trans bank.1)

theorem endsNoBank_ctrlFrame (op : Nat) (args payload : Bytes) : endsNoBank (ctrlFrame op args payload) := endsNoBank_of_type (type := 3) rfl

theorem endsNoBank_syncFrame (kind id : Nat) (v : Word) : endsNoBank (syncFrame kind id v) := endsNoBank_of_type (type := 4) rfl

section
variable {s t : State} {p : Nat} {x : Link} {l : List Part} {a : List Nat}

theorem State.linkMoved.sendIdle (h : s.linkMoved t p x l a) :
    ∃ r, s.linkMoved (t.sendIdle p) p (x.scrambled r) (l ++ [.links, .out]) a := by
  refine ⟨lfsrAdvance 80 x.lfsr, ?_⟩
  unfold State.sendIdle
  exact ((h.updLink fun l => l.scrambled (lfsrAdvance 80 l.lfsr)).emit _).mono (by simp) (by simp)

theorem State.linkMoved.sendFrame (h : s.linkMoved t p x l a) (frame : Bytes) :
    ∃ r, s.linkMoved (t.sendFrame p frame) p (x.scrambled r) (l ++ [.links, .out]) a := by
  obtain ⟨r, sent⟩ := ((h.updLink (Link.scrambled (lfsrAdvance (128 * (frame.length / 16)) (t.link p).lfsr))).emit
    (.linkFrame p frame (dataBlocks (frame.length / 16) (t.link p).lfsr frame))).sendIdle
  exact ⟨r, sent.mono (by simp) (by simp)⟩

/-- A control frame leaves; what it notes in its link is `Link.transmitted`. -/
theorem State.transmitCtl_moved (sound : s.sound) (inside : p < 26) (raw : Bytes) (seq : BitVec 32) :
    ∃ r, s.linkMoved (s.transmitCtl p raw seq) p ((s.link p).transmitted raw s.mono r) [.links, .wck, .out] [] := by
  have start := State.linkMoved.refl sound inside
  unfold State.transmitCtl
  by_cases sync : isSyncReq raw = true
  · obtain ⟨r, sent⟩ := start.sendFrame (finishFrame (splice raw 12 (toLe 4 s.mono.toNat)) seq)
    have moved := sent.updLink fun l => { l with syncWait := some (byteAt raw 9, s.mono, false) }
    rw [if_pos sync]
    exact ⟨r, (moved.to (by simp [Link.transmitted, Link.scrambled, sync])).mono⟩
  · have noted : s.linkMoved (if isQuiesce raw then s.updLink p Link.quiet else s) p
        { s.link p with quiesced := (s.link p).quiesced || isQuiesce raw } [.links] [] := by
      split
      next quiet => exact (start.updLink Link.quiet).to (by simp [Link.quiet, quiet])
      next loud => exact (start.to (by simp [loud])).mono
    obtain ⟨r, sent⟩ := noted.sendFrame (finishFrame raw seq)
    have ends : State.touches _ _ [.wck] [] := State.touches_if (byteAt raw 0 = 2 ∧ byteAt raw 9 = 21)
      (State.updWick_onlyIn ((if isQuiesce raw then s.updLink p Link.quiet else s).sendFrame p (finishFrame raw seq)) p
        (WickPort.timed ((if isQuiesce raw then s.updLink p Link.quiet else s).sendFrame p (finishFrame raw seq)).clock)).touches
    rw [if_neg sync]
    refine ⟨r, ?_⟩
    have moved := sent.beside ?_ ends
    · exact (moved.to (by simp [Link.transmitted, Link.scrambled, sync])).mono
    · split
      · exact State.updWick_sound _ p _ sent.sound
      · exact sent.sound

/-- Only the last frame of a bank write is noted in Wick (R157). -/
theorem State.transmitCtl_wck {raw : Bytes} (other : endsNoBank raw) (s : State) (p : Nat) (seq : BitVec 32) :
    (s.transmitCtl p raw seq).wck = s.wck := by
  have kept (t : State) (frame : Bytes) : (t.sendFrame p frame).wck = t.wck := (t.sendFrame_onlyIn p frame).same .wck
  unfold State.transmitCtl
  split
  · simp [kept]
  · dsimp only
    rw [if_neg other]
    split <;> simp [kept]

theorem State.transmitCtl_moved_narrow (sound : s.sound) (inside : p < 26) {raw : Bytes} (other : endsNoBank raw) (seq : BitVec 32) :
    ∃ r, s.linkMoved (s.transmitCtl p raw seq) p ((s.link p).transmitted raw s.mono r) [.links, .out] [] := by
  obtain ⟨r, moved⟩ := State.transmitCtl_moved sound inside raw seq
  exact ⟨r, { moved with touches := ⟨moved.touches.1.without (k := .wck) (s.transmitCtl_wck other p _), moved.touches.2⟩ }⟩

/-- A control frame leaves at once where fewer than four are under way, none waits, and the port may send more than IDLE (R236, R255). -/
theorem State.linkMoved.sendCtl_leaves (h : s.linkMoved t p x l a) {raw : Bytes} (room : x.unacked.length < 4) (first : x.queued = [])
    (loud : t.muted p = false) (other : endsNoBank raw) :
    ∃ r, s.linkMoved (t.sendCtl p raw) p ((x.transmitted raw t.mono r).underWay raw t.clock) (l ++ [.links, .out]) a := by
  obtain ⟨r, moved⟩ := State.transmitCtl_moved_narrow h.sound h.inside other x.ctlNext
  rw [State.sendCtl_eq, h.link, if_pos (by simp [room, first, loud])]
  rw [h.link] at moved
  exact ⟨r, ((h.trans moved).updLink _).mono (by simp) (by simp)⟩

/-- Whether it leaves or waits, a control frame changes nothing of its link but what the sending of frames does. -/
theorem State.linkMoved.sendCtl (h : s.linkMoved t p x l a) {raw : Bytes} (other : endsNoBank raw) :
    ∃ y, s.linkMoved (t.sendCtl p raw) p y (l ++ [.links, .out]) a ∧ y.unsent = x.unsent := by
  obtain ⟨r, moved⟩ := State.transmitCtl_moved_narrow h.sound h.inside other x.ctlNext
  rw [State.sendCtl_eq, h.link]
  rw [h.link] at moved
  split
  · exact ⟨_, ((h.trans moved).updLink _).mono (by simp) (by simp), x.unsent_leaves raw t.mono r t.clock⟩
  · exact ⟨_, (h.updLink _).mono (by simp) (by simp), x.unsent_waits raw⟩

/-- What mutes a port stands in the device's state, and in two fields of its link. -/
theorem State.muted_updLink (s : State) (p : Nat) {f : Link → Link} (kept : ∀ k, (f k).sending.2.2 = k.sending.2.2 := by exact fun _ => rfl) :
    (s.updLink p f).muted p = s.muted p :=
  State.muted_congr rfl (State.link_updLink_proj s p p (fun k => k.sending.2.2) kept)

theorem State.muted_inactive {s : State} {p : Nat} (inactive : (s.link p).st ≠ .active) : s.muted p = false := by
  simp [State.muted, State.active, inactive]

end

end Sys2Proof.Machine
end

section
/-! Training, block lock and LOCK (R219, R222, R225, R226, R231). -/

namespace Sys2Proof.Machine

/-! ### The training blocks (R225) -/

theorem trainBlockOf_length (rate p : Nat) (t : Training) : (trainBlockOf rate p t).length = 16 := by
  unfold trainBlockOf
  split <;> simp [tsA, tsB]

/-- A link whose training has come to `t`. -/
def Link.trained (t : Training) (l : Link) : Link := { l with train := t }

/-- A link whose runs of consecutive training blocks begin again. -/
def Link.runsBroken (l : Link) : Link := { l with train := { l.train with readySeen := 0, tsbRecv := 0 } }

/-- A link that enters LOCK: its scrambler is at the seed, and it has received no block (R220, R226). -/
def Link.locking (now : Instant) (l : Link) : Link := { l with st := .lock, since := now, lock := false, lfsr := 0x1DBFBC, rx := ⟨0, 0, []⟩ }

section
variable {s t : State} {p : Nat} {x : Link} {l : List Part} {a : List Nat} {block : Bytes} {ok : Bool} {want : Nat}

/-- A good TS-A: this end takes the preset that it asks for, and one training block leaves (log 35). -/
theorem exec_tsAReceived_good (inside : p < 26) (training : (s.link p).training = true) (good : tsAOk (s.link p).rate block = true) :
    ∃ t, exec (.tsAReceived p block ok want) s = .next ((s.updLink p (Link.trained t)).sendTrain p (trainBlockOf (s.link p).rate p t)) ∧
      t.preset = byteAt block 3 ∧ t.ready = ((s.link p).train.ready || ok) := by
  show ∃ t, execTsAReceived p block ok want s = _ ∧ _
  unfold execTsAReceived
  dsimp only
  rw [if_neg (by simp [training, inside]), if_neg (by simp [good])]
  exact ⟨_, rfl, rfl, rfl⟩

theorem exec_tsAReceived_bad (inside : p < 26) (training : (s.link p).training = true) (bad : tsAOk (s.link p).rate block = false) :
    exec (.tsAReceived p block ok want) s = .next (s.badTrain p) := by
  show execTsAReceived p block ok want s = _
  unfold execTsAReceived
  dsimp only
  rw [if_neg (by simp [training, inside]), if_pos (by simp [bad])]

/-- The TS-B that completes both runs: a last training block leaves, and the link enters LOCK. -/
theorem exec_tsBReceived_last (inside : p < 26) (training : (s.link p).training = true) (good : tsBOk (s.link p).rate block = true)
    (final : (s.link p).train.final = true) (received : 7 ≤ (s.link p).train.tsbRecv) (sent : 15 ≤ (s.link p).train.tsbSent) :
    ∃ t x, exec (.tsBReceived p block) s = .next ((((s.updLink p (Link.trained t)).sendTrain p x).enterLock p).sendIdle p) := by
  show ∃ t x, execTsBReceived p block s = _
  unfold execTsBReceived
  dsimp only
  rw [if_neg (by simp [training, inside]), if_neg (by simp [good]), if_pos (by simp [final]; omega)]
  exact ⟨_, _, rfl⟩

theorem State.fresh_onlyIn (s : State) : s.onlyIn s.fresh.2 [.free] := by
  intro z; cases z <;> simp [State.fresh, Part.same]

theorem State.linkMoved.enterLock (h : s.linkMoved t p x l a) :
    s.linkMoved (t.enterLock p) p (x.locking t.clock) (l ++ [.links, .free, .regs]) (a ++ [Reg.GHL_EQ.addr p 0 0]) := by
  have locks := h.updLink (Link.locking t.clock)
  unfold State.enterLock
  dsimp only
  split
  · have drawn := locks.beside (State.fresh_sound _ locks.sound) (State.fresh_onlyIn _).touches
    exact (drawn.wr .GHL_EQ _ p 0 0).mono (by simp) (by simp)
  · exact locks.mono (by simp)

/-- An invalid training block is counted on a head port (R222). -/
theorem State.badTrain_moved (sound : s.sound) (inside : p < 26) :
    s.linkMoved (s.badTrain p) p (s.link p).runsBroken [.links, .regs] [Reg.GHL_SYNCHDR_CNT.addr p 0 0] ∧
      (p < 24 → s.counted (s.badTrain p) .GHL_SYNCHDR_CNT p) := by
  have start := State.linkMoved.refl sound inside
  unfold State.badTrain
  by_cases head : p < 24
  · rw [if_pos (by simp [isHead, head])]
    exact ⟨((start.count .GHL_SYNCHDR_CNT p).updLink Link.runsBroken).mono (by decide) (by simp [Fld.GHL_SYNCHDR_CNT]),
      fun _ => State.counted_count .GHL_SYNCHDR_CNT p (State.sound_regs sound) (by decide) (by decide)⟩
  · rw [if_neg (by simp [isHead, head])]
    exact ⟨(start.updLink Link.runsBroken).mono, fun there => absurd there head⟩

end

/-! ### A failed attempt (R226) -/

/-- A link's failures of the last second, with the one now. -/
def Link.failed (recent : List Instant) (l : Link) : Link := { l with fails := recent }

section
variable {s : State} {p : Nat} {recent : List Instant}

theorem State.failAttempt_again (sound : s.sound) (inside : p < 26) (inactive : (s.link p).st ≠ .active)
    (hr : recent = (s.link p).fails.filter (fun x => decide (s.clock < x + 1000000000))) (few : recent.length < 2) :
    s.linkMoved (s.failAttempt p) p (((s.link p).failed (recent ++ [s.clock])).retraining (s.link p).rate s.clock) [.links, .out] [] := by
  have fails := (State.linkMoved.refl sound inside).updLink (Link.failed (recent ++ [s.clock]))
  have trains := State.enterRetrain_inactive fails.sound inside (by rw [fails.link]; exact inactive) (s.link p).rate
  rw [fails.link] at trains
  unfold State.failAttempt
  dsimp only
  rw [← hr, if_neg (by simp; omega)]
  exact (fails.trans trains).mono

theorem State.failAttempt_third (hr : recent = (s.link p).fails.filter (fun x => decide (s.clock < x + 1000000000)))
    (many : 2 ≤ recent.length) : s.failAttempt p = s.portDown p 3 true := by
  unfold State.failAttempt
  dsimp only
  rw [← hr, if_pos (by simp; omega)]

end

end Sys2Proof.Machine
end

section
/-! The blocks received on a link (R219, R222, R231): what a run of equal blocks brings about. -/

namespace Sys2Proof.Machine

/-- An IDLE block is a control block of a known kind (R221). -/
theorem isIdleBlock_valid {b : BitVec 130} (idle : isIdleBlock b = true) : blockValid b = true := by
  have header : headerValid b = true := by
    simp only [isIdleBlock, Bool.and_eq_true, Bool.not_eq_true'] at idle
    obtain ⟨⟨one, zero⟩, -⟩ := idle
    rw [headerValid, one, zero]
    rfl
  simp [blockValid, header, idle]

/-- What has passed 1,024 blocks counts no longer (R222). -/
theorem Receiver.take_bad_valid (x : Receiver) {b : BitVec 130} (valid : blockValid b = true) (n : Nat) :
    (x.take b n).bad.length ≤ x.bad.length := by
  have shorter := List.length_filter_le (fun k => decide (k < 1024)) (x.bad.map (· + n))
  simpa [Receiver.take, valid] using shorter

theorem Receiver.take_zero_bad (x : Receiver) (b : BitVec 130) : (x.take b 0).bad.length ≤ x.bad.length := by
  have shorter := List.length_filter_le (fun k => decide (k < 1024)) x.bad
  unfold Receiver.take
  dsimp only
  split <;> simpa using shorter

/-- A receiver that has taken a run of blocks. -/
def Link.receiving (b : BitVec 130) (n : Nat) (l : Link) : Link := { l with rx := l.rx.take b n }

/-- Block lock is there; invalid blocks count towards its loss from here (R222). -/
def Link.locked (l : Link) : Link := { l with lock := true, rx := { l.rx with bad := [] } }

/-- Block lock is lost (R222). -/
def Link.unlocked (l : Link) : Link := { l with lock := false, rx := ⟨0, 0, []⟩ }

section
variable {s : State} {p : Nat}

theorem State.receiveRun_none (s : State) (p : Nat) (b : BitVec 130) (fuel : Nat) : s.receiveRun p b fuel 0 = s := by
  cases fuel <;> simp [State.receiveRun]

/-- The invalid blocks of a run are counted on a head port (R222). -/
def State.countedRun (s : State) (p : Nat) (b : BitVec 130) (n : Nat) : State :=
  if isHead p && !blockValid b then s.count .GHL_SYNCHDR_CNT p 0 0 n else s

/-- A run of equal blocks that ends where the lock may change, or before, is received as one piece. -/
theorem State.receiveRun_whole (inside : p < 26) (receives : (s.link p).st ∈ [LinkState.lock, .caps, .active]) {b : BitVec 130} {n : Nat}
    (some' : 0 < n) (whole : n ≤ (s.link p).rx.piece (s.link p).lock b n) :
    s.receiveRun p b n n = ((s.countedRun p b n).updLink p (Link.receiving b n)).judgeLock p := by
  obtain ⟨m, rfl⟩ : ∃ m, n = m + 1 := ⟨n - 1, by omega⟩
  have open' : ¬ (m + 1 = 0 ∨ 26 ≤ p ∨ (! [LinkState.lock, .caps, .active].contains (s.link p).st) = true) := by
    have listens : [LinkState.lock, .caps, .active].contains (s.link p).st = true := by simpa using receives
    rw [listens]
    simp [inside]
  rw [State.receiveRun, if_neg open']
  dsimp only
  rw [Nat.min_eq_left whole, Nat.sub_self, State.receiveRun_none]
  rfl

/-- What the lock's loss and the end of LOCK ask, once block lock has been given. -/
def State.lockJudged (s : State) (p : Nat) : State :=
  if (s.link p).lock && decide (16 ≤ (s.link p).rx.bad.length) then s.loseLock p
  else if (s.link p).st == .lock && (s.link p).lock && decide (4096 ≤ (s.link p).rx.idles) then
    (if isHead p then s.enterCaps p else s.twinPortActive p)
  else s

theorem State.judgeLock_eq (s : State) (p : Nat) : s.judgeLock p =
    (if (s.link p).st == .lock && !(s.link p).lock && decide (64 ≤ (s.link p).rx.headers) then s.updLink p Link.locked
      else s).lockJudged p := rfl

theorem State.judgeLock_locks (sound : s.sound) (inside : p < 26) (lock : (s.link p).st = .lock) (free : (s.link p).lock = false)
    (headers : 64 ≤ (s.link p).rx.headers) (idles : (s.link p).rx.idles < 4096) : s.judgeLock p = s.updLink p Link.locked := by
  have there := s.link_updLink_same Link.locked (by rw [State.sound_links sound]; exact inside)
  rw [State.judgeLock_eq, if_pos (by simp [lock, free, headers]), State.lockJudged, there, if_neg (by simp [Link.locked]),
    if_neg (by simp [Link.locked, Nat.not_le.mpr idles])]

theorem State.judgeLock_locked (locked : (s.link p).lock = true) : s.judgeLock p = s.lockJudged p := by
  rw [State.judgeLock_eq, if_neg (by simp [locked])]

theorem State.judgeLock_loses (locked : (s.link p).lock = true) (bad : 16 ≤ (s.link p).rx.bad.length) :
    s.judgeLock p = s.loseLock p := by
  rw [State.judgeLock_locked locked, State.lockJudged, if_pos (by simp [locked, bad])]

theorem State.judgeLock_completes (lock : (s.link p).st = .lock) (locked : (s.link p).lock = true)
    (good : (s.link p).rx.bad.length < 16) (idles : 4096 ≤ (s.link p).rx.idles) :
    s.judgeLock p = if isHead p then s.enterCaps p else s.twinPortActive p := by
  rw [State.judgeLock_locked locked, State.lockJudged, if_neg (by simp; omega), if_pos (by simp [lock, locked, idles])]

theorem State.loseLock_active (active : (s.link p).st = .active) : s.loseLock p = (s.updLink p Link.unlocked).retrainPort p 0 := by
  unfold State.loseLock
  rw [active]
  rfl

end

/-! ### The end of LOCK -/

/-- A head port in CAPS from now on: its control sequence numbers begin again (R231, R255). -/
def Link.offering (maxVer : Nat) (now : Instant) (l : Link) : Link :=
  { l with st := .caps, since := now, maxVer := if l.capsFirst.isSome then l.maxVer else maxVer, version := 0, ctlNext := 0, ctlAck := none,
           unacked := [], queued := [], syncs := [], syncWait := none, geomSent := false, statNext := none, sentActive := false,
           lineAck := none }

theorem State.enterCaps_eq (s : State) (p : Nat) : s.enterCaps p =
    (s.updLink p (Link.offering (s.get .GHL_CTRL_max_ver p) s.clock)).sendCtl p
      (ctrlFrame 1 [] ((s.updLink p (Link.offering (s.get .GHL_CTRL_max_ver p) s.clock)).offerPayload p)) := rfl

/-- A twin port that is ACTIVE from now on (R318, R323). -/
def Link.joining (now : Instant) (l : Link) : Link :=
  { l with st := .active, since := now, version := 2, ctlNext := 0, ctlExpected := 0, ctlAck := none, unacked := [], queued := [] }

section
variable {s t : State} {p : Nat} {x : Link} {l : List Part} {a : List Nat}

/-- The one frame under way after a first one has left. -/
theorem State.linkMoved.ctlSent {raw : Bytes} {now : Time} {r : BitVec 23} {seq : BitVec 32}
    (h : s.linkMoved t p ((x.transmitted raw now r).underWay raw s.clock) l a) (none : x.unacked = []) (empty : x.queued = [])
    (next : x.ctlNext = seq) : s.ctlSent t p seq raw := by
  unfold State.ctlSent
  rw [h.link]
  simp [Link.underWay, Link.transmitted, none, empty, next]

theorem State.linkMoved.enterCaps (h : s.linkMoved t p x l a) : ∃ maxVer now r raw,
    s.linkMoved (t.enterCaps p) p (((x.offering maxVer t.clock).transmitted raw now r).underWay raw t.clock) (l ++ [.links, .out]) a ∧
      byteAt raw 0 = 3 ∧ byteAt raw 8 = 1 := by
  have offers := h.updLink (Link.offering (t.get .GHL_CTRL_max_ver p) t.clock)
  obtain ⟨r, sent⟩ := offers.sendCtl_leaves (raw := ctrlFrame 1 []
      ((t.updLink p (Link.offering (t.get .GHL_CTRL_max_ver p) t.clock)).offerPayload p))
    (by simp [Link.offering]) rfl (State.muted_inactive (by rw [offers.link]; simp [Link.offering])) (endsNoBank_ctrlFrame _ _ _)
  rw [State.enterCaps_eq]
  exact ⟨_, _, r, _, sent.mono (by simp), rfl, rfl⟩

theorem State.sendWaiting_none {s : State} (none : s.twn.waiting = []) : s.sendWaiting = s := by
  have same : { s with twn := { s.twn with waiting := [] } } = s := by rw [← none]
  unfold State.sendWaiting
  rw [none, same]
  rfl

theorem State.resendIngests_none {s : State} (none : s.twn.proposals = []) : s.resendIngests = s := by
  unfold State.resendIngests
  rw [none]
  rfl

theorem State.pairPortUp_unpaired {s : State} (apart : s.twn.pair ≠ .pairing) : s.pairPortUp = s := by
  simp [State.pairPortUp, apart]

/-- A twin port joins where no pairing waits for it, and nothing waits to be sent. -/
theorem State.twinPortActive_alone {s : State} (apart : s.twn.pair ≠ .pairing) (waiting : s.twn.waiting = []) (proposals : s.twn.proposals = []) :
    s.twinPortActive p = s.updLink p (Link.joining s.clock) := by
  have joins : s.twinPortActive p = if !(s.twinActive 0 || s.twinActive 1)
      then (s.updLink p (Link.joining s.clock)).pairPortUp.sendWaiting.resendIngests
      else (s.updLink p (Link.joining s.clock)).pairPortUp.sendWaiting := rfl
  have up : (s.updLink p (Link.joining s.clock)).pairPortUp = s.updLink p (Link.joining s.clock) := State.pairPortUp_unpaired apart
  rw [joins, up, State.sendWaiting_none (s := s.updLink p (Link.joining s.clock)) waiting,
    State.resendIngests_none (s := s.updLink p (Link.joining s.clock)) proposals, ite_self]

end

end Sys2Proof.Machine
end

section
/-! The training, block lock and LOCK commands (R219, R222, R225, R226, R231). -/

namespace Sys2Proof.Machine

section
variable {s : State} {p : Nat} {b : BitVec 130} {n : Nat}

theorem State.countedRun_valid (valid : blockValid b = true) : s.countedRun p b n = s := by
  simp [State.countedRun, valid]

theorem State.countedRun_bad (head : p < 24) (bad : blockValid b = false) : s.countedRun p b n = s.count .GHL_SYNCHDR_CNT p 0 0 n := by
  simp [State.countedRun, bad, isHead, head]

/-- The block that completes 64 valid sync headers gives block lock (R222). -/
theorem State.receiveRun_locks (sound : s.sound) (inside : p < 26) (lock : (s.link p).st = .lock) (free : (s.link p).lock = false)
    (valid : blockValid b = true) (before : (s.link p).rx.headers < 64) (last : (s.link p).rx.headers + n = 64)
    (idles : ((s.link p).rx.take b n).idles < 4096) :
    s.linkMoved (s.receiveRun p b n n) p ((s.link p).receiving b n).locked [.links] [] := by
  have header : headerValid b = true := by
    simp only [blockValid, Bool.and_eq_true] at valid
    exact valid.1
  have whole : n ≤ (s.link p).rx.piece (s.link p).lock b n := by simp [Receiver.piece, free, header]; omega
  have received := (State.linkMoved.refl sound inside).updLink (Link.receiving b n)
  have link := received.link
  rw [State.receiveRun_whole inside (by simp [lock]) (by omega) whole, State.countedRun_valid valid,
    State.judgeLock_locks received.sound inside (by rw [link]; exact lock) (by rw [link]; exact free)
      (by rw [link]; simp [Link.receiving, Receiver.take, header]; omega) (by rw [link]; exact idles)]
  exact (received.updLink Link.locked).mono

/-- On an ACTIVE head port the invalid block that makes 16 within 1,024 ends block lock: the port trains again (R222, R226). -/
theorem State.receiveRun_loses (sound : s.sound) (head : p < 24) (active : (s.link p).st = .active) (locked : (s.link p).lock = true)
    (idle : s.lmp.running = []) (bad : blockValid b = false) (many : 16 ≤ ((s.link p).rx.take b n).bad.length)
    (before : (s.link p).rx.bad.length < 16) (last : (s.link p).rx.bad.length + n ≤ 16) :
    s.linkMoved (s.receiveRun p b n n) p (((s.link p).receiving b n).unlocked.retraining (s.link p).rate s.clock)
        [.links, .regs, .out, .wck, .hst, .ltn] [Reg.GHL_SYNCHDR_CNT.addr p 0 0, Reg.GHL_RETRAIN_CNT.addr p 0 0] ∧
      (s.receiveRun p b n n).get .GHL_SYNCHDR_CNT p = min (s.get .GHL_SYNCHDR_CNT p + n) (2 ^ 32 - 1) ∧
      s.counted (s.receiveRun p b n n) .GHL_RETRAIN_CNT p ∧
      s.raised (s.receiveRun p b n n) .ghlRetrain 1 p 0xFF 7 0 := by
  have other : isIdleBlock b = false := by
    by_contra idle
    simp [isIdleBlock_valid (by simpa using idle)] at bad
  have some' : 0 < n := by
    rcases Nat.eq_zero_or_pos n with rfl | pos
    · have := (s.link p).rx.take_zero_bad b
      omega
    · exact pos
  have whole : n ≤ (s.link p).rx.piece (s.link p).lock b n := by simp [Receiver.piece, locked, bad, other]; omega
  have counts := (State.linkMoved.refl sound (p := p) (by omega)).count .GHL_SYNCHDR_CNT p n
  have received := counts.updLink (Link.receiving b n)
  have loses := received.updLink Link.unlocked
  have sorted := State.sound_regs sound
  have counted : (s.count .GHL_SYNCHDR_CNT p 0 0 n).get .GHL_SYNCHDR_CNT p = min (s.get .GHL_SYNCHDR_CNT p + n) (2 ^ 32 - 1) :=
    (State.get_set_same .GHL_SYNCHDR_CNT _ p 0 0 sorted (by decide) (by decide)).trans
      (Nat.mod_eq_of_lt (Nat.lt_of_le_of_lt (Nat.min_le_right _ _) (by decide)))
  have run : s.receiveRun p b n n =
      (((s.count .GHL_SYNCHDR_CNT p 0 0 n).updLink p (Link.receiving b n)).updLink p Link.unlocked).retrainPort p 0 := by
    rw [State.receiveRun_whole (by omega) (by simp [active]) some' whole, State.countedRun_bad head bad,
      State.judgeLock_loses (by rw [received.link]; exact locked) (by rw [received.link]; exact many),
      State.loseLock_active (by rw [received.link]; exact active)]
  obtain ⟨trains, retrained, raised⟩ := State.retrainPort_active loses.sound head (by rw [loses.link]; exact active)
    (State.actFind_of_idle idle 5 p) 0
  rw [← run] at trains retrained raised
  rw [loses.link] at trains
  have apart : Reg.GHL_RETRAIN_CNT.addr p 0 0 ≠ Reg.GHL_SYNCHDR_CNT.addr p 0 0 := Reg.addr_ne p 0 0
  refine ⟨(loses.trans trains).mono (by decide) (by simp [Fld.GHL_SYNCHDR_CNT]), ?_, ?_, raised⟩
  · exact (trains.touches.2.get .GHL_SYNCHDR_CNT p 0 0 (by simpa [Fld.GHL_SYNCHDR_CNT] using apart.symm)).trans counted
  · exact retrained.around (loses.touches.2.get .GHL_RETRAIN_CNT p 0 0
      (by simpa [Fld.GHL_SYNCHDR_CNT, Fld.GHL_RETRAIN_CNT] using apart)) rfl

/-- The IDLE block that completes 4,096 in LOCK ends it (R231). -/
theorem State.receiveRun_completes (sound : s.sound) (inside : p < 26) (lock : (s.link p).st = .lock) (locked : (s.link p).lock = true)
    (idle : isIdleBlock b = true) (before : (s.link p).rx.idles < 4096) (last : (s.link p).rx.idles + n = 4096)
    (good : (s.link p).rx.bad.length < 16) : s.receiveRun p b n n =
      if isHead p then (s.updLink p (Link.receiving b n)).enterCaps p else (s.updLink p (Link.receiving b n)).twinPortActive p := by
  have valid := isIdleBlock_valid idle
  have whole : n ≤ (s.link p).rx.piece (s.link p).lock b n := by simp [Receiver.piece, locked, valid, idle]; omega
  have link := ((State.linkMoved.refl sound inside).updLink (Link.receiving b n)).link
  have kept := (s.link p).rx.take_bad_valid valid n
  rw [State.receiveRun_whole inside (by simp [lock]) (by omega) whole, State.countedRun_valid valid,
    State.judgeLock_completes (by rw [link]; exact lock) (by rw [link]; exact locked)
      (by rw [link]; exact Nat.lt_of_le_of_lt kept good)
      (by rw [link]; simp [Link.receiving, Receiver.take, idle]; omega)]

end

/-- The three commands receive blocks, whatever they bring about (R219). -/
theorem exec_receives {p : Nat} {c : List (BitVec 130 × Nat) → Instr}
    (receives : c = Instr.blockLockAcquired p ∨ c = Instr.blockLockLost p ∨ c = Instr.lockComplete p) (s : State)
    (blocks : List (BitVec 130 × Nat)) : exec (c blocks) s = .next (s.receiveBlocks p blocks) := by
  obtain rfl | rfl | rfl := receives <;> rfl

/-- Settles O25: each command is an operation of the layer of links on the one link `p`; a run of equal blocks is one piece of
`receiveRun`, judged once. -/
theorem trainingCommandsComplete : Obligations.TrainingCommandsComplete := by
  intro s p sound inside
  refine ⟨fun block ok want training => ⟨fun good => ?tsaGood, fun bad => ?tsaBad⟩, fun block training good final received sent => ?tsbLast,
    fun passed recent hr => ⟨fun train => ?trainFalls, fun retrain few => ?retrainAgain⟩,
    fun c receives => ⟨?noBlocks, fun x y u first => ?blocksInTurn, fun b n r hr => ?oneRun⟩,
    fun lock passed recent hr => ⟨fun few => ?lockAgain, fun head idle free many => ?lockThird⟩⟩
  case tsaGood =>
    obtain ⟨t, run, preset, ready⟩ := exec_tsAReceived_good (ok := ok) (want := want) inside training good
    have moved := ((State.linkMoved.refl sound inside).updLink (Link.trained t)).emit
      (.trainBlock p (trainBlockOf (s.link p).rate p t) (laneBlock false (trainBlockOf (s.link p).rate p t)))
    exact ⟨_, _, run, (congrArg (·.train.preset) moved.link).trans preset, (congrArg Link.st moved.link).trans rfl,
      (congrArg (·.train.ready) moved.link).trans ready, moved.others, rfl, trainBlockOf_length _ _ _, moved.onlyIn⟩
  case tsaBad =>
    obtain ⟨moved, counted⟩ := State.badTrain_moved sound inside
    exact ⟨_, exec_tsAReceived_bad inside training bad, moved.link, counted, moved.others, moved.regsOnlyAt, moved.onlyIn⟩
  case tsbLast =>
    obtain ⟨t, x, run⟩ := exec_tsBReceived_last inside training good final received sent
    obtain ⟨r, moved⟩ := (((State.linkMoved.refl sound inside).updLink (Link.trained t)).emit
      (.trainBlock p x (laneBlock false x))).enterLock.sendIdle
    exact ⟨_, run, congrArg Link.st moved.link, congrArg Link.since moved.link, congrArg Link.lock moved.link,
      (congrArg Link.rate moved.link).trans rfl, moved.others, moved.regsOnlyAt, moved.onlyIn⟩
  case trainFalls =>
    have run : exec (.trainTimeout p) s = .next (s.enterDetect p 2) := by
      show execTrainTimeout p s = _
      simp [execTrainTimeout, inside, passed, train]
    have moved := (State.linkMoved.refl sound inside).updLink (Link.detecting 2 s.clock)
    exact ⟨_, run, congrArg Link.st moved.link, congrArg Link.reason moved.link, moved.others, moved.onlyIn⟩
  case retrainAgain =>
    have run : exec (.trainTimeout p) s = .next (s.failAttempt p) := by
      show execTrainTimeout p s = _
      simp [execTrainTimeout, inside, passed, retrain]
    have moved := State.failAttempt_again sound inside (by simp [retrain]) hr few
    exact ⟨_, run, moved.trainsAt, congrArg Link.fails moved.link, moved.onlyIn⟩
  case noBlocks => exact exec_receives receives s []
  case blocksInTurn =>
    rw [exec_receives receives] at first
    obtain rfl := Host.Outcome.next.inj first
    rw [exec_receives receives, exec_receives receives, State.receiveBlocks, State.each, List.foldl_append]
    rfl
  case oneRun =>
    subst hr
    have run : exec (c [(b, n)]) s = .next (s.receiveRun p b n n) := exec_receives receives s [(b, n)]
    refine ⟨fun lock free valid before last idles => ?_, fun head active locked idle bad many before last => ?_,
      fun lock locked idle before last good => ?_⟩
    · have moved := State.receiveRun_locks sound inside lock free valid before last idles
      exact ⟨_, run, moved.link, moved.others, moved.onlyIn⟩
    · obtain ⟨moved, counts, retrained, raised⟩ := State.receiveRun_loses sound head active locked idle bad many before last
      exact ⟨_, run, moved.trainsAt, counts, retrained, raised, moved.regsOnlyAt, moved.onlyIn⟩
    · have received := (State.linkMoved.refl sound inside).updLink (Link.receiving b n)
      rw [State.receiveRun_completes sound inside lock locked idle before last good] at run
      refine ⟨fun head => ?_, fun twin apart waiting proposals => ?_⟩
      · rw [if_pos (by simp [isHead, head])] at run
        obtain ⟨maxVer, now, r, raw, moved, type, op⟩ := received.enterCaps
        exact ⟨_, raw, run, congrArg Link.st moved.link, congrArg Link.version moved.link, moved.ctlSent rfl rfl rfl, type, op,
          moved.others, moved.onlyIn⟩
      · rw [if_neg (by simp [isHead, twin])] at run
        have moved := received.updLink (Link.joining s.clock)
        have joins := State.twinPortActive_alone (s := s.updLink p (Link.receiving b n)) (p := p) apart waiting proposals
        rw [joins] at run
        exact ⟨_, run, congrArg Link.st moved.link, congrArg Link.ctlNext moved.link, moved.others, moved.onlyIn⟩
  case lockAgain =>
    have run : exec (.lockTimeout p) s = .next (s.failAttempt p) := by
      show execLockTimeout p s = _
      simp [execLockTimeout, inside, passed, lock]
    have moved := State.failAttempt_again sound inside (by simp [lock]) hr few
    exact ⟨_, run, moved.trainsAt, congrArg Link.fails moved.link, moved.onlyIn⟩
  case lockThird =>
    have run : exec (.lockTimeout p) s = .next (s.portDown p 3 true) := by
      show execLockTimeout p s = _
      simp [execLockTimeout, inside, passed, lock, State.failAttempt_third hr many]
    obtain ⟨moved, down, raised⟩ := State.portDown_fault (State.leaves_inactive sound inside (by simp [lock])) head free idle 3
    exact ⟨_, run, down, raised, moved.onlyIn⟩

end Sys2Proof.Machine
end

section
/-! The capability exchange and the time epoch on one link (R231 to R242). -/

namespace Sys2Proof.Machine

/-! ### The SYNC REQ (R237, R251) -/

/-- A link whose last epoch identifier is `id`. -/
def Link.identified (id : Nat) (l : Link) : Link := { l with epochId := id }

/-- A link that asks under the next epoch identifier (R251, log 138). -/
def Link.asking (l : Link) : Link := l.identified ((l.epochId + 1) % 256)

theorem syncReq_is (id : Nat) : isSyncReq (syncFrame 1 id 0) = true := rfl

theorem byteAt_syncReq_id (id : Nat) : byteAt (syncFrame 1 (id % 256) 0) 9 = id % 256 := Nat.mod_mod id 256

section
variable {s t u : State} {p : Nat} {x y : Link} {l : List Part} {a : List Nat}

/-- Whether it leaves or waits, a SYNC REQ takes the next epoch identifier, and changes nothing else but what a control frame does. -/
theorem State.linkMoved.sendSyncReq (h : s.linkMoved t p x l a) :
    ∃ y, s.linkMoved (t.sendSyncReq p) p y (l ++ [.links, .out]) a ∧ y.unsent = x.asking.unsent := by
  obtain ⟨y, sent, same⟩ := (h.updLink (Link.identified (((t.link p).epochId + 1) % 256))).sendCtl
    (endsNoBank_syncFrame 1 (((t.link p).epochId + 1) % 256) 0)
  rw [h.link] at same
  exact ⟨y, sent.mono (by simp), same⟩

/-- A link behind a SYNC REQ that has left. -/
def Link.asked (now : Time) (r : BitVec 23) (at' : Instant) (l : Link) : Link :=
  (l.asking.transmitted (syncFrame 1 ((l.epochId + 1) % 256) 0) now r).underWay (syncFrame 1 ((l.epochId + 1) % 256) 0) at'

theorem Link.asked_syncWait (l : Link) (now : Time) (r : BitVec 23) (at' : Instant) {id : Nat} (last : l.epochId = id := by rfl) :
    (l.asked now r at').syncWait = some ((id + 1) % 256, now, false) := by
  subst last
  show (if isSyncReq (syncFrame 1 ((l.epochId + 1) % 256) 0) = true
    then some (byteAt (syncFrame 1 ((l.epochId + 1) % 256) 0) 9, now, false) else l.syncWait) =
      some ((l.epochId + 1) % 256, now, false)
  rw [if_pos (syncReq_is _), byteAt_syncReq_id]

/-- The SYNC REQ leaves at once where nothing is under way. -/
theorem State.linkMoved.sendSyncReq_leaves (h : s.linkMoved t p x l a) (none : x.unacked = []) (empty : x.queued = [])
    (loud : t.muted p = false) (hl : .tim ∉ l := by decide) :
    ∃ r, s.linkMoved (t.sendSyncReq p) p (x.asked s.mono r s.clock) (l ++ [.links, .out]) a := by
  obtain ⟨r, sent⟩ := (h.updLink (Link.identified (((t.link p).epochId + 1) % 256))).sendCtl_leaves
    (by simp [Link.identified, none]) empty ((t.muted_updLink p).trans loud)
    (endsNoBank_syncFrame 1 (((t.link p).epochId + 1) % 256) 0)
  refine ⟨r, (sent.to ?_).mono (by simp)⟩
  rw [h.link, ← h.clock hl, ← h.touches.1.mono_eq hl]
  rfl

theorem State.linkMoved.asked_ctlSent {now : Time} {r : BitVec 23} {seq : BitVec 32} {id : Nat}
    (h : s.linkMoved t p (x.asked now r s.clock) l a) (none : x.unacked = []) (empty : x.queued = []) (next : x.ctlNext = seq := by rfl)
    (last : x.epochId = id := by rfl) : s.ctlSent t p seq (syncFrame 1 ((id + 1) % 256) 0) := by
  subst next last
  exact State.linkMoved.ctlSent (x := x.asking) h none empty rfl

end

/-! ### STAT CAPS (R231, R234, R235) -/

/-- The capability registers of a port (R234). -/
def capOffsets (p : Nat) : List Nat := [Reg.GHL_CAP_FIRE.addr p 0 0, Reg.GHL_CAP_ID.addr p 0 0, Reg.GHL_CAP_FW.addr p 0 0,
  Reg.GHL_CAP_SER_LO.addr p 0 0, Reg.GHL_CAP_SER_HI.addr p 0 0, Reg.GHL_CAP_GEOM.addr p 0 0]

/-- A link whose latest capability set fails, or passes (R234). -/
def Link.capsJudged (bad : Bool) (l : Link) : Link := { l with capsBad := bad }

/-- A link that has taken a capability set under a version, at a fire frequency (R194, R235, R598). -/
def Link.accepted (version fire : Nat) (c : Bytes) (l : Link) : Link :=
  { l with geom := some ⟨byteAt c 1, byteAt c 2, leAt c 4 2⟩, fireEff := fire, dual := (byteAt c 3).testBit 0, version := version,
           proto := version, capsFirst := none }

/-- A link whose further exchanges must repeat a capability set (R231). -/
def Link.capsKept (c : Bytes) (l : Link) : Link := { l with capsFirst := some c }

section
variable {s t : State} {p : Nat} {x : Link} {l : List Part} {a : List Nat}

theorem State.linkMoved.showCaps (h : s.linkMoved t p x l a) (c : Bytes) :
    s.linkMoved (t.showCaps p c) p x (l ++ [.regs]) (a ++ capOffsets p) :=
  ((((((h.wr .GHL_CAP_FIRE _ p 0 0).wr .GHL_CAP_ID _ p 0 0).wr .GHL_CAP_FW _ p 0 0).wr .GHL_CAP_SER_LO _ p 0 0).wr
    .GHL_CAP_SER_HI _ p 0 0).wr .GHL_CAP_GEOM _ p 0 0).mono (by simp) (by simp [capOffsets])

theorem State.recheckBar_touches (s : State) (p : Nat) : s.touches (s.recheckBar p) [.regs] [Reg.MER_GEOM_STATUS.addr 0 0 0] := by
  have shown (v w : Nat) : s.touches ((s.set .MER_GEOM_STATUS_fail v).set .MER_GEOM_STATUS_port w) [.regs]
      [Reg.MER_GEOM_STATUS.addr 0 0 0] := ((s.set_touches .MER_GEOM_STATUS_fail v 0 0 0).trans (State.set_touches _ _ w 0 0 0)).mono
      (by decide) (by simp [Fld.MER_GEOM_STATUS_fail, Fld.MER_GEOM_STATUS_port])
  unfold State.recheckBar
  dsimp only
  split
  next x _ => exact shown x.1 x.2
  next =>
    split
    · exact shown _ _
    · exact .refl s _ _

/-- The fire frequency that a link takes from a capability set (R598). -/
def capsFire (rate version : Nat) (c : Bytes) : Nat := min (leAt c 8 4) (linkBound rate version (byteAt c 1 * leAt c 4 2))

/-- The capability set stands in the link, and in the registers. -/
def State.capsStored (s : State) (p version : Nat) (c : Bytes) : State :=
  let s' := (s.updLink p (Link.accepted version (capsFire (s.link p).rate version c) c)).wr .GHL_FIRE_EFF
    (BitVec.ofNat 32 (capsFire (s.link p).rate version c)) p
  if linkBound (s.link p).rate version (byteAt c 1 * leAt c 4 2) < leAt c 8 4 then s'.count .GHL_FIRECLAMP_CNT p else s'

theorem State.acceptCaps_alone {version : Nat} {c : Bytes} (paired : s.twn.pair ≠ .paired) (pairing : s.twn.pair ≠ .pairing)
    (took : s.twn.tookOver = none) : s.acceptCaps p version c = ((s.capsStored p version c).recheckBar p).sendSyncReq p := by
  have kept : ((s.capsStored p version c).recheckBar p).twn = s.twn := by
    rw [(State.recheckBar_touches _ p).1.same .twn]
    unfold State.capsStored
    dsimp only
    split <;> rfl
  have judged : s.acceptCaps p version c = State.sendSyncReq
      (if ((s.capsStored p version c).recheckBar p).twn.pair == .paired ∨ ((s.capsStored p version c).recheckBar p).twn.pair == .pairing
        then (((s.capsStored p version c).recheckBar p).checkProtected p).sendHdm p
      else if ((s.capsStored p version c).recheckBar p).twn.tookOver.isSome then
        ((s.capsStored p version c).recheckBar p).checkProtected p
      else (s.capsStored p version c).recheckBar p) p := rfl
  rw [judged, kept, if_neg (by simp [paired, pairing]), if_neg (by simp [took])]

/-- The set is taken, and the first SYNC REQ is made: where the device is no twin, on the one link alone. -/
theorem State.linkMoved.acceptCaps (h : s.linkMoved t p x l a) (version : Nat) (c : Bytes) (paired : t.twn.pair ≠ .paired)
    (pairing : t.twn.pair ≠ .pairing) (took : t.twn.tookOver = none) :
    ∃ y offs, s.linkMoved (t.acceptCaps p version c) p y (l ++ [.links, .out, .regs]) offs ∧
      y.unsent = (x.accepted version (capsFire x.rate version c) c).asking.unsent := by
  have stored : s.linkMoved (t.capsStored p version c) p (x.accepted version (capsFire x.rate version c) c) (l ++ [.links, .regs])
      (a ++ [Reg.GHL_FIRE_EFF.addr p 0 0, Reg.GHL_FIRECLAMP_CNT.addr p 0 0]) := by
    unfold State.capsStored
    rw [h.link]
    have shows := (h.updLink (Link.accepted version (capsFire x.rate version c) c)).wr .GHL_FIRE_EFF
      (BitVec.ofNat 32 (capsFire x.rate version c)) p 0 0
    dsimp only
    split
    · exact (shows.count .GHL_FIRECLAMP_CNT p).mono (by simp) (by simp [Fld.GHL_FIRECLAMP_CNT])
    · exact shows.mono (by simp) (by simp)
  obtain ⟨y, sent, same⟩ := (stored.beside (State.recheckBar_sound _ p stored.sound) (State.recheckBar_touches _ p)).sendSyncReq
  rw [State.acceptCaps_alone paired pairing took]
  exact ⟨y, _, sent.mono (by simp) (List.Subset.refl _), same⟩

end

/-! ### The echo (R238, R240) -/

/-- A link that waits for no echo, behind the measurements `ms`. -/
def Link.measured (ms : List (Int × Time)) (l : Link) : Link := { l with syncs := ms, syncWait := none }

/-- A link whose epoch is set (R238, R242). -/
def Link.epochSet (m : Int × Time) (lmin : Nat) (l : Link) : Link := { l with epoch := m.2, timed := true, delay := m.1.toNat, lmin := lmin }

/-- A link on which GEOM has been sent (R250). -/
def Link.geomGiven (l : Link) : Link := { l with geomSent := true }

section
variable {s t : State} {p : Nat} {x : Link} {l : List Part} {a : List Nat}

theorem State.linkMoved.sendGeom (h : s.linkMoved t p x l a) :
    ∃ y, s.linkMoved (t.sendGeom p) p y (l ++ [.links, .out]) a ∧ y.unsent = x.geomGiven.unsent := by
  obtain ⟨y, sent, same⟩ := (h.updLink Link.geomGiven).sendCtl
    (endsNoBank_ctrlFrame 3 [] ((t.updLink p Link.geomGiven).geomPayload p))
  exact ⟨y, sent.mono (by simp), same⟩

/-- The epoch is set and shown, and SYNC SET and GEOM are made (R231, R238, R242, R250). -/
theorem State.linkMoved.setEpoch (h : s.linkMoved t p x l a) (m : Int × Time) : ∃ y lmin,
    s.linkMoved (t.setEpoch p m) p y (l ++ [.links, .regs, .out]) (a ++ [Reg.GHL_EPOCH.addr p 0 0, Reg.GHL_DELAY.addr p 0 0]) ∧
      y.unsent = (((x.epochSet m lmin).identified ((x.epochId + 1) % 256)).geomGiven).unsent ∧
      (t.setEpoch p m).rd .GHL_EPOCH p = m.2 := by
  have start := (State.linkMoved.refl h.sound h.inside).updLink
    (Link.epochSet m (minLookahead (t.link p).rate (t.link p).version (t.nozzles p) m.1))
  have shown := start.wr .GHL_EPOCH m.2 p 0 0
  have delayed := ((State.linkMoved.refl shown.sound h.inside).set .GHL_DELAY_l_min
    (min (minLookahead (t.link p).rate (t.link p).version (t.nozzles p) m.1) 255) p 0 0).set .GHL_DELAY_delay (min m.1.toNat 65535) p 0 0
  obtain ⟨y, set, sameY⟩ := (delayed.updLink (Link.identified (((t.link p).epochId + 1) % 256))).sendCtl
    (endsNoBank_syncFrame 2 (((t.link p).epochId + 1) % 256) m.2)
  obtain ⟨z, gave, sameZ⟩ := set.sendGeom
  have moved := h.trans (shown.trans gave)
  refine ⟨z, minLookahead (t.link p).rate (t.link p).version (t.nozzles p) m.1, moved.mono (by simp)
    (by simp [Fld.GHL_DELAY_l_min, Fld.GHL_DELAY_delay]), ?_, ?_⟩
  · rw [shown.link, h.link] at sameY
    rw [h.link]
    have given : z.unsent = y.unsent.geomGiven := sameZ
    rw [given, sameY]
    rfl
  · exact (gave.touches.2.rd .GHL_EPOCH p 0 0
      (by simp [Fld.GHL_DELAY_l_min, Fld.GHL_DELAY_delay, Reg.addr, Reg.GHL_EPOCH, Reg.GHL_DELAY])).trans
      (State.rd_wr_same _ _ _ _ _ _ (State.sound_regs start.sound))

theorem State.checkEpoch_near {m : Int × Time} (near : (sdiff m.2 (s.link p).epoch).natAbs ≤ 4) : s.checkEpoch p m = s :=
  if_neg (by omega)

end

end Sys2Proof.Machine
end

section
/-! STAT and what it acknowledges on one link (R252 to R255). -/

namespace Sys2Proof.Machine

/-- A link whose next status sequence number is `n` (R253). -/
def Link.statDue (n : BitVec 32) (l : Link) : Link := { l with statNext := some n }

/-- A link whose last STAT came now (R252). -/
def Link.heard (now : Instant) (l : Link) : Link := { l with statAt := now }

/-- A link with one violation more in its window (R259). -/
def Link.violated (l : Link) : Link := { l with viols := l.viols + 1 }

/-- A link whose lines are acknowledged up to `n` (R252). -/
def Link.lineAcked (n : BitVec 32) (l : Link) : Link := { l with lineAck := some n }

/-- A link whose control frames are acknowledged up to `n` (R255). -/
def Link.ctlAcked (n : BitVec 32) (l : Link) : Link :=
  { l with ctlAck := some n, unacked := l.unacked.filter fun f => !lineLe f.seq n }

/-- A link that has taken a good STAT NULL, with its line_ack as `k` has it (R252). -/
def Link.statTaken (now : Instant) (seq : BitVec 32) (k : Option (BitVec 32)) (ack : BitVec 32) (l : Link) : Link :=
  { l with statAt := now, statNext := some (seq + 1), lineAck := k, ctlAck := some ack, unacked := l.unacked.filter fun f => !lineLe f.seq ack }

section
variable {s t : State} {p : Nat} {x : Link} {l : List Part} {a : List Nat}

theorem State.linkMoved.violate (h : s.linkMoved t p x l a) :
    s.linkMoved (t.violate p) p x.violated (l ++ [.links, .regs]) (a ++ [Reg.GHL_VIOL_CNT.addr p 0 0]) :=
  ((h.count .GHL_VIOL_CNT p).updLink Link.violated).mono (by simp) (by simp [Fld.GHL_VIOL_CNT])

/-- A status sequence number in its turn is no violation. -/
theorem State.linkMoved.takeStatSeq {seq : BitVec 32} (h : s.linkMoved t p x l a) (turn : ∀ n, x.statNext = some n → 0 ≤ sdiff seq n) :
    s.linkMoved (t.takeStatSeq p seq) p (x.statDue (seq + 1)) (l ++ [.links]) a := by
  unfold State.takeStatSeq
  rw [h.link]
  cases hn : x.statNext with
  | none => exact (h.updLink _).to (by simp [hn, Link.statDue])
  | some n =>
    have due : ¬ sdiff seq n < 0 := Int.not_lt.mpr (turn n hn)
    dsimp only
    rw [if_neg due]
    exact (h.updLink _).to (by simp [hn, due, Link.statDue])

/-- No frame waits: none follows those that a ctl_ack has freed. -/
theorem State.drainCtl_none (empty : (s.link p).queued = []) (fuel : Nat) : s.drainCtl p fuel = s := by
  cases fuel with
  | zero => rfl
  | succ n =>
    unfold State.drainCtl
    dsimp only
    rw [empty]

/-- A ctl_ack of a frame that was sent, and not behind the last one taken. -/
theorem State.linkMoved.takeCtlAck {ack : BitVec 32} (h : s.linkMoved t p x l a) (sent : sdiff ack x.ctlNext < 0)
    (order : ∀ b, x.ctlAck = some b → 0 ≤ sdiff ack b) (empty : x.queued = []) :
    s.linkMoved (t.takeCtlAck p ack) p (x.ctlAcked ack) (l ++ [.links]) a := by
  have acked := h.updLink (Link.ctlAcked ack)
  have forward : ¬ ((x.ctlAck.map fun b => decide (sdiff ack b < 0)).getD false) = true := by
    cases hb : x.ctlAck with
    | none => simp
    | some b => simpa using order b hb
  have still : ((t.updLink p (Link.ctlAcked ack)).link p).queued = [] := by rw [acked.link]; exact empty
  have drained : t.ackCtl p ack = t.updLink p (Link.ctlAcked ack) := State.drainCtl_none still 4
  unfold State.takeCtlAck
  dsimp only
  rw [h.link, if_neg (Int.not_le.mpr sent), if_neg forward, drained]
  exact acked

/-- A line_ack of no line that was sent is not taken (R252). -/
theorem State.takeLineAck_unsent {ack : BitVec 32} (unsent : (s.link p).sentActive = false ∨ 0 < sdiff ack (s.link p).lastSeq) :
    s.takeLineAck p ack = s := if_pos (by simpa using unsent)

theorem State.takeLineAck_sent {ack : BitVec 32} (active : (s.link p).sentActive = true) (sent : sdiff ack (s.link p).lastSeq ≤ 0)
    (order : ∀ b, (s.link p).lineAck = some b → 0 ≤ sdiff ack b) :
    s.takeLineAck p ack = (s.updLink p (Link.lineAcked ack)).wr .GHL_ACK ack p := by
  have forward : ¬ (((s.link p).lineAck.map fun b => decide (sdiff ack b < 0)).getD false) = true := by
    cases hb : (s.link p).lineAck with
    | none => simp
    | some b => simpa using order b hb
  unfold State.takeLineAck
  dsimp only
  rw [if_neg (by simp [active]; omega), if_neg forward]
  rfl

/-- A line_ack in its turn changes nothing but the line acknowledged, in the link and in its register; it is taken exactly where it
names a line that was sent (R252). -/
theorem State.linkMoved.takeLineAck {ack : BitVec 32} (h : s.linkMoved t p x l a) (order : ∀ b, x.lineAck = some b → 0 ≤ sdiff ack b) :
    ∃ k, s.linkMoved (t.takeLineAck p ack) p { x with lineAck := k } (l ++ [.links, .regs]) (a ++ [Reg.GHL_ACK.addr p 0 0]) ∧
      (x.sentActive = true → sdiff ack x.lastSeq ≤ 0 → k = some ack ∧ (t.takeLineAck p ack).rd .GHL_ACK p = ack) ∧
      (x.sentActive = false ∨ 0 < sdiff ack x.lastSeq → k = x.lineAck) := by
  have link := h.link
  by_cases sent : x.sentActive = true ∧ sdiff ack x.lastSeq ≤ 0
  · obtain ⟨active, sent⟩ := sent
    have acked := h.updLink (Link.lineAcked ack)
    have taken := acked.wr .GHL_ACK ack p 0 0
    rw [State.takeLineAck_sent (by rw [link]; exact active) (by rw [link]; exact sent) (by rw [link]; exact order)]
    refine ⟨some ack, taken.mono (by simp), fun _ _ => ⟨rfl, State.rd_wr_same _ _ _ _ _ _ (State.sound_regs acked.sound)⟩, ?_⟩
    rintro (idle | late)
    · simp [active] at idle
    · omega
  · have unsent : x.sentActive = false ∨ 0 < sdiff ack x.lastSeq := by
      by_cases active : x.sentActive = true
      · exact .inr (by have := not_and.mp sent active; omega)
      · exact .inl (by simpa using active)
    rw [State.takeLineAck_unsent (by rw [link]; exact unsent)]
    exact ⟨x.lineAck, h.mono (by simp) (by simp), fun active there => absurd ⟨active, there⟩ sent, fun _ => rfl⟩

theorem State.capsComplete_active (active : (s.link p).st = .active) : s.capsComplete p = s := if_neg (by simp [active])

theorem State.enterIfReady_not (stays : s.twn.entering = false) : s.enterIfReady = s := if_neg (by simp [stays])

/-- A good STAT NULL is taken by its sequence number, its line_ack and its ctl_ack (R252). -/
theorem State.takeStat_null {frame : Bytes} (header : headerGood frame = true) (payload : payloadGood frame = true)
    (type : byteAt frame 0 = 0x81) (kind : byteAt frame 16 = 5) (range : byteAt frame 17 ≤ 1) (len : leAt frame 2 2 = 0) :
    s.takeStat p frame =
      (((((s.updLink p (Link.heard s.clock)).takeStatSeq p (BitVec.ofNat 32 (leAt frame 4 4))).takeLineAck p
        (BitVec.ofNat 32 (leAt frame 8 4))).takeCtlAck p (BitVec.ofNat 32 (leAt frame 12 4))).capsComplete p).enterIfReady := by
  have inRange : statRange frame = false := by simp [statRange, kind]; omega
  unfold State.takeStat
  dsimp only
  rw [if_neg (by simp [header]), if_neg (by omega), if_neg (by omega), if_neg (by simp [payload]),
    if_neg (by simp [kind, statLength, len, inRange]), if_neg (by simp [kind])]
  rfl

/-- A good STAT NULL in its turn, on an ACTIVE port of a device that is not about to print (R252). -/
theorem State.linkMoved.takeStat_null {frame : Bytes} {seq lack ack : BitVec 32} (h : s.linkMoved t p x l a) (active : x.st = .active)
    (header : headerGood frame = true) (payload : payloadGood frame = true) (type : byteAt frame 0 = 0x81) (kind : byteAt frame 16 = 5)
    (range : byteAt frame 17 ≤ 1) (len : leAt frame 2 2 = 0) (hseq : seq = BitVec.ofNat 32 (leAt frame 4 4))
    (hlack : lack = BitVec.ofNat 32 (leAt frame 8 4)) (hack : ack = BitVec.ofNat 32 (leAt frame 12 4)) (stays : t.twn.entering = false)
    (turn : ∀ n, x.statNext = some n → 0 ≤ sdiff seq n) (lineOrder : ∀ b, x.lineAck = some b → 0 ≤ sdiff lack b)
    (ctlOrder : ∀ b, x.ctlAck = some b → 0 ≤ sdiff ack b) (empty : x.queued = []) (sent : sdiff ack x.ctlNext < 0) :
    ∃ k, s.linkMoved (t.takeStat p frame) p (x.statTaken t.clock seq k ack) (l ++ [.links, .regs]) (a ++ [Reg.GHL_ACK.addr p 0 0]) ∧
      (x.sentActive = true → sdiff lack x.lastSeq ≤ 0 → k = some lack ∧ (t.takeStat p frame).rd .GHL_ACK p = lack) ∧
      (x.sentActive = false ∨ 0 < sdiff lack x.lastSeq → k = x.lineAck) := by
  have start : t.linkMoved t p x [] [] := (State.linkMoved.refl h.sound h.inside).to h.link
  have counted := (start.updLink (Link.heard t.clock)).takeStatSeq turn
  obtain ⟨k, lines, taken, kept⟩ := counted.takeLineAck lineOrder
  have acks := ((State.linkMoved.refl lines.sound h.inside).to lines.link).takeCtlAck sent ctlOrder empty
  have moved := lines.trans acks
  have run := State.takeStat_null (s := t) (p := p) header payload type kind range len
  rw [← hseq, ← hlack, ← hack, State.capsComplete_active (by rw [moved.link]; exact active),
    State.enterIfReady_not (by rw [moved.touches.1.same .twn, stays])] at run
  rw [run]
  refine ⟨k, (h.trans moved).mono (by simp) (by simp), fun fires there => ?_, kept⟩
  obtain ⟨value, shown⟩ := taken fires there
  exact ⟨value, (acks.touches.2.rd .GHL_ACK p 0 0 (by simp)).trans shown⟩

end

end Sys2Proof.Machine
end

section
/-! The commands of the capability exchange, the time epoch and STAT (R231, R234, R238, R240, R252). -/

namespace Sys2Proof.Machine

/-- A link whose next measurement begins now (R240). -/
def Link.syncing (now : Instant) (l : Link) : Link := { l with syncAt := now, syncs := [], syncWait := none }

/-- A link that waits for no echo. -/
def Link.unwaited (l : Link) : Link := { l with syncWait := none }

/-- A link whose three measurements have been compared (R240). -/
def Link.unmeasured (l : Link) : Link := { l with syncs := [] }

section
variable {s : State} {p : Nat} (sound : s.sound) (head : p < 24)

/-! ### STAT CAPS -/

section
variable {frame c : Bytes} {version rate : Nat}

theorem exec_statCaps (head : p < 24) (caps : (s.link p).st = .caps) (unversed : (s.link p).version = 0) (good : statOf frame 2 64 = true)
    (hc : c = framePayload frame) : exec (.statCaps p frame) s = .next (s.takeCaps p c) := by
  show execStatCaps p frame s = _
  simp [execStatCaps, head, caps, unversed, good, hc]

/-- The state behind CAPS_DONE of a set that passes. -/
def State.capsDone (s : State) (p version rate : Nat) (c : Bytes) : State :=
  ((s.showCaps p c).updLink p (Link.capsJudged false)).sendCtl p (ctrlFrame 2 [BitVec.ofNat 8 version, BitVec.ofNat 8 rate] [])

theorem State.takeCaps_passes (passes : capsFault (s.link p).maxVer (s.link p).capsFirst c = none)
    (hv : version = if (s.link p).maxVer = 2 ∧ (byteAt c 0).testBit 1 = true then 2 else 1) (hr : rate = if version = 2 then 1 else 0) :
    s.takeCaps p c = if rate = (s.link p).rate then (s.capsDone p version rate c).acceptCaps p version c
      else ((s.capsDone p version rate c).enterRetrain p rate).updLink p (Link.capsKept c) := by
  subst hv hr
  unfold State.takeCaps
  dsimp only
  rw [passes]
  rfl

theorem State.takeCaps_fails {why : Nat} (fails : capsFault (s.link p).maxVer (s.link p).capsFirst c = some why) :
    s.takeCaps p c = ((s.showCaps p c).updLink p (Link.capsJudged true)).portDown p why true := by
  unfold State.takeCaps
  dsimp only
  rw [fails]
  rfl

include sound head

theorem State.capsDone_moved : ∃ y, s.linkMoved (s.capsDone p version rate c) p y [.links, .out, .regs] (capOffsets p) ∧
    y.unsent = ((s.link p).capsJudged false).unsent := by
  obtain ⟨y, done, same⟩ := (((State.linkMoved.refl sound (p := p) (by omega)).showCaps c).updLink (Link.capsJudged false)).sendCtl
    (endsNoBank_ctrlFrame 2 [BitVec.ofNat 8 version, BitVec.ofNat 8 rate] [])
  exact ⟨y, done.mono, same⟩

/-- A set that passes at its version's rate is taken. -/
theorem State.takeCaps_taken (caps : (s.link p).st = .caps) (paired : s.twn.pair ≠ .paired) (pairing : s.twn.pair ≠ .pairing)
    (took : s.twn.tookOver = none) (passes : capsFault (s.link p).maxVer (s.link p).capsFirst c = none)
    (hv : version = if (s.link p).maxVer = 2 ∧ (byteAt c 0).testBit 1 = true then 2 else 1) (hr : rate = if version = 2 then 1 else 0)
    (there : (s.link p).rate = rate) :
    ((s.takeCaps p c).link p).st = .caps ∧ ((s.takeCaps p c).link p).version = version ∧ ((s.takeCaps p c).link p).proto = version ∧
      ((s.takeCaps p c).link p).geom = some ⟨byteAt c 1, byteAt c 2, leAt c 4 2⟩ ∧
      ((s.takeCaps p c).link p).fireEff = min (leAt c 8 4) (linkBound rate version (byteAt c 1 * leAt c 4 2)) ∧
      (∀ q, q ≠ p → (s.takeCaps p c).link q = s.link q) ∧ s.onlyIn (s.takeCaps p c) [.links, .out, .regs] := by
  obtain ⟨y, done, same⟩ := State.capsDone_moved (version := version) (rate := rate) (c := c) sound head
  have twn : (s.capsDone p version rate c).twn = s.twn := done.touches.1.same .twn
  obtain ⟨z, offs, taken, sameZ⟩ := done.acceptCaps version c (by rw [twn]; exact paired) (by rw [twn]; exact pairing)
    (by rw [twn]; exact took)
  have rateY : y.rate = rate := (congrArg Link.rate same).trans there
  have capsY : y.st = .caps := (congrArg Link.st same).trans caps
  rw [State.takeCaps_passes passes hv hr, if_pos there.symm, taken.link]
  rw [rateY] at sameZ
  exact ⟨(congrArg Link.st sameZ).trans capsY, congrArg Link.version sameZ, congrArg Link.proto sameZ,
    congrArg Link.geom sameZ, congrArg Link.fireEff sameZ, taken.others, taken.onlyIn⟩

/-- A set that passes for another rate is kept, and the port trains again at that rate. -/
theorem State.takeCaps_retrains (caps : (s.link p).st = .caps) (passes : capsFault (s.link p).maxVer (s.link p).capsFirst c = none)
    (hv : version = if (s.link p).maxVer = 2 ∧ (byteAt c 0).testBit 1 = true then 2 else 1) (hr : rate = if version = 2 then 1 else 0)
    (other : (s.link p).rate ≠ rate) :
    s.trainsAt (s.takeCaps p c) p .retrain rate ∧ ((s.takeCaps p c).link p).capsFirst = some c ∧ ((s.takeCaps p c).link p).version = 0 ∧
      s.onlyIn (s.takeCaps p c) [.links, .out, .regs] := by
  obtain ⟨y, done, same⟩ := State.capsDone_moved (version := version) (rate := rate) (c := c) sound head
  have capsY : y.st = .caps := (congrArg Link.st same).trans caps
  have trains := State.enterRetrain_inactive done.sound done.inside (by rw [done.link, capsY]; decide) rate
  rw [done.clock, done.link] at trains
  have kept := (done.trans trains).updLink (Link.capsKept c)
  rw [State.takeCaps_passes passes hv hr, if_neg (fun same => other same.symm)]
  exact ⟨⟨congrArg Link.st kept.link, congrArg Link.rate kept.link, congrArg Link.since kept.link, congrArg Link.lock kept.link,
    congrArg (·.train.ready) kept.link, kept.others⟩, congrArg Link.capsFirst kept.link, congrArg Link.version kept.link, kept.onlyIn⟩

/-- A set that fails takes the port down. -/
theorem State.takeCaps_down (caps : (s.link p).st = .caps) (free : (s.link p).busy = false) (idle : s.lmp.running = []) {why : Nat}
    (fails : capsFault (s.link p).maxVer (s.link p).capsFirst c = some why) :
    s.wentDown (s.takeCaps p c) p why ∧ ((s.takeCaps p c).link p).capsBad = true ∧
      s.raised (s.takeCaps p c) .ghlDown 2 p 0xFF 8 (BitVec.ofNat 32 why) ∧ s.onlyIn (s.takeCaps p c) [.links, .out, .regs, .clk, .ltn] := by
  have judged := ((State.linkMoved.refl sound (p := p) (by omega)).showCaps c).updLink (Link.capsJudged true)
  obtain ⟨falls, down, raised⟩ := State.portDown_fault (State.leaves_inactive judged.sound judged.inside
    (by rw [judged.link]; simp [Link.capsJudged, caps])) head (by rw [judged.link]; exact free)
    (by rw [judged.touches.1.same .lmp]; exact idle) why
  obtain ⟨st, reason, version, unacked, idles, sync, -⟩ := down
  have moved := judged.trans falls
  rw [State.takeCaps_fails fails]
  exact ⟨⟨st, reason, version, unacked, idles, sync, moved.others⟩,
    (congrArg Link.capsBad falls.link).trans (congrArg Link.capsBad judged.link),
    State.raised_around raised (judged.touches.1.same .ltn) judged.clock rfl, moved.onlyIn⟩

end

/-! ### SYNC ECHO -/

section
variable {frame : Bytes} {t1 t4 : Time} {id : Nat} {m : Int × Time}

theorem exec_syncEcho_void (head : p < 24) (up : (s.link p).st = .caps ∨ (s.link p).st = .active) (good : statOf frame 4 16 = true)
    (waits : (s.link p).syncWait = some (id, t1, true)) (hid : byteAt (framePayload frame) 8 = id) :
    exec (.syncEcho p frame t4) s = .next ((s.updLink p Link.unwaited).sendSyncReq p) := by
  show execSyncEcho p frame t4 s = _
  unfold execSyncEcho
  dsimp only
  rw [if_pos (by simpa [head, good] using up), waits]
  simp [hid]
  rfl

theorem exec_syncEcho (head : p < 24) (up : (s.link p).st = .caps ∨ (s.link p).st = .active) (good : statOf frame 4 16 = true)
    (waits : (s.link p).syncWait = some (id, t1, false)) (hid : byteAt (framePayload frame) 8 = id)
    (hm : m = epochOf t1 t4 (BitVec.ofNat 32 (leAt (framePayload frame) 0 4)) (BitVec.ofNat 32 (leAt (framePayload frame) 4 4))) :
    exec (.syncEcho p frame t4) s = .next (s.takeEcho p m) := by
  subst hm
  show execSyncEcho p frame t4 s = _
  unfold execSyncEcho
  dsimp only
  rw [if_pos (by simpa [head, good] using up), waits]
  simp [hid]

theorem State.takeEcho_further (few : (s.link p).syncs.length < 2) :
    s.takeEcho p m = (s.updLink p (Link.measured ((s.link p).syncs ++ [m]))).sendSyncReq p :=
  if_pos (by simp; omega)

theorem State.takeEcho_caps (two : (s.link p).syncs.length = 2) (caps : (s.link p).st = .caps) :
    s.takeEcho p m = (s.updLink p (Link.measured ((s.link p).syncs ++ [m]))).setEpoch p (medianEpoch ((s.link p).syncs ++ [m])) :=
  (if_neg (by simp [two])).trans (if_pos (by simp [caps]))

theorem State.takeEcho_active (two : (s.link p).syncs.length = 2) (active : (s.link p).st = .active) :
    s.takeEcho p m = ((s.updLink p (Link.measured ((s.link p).syncs ++ [m]))).checkEpoch p
      (medianEpoch ((s.link p).syncs ++ [m]))).updLink p Link.unmeasured :=
  (if_neg (by simp [two])).trans (if_neg (by simp [active]))

end

end

/-! ### The commands -/

section
variable {s : State} {p : Nat}

theorem exec_syncPeriodic (head : p < 24) (active : (s.link p).st = .active) (loud : s.muted p = false)
    (due : s.elapsed (s.link p).syncAt 100000000 = true) : exec (.syncPeriodic p) s = .next ((s.updLink p (Link.syncing s.clock)).sendSyncReq p) := by
  show execSyncPeriodic p s = _
  unfold execSyncPeriodic
  dsimp only
  rw [if_pos (by simp [State.active, active, loud, due, head])]
  rfl

theorem exec_capsTimeout (head : p < 24) (caps : (s.link p).st = .caps) (due : s.elapsed (s.link p).since 20000000 = true) :
    exec (.capsTimeout p) s = .next (s.portDown p 6 true) := by
  show execCapsTimeout p s = _
  simp [execCapsTimeout, head, caps, due]

theorem exec_statAck (head : p < 24) (active : (s.link p).st = .active) (frame : Bytes) :
    exec (.statAck p frame) s = .next (s.takeStat p frame) := by
  show execStatAck p frame s = _
  simp [execStatAck, head, active]

end

/-- Settles O26: each command is a chain of operations on the one link `p`, followed through the layers of the exchange and of STAT. -/
theorem exchangeCommandsComplete : Obligations.ExchangeCommandsComplete := by
  intro s p sound head paired pairing took idle free
  have start := State.linkMoved.refl sound (p := p) (by omega)
  refine ⟨fun frame c version rate caps unversed good hc hv hr => ⟨fun passes there => ?capsTaken, fun passes other => ?capsRetrains,
      fun why fails => ?capsFails⟩,
    fun frame t4 id t1 void m e up good waits hid hm he none empty loud => ?echo,
    fun frame seq ack lack active header payload type kind range len hseq hlack hack stays turn lineOrder ctlOrder empty sent => ?statNull,
    fun caps due => ?capsTimeout, fun active loud due none empty => ?syncPeriodic⟩
  case capsTaken =>
    exact ⟨_, exec_statCaps head caps unversed good hc, State.takeCaps_taken sound head caps paired pairing took passes hv hr there⟩
  case capsRetrains => exact ⟨_, exec_statCaps head caps unversed good hc, State.takeCaps_retrains sound head caps passes hv hr other⟩
  case capsFails => exact ⟨_, exec_statCaps head caps unversed good hc, State.takeCaps_down sound head caps free idle fails⟩
  case echo =>
    subst he
    refine ⟨fun isVoid => ?_, fun whole few => ?_, fun whole two caps => ?_, fun whole two active near => ?_⟩
    · subst isVoid
      have run := exec_syncEcho_void (t4 := t4) head up good waits hid
      generalize s.link p = x at *
      have unwaited := start.updLink Link.unwaited
      obtain ⟨r, asks⟩ := unwaited.sendSyncReq_leaves none empty ((s.muted_updLink p).trans loud)
      exact ⟨_, run, (congrArg Link.syncs asks.link).trans rfl, asks.asked_ctlSent none empty, asks.others, asks.onlyIn⟩
    · subst whole
      have run := exec_syncEcho head up good waits hid hm
      rw [State.takeEcho_further few] at run
      generalize s.link p = x at *
      have measured := start.updLink (Link.measured (x.syncs ++ [m]))
      obtain ⟨r, asks⟩ := measured.sendSyncReq_leaves none empty ((s.muted_updLink p).trans loud)
      exact ⟨_, run, congrArg Link.syncs asks.link, (congrArg Link.syncWait asks.link).trans (Link.asked_syncWait ..),
        asks.asked_ctlSent none empty, asks.others, asks.onlyIn⟩
    · subst whole
      have run := exec_syncEcho head up good waits hid hm
      rw [State.takeEcho_caps two caps] at run
      generalize s.link p = x at *
      have measured := start.updLink (Link.measured (x.syncs ++ [m]))
      obtain ⟨y, lmin, set, same, shown⟩ := measured.setEpoch (medianEpoch (x.syncs ++ [m]))
      exact ⟨_, run, (congrArg Link.epoch set.link).trans (congrArg Link.epoch same), shown,
        (congrArg Link.geomSent set.link).trans (congrArg Link.geomSent same),
        (congrArg Link.epochId set.link).trans (congrArg Link.epochId same), set.others, set.regsOnlyAt, set.onlyIn⟩
    · subst whole
      have run := exec_syncEcho head up good waits hid hm
      rw [State.takeEcho_active two active] at run
      generalize s.link p = x at *
      have measured := start.updLink (Link.measured (x.syncs ++ [m]))
      rw [State.checkEpoch_near (by rw [measured.link]; exact near)] at run
      have ends := measured.updLink Link.unmeasured
      exact ⟨_, run, ends.link, ends.others, ends.onlyIn⟩
  case statNull =>
    have run := exec_statAck head active frame
    generalize s.link p = x at *
    obtain ⟨k, taken, acked, kept⟩ := start.takeStat_null active header payload type kind range len hseq hlack hack stays turn lineOrder
      ctlOrder empty sent
    refine ⟨_, run, congrArg Link.statAt taken.link, congrArg Link.statNext taken.link, congrArg Link.unacked taken.link,
      congrArg Link.ctlAck taken.link, fun fires there => ?_, fun unsent => (congrArg Link.lineAck taken.link).trans (kept unsent),
      (congrArg Link.st taken.link).trans active, taken.others, taken.regsOnlyAt, taken.onlyIn⟩
    exact (acked fires there).imp_left (congrArg Link.lineAck taken.link).trans
  case capsTimeout =>
    obtain ⟨falls, down, raised⟩ := State.portDown_fault (State.leaves_inactive sound start.inside (by simp [caps])) head free idle 6
    exact ⟨_, exec_capsTimeout head caps due, down, raised, falls.onlyIn⟩
  case syncPeriodic =>
    have run := exec_syncPeriodic head active loud due
    generalize s.link p = x at *
    have syncs := start.updLink (Link.syncing s.clock)
    obtain ⟨r, asks⟩ := syncs.sendSyncReq_leaves none empty ((s.muted_updLink p).trans loud)
    exact ⟨_, run, asks.asked_ctlSent none empty, congrArg Link.syncAt asks.link, congrArg Link.syncs asks.link,
      (congrArg Link.syncWait asks.link).trans (Link.asked_syncWait ..), asks.others, asks.onlyIn⟩

end Sys2Proof.Machine
end

section
/-! Control frames sent again (R254, R255, R259). -/

namespace Sys2Proof.Machine

/-! ### One frame -/

/-- A frame under way that has been sent again now, where it is the one of that number. -/
def CtlFrame.resentAs (seq : BitVec 32) (now : Instant) (g : CtlFrame) : CtlFrame :=
  if g.seq = seq then { g with sentAt := now, resends := g.resends + 1 } else g

/-- A link behind a frame that was sent again; the echo of a SYNC REQ no longer measures (log 138). -/
def Link.again (f : CtlFrame) (now : Instant) (l : Link) : Link :=
  { l with unacked := l.unacked.map (CtlFrame.resentAs f.seq now),
           syncWait := if isSyncReq f.frame then l.syncWait.map fun w => (w.1, w.2.1, true) else l.syncWait }

theorem Link.again_unsent (l : Link) (f : CtlFrame) (now : Instant) : (l.again f now).unsent = l.unsent := rfl

theorem Link.transmitted_unsent (l : Link) (raw : Bytes) (t : Time) (r : BitVec 23) : (l.transmitted raw t r).unsent = l.unsent := rfl

theorem Link.again_unacked (l : Link) (f : CtlFrame) (now : Instant) :
    (l.again f now).unacked = l.unacked.map (CtlFrame.resentAs f.seq now) := rfl

theorem Link.transmitted_unacked (l : Link) (raw : Bytes) (t : Time) (r : BitVec 23) : (l.transmitted raw t r).unacked = l.unacked := rfl

section
variable {s t u : State} {p : Nat} {x : Link} {l : List Part} {a : List Nat}

theorem State.framesOut_congr {s t : State} (same : t.out = s.out) (p : Nat) : t.framesOut p = s.framesOut p := by
  unfold State.framesOut
  rw [same]

theorem State.framesOut_sendFrame (s : State) (p : Nat) (frame : Bytes) (q : Nat) :
    (s.sendFrame p frame).framesOut q = s.framesOut q ++ if p = q then [frame] else [] := by
  obtain ⟨lane, block, lane', out⟩ := s.sendFrame_out p frame
  unfold State.framesOut
  rw [out, List.filterMap_append]
  by_cases same : p = q <;> simp [same]

/-- What leaves with a control frame is the frame on the wire (R223, R237). -/
theorem State.framesOut_transmitCtl (s : State) (p : Nat) (f : CtlFrame) (q : Nat) :
    (s.transmitCtl p f.frame f.seq).framesOut q = s.framesOut q ++ if p = q then [f.wire s.mono] else [] := by
  unfold State.transmitCtl
  by_cases sync : isSyncReq f.frame = true
  · have wire : f.wire s.mono = finishFrame (splice f.frame 12 (toLe 4 s.mono.toNat)) f.seq := by simp [CtlFrame.wire, sync]
    rw [if_pos sync, wire, State.framesOut_congr (State.updLink_out ..), State.framesOut_sendFrame]
  · have wire : f.wire s.mono = finishFrame f.frame f.seq := by simp [CtlFrame.wire, sync]
    have leaves := State.framesOut_sendFrame (if isQuiesce f.frame then s.updLink p Link.quiet else s) p (finishFrame f.frame f.seq) q
    have start : (if isQuiesce f.frame then s.updLink p Link.quiet else s).framesOut q = s.framesOut q := by split <;> rfl
    rw [start] at leaves
    rw [if_neg sync, wire, ← leaves]
    dsimp only
    split <;> rfl

theorem State.resend_eq (head : p < 24) (f : CtlFrame) :
    s.resend p f = ((s.transmitCtl p f.frame f.seq).count .GHL_RESEND_CNT p).updLink p (Link.again f s.clock) := by
  have clock : ((s.transmitCtl p f.frame f.seq).count .GHL_RESEND_CNT p).clock = s.clock :=
    ((s.transmitCtl_onlyIn p f.frame f.seq).trans (State.set_touches _ _ _ _ _ _).1).clock (by decide)
  rw [← clock]
  unfold State.resend
  dsimp only
  rw [if_pos head]
  rfl

theorem State.linkMoved.resend (h : s.linkMoved t p x l a) (head : p < 24) (f : CtlFrame) :
    ∃ r, s.linkMoved (t.resend p f) p ((x.transmitted f.frame t.mono r).again f t.clock) (l ++ [.links, .wck, .out, .regs])
      (a ++ [Reg.GHL_RESEND_CNT.addr p 0 0]) := by
  obtain ⟨r, sent⟩ := State.transmitCtl_moved h.sound h.inside f.frame f.seq
  rw [h.link] at sent
  rw [State.resend_eq head]
  exact ⟨r, (((h.trans sent).count .GHL_RESEND_CNT p).updLink (Link.again f t.clock)).mono (by simp) (by simp [Fld.GHL_RESEND_CNT])⟩

end

/-! ### A list of frames -/

/-- The frames of a list have left a link again, and nothing else of it has changed but what sending changes. -/
structure State.ResentOn (s t : State) (p : Nat) (l : List CtlFrame) : Prop where
  resent : s.resent t p l
  moved : ∃ y, s.linkMoved t p y [.links, .wck, .out, .regs] [Reg.GHL_RESEND_CNT.addr p 0 0] ∧ y.unsent = (s.link p).unsent

section
variable {s t u : State} {p : Nat}

theorem resendCnt_le (s : State) (p : Nat) : s.get .GHL_RESEND_CNT p ≤ 2 ^ (Fld.GHL_RESEND_CNT.hi + 1 - Fld.GHL_RESEND_CNT.lo) - 1 :=
  Nat.le_sub_one_of_lt (field_lt _ _ _)

theorem State.ResentOn.none (sound : s.sound) (head : p < 24) : s.ResentOn s p [] where
  resent := ⟨by simp, rfl, (Nat.min_eq_left (resendCnt_le s p)).symm, fun _ _ => ⟨rfl, rfl⟩⟩
  moved := ⟨s.link p, (State.linkMoved.refl sound (by omega)).mono, rfl⟩

theorem State.ResentOn.one (sound : s.sound) (head : p < 24) (f : CtlFrame) : s.ResentOn (s.resend p f) p [f] := by
  obtain ⟨r, moved⟩ := (State.linkMoved.refl sound (p := p) (by omega)).resend head f
  have sent := State.transmitCtl_moved sound (p := p) (by omega) f.frame f.seq
  have frames (q : Nat) : (s.resend p f).framesOut q = s.framesOut q ++ if p = q then [f.wire s.mono] else [] := by
    have out : (s.resend p f).out = (s.transmitCtl p f.frame f.seq).out := by rw [State.resend_eq head, State.updLink_out, State.count_out]
    rw [State.framesOut_congr out, State.framesOut_transmitCtl]
  have counted : s.counted (s.resend p f) .GHL_RESEND_CNT p := by
    obtain ⟨r, sent⟩ := sent
    rw [State.resend_eq head]
    exact (State.counted_count .GHL_RESEND_CNT p (State.sound_regs sent.sound) (by decide) (by decide)).around
      (sent.touches.2.get _ _ _ _ List.not_mem_nil) rfl
  have unacked : ((s.resend p f).link p).unacked = (s.link p).unacked.map (CtlFrame.resentAs f.seq s.clock) := by
    rw [moved.link, Link.again_unacked, Link.transmitted_unacked]
  have others (q : Nat) (other : q ≠ p) := And.intro (moved.others q other) (by simpa [Ne.symm other] using frames q)
  exact ⟨⟨by simpa using frames p, unacked, counted, others⟩, _, moved.mono, by rw [Link.again_unsent, Link.transmitted_unsent]⟩

theorem State.ResentOn.trans {k l : List CtlFrame} (h : s.ResentOn t p k) (h' : t.ResentOn u p l) : s.ResentOn u p (k ++ l) := by
  obtain ⟨⟨frames, unacked, count, others⟩, x, moved, same⟩ := h
  obtain ⟨⟨frames', unacked', count', others'⟩, y, moved', same'⟩ := h'
  refine ⟨⟨?_, ?_, ?_, fun q other => ?_⟩, y, (moved.trans moved').mono, same'.trans ((congrArg Link.unsent moved.link).trans same)⟩
  · rw [frames', frames, moved.touches.1.mono_eq, List.map_append, List.append_assoc]
  · rw [unacked', unacked, moved.clock, List.foldl_append]
  · rw [count', count, List.length_append]
    omega
  · exact ⟨(others' q other).1.trans (others q other).1, (others' q other).2.trans (others q other).2⟩

/-- Each frame of a list is sent again, in order. -/
theorem State.resentOn_each (sound : s.sound) (head : p < 24) (l : List CtlFrame) : s.ResentOn (s.each l fun s g => s.resend p g) p l := by
  induction l generalizing s with
  | nil => exact .none sound head
  | cons f l ih =>
    have first := State.ResentOn.one sound head f
    obtain ⟨y, moved, -⟩ := first.moved
    exact first.trans (ih moved.sound)

end

/-! ### GHL.PARTNER (R255, R259) -/

/-- The window's NAKs and violations, as GHL.PARTNER shows them (R259). -/
def Link.partnerDetail (l : Link) : Word := BitVec.ofNat 32 (min l.naks 65535 + min l.viols 65535 * 65536)

/-- Raises with GHL.PARTNER of a port taken in `n` times. -/
def partnerRaised (p : Nat) (detail : Word) (now : Instant) (raises : List Raise) : Nat → List Raise
  | 0 => raises
  | n + 1 => partnerRaised p detail now (insertRaise ⟨Src.ghlPartner.num, 2, p, 0xFF, 7, detail, false, now⟩ raises) n

/-- A state whose raises are those given. -/
def State.withRaises (s : State) (raises : List Raise) : State := { s with ltn := { s.ltn with raises := raises } }

section
variable {s t u : State} {p : Nat} {x : Link} {l : List Part} {a : List Nat}

theorem State.partnerRaises_eq (s : State) (p : Nat) (k : List CtlFrame) (detail : Word) (raises : List Raise) :
    s.partnerRaises p k detail raises = partnerRaised p detail s.clock raises (k.filter fun f => f.resends == 7).length := by
  unfold State.partnerRaises
  generalize k.filter (fun f => f.resends == 7) = k
  induction k generalizing raises with
  | nil => rfl
  | cons f k ih => exact ih _

theorem State.raisePartner_eq (s : State) (p : Nat) : s.raisePartner p =
    s.withRaises (insertRaise ⟨Src.ghlPartner.num, 2, p, 0xFF, 7, (s.link p).partnerDetail, false, s.clock⟩ s.ltn.raises) := rfl

theorem State.scheduleRetrain_off (off : s.on .LMP_CTRL_sched_en = false) : s.scheduleRetrain p = s := by
  simp [State.scheduleRetrain, off]

theorem State.withRaises_ltn (s : State) (raises : List Raise) : (s.withRaises raises).ltn = { s.ltn with raises := raises } := rfl

theorem State.linkMoved.withRaises (h : s.linkMoved t p x l a) (raises : List Raise) :
    s.linkMoved (t.withRaises raises) p x (l ++ [.ltn]) a := by
  have only : t.onlyIn (t.withRaises raises) [.ltn] := by intro z; cases z <;> simp [State.withRaises, Part.same]
  have sound : (t.withRaises raises).sound := State.sound_set_ltn h.sound rfl
  exact (h.beside sound only.touches).mono (by simp) (by simp)

/-- Lamplighter's control register lies below every register of the links. -/
theorem lmpCtrl_ne {r : Reg} (i j k : Nat) (above : 0x40000 < r.base := by decide) : Reg.LMP_CTRL.addr 0 0 0 ≠ r.addr i j k := by
  have lmp : Reg.LMP_CTRL.addr 0 0 0 = 0x40000 := rfl
  rw [lmp]
  unfold Reg.addr
  split <;> omega

/-- Lamplighter's schedule stays off behind a step that leaves its register. -/
theorem State.linkMoved.scheduleOff (h : s.linkMoved t p x l a) (off : s.on .LMP_CTRL_sched_en = false)
    (kept : Reg.LMP_CTRL.addr 0 0 0 ∉ a) : t.on .LMP_CTRL_sched_en = false := by
  unfold State.on
  rw [h.touches.2.get .LMP_CTRL_sched_en 0 0 0 kept]
  exact off

/-- A frame that has been sent again for the eighth time raises GHL.PARTNER; Lamplighter's schedule being off, nothing else follows. -/
def State.partnerMissing (s : State) (p : Nat) : State :=
  if (s.raisePartner p).active p && isHead p then (s.raisePartner p).scheduleRetrain p else s.raisePartner p

theorem State.partnerMissing_off (off : s.on .LMP_CTRL_sched_en = false) : s.partnerMissing p =
    s.withRaises (insertRaise ⟨Src.ghlPartner.num, 2, p, 0xFF, 7, (s.link p).partnerDetail, false, s.clock⟩ s.ltn.raises) := by
  unfold State.partnerMissing
  rw [State.scheduleRetrain_off (s := s.raisePartner p) off, ite_self, State.raisePartner_eq]

theorem State.each_partnerMissing (off : s.on .LMP_CTRL_sched_en = false) (k : List CtlFrame) :
    s.each k (fun s _ => s.partnerMissing p) = s.withRaises (partnerRaised p (s.link p).partnerDetail s.clock s.ltn.raises k.length) := by
  induction k generalizing s with
  | nil => rfl
  | cons f k ih =>
    have step : s.each (f :: k) (fun s _ => s.partnerMissing p) = (s.partnerMissing p).each k (fun s _ => s.partnerMissing p) := rfl
    rw [step, State.partnerMissing_off off]
    exact ih (s := s.withRaises _) off

theorem State.resendAll_loud (loud : s.muted p = false) (k : List CtlFrame) : s.resendAll p k =
    (s.each k fun s g => s.resend p g).each (k.filter fun g => g.resends == 7) fun s _ => s.partnerMissing p := if_neg (by simp [loud])

/-- The frames of a list are sent again, and GHL.PARTNER is raised for each that has been sent again for the eighth time (R255). -/
theorem State.linkMoved.resendAll (h : s.linkMoved t p x l a) (head : p < 24) (loud : t.muted p = false)
    (off : t.on .LMP_CTRL_sched_en = false) (k : List CtlFrame) :
    ∃ y, s.linkMoved (t.resendAll p k) p y (l ++ [.links, .wck, .out, .regs, .ltn]) (a ++ [Reg.GHL_RESEND_CNT.addr p 0 0]) ∧
      y.unsent = x.unsent ∧ t.resent (t.resendAll p k) p k ∧
      (t.resendAll p k).ltn = { t.ltn with raises := t.partnerRaises p k x.partnerDetail t.ltn.raises } := by
  obtain ⟨resent, y, moved, same⟩ := State.resentOn_each h.sound head k
  rw [h.link] at same
  have offs := moved.scheduleOff off (by simpa using lmpCtrl_ne p 0 0)
  have detail : y.partnerDetail = x.partnerDetail := show y.unsent.partnerDetail = x.unsent.partnerDetail by rw [same]
  rw [State.resendAll_loud loud, State.each_partnerMissing offs, State.withRaises_ltn, moved.link, detail, moved.clock,
    moved.touches.1.same .ltn, State.partnerRaises_eq]
  exact ⟨y, ((h.trans moved).withRaises _).mono (by simp) (by simp), same, resent, rfl⟩

/-- Frames sent again behind a step that sends nothing and leaves the frames under way and their counter. -/
theorem State.linkMoved.resent_behind {k : List CtlFrame} (h : s.linkMoved t p x l a) (resent : t.resent u p k)
    (unacked : x.unacked = (s.link p).unacked) (counter : Reg.GHL_RESEND_CNT.addr p 0 0 ∉ a) (hout : .out ∉ l := by decide)
    (htim : .tim ∉ l := by decide) : s.resent u p k := by
  obtain ⟨frames, under, count, others⟩ := resent
  have out (q : Nat) := State.framesOut_congr (h.touches.1.same .out hout) q
  refine ⟨?_, ?_, ?_, fun q other => ⟨(others q other).1.trans (h.others q other), (others q other).2.trans (out q)⟩⟩
  · rw [frames, out p, h.touches.1.mono_eq htim]
  · rw [under, h.link, unacked, h.clock htim]
  · rw [count, h.touches.2.get .GHL_RESEND_CNT p 0 0 counter]

/-- The frames of a list are sent again behind a step that sends nothing, on a port that may send more than IDLE (R254, R255). -/
theorem State.linkMoved.resends (h : s.linkMoved t p x l a) (head : p < 24) (loud : s.muted p = false)
    (off : s.on .LMP_CTRL_sched_en = false) (k : List CtlFrame) (unacked : x.unacked = (s.link p).unacked)
    (sending : x.sending.2.2 = (s.link p).sending.2.2) (counter : Reg.GHL_RESEND_CNT.addr p 0 0 ∉ a) (sched : Reg.LMP_CTRL.addr 0 0 0 ∉ a)
    (hout : .out ∉ l := by decide) (htim : .tim ∉ l := by decide) (hdev : .dev ∉ l := by decide) :
    ∃ y, s.linkMoved (t.resendAll p k) p y (l ++ [.links, .wck, .out, .regs, .ltn]) (a ++ [Reg.GHL_RESEND_CNT.addr p 0 0]) ∧
      y.unsent = x.unsent ∧ s.resent (t.resendAll p k) p k ∧ t.regsOnlyAt (t.resendAll p k) [Reg.GHL_RESEND_CNT.addr p 0 0] ∧
      (t.resendAll p k).ltn = { t.ltn with raises := s.partnerRaises p k x.partnerDetail t.ltn.raises } := by
  have loud' : t.muted p = false := (State.muted_congr (h.touches.1.same .dev hdev) (by rw [h.link, sending])).trans loud
  obtain ⟨y, moved, same, resent, ltn⟩ := ((State.linkMoved.refl h.sound h.inside).to h.link).resendAll head loud' (h.scheduleOff off sched) k
  rw [State.partnerRaises_eq, h.clock htim, ← State.partnerRaises_eq] at ltn
  exact ⟨y, (h.trans moved).mono (by simp) (by simp), same, h.resent_behind resent unacked counter hout htim, moved.regsOnlyAt, ltn⟩

end

end Sys2Proof.Machine
end

section
/-! NAK and the timers that watch the partner (R254, R255, R259). -/

namespace Sys2Proof.Machine

/-- A link with one NAK more in its window (R259). -/
def Link.nakked (l : Link) : Link := { l with naks := l.naks + 1 }

/-- A link whose frames of a number count as accepted (R254). -/
def Link.ranged (seq : BitVec 32) (l : Link) : Link := { l with unacked := l.unacked.filter fun g => g.seq != seq }

/-- A link whose window begins now (R259). -/
def Link.windowed (now : Instant) (l : Link) : Link := { l with windowAt := now, naks := 0, viols := 0 }

/-- A NAK in its turn has been taken: its sequence number, and the counts. -/
def Link.nakTaken (seq : BitVec 32) (l : Link) : Link := { l with statNext := some (seq + 1), naks := l.naks + 1 }

section
variable {s t : State} {p : Nat} {x : Link} {l : List Part} {a : List Nat}

/-- A NAK is counted before it is answered. -/
def State.nakCounted (s : State) (p : Nat) (seq : BitVec 32) : State :=
  ((s.takeStatSeq p seq).count .GHL_NAK_CNT p).updLink p Link.nakked

theorem exec_nak {frame : Bytes} (head : p < 24) (up : (s.link p).st = .caps ∨ (s.link p).st = .active) (header : headerGood frame = true)
    (type : byteAt frame 0 = 0x82) : exec (.nak p frame) s =
      .next ((s.nakCounted p (BitVec.ofNat 32 (leAt frame 4 4))).answerNak p (byteAt frame 8) (byteAt frame 9)
        (BitVec.ofNat 32 (leAt frame 12 4))) := by
  have open' : ¬ (24 ≤ p ∨ (!((s.link p).st == .caps || (s.link p).st == .active)) = true) := by
    rcases up with up | up <;> simp [up, head]
  show execNak p frame s = _
  unfold execNak
  rw [if_neg open', if_neg (by simp [header]), if_neg (by simp [type])]
  rfl

theorem State.linkMoved.nakCounted {seq : BitVec 32} (h : s.linkMoved t p x l a) (turn : ∀ n, x.statNext = some n → 0 ≤ sdiff seq n) :
    s.linkMoved (t.nakCounted p seq) p (x.nakTaken seq) (l ++ [.links, .regs]) (a ++ [Reg.GHL_NAK_CNT.addr p 0 0]) ∧
      t.counted (t.nakCounted p seq) .GHL_NAK_CNT p := by
  have start : t.linkMoved t p x [] [] := (State.linkMoved.refl h.sound h.inside).to h.link
  have taken := start.takeStatSeq turn
  have counts := ((taken.count .GHL_NAK_CNT p).updLink Link.nakked).to (y := x.nakTaken seq) rfl
  refine ⟨(h.trans counts).mono (by simp) (by simp [Fld.GHL_NAK_CNT]), ?_⟩
  exact (State.counted_count .GHL_NAK_CNT p (State.sound_regs taken.sound) (by decide) (by decide)).around
    (taken.touches.2.get _ _ _ _ List.not_mem_nil) rfl

theorem State.linkMoved.rangeNak (h : s.linkMoved t p x l a) (seq : BitVec 32) (empty : x.queued = []) :
    s.linkMoved (t.rangeNak p seq) p (x.ranged seq) (l ++ [.links]) a := by
  have ranged := h.updLink (Link.ranged seq)
  have still : ((t.updLink p (Link.ranged seq)).link p).queued = [] := by rw [ranged.link]; exact empty
  have drained : t.rangeNak p seq = t.updLink p (Link.ranged seq) := State.drainCtl_none still 4
  rw [drained]
  exact ranged

theorem State.counted_violate (sound : s.sound) : s.counted (s.violate p) .GHL_VIOL_CNT p :=
  (State.counted_count .GHL_VIOL_CNT p (State.sound_regs sound) (by decide) (by decide)).around rfl rfl

/-- A counter of the port that was counted before a step at other registers is counted behind it. -/
theorem State.counted.kept {u : State} {f : Fld} (h : s.counted t f p) {l : List Part} {a : List Nat} (later : t.touches u l a)
    (hf : f.reg.addr p 0 0 ∉ a) : s.counted u f p :=
  h.around rfl (later.2.get f p 0 0 hf)

theorem State.answerNak_other {code type : Nat} {seq : BitVec 32} (other : code = 0 ∨ 6 ≤ code) :
    s.answerNak p code type seq = s.violate p := by
  unfold State.answerNak
  split
  case h_6 => rfl
  all_goals omega

/-! ### The timers -/

theorem exec_statTimeout (head : p < 24) (active : (s.link p).st = .active)
    (due : s.elapsed (s.link p).statAt (s.get .GHL_CTRL_stat_timeout p * 1000000) = true) : exec (.statTimeout p) s =
      .next ((((s.violate p).updLink p (Link.heard (s.violate p).clock)).raisePartner p).scheduleRetrain p) := by
  show execStatTimeout p s = _
  unfold execStatTimeout
  rw [if_pos (by simp [State.active, active, head, due])]
  rfl

/-- A limit that is set is passed (R259). -/
def limitPassed (n k : Nat) : Bool := k != 0 && decide (k < n)

/-- The window's limits. -/
def State.windowBroken (s : State) (p : Nat) : Bool :=
  limitPassed (s.link p).naks (s.get .GHL_NAK_CTRL_nak_limit p) || limitPassed (s.link p).viols (s.get .GHL_NAK_CTRL_viol_limit p)

theorem exec_partnerWindowEnd (head : p < 24) (active : (s.link p).st = .active)
    (due : s.elapsed (s.link p).windowAt (s.get .GHL_NAK_CTRL_window p * 1000000) = true) : exec (.partnerWindowEnd p) s =
      .next ((if s.windowBroken p then (s.raisePartner p).scheduleRetrain p else s).updLink p (Link.windowed
        (if s.windowBroken p then (s.raisePartner p).scheduleRetrain p else s).clock)) := by
  show execPartnerWindowEnd p s = _
  unfold execPartnerWindowEnd
  dsimp only
  rw [if_pos (by simp [State.active, active, head, due])]
  rfl

theorem exec_ctlResendTimeout (inside : p < 26) (up : (s.link p).st = .caps ∨ (s.link p).st = .active)
    (due : ∃ f, f ∈ (s.link p).unacked ∧ s.elapsed f.sentAt 100000 = true) :
    exec (.ctlResendTimeout p) s = .next (s.resendAll p (s.link p).unacked) := by
  have open' : (p < 26 && ((s.link p).st == .caps || (s.link p).st == .active) &&
      (s.link p).unacked.any fun f => s.elapsed f.sentAt 100000) = true := by
    rcases up with up | up <;> simpa [up, inside] using due
  show execCtlResendTimeout p s = _
  unfold execCtlResendTimeout
  dsimp only
  rw [if_pos (by simpa using open')]

end

/-! ### The answers that send again -/

section
variable {s t : State} {p : Nat} {x y : Link} {l : List Part}

/-- A NAK that has the frames of a list sent again: `t` is the state in which it has been counted, and GHL.CRC raised where its code asks
for it. -/
theorem State.linkMoved.nakResends (h : s.linkMoved t p y l [Reg.GHL_NAK_CNT.addr p 0 0]) (link : s.link p = x) (head : p < 24)
    (loud : s.muted p = false) (off : s.on .LMP_CTRL_sched_en = false) (k : List CtlFrame) (unacked : y.unacked = x.unacked)
    (sending : y.sending.2.2 = x.sending.2.2) (counted : s.counted t .GHL_NAK_CNT p) (hl : l ⊆ [.links, .regs, .ltn] := by decide) :
    ((t.resendAll p k).link p).naks = y.naks ∧ s.counted (t.resendAll p k) .GHL_NAK_CNT p ∧ s.resent (t.resendAll p k) p k ∧
      (t.resendAll p k).ltn = { t.ltn with raises := s.partnerRaises p k y.partnerDetail t.ltn.raises } ∧
      s.regsOnlyAt (t.resendAll p k) [Reg.GHL_NAK_CNT.addr p 0 0, Reg.GHL_RESEND_CNT.addr p 0 0] ∧
      s.onlyIn (t.resendAll p k) [.links, .out, .regs, .wck, .ltn] := by
  subst link
  have wide := h.mono hl (List.Subset.refl _)
  have apart : Reg.GHL_RESEND_CNT.addr p 0 0 ≠ Reg.GHL_NAK_CNT.addr p 0 0 := Reg.addr_ne p 0 0
  obtain ⟨z, moved, same, resent, later, ltn⟩ := wide.resends head loud off k unacked sending (by simpa using apart)
    (by simpa using lmpCtrl_ne p 0 0)
  have count := later.get .GHL_NAK_CNT p 0 0 (by simpa [Fld.GHL_NAK_CNT] using apart.symm)
  have naks : z.naks = y.naks := show z.unsent.naks = y.unsent.naks by rw [same]
  exact ⟨(congrArg Link.naks moved.link).trans naks, counted.around rfl count, resent, ltn, moved.regsOnlyAt, moved.onlyIn⟩

end

section
variable {s u : State} {p : Nat} {x : Link} {n seq : BitVec 32} {code type : Nat}

/-- The answers by code, behind the counts (R254, log 135). -/
theorem State.answerNak_crc (taken : s.linkMoved u p (x.nakTaken n) [.links, .regs] [Reg.GHL_NAK_CNT.addr p 0 0]) :
    u.answerNak p 1 type seq = (u.raise .ghlCrc seq p).resendAll p x.unacked := by
  have link : (u.link p).unacked = x.unacked := (congrArg Link.unacked taken.link).trans rfl
  rw [← link]
  rfl

theorem State.answerNak_resend (taken : s.linkMoved u p (x.nakTaken n) [.links, .regs] [Reg.GHL_NAK_CNT.addr p 0 0])
    (asks : code = 2 ∨ code = 5 ∧ type ≠ 1) :
    u.answerNak p code type seq = u.resendAll p (x.unacked.filter fun g => g.seq == seq) := by
  have link : (u.link p).unacked = x.unacked := (congrArg Link.unacked taken.link).trans rfl
  rw [← link]
  rcases asks with rfl | ⟨rfl, other⟩
  · rfl
  · exact if_neg other

theorem State.answerNak_line (line : code = 3 ∨ code = 5 ∧ type = 1) : s.answerNak p code type seq = s.count .GHL_LINE_NAK_CNT p := by
  rcases line with rfl | ⟨rfl, rfl⟩ <;> rfl

/-- The counts of a NAK that is a violation. -/
theorem State.linkMoved.nakViolates (taken : s.linkMoved u p (x.nakTaken n) [.links, .regs] [Reg.GHL_NAK_CNT.addr p 0 0])
    (counted : s.counted u .GHL_NAK_CNT p) :
    s.linkMoved (u.violate p) p (x.nakTaken n).violated [.links, .regs] [Reg.GHL_NAK_CNT.addr p 0 0, Reg.GHL_VIOL_CNT.addr p 0 0] ∧
      s.counted (u.violate p) .GHL_NAK_CNT p ∧ s.counted (u.violate p) .GHL_VIOL_CNT p := by
  have later := (State.linkMoved.refl taken.sound taken.inside).violate
  exact ⟨taken.violate.mono (by decide) (by simp), counted.kept later.touches (by simpa using Reg.addr_ne p 0 0),
    (State.counted_violate taken.sound).around (taken.touches.2.get .GHL_VIOL_CNT p 0 0 (by simpa using Reg.addr_ne p 0 0)) rfl⟩

end

/-- Settles O27: a NAK is taken by its number and its counts, and answered by its code; what is sent again is `State.linkMoved.resends`. -/
theorem linkFaultCommandsComplete : Obligations.LinkFaultCommandsComplete := by
  intro s p sound head off
  have start := State.linkMoved.refl sound (p := p) (by omega)
  refine ⟨fun frame code type seq l d up header nak hcode htype hseq turn hd => ?nak, fun active due => ?statTimeout,
    fun active due broken hbroken => ?windowEnd, fun l d up hl due loud hd => ?resendTimeout⟩
  case nak =>
    have run := exec_nak head up header nak
    rw [← hcode, ← htype, ← hseq] at run
    generalize link : s.link p = x at *
    obtain ⟨taken, counted⟩ := start.nakCounted turn
    generalize s.nakCounted p (BitVec.ofNat 32 (leAt frame 4 4)) = u at *
    clear hcode htype hseq
    refine ⟨fun one hl loud => ?_, fun asks hl loud => ?_, fun line => ?_, fun four empty => ?_, fun other => ?_⟩
    · subst one hl hd
      rw [State.answerNak_crc taken] at run
      have crc : u.raised (u.raise .ghlCrc seq p) .ghlCrc 1 p 0xFF (srcDefaults.getD Src.ghlCrc.num (0, 0)).2 seq := rfl
      have raised := State.raised_around crc (taken.touches.1.same .ltn) taken.clock rfl
      obtain ⟨naks, nakCount, resent, ltn, regs, only⟩ := (taken.raise .ghlCrc seq p).nakResends link head loud off x.unacked rfl rfl
        counted
      rw [raised] at ltn
      exact ⟨_, run, naks, nakCount, resent, ltn, regs, only⟩
    · subst hl hd
      rw [State.answerNak_resend taken asks] at run
      obtain ⟨naks, nakCount, resent, ltn, regs, only⟩ := taken.nakResends link head loud off (x.unacked.filter fun g => g.seq == seq)
        rfl rfl counted
      rw [taken.touches.1.same .ltn] at ltn
      exact ⟨_, run, naks, nakCount, resent, ltn, regs, only⟩
    · rw [State.answerNak_line line] at run
      have lines := (taken.count .GHL_LINE_NAK_CNT p).mono (b := [Reg.GHL_NAK_CNT.addr p 0 0, Reg.GHL_LINE_NAK_CNT.addr p 0 0])
        (List.Subset.refl _) (by simp [Fld.GHL_LINE_NAK_CNT])
      have lineCount := (State.counted_count .GHL_LINE_NAK_CNT p (State.sound_regs taken.sound) (by decide) (by decide)).around
        (taken.touches.2.get .GHL_LINE_NAK_CNT p 0 0 (by simpa using Reg.addr_ne p 0 0)) rfl
      exact ⟨_, run, congrArg Link.naks lines.link, (congrArg Link.unacked lines.link).trans rfl,
        counted.kept (State.set_touches u .GHL_LINE_NAK_CNT _ p 0 0) (by simpa using Reg.addr_ne p 0 0), lineCount, lines.others,
        lines.regsOnlyAt, lines.onlyIn⟩
    · subst four
      obtain ⟨violates, nakCount, violCount⟩ := taken.nakViolates counted
      by_cases frames : type = 1
      · have answer : u.answerNak p 4 type seq = u.violate p := if_pos frames
        rw [answer] at run
        exact ⟨_, run, congrArg Link.naks violates.link, congrArg Link.viols violates.link, nakCount, violCount,
          fun _ => (congrArg Link.unacked violates.link).trans rfl, fun other => absurd frames other, violates.others, violates.regsOnlyAt,
          violates.onlyIn⟩
      · have answer : u.answerNak p 4 type seq = (u.violate p).rangeNak p seq := if_neg frames
        rw [answer] at run
        have ranged := violates.rangeNak seq empty
        have later := ((State.linkMoved.refl violates.sound violates.inside).to violates.link).rangeNak seq empty
        exact ⟨_, run, congrArg Link.naks ranged.link, congrArg Link.viols ranged.link, nakCount.kept later.touches List.not_mem_nil,
          violCount.kept later.touches List.not_mem_nil, fun line => absurd line frames, fun _ => (congrArg Link.unacked ranged.link).trans rfl,
          ranged.others, ranged.regsOnlyAt, ranged.onlyIn⟩
    · obtain ⟨violates, nakCount, violCount⟩ := taken.nakViolates counted
      rw [State.answerNak_other other] at run
      exact ⟨_, run, congrArg Link.naks violates.link, congrArg Link.viols violates.link, nakCount, violCount,
        (congrArg Link.unacked violates.link).trans rfl, violates.others, violates.regsOnlyAt, violates.onlyIn⟩
  case statTimeout =>
    have run := exec_statTimeout head active due
    generalize s.link p = x at *
    have violates := start.violate
    rw [violates.clock] at run
    have heard := violates.updLink (Link.heard s.clock)
    have kept := heard.scheduleOff off (by simpa using lmpCtrl_ne p 0 0)
    rw [State.scheduleRetrain_off (s := ((s.violate p).updLink p (Link.heard s.clock)).raisePartner p) kept, State.raisePartner_eq,
      heard.link, heard.clock, heard.touches.1.same .ltn] at run
    have raised := heard.withRaises (insertRaise ⟨Src.ghlPartner.num, 2, p, 0xFF, 7, (Link.heard s.clock x.violated).partnerDetail, false,
      s.clock⟩ s.ltn.raises)
    refine ⟨_, run, congrArg Link.statAt raised.link, congrArg Link.viols raised.link, (congrArg Link.st raised.link).trans active,
      State.counted_violate sound, ?_, raised.others, raised.regsOnlyAt, raised.onlyIn⟩
    unfold State.raised
    rw [State.withRaises_ltn, heard.touches.1.same .ltn]
    rfl
  case windowEnd =>
    have run := exec_partnerWindowEnd head active due
    have judged : s.windowBroken p = true ↔ broken := by simpa [State.windowBroken, limitPassed] using hbroken.symm
    generalize s.link p = x at *
    by_cases past : broken
    · rw [if_pos (judged.mpr past), State.scheduleRetrain_off (s := s.raisePartner p) off, State.raisePartner_eq, start.link] at run
      have raised := start.withRaises (insertRaise ⟨Src.ghlPartner.num, 2, p, 0xFF, 7, x.partnerDetail, false, s.clock⟩ s.ltn.raises)
      rw [raised.clock] at run
      have ends := raised.updLink (Link.windowed s.clock)
      exact ⟨_, run, congrArg Link.naks ends.link, congrArg Link.viols ends.link, congrArg Link.windowAt ends.link,
        (congrArg Link.st ends.link).trans active, ends.others, fun within => absurd past within, fun _ => ⟨rfl, ends.onlyIn⟩⟩
    · rw [if_neg (fun h => past (judged.mp h))] at run
      have ends := start.updLink (Link.windowed s.clock)
      exact ⟨_, run, congrArg Link.naks ends.link, congrArg Link.viols ends.link, congrArg Link.windowAt ends.link,
        (congrArg Link.st ends.link).trans active, ends.others, fun _ => ends.onlyIn, fun past' => absurd past' past⟩
  case resendTimeout =>
    have run := exec_ctlResendTimeout (by omega) up (hl ▸ due)
    subst hl hd
    obtain ⟨y, moved, same, resent, -, ltn⟩ := start.resends head loud off (s.link p).unacked rfl rfl (by simp) (by simp)
    exact ⟨_, run, resent, ltn, moved.regsOnlyAt, moved.onlyIn⟩

end Sys2Proof.Machine
end

section
/-! A MAINT descriptor that is taken for an activity (R375, R434 to R438). -/

namespace Sys2Proof.Machine

/-! ### What becomes of the descriptor -/

section
variable {s u t : State} {r op : Nat} {d : Bytes} {st : Status}

/-- A taken descriptor is in flight as long as the host interface stays. -/
theorem State.inFlight_of_hst (sound : s.sound) (h : s.accepts r d op) (hst : t.hst = (s.take r).hst) : s.inFlight t r := by
  have inside : r < s.hst.rings.length := by
    rw [State.sound_rings sound]
    exact State.ring_lt_of_accepts h
  have flies : s.inFlight (s.take r) r := ⟨State.took_take inside, s.waiting_take r, s.ringsOnly_take r⟩
  unfold State.inFlight State.took State.ringsOnly State.ring at flies ⊢
  rw [hst]
  exact flies

theorem State.ring_complete_other (c : Ctx) (st' : Status) (m n : Nat) {q : Nat} (hq : q ≠ u.cring c.ring) :
    (u.complete c st m).ring q = (u.complete c st' n).ring q :=
  (State.ring_complete_ne hq st m).trans (State.ring_complete_ne hq st' n).symm

/-- A taken descriptor completes with a status other than OK, and with the result 0: nothing else of the host interface changes (R380). -/
theorem State.answered_failed (sound : s.sound) (h : s.accepts r d op) (hst : u.hst = (s.take r).hst) (cring : u.cring r = s.cring r)
    (failed : st ≠ .ok) (result : Nat) : s.answered (u.complete (s.ctxOf r d) st result) r d st 0 := by
  obtain ⟨⟨dev, inflight⟩, -, hostOk, rings⟩ := State.answered_complete sound h hst cring 0
  have other {q : Nat} (hq : q ≠ s.cring r) := State.ring_complete_other (st := st) (s.ctxOf r d) .ok result 0 (u := u)
    (show q ≠ u.cring (s.ctxOf r d).ring from cring ▸ hq)
  have own := other (State.cring_ne_of_accepts h).symm
  have known : (s.ctxOf r d).gen = u.hst.gen := by rw [hst, State.take_gen]; rfl
  have there : u.cring (s.ctxOf r d).ring < u.hst.rings.length := by
    rw [hst, State.take_rings_length, State.sound_rings sound]
    exact u.cring_lt r
  have same := State.ring_complete_same known there st result
  have ring : u.ring (s.cring r) = (s.take r).ring (s.cring r) := congrArg (fun x : Host' => x.rings.getD (s.cring r) Ring.reset) hst
  rw [show u.cring (s.ctxOf r d).ring = s.cring r from cring, ring, if_neg failed] at same
  refine ⟨⟨by rw [own, dev], by rw [own, inflight]⟩, ?_, ?_, fun q => ?_⟩
  · unfold State.completes
    rw [show s.cring (s.ctxOf r d).ring = s.cring r from rfl, same, s.waiting_take]
    rfl
  · exact (congrArg (fun x : Host' => { x with l1 := false, busyAt := 0, turn := 0 })
      ((u.complete_hst _ st result).trans (u.complete_hst (s.ctxOf r d) .ok 0).symm)).trans hostOk
  · by_cases complete : q = s.cring r
    · exact .inl (by simp [complete])
    · exact (rings q).imp_right (other complete).trans

end

/-! ### The activity -/

section
variable {s : State} {r k : Nat} {d : Bytes} {target len : Nat → Bool} {states : List DevState}

/-- The activity that a MAINT without a parameter asks for, once it is taken. -/
def State.maintOf (s : State) (r : Nat) (d : Bytes) : Activity := (s.take r).maintAct (s.ctxOf r d) d []

/-- The state in which that activity runs. -/
def State.maintStarted (s : State) (r : Nat) (d : Bytes) : State := (s.take r).actRun (s.maintOf r d)

/-- In HELD a MAINT completes with STATE (R375). -/
theorem State.maint_held (h : s.accepts r d 8) (code : byteAt d 4 = k) (held : s.dev.dev = .held) (act : State → Ctx → State) :
    s.maint r d k target len states act = (s.take r).complete (s.ctxOf r d) .state := by
  unfold State.maint
  rw [State.descriptor_of_accepts h (by simp [code]), if_pos (by simp [held])]

/-- In a state that the activity allows, with its target and its parameter in range, a MAINT is acted on (R434, R435). -/
theorem State.maint_acts (h : s.accepts r d 8) (code : byteAt d 4 = k) (standby : s.dev.dev = .standby)
    (inRange : target (byteAt d 5) = true) (noParam : len (leAt d 16 4) = true) (allowed : states.contains .standby = true)
    (act : State → Ctx → State) : s.maint r d k target len states act = act (s.take r) (s.ctxOf r d) := by
  unfold State.maint
  rw [State.descriptor_of_accepts h (by simp [code]), State.take_dev, standby, if_neg (by decide), if_neg (by simp [inRange, noParam]),
    if_neg (by rw [allowed]; decide)]

theorem State.take_running (idle : s.lmp.running = []) : (s.take r).lmp.running = [] := by
  rw [(s.take_onlyIn r).same .lmp, idle]

/-- With nothing running, an activity that arrives runs (R437). -/
theorem State.actArrive_idle (idle : s.lmp.running = []) (a : Activity) (start : State → Activity → State) :
    s.actArrive a start = start (s.actRun a) a := by
  unfold State.actArrive
  rw [State.verdict_idle idle]

theorem State.maintStarted_running (idle : s.lmp.running = []) : (s.maintStarted r d).lmp.running = [s.maintOf r d] :=
  congrArg (· ++ [s.maintOf r d]) (State.take_running idle)

theorem State.maintStarted_drm (s : State) (r : Nat) (d : Bytes) : (s.maintStarted r d).drm = s.drm := s.take_drm r

theorem State.maintStarted_chan (s : State) (r : Nat) (d : Bytes) (c : Nat) : (s.maintStarted r d).chan c = s.chan c :=
  congrArg (fun z => z.chans.getD c Channel.reset) (s.maintStarted_drm r d)

theorem State.maintStarted_onlyIn (s : State) (r : Nat) (d : Bytes) : s.onlyIn (s.maintStarted r d) [.hst, .pcie, .lmp] :=
  ((s.take_onlyIn r).trans (State.actRun_onlyIn _ _)).mono (by decide)

end

end Sys2Proof.Machine
end

section
/-! The MAINT descriptors without a parameter (R226, R335, R434 to R438, R467 to R469). -/

namespace Sys2Proof.Machine

/-! ### What an activity's start does -/

section
variable {s t : State} {p : Nat} {a : Activity}

theorem State.chan_updChan_same {c : Nat} (f : Channel → Channel) (inside : c < s.drm.chans.length) :
    (s.updChan c f).chan c = f (s.chan c) := getD_upd_same inside

theorem State.chan_updChan_ne {c k : Nat} (f : Channel → Channel) (other : k ≠ c) : (s.updChan c f).chan k = s.chan k := getD_upd_ne other

theorem State.updChan_onlyIn (s : State) (c : Nat) (f : Channel → Channel) : s.onlyIn (s.updChan c f) [.drm] := by
  intro z; cases z <;> simp [Part.same, State.updChan]

/-- An activity that works on a channel (R467). -/
def Activity.workingOn (c : Nat) (a : Activity) : Activity := { a with left := c }

/-- A channel whose retrain begins (R467). -/
def Channel.unsliced (x : Channel) : Channel := { x with lastSlice := none }

/-- A channel whose calibration has been asked for (R468). -/
def Channel.calibrating (now : Instant) (x : Channel) : Channel := { x with zqPending := some now }

/-- A state in which one activity runs. -/
def State.runningOnly (s : State) (a : Activity) : State := { s with lmp := { s.lmp with running := [a] } }

theorem State.runningOnly_onlyIn (s : State) (a : Activity) : s.onlyIn (s.runningOnly a) [.lmp] := by
  intro z; cases z <;> simp [Part.same, State.runningOnly]

/-- A retrain of one channel begins on it. -/
theorem State.retrainBegin_one (alone : s.lmp.running = [a]) (one : a.target < 4) :
    s.retrainBegin a = (s.runningOnly (a.workingOn a.target)).updChan a.target Channel.unsliced := by
  unfold State.retrainBegin
  dsimp only
  rw [if_neg (by omega), alone, List.map_singleton, if_pos rfl]
  rfl

/-- One channel is told to calibrate. -/
def State.zqAsked (s : State) (c : Nat) : State := (s.updChan c (Channel.calibrating s.clock)).emit (.dramCommand c 12 2 0)

theorem State.zqBegin_all (all : a.target = 0xFF) : s.zqBegin a = (((s.zqAsked 0).zqAsked 1).zqAsked 2).zqAsked 3 := by
  have each : s.zqBegin a = s.each (targetChans a.target) State.zqAsked := rfl
  rw [each, targetChans, if_pos all]
  rfl

theorem State.zqAsked_onlyIn (s : State) (c : Nat) : s.onlyIn (s.zqAsked c) [.drm, .out] :=
  ((s.updChan_onlyIn c _).trans (State.emit_onlyIn _ _)).mono (by decide)

theorem State.zqAsked_clock (s : State) (c : Nat) : (s.zqAsked c).clock = s.clock := rfl

theorem State.zqAsked_chans_length (s : State) (c : Nat) : (s.zqAsked c).drm.chans.length = s.drm.chans.length := length_upd _ _ _

theorem State.zqAsked_chan_same {c : Nat} (inside : c < s.drm.chans.length) : (s.zqAsked c).chan c = (s.chan c).calibrating s.clock :=
  State.chan_updChan_same _ inside

theorem State.zqAsked_chan_ne {c k : Nat} (other : k ≠ c) : (s.zqAsked c).chan k = s.chan k := State.chan_updChan_ne _ other

/-- Four channels are all told to calibrate, one after the other. -/
theorem State.zqBegin_chan (four : s.drm.chans.length = 4) (all : a.target = 0xFF) {c : Nat} (inside : c < 4) :
    (s.zqBegin a).chan c = (s.chan c).calibrating s.clock := by
  rw [State.zqBegin_all all]
  interval_cases c <;>
    simp [State.zqAsked_chan_ne, State.zqAsked_chan_same, State.zqAsked_chans_length, State.zqAsked_clock, four]

theorem State.reloadBegin_free (active : s.active p = true) (write : (s.wick p).write = none) (from' : (s.wick p).bankFrom = none) :
    s.reloadBegin p = s.startBank p (s.wave p) (.reload none) := by
  simp [State.reloadBegin, State.reloadFree, active, write, from']

/-! ### Rings while a port leaves ACTIVE -/

/-- A ring's place and what is in flight on it, which no completion changes. -/
def Ring.place (g : Ring) : Nat × Nat := (g.dev, g.inflight)

theorem State.place_complete (c : Ctx) (st : Status) (result q : Nat) : ((s.complete c st result).ring q).place = (s.ring q).place := by
  unfold State.complete
  split
  · rfl
  · unfold State.ring State.updRing
    refine getD_upd_proj Ring.place ?_ _ q _ _
    exact fun _ => rfl

/-- A bank write that is given up completes the descriptor of its load, and moves no ring. -/
theorem State.place_dropBank (unloaded : s.actFind 5 p = none) (q : Nat) : ((s.dropBank p).ring q).place = (s.ring q).place := by
  unfold State.dropBank
  split
  · rfl
  next w _ =>
    have kept : State.actFind (s.updWick p fun x => { x with write := none }) 5 p = none := unloaded
    split
    next c _ =>
      cases c with
      | none => rfl
      | some c => exact State.place_complete (s := s.updWick p fun x => { x with write := none }) c .link 0 q
    next => rfl
    next =>
      dsimp only
      rw [State.actEnd_of_none kept]
      rfl

theorem State.place_leaveActive (unloaded : s.actFind 5 p = none) (q : Nat) : ((s.leaveActive p).ring q).place = (s.ring q).place := by
  unfold State.leaveActive
  split
  · rw [State.wickLeave_eq unloaded]
    exact State.place_dropBank unloaded q
  · rfl

theorem State.startTraining_hst (s : State) (p : Nat) (st : LinkState) (rate : Nat) : (s.startTraining p st rate).hst = s.hst := rfl

theorem State.place_retrainPort (head : p < 24) (active : (s.link p).st = .active) (unloaded : s.actFind 5 p = none) (why q : Nat) :
    ((s.retrainPort p why).ring q).place = (s.ring q).place := by
  have hst (u : State) (rate : Nat) : (u.enterRetrain p rate).hst = (u.leaveActive p).hst := by
    unfold State.enterRetrain
    dsimp only
    rw [State.twinPortLost_head _ head, State.startTraining_hst, State.updLink_hst]
  have ring : ((s.retrainPort p why).ring q) =
      ((((s.count .GHL_RETRAIN_CNT p).raise .ghlRetrain (BitVec.ofNat 32 why) p).leaveActive p).ring q) := by
    rw [State.retrainPort_eq head active]
    exact congrArg (fun x : Host' => x.rings.getD q Ring.reset) (hst _ _)
  rw [ring]
  exact State.place_leaveActive (s := (s.count .GHL_RETRAIN_CNT p).raise .ghlRetrain (BitVec.ofNat 32 why) p) unloaded q

end

/-! ### The descriptors -/

section
variable {s : State} {r x : Nat} {d : Bytes} (sound : s.sound) (h : s.accepts r d 8) (target : byteAt d 5 = x) (empty : leAt d 16 4 = 0)

section
variable (standby : s.dev.dev = .standby) (idle : s.lmp.running = [])
include h target empty standby idle

theorem exec_drmRetrain_begins (code : byteAt d 4 = 1) (one : x < 4) :
    exec (.drmRetrain r d) s = .next ((s.maintStarted r d).retrainBegin (s.maintOf r d)) := by
  have row : exec (.drmRetrain r d) s = .next (s.maint r d 1 channelTarget noParam (actStates 1) fun s c =>
      s.actArrive (s.maintAct c d []) State.retrainBegin) := by
    show execDrmRetrain r d s = _
    unfold execDrmRetrain
    dsimp only
    rw [if_neg (by omega)]
  rw [row, State.maint_acts h code standby (by simp [channelTarget, target, one]) (by simp [noParam, empty]) (by decide),
    State.actArrive_idle (State.take_running idle)]
  rfl

theorem exec_drmZq_begins (code : byteAt d 4 = 2) (all : x = 0xFF) :
    exec (.drmZq r d) s = .next ((s.maintStarted r d).zqBegin (s.maintOf r d)) := by
  have row : exec (.drmZq r d) s = .next (s.maint r d 2 channelTarget noParam (actStates 2) fun s c =>
      s.actArrive (s.maintAct c d []) State.zqBegin) := rfl
  rw [row, State.maint_acts h code standby (by simp [channelTarget, target, all]) (by simp [noParam, empty]) (by decide),
    State.actArrive_idle (State.take_running idle)]
  rfl

theorem exec_drmSelfref_begins (code : byteAt d 4 = 3) (zero : x = 0) (calm : s.rtActive = false) :
    exec (.drmSelfref r d) s = .next ((s.maintStarted r d).selfrefBegin (s.maintOf r d)) := by
  have row : exec (.drmSelfref r d) s = .next (s.maint r d 3 (fun t => t == 0) noParam (actStates 3) fun s c =>
      if s.rtActive then s.complete c .state else s.actArrive (s.maintAct c d []) State.selfrefStart) := rfl
  have calmer : (s.take r).rtActive = false := by rw [State.take_eq]; exact calm
  have started : (s.maintStarted r d).rtActive = false := calmer
  rw [row, State.maint_acts h code standby (by simp [target, zero]) (by simp [noParam, empty]) (by decide), calmer,
    if_neg Bool.false_ne_true, State.actArrive_idle (State.take_running idle)]
  exact congrArg Host.Outcome.next (if_neg fun active => Bool.false_ne_true (started.symm.trans active))

theorem exec_linkRetrain_begins (code : byteAt d 4 = 4) (head : x < 24) :
    exec (.linkRetrain r d) s = .next ((s.maintStarted r d).retrainPort x 2) := by
  have row : exec (.linkRetrain r d) s = .next (s.maint r d 4 (fun t => decide (t < 24)) noParam (actStates 4) fun s c =>
      s.actArrive (s.maintAct c d []) fun s a => s.retrainPort a.target 2) := rfl
  rw [row, State.maint_acts h code standby (by simp [target, head]) (by simp [noParam, empty]) (by decide),
    State.actArrive_idle (State.take_running idle), ← target]
  rfl

theorem exec_waveReload_begins (code : byteAt d 4 = 5) (head : x < 24) :
    exec (.waveReload r d) s = .next ((s.maintStarted r d).reloadBegin x) := by
  have row : exec (.waveReload r d) s = .next (s.maint r d 5 (fun t => decide (t < 24)) noParam (actStates 5) fun s c =>
      s.actArrive (s.maintAct c d []) fun s a => s.reloadBegin a.target) := rfl
  rw [row, State.maint_acts h code standby (by simp [target, head]) (by simp [noParam, empty]) (by decide),
    State.actArrive_idle (State.take_running idle), ← target]
  rfl

omit idle in
theorem exec_twinCkpt_single (code : byteAt d 4 = 7) (zero : x = 0) (single : s.coldPrimary = false) :
    exec (.twinCkpt r d) s = .next ((s.take r).complete (s.ctxOf r d) .state ((s.maintOf r d).result (s.ctxOf r d).v1)) := by
  have row : exec (.twinCkpt r d) s = .next (s.maint r d 7 (fun t => t == 0) noParam (actStates 7) fun s c =>
      s.ckptStart (s.maintAct c d [])) := rfl
  have taken : (s.take r).coldPrimary = false := by rw [State.take_eq]; exact single
  rw [row, State.maint_acts h code standby (by simp [target, zero]) (by simp [noParam, empty]) (by decide), State.ckptStart, taken,
    if_pos (by decide)]
  rfl

end

/-- In HELD every MAINT completes with STATE, and nothing else changes (R375). -/
theorem exec_maint_held (h : s.accepts r d 8) (held : s.dev.dev = .held) {i : Instr} {k : Nat} (row : (i, k) ∈ [(Instr.drmRetrain r d, 1),
      (.drmZq r d, 2), (.drmSelfref r d, 3), (.linkRetrain r d, 4), (.waveReload r d, 5), (.twinCkpt r d, 7)])
    (code : byteAt d 4 = k) : exec i s = .next ((s.take r).complete (s.ctxOf r d) .state) := by
  have retrain : byteAt d 4 = 1 → exec (.drmRetrain r d) s = .next ((s.take r).complete (s.ctxOf r d) .state) := by
    intro one
    show execDrmRetrain r d s = _
    unfold execDrmRetrain
    dsimp only
    rw [if_neg (by omega), State.maint_held h one held]
  simp only [List.mem_cons, Prod.mk.injEq, List.not_mem_nil, or_false] at row
  obtain ⟨rfl, rfl⟩ | ⟨rfl, rfl⟩ | ⟨rfl, rfl⟩ | ⟨rfl, rfl⟩ | ⟨rfl, rfl⟩ | ⟨rfl, rfl⟩ := row
  · exact retrain code
  all_goals exact congrArg Host.Outcome.next (State.maint_held h code held _)

/-- A start that the matrix refuses (R437). -/
theorem exec_drmZq_refused (h : s.accepts r d 8) (target : byteAt d 5 = x) (empty : leAt d 16 4 = 0) (standby : s.dev.dev = .standby)
    (code : byteAt d 4 = 2) (one : x < 4) {a : Activity} (running : s.lmp.running = [a]) (same : a.code = 2) (there : a.target = x) :
    exec (.drmZq r d) s = .next (((((s.take r).count .LMP_CONFLICT_CNT).set .LMP_LAST_CONFLICT_blocking 2).set
      .LMP_LAST_CONFLICT_refused 2 |>.raise .lmpConflict 0x202 2).complete (s.ctxOf r d) .conflict) := by
  have row : exec (.drmZq r d) s = .next (s.maint r d 2 channelTarget noParam (actStates 2) fun s c =>
      s.actArrive (s.maintAct c d []) State.zqBegin) := rfl
  have kept : (s.take r).lmp.running = [a] := by rw [(s.take_onlyIn r).same .lmp, running]
  have refuses : verdictOf 2 x a = .refuse := by simp [verdictOf, same, there, sameTarget, matrixEntry]
  have verdict : (s.take r).verdict 2 x = (.refuse, 2) := by
    simp [State.verdict, kept, refuses, Verdict.strict, same]
  rw [row, State.maint_acts h code standby (by simp [channelTarget, target, one]) (by simp [noParam, empty]) (by decide)]
  have asked : (s.take r).maintAct (s.ctxOf r d) d [] = ⟨2, x, .maint (s.ctxOf r d), (s.take r).clock, false, none, [], 0, 0⟩ := by
    rw [State.maintAct, code, target]
  rw [asked]
  unfold State.actArrive
  rw [verdict]
  rfl

end

section
variable {s : State} {r x : Nat} {d : Bytes} (sound : s.sound) (h : s.accepts r d 8) (target : byteAt d 5 = x)
  (idle : s.lmp.running = [])
include sound h target

include idle in
theorem State.retrainBegin_started (code : byteAt d 4 = 1) (one : x < 4) :
    let t := (s.maintStarted r d).retrainBegin (s.maintOf r d)
    t.lmp.running.map (fun a => (a.code, a.target, a.left)) = [(1, x, x)] ∧ t.chan x = (s.chan x).unsliced ∧
      (∀ c, c ≠ x → t.chan c = s.chan c) ∧ s.inFlight t r ∧ s.onlyIn t [.hst, .lmp, .drm, .pcie] := by
  have at' : (s.maintOf r d).target = x := target
  have of : (s.maintOf r d).code = 1 := code
  have started := s.maintStarted_onlyIn r d
  have chan (c : Nat) : ((s.maintStarted r d).runningOnly ((s.maintOf r d).workingOn x)).chan c = s.chan c := s.maintStarted_chan r d c
  have inside : x < ((s.maintStarted r d).runningOnly ((s.maintOf r d).workingOn x)).drm.chans.length := by
    rw [show ((s.maintStarted r d).runningOnly ((s.maintOf r d).workingOn x)).drm = s.drm from s.maintStarted_drm r d, State.sound_chans sound]
    exact one
  intro t
  have eq : t = ((s.maintStarted r d).runningOnly ((s.maintOf r d).workingOn x)).updChan x Channel.unsliced := by
    have := State.retrainBegin_one (State.maintStarted_running (r := r) (d := d) idle) (at'.symm ▸ one)
    rwa [at'] at this
  rw [eq]
  refine ⟨?_, (State.chan_updChan_same _ inside).trans (congrArg _ (chan x)), fun c other => (State.chan_updChan_ne _ other).trans (chan c),
    State.inFlight_of_hst sound h (State.updChan_hst ..), ?_⟩
  · show [((s.maintOf r d).code, (s.maintOf r d).target, x)] = _
    rw [of, at']
  · exact ((started.trans (State.runningOnly_onlyIn _ _)).trans (State.updChan_onlyIn _ _ _)).mono (by decide)

include idle in
theorem State.zqBegin_started (code : byteAt d 4 = 2) (all : x = 0xFF) :
    let t := (s.maintStarted r d).zqBegin (s.maintOf r d)
    t.lmp.running.map (fun a => (a.code, a.target)) = [(2, x)] ∧ (∀ c, c < 4 → t.chan c = (s.chan c).calibrating s.clock) ∧
      t.out = s.out ++ (List.range 4).map (fun c => .dramCommand c 12 2 0) ∧ s.inFlight t r ∧
      s.onlyIn t [.hst, .lmp, .drm, .out, .pcie] := by
  have at' : (s.maintOf r d).target = x := target
  have of : (s.maintOf r d).code = 2 := code
  have started := s.maintStarted_onlyIn r d
  intro t
  have eq : t = ((((s.maintStarted r d).zqAsked 0).zqAsked 1).zqAsked 2).zqAsked 3 := State.zqBegin_all (at'.trans all)
  refine ⟨?_, fun c inside => ?_, ?_, State.inFlight_of_hst sound h (by rw [eq]; rfl), ?_⟩
  · rw [eq]
    show (s.maintStarted r d).lmp.running.map _ = _
    rw [State.maintStarted_running idle, List.map_singleton, of, at']
  · rw [show t.chan c = _ from State.zqBegin_chan (by rw [State.maintStarted_drm, State.sound_chans sound]) (at'.trans all) inside,
      State.maintStarted_chan, started.clock]
  · rw [eq]
    show ((((s.maintStarted r d).out ++ _) ++ _) ++ _) ++ _ = _
    rw [started.same .out, List.append_assoc, List.append_assoc, List.append_assoc]
    rfl
  · rw [eq]
    exact ((((started.trans (State.zqAsked_onlyIn _ 0)).trans (State.zqAsked_onlyIn _ 1)).trans (State.zqAsked_onlyIn _ 2)).trans
      (State.zqAsked_onlyIn _ 3)).mono (by decide)

include idle in
theorem State.selfrefBegin_started (code : byteAt d 4 = 3) :
    let t := (s.maintStarted r d).selfrefBegin (s.maintOf r d)
    t.drm = { s.drm with sr := .entering } ∧ t.lmp.running.map (fun a => (a.code, a.target)) = [(3, x)] ∧ s.inFlight t r ∧
      s.onlyIn t [.hst, .lmp, .drm, .pcie] := by
  have at' : (s.maintOf r d).target = x := target
  have of : (s.maintOf r d).code = 3 := code
  have enters : (s.maintStarted r d).onlyIn ((s.maintStarted r d).selfrefBegin (s.maintOf r d)) [.drm] := by
    intro z; cases z <;> simp [Part.same, State.selfrefBegin]
  refine ⟨congrArg (fun z : Dram => { z with sr := .entering }) (s.maintStarted_drm r d), ?_, State.inFlight_of_hst sound h rfl,
    ((s.maintStarted_onlyIn r d).trans enters).mono (by decide)⟩
  show (s.maintStarted r d).lmp.running.map _ = _
  rw [State.maintStarted_running idle, List.map_singleton, of, at']

include idle in
theorem State.retrainPort_started (code : byteAt d 4 = 4) (head : x < 24) (active : (s.link x).st = .active) :
    let t := (s.maintStarted r d).retrainPort x 2
    s.trainsAt t x .retrain (s.link x).rate ∧ t.lmp.running.map (fun a => (a.code, a.target)) = [(4, x)] ∧
      s.counted t .GHL_RETRAIN_CNT x ∧ s.raised t .ghlRetrain 1 x 0xFF 7 2 ∧ s.took t r ∧
      s.regsOnlyAt t [Reg.GHL_RETRAIN_CNT.addr x 0 0] ∧ s.onlyIn t [.hst, .lmp, .links, .regs, .ltn, .out, .wck, .pcie] := by
  have at' : (s.maintOf r d).target = x := target
  have of : (s.maintOf r d).code = 4 := code
  have running := State.maintStarted_running (r := r) (d := d) idle
  have started : s.linkMoved (s.maintStarted r d) x (s.link x) [.hst, .pcie, .lmp] [] :=
    ((State.linkMoved.refl sound (p := x) (by omega)).beside (State.actRun_sound _ _ (State.take_sound s r sound))
      (s.maintStarted_onlyIn r d).touches)
  have there : ((s.maintStarted r d).link x).st = .active := by rw [started.link, active]
  have unloaded : (s.maintStarted r d).actFind 5 x = none := by simp [State.actFind, running, of]
  obtain ⟨trains, counted, raised⟩ := State.retrainPort_active started.sound head there unloaded 2
  rw [started.link, started.clock] at trains
  have moved := started.trans trains
  have place := State.place_retrainPort head there unloaded 2 r
  have taken := (State.inFlight_of_hst (t := s.maintStarted r d) sound h rfl).1
  refine ⟨moved.trainsAt, ?_, counted.around (started.touches.2.get _ _ _ _ List.not_mem_nil) rfl,
    State.raised_around raised (started.touches.1.same .ltn) started.clock rfl, ?_, moved.regsOnlyAt, moved.onlyIn⟩
  · rw [trains.touches.1.same .lmp, running, List.map_singleton, of, at']
  · obtain ⟨dev, inflight⟩ := Prod.mk.inj place
    exact ⟨dev.trans taken.1, inflight.trans taken.2⟩

include idle in
theorem State.reloadBegin_started (code : byteAt d 4 = 5) (head : x < 24) (active : (s.link x).st = .active)
    (write : (s.wick x).write = none) (from' : (s.wick x).bankFrom = none) :
    let t := (s.maintStarted r d).reloadBegin x
    t.lmp.running.map (fun a => (a.code, a.target)) = [(5, x)] ∧
      t.wick x = { s.wick x with spare := none, write := some ⟨!(s.wick x).bank, s.wave x, .reload none, false, none⟩ } ∧
      (∀ p, p ≠ x → t.wick p = s.wick p) ∧ s.inFlight t r ∧ s.onlyIn t [.hst, .lmp, .wck, .pcie] := by
  have at' : (s.maintOf r d).target = x := target
  have of : (s.maintOf r d).code = 5 := code
  have running := State.maintStarted_running (r := r) (d := d) idle
  have started := s.maintStarted_onlyIn r d
  have wick (p : Nat) : (s.maintStarted r d).wick p = s.wick p := started.wick p
  have wave : (s.maintStarted r d).wave x = s.wave x := congrArg (fun z : Tab => z.cur.bytes) (State.onlyIn.tab 8 x started)
  intro t
  have eq : t = (s.maintStarted r d).startBank x (s.wave x) (.reload none) := by
    rw [← wave]
    exact State.reloadBegin_free (by simp [State.active, head, started.link, active]) (by rw [wick, write]) (by rw [wick, from'])
  rw [eq]
  refine ⟨?_, ?_, fun p other => (State.wick_updWick_ne _ _ other).trans (wick p), State.inFlight_of_hst sound h rfl,
    (started.trans (State.updWick_onlyIn _ x _)).mono (by decide)⟩
  · show (s.maintStarted r d).lmp.running.map _ = _
    rw [running, List.map_singleton, of, at']
  · refine (State.wick_updWick_same _ _ (by rwa [started.same .wck, State.sound_wck sound])).trans ?_
    rw [wick]
    rfl

/-- The registers of a start that a running calibration refuses, with both codes 2 (R437). -/
def State.zqMarked (s : State) : State :=
  ((s.count .LMP_CONFLICT_CNT).set .LMP_LAST_CONFLICT_blocking 2).set .LMP_LAST_CONFLICT_refused 2

/-- The registers and the raise of such a start (R437). -/
def State.zqRefused (s : State) : State := s.zqMarked.raise .lmpConflict 0x202 2

omit sound h target in
theorem State.zqMarked_touches (s : State) :
    s.touches s.zqMarked [.regs] [Reg.LMP_CONFLICT_CNT.addr 0 0 0, Reg.LMP_LAST_CONFLICT.addr 0 0 0] :=
  (((s.count_touches .LMP_CONFLICT_CNT 0 0 0 1).trans (State.set_touches _ .LMP_LAST_CONFLICT_blocking 2 0 0 0)).trans
    (State.set_touches _ .LMP_LAST_CONFLICT_refused 2 0 0 0)).mono
      (by decide) (by simp [Fld.LMP_CONFLICT_CNT, Fld.LMP_LAST_CONFLICT_blocking, Fld.LMP_LAST_CONFLICT_refused])

omit sound h target in
theorem State.zqRefused_touches (s : State) :
    s.touches s.zqRefused [.regs, .ltn] [Reg.LMP_CONFLICT_CNT.addr 0 0 0, Reg.LMP_LAST_CONFLICT.addr 0 0 0] :=
  (s.zqMarked_touches.trans (s.zqMarked.raise_onlyIn .lmpConflict 0x202 2 _ _ _).touches).mono (by decide) (by simp)

omit h target in
theorem State.zqMarked_shows : s.counted s.zqMarked .LMP_CONFLICT_CNT ∧ s.zqMarked.get .LMP_LAST_CONFLICT_refused = 2 ∧
    s.zqMarked.get .LMP_LAST_CONFLICT_blocking = 2 := by
  have counts := s.count_sound .LMP_CONFLICT_CNT 0 0 0 1 sound
  have blocks := State.set_sound _ .LMP_LAST_CONFLICT_blocking 2 0 0 0 counts
  have later := (State.set_touches (s.count .LMP_CONFLICT_CNT) .LMP_LAST_CONFLICT_blocking 2 0 0 0).trans
    (State.set_touches _ .LMP_LAST_CONFLICT_refused 2 0 0 0)
  refine ⟨?_, ?_, ?_⟩
  · exact (State.counted_count .LMP_CONFLICT_CNT 0 (State.sound_regs sound) (by decide) (by decide)).around rfl
      (later.2.get .LMP_CONFLICT_CNT 0 0 0 (by decide))
  · exact State.get_set_same .LMP_LAST_CONFLICT_refused 2 0 0 0 (State.sound_regs blocks) (by decide) (by decide)
  · exact (State.get_set_ne .LMP_LAST_CONFLICT_refused .LMP_LAST_CONFLICT_blocking 2 0 0 0 (State.sound_regs blocks) rfl (by decide)
      (by decide) (by decide)).trans (State.get_set_same .LMP_LAST_CONFLICT_blocking 2 0 0 0 (State.sound_regs counts) (by decide) (by decide))

omit h target in
theorem State.zqRefused_shows : s.counted s.zqRefused .LMP_CONFLICT_CNT ∧ s.zqRefused.get .LMP_LAST_CONFLICT_refused = 2 ∧
    s.zqRefused.get .LMP_LAST_CONFLICT_blocking = 2 ∧ s.raised s.zqRefused .lmpConflict 1 2 0xFF 9 0x202 := by
  obtain ⟨counted, refused, blocking⟩ := State.zqMarked_shows sound
  have fault (u : State) : u.raised (u.raise .lmpConflict 0x202 2) .lmpConflict 1 2 0xFF 9 0x202 := rfl
  have only := s.zqMarked.raise_onlyIn .lmpConflict 0x202 2 0xFF none none
  exact ⟨counted.around rfl (only.get .LMP_CONFLICT_CNT 0 0 0), (only.get .LMP_LAST_CONFLICT_refused 0 0 0).trans refused,
    (only.get .LMP_LAST_CONFLICT_blocking 0 0 0).trans blocking,
    State.raised_around (fault _) (s.zqMarked_touches.1.same .ltn) s.zqMarked_touches.1.clock rfl⟩

end

/-- Settles O44: each descriptor is taken, and its activity's start does one thing behind it. -/
theorem maintCommandsComplete : Obligations.MaintCommandsComplete := by
  intro s r d x sound h target empty
  refine ⟨fun i k row code held => ?held, fun standby idle => ⟨fun code one => ?retrain, fun code all => ?zqAll, fun code zero calm => ?selfref,
    fun code head active => ?linkRetrain, fun code head active write from' => ?waveReload, fun code zero single => ?twinCkpt⟩,
    fun a standby code one running same there => ?conflict⟩
  case held =>
    exact ⟨_, exec_maint_held h held row code, State.answered_failed sound h rfl (s.take_cring r r) (by decide) 0,
      ((s.take_onlyIn r).trans (State.complete_onlyIn _ _ _ _)).mono (by decide)⟩
  case retrain => exact ⟨_, exec_drmRetrain_begins h target empty standby idle code one, State.retrainBegin_started sound h target idle code one⟩
  case zqAll => exact ⟨_, exec_drmZq_begins h target empty standby idle code all, State.zqBegin_started sound h target idle code all⟩
  case selfref =>
    exact ⟨_, exec_drmSelfref_begins h target empty standby idle code zero calm, State.selfrefBegin_started sound h target idle code⟩
  case linkRetrain =>
    exact ⟨_, exec_linkRetrain_begins h target empty standby idle code head, State.retrainPort_started sound h target idle code head active⟩
  case waveReload =>
    exact ⟨_, exec_waveReload_begins h target empty standby idle code head,
      State.reloadBegin_started sound h target idle code head active write from'⟩
  case twinCkpt =>
    exact ⟨_, exec_twinCkpt_single h target empty standby code zero single,
      State.answered_failed sound h rfl (s.take_cring r r) (by decide) _,
      ((s.take_onlyIn r).trans (State.complete_onlyIn _ _ _ _)).mono (by decide)⟩
  case conflict =>
    have run := exec_drmZq_refused h target empty standby code one running same there
    have taken := s.take_onlyIn r
    have refused := (s.take r).zqRefused_touches
    obtain ⟨counted, code', blocking, raised⟩ := State.zqRefused_shows (State.take_sound s r sound)
    have ends := State.complete_onlyIn (s.take r).zqRefused (s.ctxOf r d) .conflict 0
    have cring : (s.take r).zqRefused.cring r = s.cring r := by
      refine (refused.2.get .HST_RING_CFG_cring r 0 0 ?_).trans (s.take_cring r r)
      simp only [Fld.HST_RING_CFG_cring, Reg.addr, Reg.HST_RING_CFG, Reg.LMP_CONFLICT_CNT, Reg.LMP_LAST_CONFLICT, List.mem_cons,
        List.not_mem_nil, or_false]
      omega
    have whole := ((taken.touches.trans refused).trans ends.touches).mono (m := [.hst, .regs, .ltn, .pcie]) (by decide) (List.Subset.refl _)
    have start : (s.take r).ltn = s.ltn := taken.same .ltn
    refine ⟨_, run, State.answered_failed sound h refused.1.hst cring (by decide) 0, ?_, ?_, ?_, ?_, whole.2, whole.1⟩
    · exact counted.around (s.take_get r .LMP_CONFLICT_CNT 0 0 0) (ends.get .LMP_CONFLICT_CNT 0 0 0)
    · exact (ends.get .LMP_LAST_CONFLICT_refused 0 0 0).trans code'
    · exact (ends.get .LMP_LAST_CONFLICT_blocking 0 0 0).trans blocking
    · exact State.raised_around raised start taken.clock (ends.same .ltn)

end Sys2Proof.Machine
end

section
/-! What an operation makes of one camera port (R263): the port's new value, that the other ports and the colour loop stay, and which parts
of the block and which registers change beside them. -/

namespace Sys2Proof.Machine

/-! ### One camera port -/

section
variable {s : State} {c : Nat}

theorem State.cam_updCam_same (sound : s.sound) (inside : c < 4) (f : Camera → Camera) : (s.updCam c f).cam c = f (s.cam c) :=
  getD_upd_same (inside.trans_eq (State.sound_cams sound).symm)

theorem State.cam_updCam_ne {k : Nat} (f : Camera → Camera) (other : k ≠ c) : (s.updCam c f).cam k = s.cam k := getD_upd_ne other

/-- What a change of a port leaves of every port, it leaves of that port. -/
theorem State.cam_updCam_proj {α : Type} (s : State) (c k : Nat) {f : Camera → Camera} (g : Camera → α)
    (kept : ∀ x, g (f x) = g x := by exact fun _ => rfl) : g ((s.updCam c f).cam k) = g (s.cam k) :=
  getD_upd_proj g kept c k _ _

theorem State.updCam_onlyIn (s : State) (c : Nat) (f : Camera → Camera) : s.onlyIn (s.updCam c f) [.pho] := by
  intro x; cases x <;> simp [Part.same, State.updCam]

/-- Outside the Photometer nothing changes a camera port. -/
theorem State.onlyIn.cam {t : State} {l : List Part} (h : s.onlyIn t l) (k : Nat) (hx : .pho ∉ l := by decide) : t.cam k = s.cam k :=
  congrArg (fun x : Photometer => x.cams.getD k Camera.reset) (h.same .pho hx)

/-- Without an open camera frame there is none to change. -/
theorem State.updFrame_none (closed : (s.cam c).frame = none) (f : CamFrame → CamFrame) : s.updFrame c f = s := by
  have kept : ({ s.cam c with frame := (s.cam c).frame.map f } : Camera) = s.cam c := by
    rw [closed, Option.map_none, ← closed]
  unfold State.updFrame State.updCam
  rw [upd_eq_self (d := Camera.reset) kept]

end

/-- The port with another open camera frame. -/
def Camera.framed (f : CamFrame) (x : Camera) : Camera := { x with frame := some f }

/-- From `s` to `t` camera port `c` becomes `x`, every other port and the colour loop stay, and nothing changes but in the parts and at
the offsets named. -/
structure State.camMoved (s t : State) (c : Nat) (x : Camera) (parts : List Part) (offs : List Nat) : Prop where
  inside : c < 4
  sound : t.sound
  cam : t.cam c = x
  others : ∀ k, k ≠ c → t.cam k = s.cam k
  loop : t.pho.loop = s.pho.loop
  touches : s.touches t parts offs

theorem State.camMoved.refl {s : State} {c : Nat} (sound : s.sound) (inside : c < 4) : s.camMoved s c (s.cam c) [] [] :=
  ⟨inside, sound, rfl, fun _ _ => rfl, rfl, .refl s _ _⟩

section
variable {s t u : State} {c : Nat} {x y : Camera} {l m : List Part} {a b : List Nat}

theorem State.camMoved.onlyIn (h : s.camMoved t c x l a) (hm : l ⊆ m := by decide) : s.onlyIn t m := h.touches.1.mono hm

theorem State.camMoved.regsOnlyAt (h : s.camMoved t c x l a) (hb : a ⊆ b := by simp) : s.regsOnlyAt t b := fun off =>
  (h.touches.2 off).imp_left fun hx => hb hx

theorem State.camMoved.mono (h : s.camMoved t c x l a) (hm : l ⊆ m := by decide) (hb : a ⊆ b := by simp) : s.camMoved t c x m b :=
  { h with touches := h.touches.mono hm hb }

theorem State.camMoved.to (h : s.camMoved t c x l a) (same : x = y) : s.camMoved t c y l a := same ▸ h

theorem State.camMoved.clock (h : s.camMoved t c x l a) (hl : .tim ∉ l := by decide) : t.clock = s.clock := h.touches.1.clock hl

theorem State.camMoved.updCam (h : s.camMoved t c x l a) (f : Camera → Camera) :
    s.camMoved (t.updCam c f) c (f x) (l ++ [.pho]) a where
  inside := h.inside
  sound := t.updCam_sound c f h.sound
  cam := by rw [State.cam_updCam_same h.sound h.inside, h.cam]
  others k other := (State.cam_updCam_ne f other).trans (h.others k other)
  loop := h.loop
  touches := by simpa using h.touches.trans (t.updCam_onlyIn c f).touches

theorem State.camMoved.updFrame (h : s.camMoved t c x l a) {f : CamFrame} (frame : x.frame = some f) (g : CamFrame → CamFrame) :
    s.camMoved (t.updFrame c g) c (x.framed (g f)) (l ++ [.pho]) a :=
  (h.updCam _).to (by rw [frame, Option.map_some]; rfl)

/-- A change beside the Photometer. -/
theorem State.camMoved.beside (h : s.camMoved t c x l a) (sound : u.sound) (touches : t.touches u m b)
    (hm : .pho ∉ m := by decide) : s.camMoved u c x (l ++ m) (a ++ b) where
  inside := h.inside
  sound := sound
  cam := (touches.1.cam c hm).trans h.cam
  others k other := (touches.1.cam k hm).trans (h.others k other)
  loop := (congrArg Photometer.loop (touches.1.same .pho hm)).trans h.loop
  touches := h.touches.trans touches

theorem State.camMoved.besideOf (h : s.camMoved t c x l a) (sound : u.sound) (only : t.onlyIn u m) (hr : .regs ∉ m := by decide)
    (hm : .pho ∉ m := by decide) : s.camMoved u c x (l ++ m) a := by
  simpa using h.beside sound (only.touches hr) hm

theorem State.camMoved.count (h : s.camMoved t c x l a) (f : Fld) (i : Nat) :
    s.camMoved (t.count f i) c x (l ++ [.regs]) (a ++ [f.reg.addr i 0 0]) :=
  h.beside (t.count_sound f i 0 0 1 h.sound) (t.count_touches f i 0 0 1)

theorem State.camMoved.store (h : s.camMoved t c x l a) (r : Reg) (v : Word) (i : Nat) :
    s.camMoved (t.store r v i) c x (l ++ [.regs]) (a ++ [r.addr i 0 0]) :=
  h.beside (t.store_sound r v i 0 0 h.sound) (t.store_touches r v i 0 0)

theorem State.camMoved.raise (h : s.camMoved t c x l a) (src : Src) (detail : Word) (inst0 : Nat) (inst1 : Nat := 0xFF) :
    s.camMoved (t.raise src detail inst0 inst1) c x (l ++ [.ltn]) a :=
  h.besideOf (t.raise_sound src detail inst0 inst1 _ _ h.sound) (t.raise_onlyIn src detail inst0 inst1 _ _)

/-- The first raise of Lantern's alone, of a source in its own class and with its own action. -/
theorem State.camMoved.raised (h : s.camMoved t c x l a) (src : Src) (detail : Word) (inst0 : Nat) (inst1 : Nat := 0xFF)
    (hl : .ltn ∉ l ∧ .tim ∉ l := by decide) : s.raised (t.raise src detail inst0 inst1) src (srcDefaults.getD src.num (0, 0)).1 inst0 inst1
      (srcDefaults.getD src.num (0, 0)).2 detail :=
  State.raised_around (u := t.raise src detail inst0 inst1) (by exact rfl) (h.touches.1.same .ltn hl.1) (h.clock hl.2) rfl

end

end Sys2Proof.Machine
end

section
/-! The packets of a camera port (R264, R265, R272, R278, R279): how its camera frame opens, takes lines and closes. -/

namespace Sys2Proof.Machine

/-! ### What a packet makes of the open camera frame and of its port -/

/-- Its last packet has arrived now (R278). -/
def CamFrame.seen (now : Instant) (f : CamFrame) : CamFrame := { f with lastAt := now }

/-- It has one line more. -/
def CamFrame.withLine (row : List Nat) (f : CamFrame) : CamFrame := { f with rows := f.rows ++ [row] }

/-- It found the buffer full (R279). -/
def CamFrame.overflowed (f : CamFrame) : CamFrame := { f with flags := f.flags ||| flagOverflow ||| flagPartial }

/-- It ended before its configured size, and PHO.SHORT has been raised for it (R278). -/
def CamFrame.cutShort (f : CamFrame) : CamFrame := { f with flags := f.flags ||| flagShort ||| flagPartial, shortRaised := true }

/-- The port is deskewed (R264). -/
def Camera.deskews (x : Camera) : Camera := { x with deskewed := true }

/-- Its camera frame opens under its next number (R272). -/
def Camera.opens (f : CamFrame) (x : Camera) : Camera := { x with frame := some f, nextNo := x.nextNo + 1, started := true }

/-- Its camera frame has closed with the flags shown. -/
def Camera.closes (shown : BitVec 7) (x : Camera) : Camera := { x with frame := none, lastFlags := shown }

/-- A line held back takes a place of the buffer, any other empties it (R279). -/
def Camera.buffers (heldBack : Bool) (x : Camera) : Camera := { x with held := if heldBack then x.held + 1 else 0 }

section
variable {s : State} {c : Nat} {f : CamFrame}

/-- A packet with a good header on an enabled port is acted on; the open camera frame notes it. -/
theorem State.packet_good (on : s.cameraOn c = true) (act : State → State) :
    s.packet c .good act = act (s.updFrame c (CamFrame.seen s.clock)) := by
  unfold State.packet
  rw [if_neg (by simp [on])]
  rfl

theorem State.frame_updFrame (sound : s.sound) (inside : c < 4) (frame : (s.cam c).frame = some f) (g : CamFrame → CamFrame) :
    ((s.updFrame c g).cam c).frame = some (g f) := by
  unfold State.updFrame
  rw [State.cam_updCam_same sound inside]
  simp [frame]

/-! ### The camera frame closes (R280, R286 to R290, R307) -/

theorem State.closeS1_none (none : f.s1 = none) (dark : Bool) : s.closeS1 c f dark = s := by
  unfold State.closeS1
  rw [none]

theorem State.closeS3_off (off : s.streamOn c 3 = false) (dark : Bool) : s.closeS3 c f dark = s := if_pos (by simp [off])

theorem State.closeS2_off (off : f.writeS2 = false) (dark : Bool) : s.closeS2 c f dark = s := if_pos (by simp [off])

/-- A camera frame with a flag that R293 names, or of a port whose measuring is off, takes no part in the loop. -/
theorem State.measureFrame_apart (apart : f.has 0x3F = true ∨ s.streamOn c 0 = false) : s.measureFrame c f = s :=
  if_pos (by rcases apart with h | h <;> rw [h] <;> simp)

theorem State.blackFrame_none (none : (s.cam c).black = none) : s.blackFrame c f = s := by
  unfold State.blackFrame
  rw [none]

/-- A camera frame in no stream, of a port that does not calibrate, that takes no part in the loop closes with its own flags. -/
theorem State.closeFrame_apart (frame : (s.cam c).frame = some f) (s1 : f.s1 = none) (s2 : f.writeS2 = false)
    (s3 : s.streamOn c 3 = false) (black : (s.cam c).black = none) (apart : f.has 0x3F = true ∨ s.streamOn c 0 = false) :
    s.closeFrame c = s.updCam c (Camera.closes f.flags) := by
  have black' : ((s.updCam c (Camera.closes f.flags)).cam c).black = none := (s.cam_updCam_proj c c Camera.black).trans black
  have s3' : (s.updCam c (Camera.closes f.flags)).streamOn c 3 = false := s3
  have apart' : f.has 0x3F = true ∨ (s.updCam c (Camera.closes f.flags)).streamOn c 0 = false := apart
  unfold State.closeFrame
  simp only [frame, s1, Option.isSome_none, Bool.false_and, Bool.false_eq_true, if_false]
  change (((((s.updCam c (Camera.closes f.flags)).closeS1 c f _).closeS3 c f _).closeS2 c f _).measureFrame c f).blackFrame c f = _
  rw [State.closeS1_none s1, State.closeS3_off s3', State.closeS2_off s2, State.measureFrame_apart apart', State.blackFrame_none black']

/-! ### A line (R278, R279) -/

variable {samples : List (BitVec 14)} {heldBack : Bool}

/-- The samples of a line cut to the bits of the port's format (R265). -/
def State.cutSamples (s : State) (c : Nat) (samples : List (BitVec 14)) : List Nat :=
  samples.map fun v => v.toNat % 2 ^ sampleBits (s.get .PHO_CTRL_fmt c)

/-- A line of the port's width that finds room is added. -/
theorem State.cameraLine_adds (room : f.rows.length < s.get .PHO_SIZE_height c) (whole : samples.length = s.get .PHO_SIZE_width c)
    (place : heldBack = true → (s.cam c).held < 4) : s.cameraLine c f samples heldBack =
      (s.updCam c (Camera.buffers heldBack)).updFrame c (CamFrame.withLine (s.cutSamples c samples)) := by
  have width : (s.cutSamples c samples).length = s.get .PHO_SIZE_width c := (List.length_map _).trans whole
  have row : (s.cutSamples c samples).take (s.get .PHO_SIZE_width c) = s.cutSamples c samples := List.take_of_length_le width.le
  unfold State.cameraLine
  rw [if_neg (by omega), if_neg fun full => absurd (place full.1) (by omega)]
  change (if samples.length < s.get .PHO_SIZE_width c then _ else if s.get .PHO_SIZE_width c < samples.length then _
    else s.updCam c (Camera.buffers heldBack)).updFrame c (fun f => { f with rows := f.rows ++
      [(s.cutSamples c samples).take (s.get .PHO_SIZE_width c) ++
        List.replicate (s.get .PHO_SIZE_width c - ((s.cutSamples c samples).take (s.get .PHO_SIZE_width c)).length) 0] }) = _
  rw [if_neg (by omega), if_neg (by omega), row, width, Nat.sub_self, List.replicate_zero, List.append_nil]
  rfl

/-- A line held back that finds the buffer full closes its camera frame. -/
theorem State.cameraLine_overflows (room : f.rows.length < s.get .PHO_SIZE_height c) (full : 4 ≤ (s.cam c).held) :
    s.cameraLine c f samples true =
      ((s.updFrame c CamFrame.overflowed).closeFrame c).raise .phoOverflow (BitVec.ofNat 32 f.number.toNat) c := by
  unfold State.cameraLine
  rw [if_neg (by omega), if_pos ⟨rfl, full⟩]
  rfl

/-- A camera frame that ends early is flagged, and PHO.SHORT raised for it where it was not yet (R278). -/
theorem State.frameShort_raises (frame : (s.cam c).frame = some f) (unraised : f.shortRaised = false) :
    s.frameShort c = (s.updFrame c CamFrame.cutShort).raise .phoShort (BitVec.ofNat 32 f.number.toNat) c := by
  unfold State.frameShort
  simp only [frame, unraised]
  rfl

/-! ### A camera frame opens (R205, R269, R272 to R277) -/

theorem State.phoTables_onlyIn (s : State) (c : Nat) : s.onlyIn (s.phoTables c) [.tabs] := by
  refine State.each_onlyIn (fun u k => ?_) s _
  dsimp only
  split
  · exact u.setTab_onlyIn _
  · exact .refl u _

theorem State.triggerLatches_onlyIn (s : State) (trig : Nat) (pos : Pos) (mono : Time) : s.onlyIn (s.triggerLatches trig pos mono) [.mer] :=
  s.withMer_onlyIn _

/-- The exposure sequence at a frame start numbers no camera frame. -/
theorem State.expFrameStart_updCam (s : State) (c : Nat) : ∃ g, s.expFrameStart c = s.updCam c g ∧ ∀ x, (g x).nextNo = x.nextNo := by
  refine ⟨_, rfl, fun x => ?_⟩
  dsimp only
  repeat' split
  all_goals rfl

/-- A frame start before its camera frame opens: exposure, tables and latch units. -/
def State.frameStarts (s : State) (c : Nat) : State :=
  ((s.expFrameStart c).phoTables c).triggerLatches (21 + c) s.pos s.mono

theorem State.camMoved.frameStarts (sound : s.sound) (inside : c < 4) :
    ∃ x, s.camMoved (s.frameStarts c) c x [.pho, .tabs, .mer] [] ∧ x.nextNo = (s.cam c).nextNo := by
  obtain ⟨g, exposes, number⟩ := s.expFrameStart_updCam c
  have exposed := (State.camMoved.refl sound inside).updCam g
  rw [← exposes] at exposed
  have loaded := exposed.besideOf (State.phoTables_sound _ c exposed.sound) (State.phoTables_onlyIn _ c)
  have latched := loaded.besideOf (State.triggerLatches_sound _ _ s.pos s.mono loaded.sound)
    (State.triggerLatches_onlyIn _ (21 + c) s.pos s.mono)
  exact ⟨_, latched, number _⟩

theorem State.frameStarts_pos (s : State) (c : Nat) : (s.frameStarts c).mer.pos = s.mer.pos := by
  show ((s.expFrameStart c).phoTables c).mer.pos = s.mer.pos
  exact congrArg Meridian.pos (((s.expFrameStart c).phoTables_onlyIn c).same .mer)

/-- With S1 and S2 off a camera frame opens in no stream. -/
theorem State.openFrame_unstreamed (s1 : (s.frameStarts c).streamOn c 1 = false) (s2 : (s.frameStarts c).streamOn c 2 = false) :
    ∃ f : CamFrame, s.openFrame c = (s.frameStarts c).updCam c (Camera.opens f) ∧ f.number = ((s.frameStarts c).cam c).nextNo ∧
      f.pfs = (s.frameStarts c).pos ∧ f.mono = (s.frameStarts c).mono ∧ f.rows = [] ∧ f.s1 = none ∧ f.writeS2 = false := by
  have untaken : (s.frameStarts c).takeS1 c = (s.frameStarts c, none) := if_pos (by simp [s1])
  unfold State.openFrame
  rw [show ((s.expFrameStart c).phoTables c).triggerLatches (21 + c) s.pos s.mono = s.frameStarts c from rfl]
  simp only [untaken, s2, Bool.false_and, Bool.false_eq_true, if_false]
  exact ⟨_, rfl, rfl, rfl, rfl, rfl, rfl, rfl⟩

end

end Sys2Proof.Machine
end

section
/-! The obligation about the packets of a camera port and the end of a camera frame (R264, R265, R272, R278, R279). -/

namespace Sys2Proof.Machine

section
variable {s : State} {c : Nat} {f : CamFrame} (sound : s.sound) (inside : c < 4) (on : s.cameraOn c = true)

/-! ### What each packet comes to -/

include on in
theorem exec_csiFrameStart_opens (closed : (s.cam c).frame = none) : exec (.csiFrameStart c .good) s = .next (s.openFrame c) := by
  show Host.Outcome.next (s.packet c .good _) = _
  rw [State.packet_good on, State.updFrame_none closed, if_neg (by simp [closed])]

include on in
theorem exec_csiOtherPacket_unframed (closed : (s.cam c).frame = none) (channel type : Nat) :
    exec (.csiOtherPacket c channel type .good) s =
      .next (if channel = 0 ∧ (type < 4 ∨ type = 0x12 ∨ type = 0x2B + s.get .PHO_CTRL_fmt c) then s else s.count .PHO_DISCARD_CNT c) := by
  show Host.Outcome.next (s.packet c .good _) = _
  rw [State.packet_good on, State.updFrame_none closed]

variable (frame : (s.cam c).frame = some f)
include sound inside frame

/-- The port once a packet of its open camera frame has arrived. -/
theorem State.camMoved.packetSeen :
    s.camMoved (s.updFrame c (CamFrame.seen s.clock)) c ((s.cam c).framed (f.seen s.clock)) [.pho] [] :=
  (State.camMoved.refl sound inside).updFrame frame _

include on

theorem exec_csiPixelData_line (samples : List (BitVec 14)) (heldBack : Bool) :
    exec (.csiPixelData c (0x2B + s.get .PHO_CTRL_fmt c) .good samples heldBack) s =
      .next ((s.updFrame c (CamFrame.seen s.clock)).cameraLine c (f.seen s.clock) samples heldBack) := by
  show Host.Outcome.next (s.packet c .good _) = _
  rw [State.packet_good on]
  simp only [State.frame_updFrame sound inside frame]
  exact congrArg Host.Outcome.next (if_pos rfl)

theorem exec_csiFrameEnd_closes (full : s.get .PHO_SIZE_height c ≤ f.rows.length) :
    exec (.csiFrameEnd c .good) s = .next ((s.updFrame c (CamFrame.seen s.clock)).closeFrame c) := by
  show Host.Outcome.next (s.packet c .good _) = _
  rw [State.packet_good on]
  simp only [State.frame_updFrame sound inside frame]
  exact congrArg (fun t : State => Host.Outcome.next (t.closeFrame c)) (if_neg (Nat.not_lt.mpr full))

omit on sound inside in
theorem exec_cameraFrameTimeout_cuts (late : s.elapsed f.lastAt 100000000 = true) (unraised : f.shortRaised = false) :
    exec (.cameraFrameTimeout c) s =
      .next (((s.updFrame c CamFrame.cutShort).raise .phoShort (BitVec.ofNat 32 f.number.toNat) c).closeFrame c) := by
  show execCameraFrameTimeout c s = _
  unfold execCameraFrameTimeout
  simp only [frame, late, if_true]
  rw [State.frameShort_raises frame unraised]

end

/-! ### The camera frame closes in no stream -/

section
variable {s t : State} {c : Nat} {x : Camera} {f : CamFrame} {l : List Part} {a : List Nat}

theorem State.camMoved.closeFrame_apart (h : s.camMoved t c x l a) (frame : x.frame = some f) (s1 : f.s1 = none) (s2 : f.writeS2 = false)
    (s3 : t.streamOn c 3 = false) (black : x.black = none) (apart : f.has 0x3F = true ∨ t.streamOn c 0 = false) :
    t.closeFrame c = t.updCam c (Camera.closes f.flags) :=
  State.closeFrame_apart (h.cam ▸ frame) s1 s2 s3 (h.cam ▸ black) apart

/-- One that found the buffer full takes no part in the loop. -/
theorem CamFrame.overflowed_has (f : CamFrame) : f.overflowed.has 0x3F = true := by
  have marked (w : BitVec 7) : (w ||| 4 ||| 8) &&& 0x3F ≠ 0 := by
    intro clear
    simpa using congrArg (·.getLsbD 2) clear
  simpa [CamFrame.has, CamFrame.overflowed, flagOverflow, flagPartial] using marked f.flags

end

/-- Settles O28: each packet by what `exec` does in its clause, followed on the port by `State.camMoved`. -/
theorem cameraPacketCommandsComplete : Obligations.CameraPacketCommandsComplete := by
  unfold Obligations.CameraPacketCommandsComplete
  intro s c sound inside on
  refine ⟨?deskew, fun closed s1 s2 => ?start, fun f samples hold frame room => ⟨fun whole place => ?line, fun back full s1 s2 s3 black => ?full⟩,
    fun f frame s1 s2 s3 s0 black => ⟨fun full => ?complete, fun late unraised => ?timeout⟩, fun closed v => ⟨fun other => ?other, ?lineStart⟩⟩
  case deskew =>
    have moved := (State.camMoved.refl sound inside).updCam Camera.deskews
    exact ⟨_, if_pos on, moved.cam, moved.others, moved.onlyIn⟩
  case start =>
    obtain ⟨x, starts, number⟩ := State.camMoved.frameStarts sound inside
    have streams (k : Nat) : (s.frameStarts c).streamOn c k = s.streamOn c k := congrArg (· != 0) (starts.touches.1.get .PHO_SCTRL_en c k 0)
    obtain ⟨f, opens, no, pfs, mono, rows, unbuffered, unwritten⟩ :=
      State.openFrame_unstreamed ((streams 1).trans s1) ((streams 2).trans s2)
    have opened := starts.updCam (Camera.opens f)
    rw [starts.cam, number] at no
    refine ⟨_, f, (exec_csiFrameStart_opens on closed).trans (congrArg _ opens), ?_, no, ?_, ?_, rows, unbuffered, unwritten, ?_,
      opened.others, opened.loop, s.frameStarts_pos c, opened.onlyIn⟩
    · rw [opened.cam]; rfl
    · rw [pfs]; exact congrArg (·.extractLsb' 16 48) (s.frameStarts_pos c)
    · rw [mono]; exact starts.touches.1.mono_eq
    · rw [opened.cam]; exact congrArg (· + 1) number
  case line =>
    have seen := State.camMoved.packetSeen sound inside frame
    have added := (seen.updCam (Camera.buffers hold)).updFrame rfl (CamFrame.withLine (s.cutSamples c samples))
    have adds : (s.updFrame c (CamFrame.seen s.clock)).cameraLine c (f.seen s.clock) samples hold = _ :=
      State.cameraLine_adds room whole (by rw [seen.cam]; exact place)
    refine ⟨_, (f.seen s.clock).withLine (s.cutSamples c samples), (exec_csiPixelData_line sound inside on frame samples hold).trans
      (congrArg _ adds), ?_, rfl, rfl, rfl, rfl, ?_, added.others, added.onlyIn⟩
    · exact congrArg Camera.frame added.cam
    · exact congrArg Camera.held added.cam
  case full =>
    subst back
    have seen := State.camMoved.packetSeen sound inside frame
    have flagged := seen.updFrame rfl CamFrame.overflowed
    have closed := flagged.updCam (Camera.closes (f.seen s.clock).overflowed.flags)
    have raised := closed.raise .phoOverflow (BitVec.ofNat 32 f.number.toNat) c
    have overflows : (s.updFrame c (CamFrame.seen s.clock)).cameraLine c (f.seen s.clock) samples true = _ :=
      State.cameraLine_overflows room (by rw [seen.cam]; exact full)
    rw [flagged.closeFrame_apart rfl s1 s2 s3 black (.inl (CamFrame.overflowed_has _))] at overflows
    exact ⟨_, (exec_csiPixelData_line sound inside on frame samples true).trans (congrArg _ overflows), congrArg Camera.frame raised.cam,
      congrArg Camera.lastFlags raised.cam, closed.raised .phoOverflow _ c, raised.others, raised.onlyIn⟩
  case complete =>
    have seen := State.camMoved.packetSeen sound inside frame
    have closed := seen.updCam (Camera.closes f.flags)
    exact ⟨_, (exec_csiFrameEnd_closes sound inside on frame full).trans (congrArg _ (seen.closeFrame_apart rfl s1 s2 s3 black (.inr s0))),
      congrArg Camera.frame closed.cam, congrArg Camera.lastFlags closed.cam, (congrArg Camera.nextNo closed.cam :), closed.others, closed.onlyIn⟩
  case timeout =>
    have cut := (State.camMoved.refl sound inside).updFrame frame CamFrame.cutShort
    have raised := cut.raise .phoShort (BitVec.ofNat 32 f.number.toNat) c
    have closed := raised.updCam (Camera.closes f.cutShort.flags)
    exact ⟨_, (exec_cameraFrameTimeout_cuts frame late unraised).trans (congrArg _ (raised.closeFrame_apart rfl s1 s2 s3 black (.inr s0))),
      congrArg Camera.frame closed.cam, congrArg Camera.lastFlags closed.cam, cut.raised .phoShort _ c, closed.others, closed.onlyIn⟩
  case other =>
    have counted := (State.camMoved.refl sound inside).count .PHO_DISCARD_CNT c
    exact ⟨_, (exec_csiOtherPacket_unframed on closed v 0x2B).trans (congrArg _ (if_neg (by simp [other]))),
      State.counted_count _ c (State.sound_regs sound) (by decide) (by decide), counted.regsOnlyAt (List.Subset.refl _), counted.onlyIn,
      fun k => rfl⟩
  case lineStart =>
    exact ⟨_, (exec_csiOtherPacket_unframed on closed 0 2).trans (congrArg _ (if_pos ⟨rfl, .inl (by decide)⟩)), .refl s _, fun k => rfl⟩

end Sys2Proof.Machine
end

section
/-! Exposure sets of a camera port (R271, R273, R274, R276): commits, their transfers on I2C, and a transfer that fails. -/

namespace Sys2Proof.Machine

/-- A set is committed: it takes the place of one committed in the same window (R273, R274). -/
def Camera.commits (set id : Nat) (x : Camera) : Camera :=
  { x with waiting := x.waiting.filter (fun e => e.closed) ++ [⟨set, id, false⟩] }

/-- A set has been committed in the present window. -/
def Camera.windowUsed (x : Camera) : Bool := x.waiting.any fun e => !e.closed

/-- The set that was sent has been written (R273). -/
def Camera.writes (e : ExpSet) (x : Camera) : Camera := { x with sending := none, written := some e }

/-- The set that was sent is given up (R276). -/
def Camera.givesUp (x : Camera) : Camera := { x with sending := none, written := none, uncertain := true }

section
variable {s t : State} {c : Nat} {x : Camera} {l : List Part} {a : List Nat}

/-! ### A commit -/

theorem State.commitExp_first (first : (s.cam c).windowUsed = false) (set id : Nat) :
    s.commitExp c set id = s.updCam c (Camera.commits set id) := by
  show (if (s.cam c).windowUsed then s.count .PHO_EXP_SUPERSEDE_CNT c else s).updCam c (Camera.commits set id) = _
  rw [if_neg (by simp [first])]

theorem State.commitExp_again (again : (s.cam c).windowUsed = true) (set id : Nat) :
    s.commitExp c set id = (s.count .PHO_EXP_SUPERSEDE_CNT c).updCam c (Camera.commits set id) := by
  show (if (s.cam c).windowUsed then s.count .PHO_EXP_SUPERSEDE_CNT c else s).updCam c (Camera.commits set id) = _
  rw [if_pos again]

/-- The set waits; one that it replaces is counted. -/
theorem State.camMoved.commitExp (h : s.camMoved t c x l a) (set id : Nat) : s.camMoved (t.commitExp c set id) c (x.commits set id)
    (l ++ [.regs, .pho]) (a ++ [Reg.PHO_EXP_SUPERSEDE_CNT.addr c 0 0]) := by
  cases used : (t.cam c).windowUsed with
  | false =>
    rw [State.commitExp_first used]
    exact (h.updCam _).mono (by simp) (by simp)
  | true =>
    rw [State.commitExp_again used]
    exact ((h.count .PHO_EXP_SUPERSEDE_CNT c).updCam _).mono (by simp) (List.Subset.refl _)

theorem State.counted_commitExp (sound : s.sound) (again : (s.cam c).windowUsed = true) (set id : Nat) :
    s.counted (s.commitExp c set id) .PHO_EXP_SUPERSEDE_CNT c := by
  rw [State.commitExp_again again]
  exact State.counted_count .PHO_EXP_SUPERSEDE_CNT c (State.sound_regs sound) (by decide) (by decide)

/-- The register written by a commit, before the commit itself. -/
def State.expStored (s : State) (c : Nat) (v : Word) : State := s.traffic.store .PHO_EXP_COMMIT v c

theorem State.camMoved.expStored (sound : s.sound) (inside : c < 4) (v : Word) :
    s.camMoved (s.expStored c v) c (s.cam c) [.pcie, .regs] [Reg.PHO_EXP_COMMIT.addr c 0 0] :=
  ((State.camMoved.refl sound inside).besideOf (s.traffic_sound sound) s.traffic_onlyIn).store .PHO_EXP_COMMIT v c

theorem exec_expCommit_commits (inside : c < 4) (awake : s.dev.dev ≠ .dark) (v : Word) : exec (.expCommit c v) s =
    .next ((s.expStored c v).commitExp c (Fld.PHO_EXP_COMMIT_set.of v) (Fld.PHO_EXP_COMMIT_id.of v)) :=
  (if_pos inside).trans (congrArg Host.Outcome.next (if_neg awake))

/-! ### The transfers of a set -/

/-- A fold of operations each of which sends one output. -/
theorem State.each_out_length {α : Type} {f : State → α → State} (sends : ∀ u b, (f u b).out.length = u.out.length + 1) (s : State)
    (k : List α) : (s.each k f).out.length = s.out.length + k.length := by
  unfold State.each
  induction k generalizing s with
  | nil => rfl
  | cons b k ih => rw [List.foldl_cons, ih, sends, List.length_cons]; omega

theorem State.sendEntries_onlyIn (s : State) (c set n : Nat) : s.onlyIn (s.sendEntries c set n) [.out] :=
  State.each_onlyIn (fun u _ => u.emit_onlyIn _) s _

theorem State.sendEntries_out_length (s : State) (c set n : Nat) : (s.sendEntries c set n).out.length = s.out.length + n :=
  (State.each_out_length (fun _ _ => List.length_append) s _).trans (by rw [List.length_range])

theorem State.camMoved.sendEntries (h : s.camMoved t c x l a) (set n : Nat) : s.camMoved (t.sendEntries c set n) c x (l ++ [.out]) a :=
  h.besideOf (t.sendEntries_sound c set n h.sound) (t.sendEntries_onlyIn c set n)

variable {e : ExpSet} (sending : (s.cam c).sending = some e)
include sending

theorem exec_expSetWritten_writes :
    exec (.expSetWritten c) s = .next ((s.sendEntries c e.set (s.expLen c e.set)).updCam c (Camera.writes e)) := by
  show execExpSetWritten c s = _
  unfold execExpSetWritten
  rw [sending]
  rfl

theorem exec_i2cNak_givesUp (n : Nat) : exec (.i2cNak c n) s = .next
    ((((s.sendEntries c e.set (min (n + 1) (s.expLen c e.set))).updCam c Camera.givesUp).count .PHO_I2C_NAK_CNT c).raise .phoI2c
      (BitVec.ofNat 32 n) c e.set) := by
  show execI2cNak c n s = _
  unfold execI2cNak
  rw [sending]
  rfl

end

end Sys2Proof.Machine
end

section
/-! PHO_CTRL, CAPBUF and the black-level calibration (R272, R288, R307, R309). -/

namespace Sys2Proof.Machine

/-! ### A port is enabled and disabled (R272, R309) -/

/-- The port starts anew. -/
def Camera.enables (x : Camera) : Camera := { x with nextNo := 0, started := false, deskewed := false }

/-- The port stops. -/
def Camera.disables (x : Camera) : Camera := { x with deskewed := false, held := 0 }

section
variable {s : State} {c : Nat} {v : Word} (reaches : s.reaches (Reg.PHO_CTRL.addr c 0 0) = true) (format : Fld.PHO_CTRL_fmt.of v ≠ 3)

/-- The enable bit is the one written. -/
theorem State.cameraOn_store (sound : s.sound) (inside : c < 4) (v : Word) : (s.store .PHO_CTRL v c).cameraOn c = v.msb := by
  have en : (s.store .PHO_CTRL v c).get .PHO_CTRL_en c = field v 31 31 :=
    (State.get_store (State.sound_regs sound) .PHO_CTRL_en v c 0 0).trans (field_stored _ _ _)
  unfold State.cameraOn State.on
  rw [en, decide_eq_true inside, Bool.true_and]
  cases set : v.msb with
  | false => simp [(armField_eq_zero v).mpr set]
  | true => simpa using mt (armField_eq_zero v).mp (by simp [set])

theorem State.reachStep_onlyIn (s : State) (n : Nat) : s.onlyIn (s.reachStep n) [.dev] := by
  intro x; cases x <;> simp [Part.same, State.reachStep]

include reaches format

theorem exec_cameraPortEnable_enables (inside : c < 4) (enable : v.msb = true) (off : s.cameraOn c = false) :
    exec (.cameraPortEnable c v) s = .next (((s.traffic.reachStep 11).updCam c Camera.enables).store .PHO_CTRL v c) := by
  refine (if_pos ⟨inside, enable⟩).trans (congrArg Host.Outcome.next ?_)
  unfold State.writePhoCtrl
  rw [State.gate_acts reaches (by simp [off, format])]
  simp only [off, enable]
  rfl

theorem exec_cameraPortDisable_disables (inside : c < 4) (disable : v.msb = false) (on : s.cameraOn c = true)
    (closed : (s.cam c).frame = none)
    (kept : s.rd .PHO_CTRL c &&& 0x7FFFFFFF = v &&& Reg.PHO_CTRL.maskOf [.rw] &&& 0x7FFFFFFF) : exec (.cameraPortDisable c v) s =
      .next (((s.traffic.resetXing (30 + c)).updCam c Camera.disables).store .PHO_CTRL v c) := by
  refine (if_pos ⟨inside, by simp [disable]⟩).trans (congrArg Host.Outcome.next ?_)
  have still : ((s.traffic.resetXing (30 + c)).cam c).frame.isSome = false := by
    show (s.cam c).frame.isSome = false
    rw [closed, Option.isSome_none]
  unfold State.writePhoCtrl
  rw [State.gate_acts reaches (by simpa [disable, format] using fun _ => kept)]
  simp only [on, disable, still]
  rfl

end

/-! ### CAPBUF (R288, R378) -/

/-- A buffer waits behind those that wait. -/
def Ring.offers (d : Bytes) (g : Ring) : Ring := { g with bufs := g.bufs ++ [d] }

theorem State.lt_of_running {s : State} {r : Nat} (running : s.running r = true) : r < 64 := by
  simp only [State.running, Bool.and_eq_true, decide_eq_true_eq] at running
  exact running.1

theorem exec_capbuf_waits {s : State} {r : Nat} {d : Bytes} (running : s.running r = true) (capture : s.ringKind r = 2)
    (room : (s.ring r).bufs.length < s.pendingEntries r) (unawaited : s.tim.rxWait = []) :
    exec (.capbuf r d) s = .next (s.traffic.updRing r (Ring.offers d)) := by
  have supplies : s.supply r d = s.traffic.updRing r (Ring.offers d) := if_pos ⟨running, capture, room⟩
  refine congrArg Host.Outcome.next ((if_pos ⟨State.lt_of_running running, capture⟩).trans ?_)
  unfold State.supplied
  rw [supplies]
  exact if_pos (by simp [unawaited])

/-! ### Black-level calibration (R307) -/

/-- The port calibrates with a dark set, and has the set now active restored afterwards. -/
def Camera.calibrates (dark : Nat × Nat) (x : Camera) : Camera :=
  { x with calib := true, black := some ⟨dark, 0, List.replicate 5 0, List.replicate 5 0, x.active, false⟩ }

/-- The set that was active before is to be restored. -/
def Camera.restores (b : BlackCal) (x : Camera) : Camera := { x with black := some { b with restoring := true } }

section
variable {s : State} {c r : Nat} {d : Bytes}

/-- The dark set of a calibration and the identifier that it is committed under, which the spec leaves open. -/
def State.darkSet (s : State) (c : Nat) : Nat × Nat := (s.get .PHO_BLACK_CTRL_dark_set c, s.fresh.1.toNat % 256)

theorem State.blackStart_first {a : Activity} (target : a.target = c) (first : (s.cam c).windowUsed = false) : s.blackStart a =
    (s.fresh.2.updCam c (Camera.commits (s.darkSet c).1 (s.darkSet c).2)).updCam c (Camera.calibrates (s.darkSet c)) := by
  subst target
  show (s.fresh.2.commitExp a.target (s.darkSet a.target).1 (s.darkSet a.target).2).updCam a.target
    (Camera.calibrates (s.darkSet a.target)) = _
  rw [State.commitExp_first (s := s.fresh.2) first]

theorem State.camMoved.blackStart {t : State} {x : Camera} {l : List Part} {b : List Nat} (h : s.camMoved t c x l b) {a : Activity}
    (target : a.target = c) (first : x.windowUsed = false) :
    s.camMoved (t.blackStart a) c ((x.commits (t.darkSet c).1 (t.darkSet c).2).calibrates (t.darkSet c)) (l ++ [.free, .pho]) b := by
  rw [State.blackStart_first target (h.cam ▸ first)]
  exact (((h.besideOf (t.fresh_sound h.sound) t.fresh_onlyIn).updCam _).updCam _).mono (by simp) (List.Subset.refl _)

/-- The set committed last is the newest that waits. -/
theorem Camera.commits_getLast? (set id : Nat) (x : Camera) : (x.commits set id).waiting.getLast? = some ⟨set, id, false⟩ :=
  List.getLast?_concat ..

/-- In a state that the activity allows, with its target and its parameter in range, a MAINT is acted on (R434, R435). -/
theorem State.maint_acts_allowed {k : Nat} {target len : Nat → Bool} {states : List DevState} (h : s.accepts r d 8) (code : byteAt d 4 = k)
    (awake : s.dev.dev ≠ .held) (allowed : states.contains s.dev.dev = true) (inRange : target (byteAt d 5) = true)
    (noParam : len (leAt d 16 4) = true) (act : State → Ctx → State) :
    s.maint r d k target len states act = act (s.take r) (s.ctxOf r d) := by
  unfold State.maint
  rw [State.descriptor_of_accepts h (by simp [code]), State.take_dev, if_neg (by simp [awake]), if_neg (by simp [inRange, noParam]),
    if_neg (by rw [allowed]; decide)]

theorem exec_camBlack_begins (h : s.accepts r d 8) (code : byteAt d 4 = 8) (target : byteAt d 5 = c) (inside : c < 4)
    (empty : leAt d 16 4 = 0) (state : s.dev.dev = .standby ∨ s.dev.dev = .printing) (on : s.cameraOn c = true)
    (idle : s.lmp.running = []) : exec (.camBlack r d) s = .next ((s.maintStarted r d).blackStart (s.maintOf r d)) := by
  have on' : (s.take r).cameraOn (byteAt d 5) = true := by
    rw [target, ← on]
    exact congrArg (fun n => decide (c < 4) && n != 0) (s.take_get r .PHO_CTRL_en c 0 0)
  refine congrArg Host.Outcome.next ((State.maint_acts_allowed h code ?_ ?_ ?_ ?_ _).trans ?_)
  · rcases state with h | h <;> simp [h]
  · rcases state with h | h <;> simp [h]
  · simp [target, inside]
  · simp [noParam, empty]
  · rw [if_neg (by simp [on']), State.actArrive_idle (State.take_running idle)]
    rfl

/-- The activity that alone runs ends with a status other than OK. -/
theorem State.actEnd_reports {a : Activity} {x : Ctx} {st : Status} (alone : s.lmp.running = [a]) (src : a.src = .maint x)
    (failed : st ≠ .ok) :
    s.actEnd a.code a.target st = State.complete { s with lmp := { s.lmp with running := [] } } x st 0 := by
  have found : s.actFind a.code a.target = some a := by simp [State.actFind, alone]
  unfold State.actEnd State.actReport
  simp only [found, src, alone, List.erase_cons_head]
  simp [State.complete, failed]

theorem exec_camBlackTimeout_ends {a : Activity} {b : BlackCal} (alone : s.lmp.running = [a]) (code : a.code = 8) (target : a.target = c)
    (black : (s.cam c).black = some b) (first : (s.cam c).windowUsed = false) (late : s.elapsed a.since 2000000000 = true) :
    exec (.camBlackTimeout c) s =
      .next (((s.updCam c (Camera.restores b)).updCam c (Camera.commits b.restore.1 b.restore.2)).actEnd 8 c .fail) := by
  have found : s.actFind 8 c = some a := by simp [State.actFind, alone, code, target]
  have first' : ((s.updCam c (Camera.restores b)).cam c).windowUsed = false := (s.cam_updCam_proj c c Camera.windowUsed).trans first
  show execCamBlackTimeout c s = _
  unfold execCamBlackTimeout
  simp only [found, black, late, if_true]
  rw [← State.commitExp_first first']
  rfl

end

end Sys2Proof.Machine
end

section
/-! The obligation about exposure sets, PHO_CTRL, CAPBUF and the black-level calibration (R271, R273, R276, R288, R307, R309). -/

namespace Sys2Proof.Machine

/-- Settles O29: each command by what `exec` does in its clause, followed on the port by `State.camMoved`. -/
theorem cameraSetCommandsComplete : Obligations.CameraSetCommandsComplete := by
  unfold Obligations.CameraSetCommandsComplete
  intro s c sound inside
  refine ⟨fun v awake => ?commit, fun e sending => ⟨?written, fun n => ?nak⟩,
    fun v reaches format => ⟨fun enable off => ?enable, fun disable on closed kept => ?disable⟩,
    fun r d _ running capture room unawaited => ?capbuf, fun r d h code target empty state on idle first => ?black,
    fun a b x alone code target src known black first late => ?timeout⟩
  case commit =>
    have stored := State.camMoved.expStored sound inside v
    have committed := stored.commitExp (Fld.PHO_EXP_COMMIT_set.of v) (Fld.PHO_EXP_COMMIT_id.of v)
    have later := (State.camMoved.refl stored.sound inside).commitExp (Fld.PHO_EXP_COMMIT_set.of v) (Fld.PHO_EXP_COMMIT_id.of v)
    have apart : Reg.PHO_EXP_COMMIT.addr c 0 0 ≠ Reg.PHO_EXP_SUPERSEDE_CNT.addr c 0 0 := Reg.addr_ne c 0 0
    refine ⟨_, exec_expCommit_commits inside awake v, ?_, congrArg Camera.waiting committed.cam, fun again => ?_,
      (congrArg Camera.active committed.cam :), committed.others, committed.onlyIn, committed.regsOnlyAt (List.Subset.refl _)⟩
    · rw [later.touches.2.rd .PHO_EXP_COMMIT c 0 0 (by simpa using apart)]
      exact State.rd_wr_same _ _ _ _ _ _ (State.sound_regs sound)
    · refine (State.counted_commitExp stored.sound (stored.cam ▸ again) _ _).around (s := s) ?_ rfl
      exact stored.touches.2.get .PHO_EXP_SUPERSEDE_CNT c 0 0 (by simpa [Fld.PHO_EXP_SUPERSEDE_CNT] using apart.symm)
  case written =>
    have sent := (State.camMoved.refl sound inside).sendEntries e.set (s.expLen c e.set)
    have moved := sent.updCam (Camera.writes e)
    exact ⟨_, exec_expSetWritten_writes sending, congrArg Camera.sending moved.cam, congrArg Camera.written moved.cam,
      s.sendEntries_out_length c _ _, moved.others, moved.onlyIn⟩
  case nak =>
    have sent := (State.camMoved.refl sound inside).sendEntries e.set (min (n + 1) (s.expLen c e.set))
    have given := sent.updCam Camera.givesUp
    have counted := given.count .PHO_I2C_NAK_CNT c
    have raised := counted.raise .phoI2c (BitVec.ofNat 32 n) c e.set
    refine ⟨_, exec_i2cNak_givesUp sending n, congrArg Camera.sending raised.cam, congrArg Camera.written raised.cam,
      congrArg Camera.uncertain raised.cam, s.sendEntries_out_length c _ _, ?_, counted.raised .phoI2c _ c e.set, raised.others,
      raised.regsOnlyAt (List.Subset.refl _), raised.onlyIn⟩
    refine (State.counted_count .PHO_I2C_NAK_CNT c (State.sound_regs given.sound) (by decide) (by decide)).around ?_ rfl
    exact given.touches.1.get .PHO_I2C_NAK_CNT c 0 0
  case enable =>
    have reached := (State.camMoved.refl sound inside).besideOf (s.traffic_sound sound) s.traffic_onlyIn
    have stepped := reached.besideOf (State.reachStep_sound _ 11 reached.sound) (State.reachStep_onlyIn _ 11)
    have enabled := stepped.updCam Camera.enables
    have moved := enabled.store .PHO_CTRL v c
    exact ⟨_, exec_cameraPortEnable_enables reaches format inside enable off, (State.cameraOn_store enabled.sound inside v).trans enable,
      State.rd_wr_same _ _ _ _ _ _ (State.sound_regs enabled.sound), congrArg Camera.nextNo moved.cam, congrArg Camera.started moved.cam,
      rfl, moved.others, moved.regsOnlyAt (List.Subset.refl _), moved.onlyIn⟩
  case disable =>
    have reached := (State.camMoved.refl sound inside).besideOf (s.traffic_sound sound) s.traffic_onlyIn
    have reset := reached.besideOf (State.resetXing_sound _ (30 + c) reached.sound) (State.resetXing_onlyIn _ (30 + c))
    have disabled := reset.updCam Camera.disables
    have moved := disabled.store .PHO_CTRL v c
    exact ⟨_, exec_cameraPortDisable_disables reaches format inside disable on closed kept,
      (State.cameraOn_store disabled.sound inside v).trans disable, State.rd_wr_same _ _ _ _ _ _ (State.sound_regs disabled.sound),
      congrArg Camera.deskewed moved.cam, (congrArg Camera.nextNo moved.cam :), moved.others, moved.regsOnlyAt (List.Subset.refl _),
      moved.onlyIn⟩
  case capbuf =>
    have there : r < s.hst.rings.length := (State.lt_of_running running).trans_eq (State.sound_rings sound).symm
    refine ⟨_, exec_capbuf_waits running capture room unawaited, State.ring_updRing_same _ _ there, ⟨rfl, fun q => ?_⟩,
      (s.traffic_onlyIn.trans (s.traffic.updRing_onlyIn r _)).mono (by decide)⟩
    by_cases own : q = r
    · exact .inl (by simp [own])
    · exact .inr (State.ring_updRing_ne _ _ own)
  case black =>
    have started : s.camMoved (s.maintStarted r d) c (s.cam c) [.hst, .pcie, .lmp] [] :=
      (State.camMoved.refl sound inside).besideOf (State.actRun_sound _ _ (State.take_sound s r sound)) (s.maintStarted_onlyIn r d)
    have begun := (State.camMoved.refl started.sound inside).blackStart (a := s.maintOf r d) target (started.cam ▸ first)
    have moved := started.blackStart (a := s.maintOf r d) target first
    refine ⟨_, exec_camBlack_begins h code target inside empty state on idle, ?_, ?_, ?_, congrArg Camera.calib moved.cam, moved.others,
      State.inFlight_of_hst sound h begun.touches.1.hst, moved.onlyIn⟩
    · rw [begun.touches.1.same .lmp, State.maintStarted_running idle, ← code, ← target]
      rfl
    · rw [moved.cam]
      exact (congrArg (Option.map _) (Camera.commits_getLast? ..)).trans (congrArg some (started.touches.1.get .PHO_BLACK_CTRL_dark_set c 0 0))
    · rw [moved.cam]
      rfl
  case timeout =>
    have restored := ((State.camMoved.refl sound inside).updCam (Camera.restores b)).updCam (Camera.commits b.restore.1 b.restore.2)
    have moved := restored.besideOf (State.actEnd_sound _ 8 c .fail restored.sound) (State.actEnd_onlyIn _ 8 c .fail)
    have ends := State.actEnd_reports (s := (s.updCam c (Camera.restores b)).updCam c (Camera.commits b.restore.1 b.restore.2))
      alone src (st := .fail) (by decide)
    rw [code, target] at ends
    refine ⟨_, exec_camBlackTimeout_ends alone code target black first late, ?_, ?_, ?_, moved.others, moved.onlyIn⟩
    · rw [ends]
      exact congrArg Lamplighter.running ((State.complete_onlyIn _ x .fail 0).same .lmp)
    · rw [ends]
      exact State.completes_complete_failed sound known rfl rfl (by decide)
    · rw [moved.cam, Camera.commits_getLast?]
      rfl

end Sys2Proof.Machine
end

section
/-! The end of a period of the colour loop (R298, R299, R302), and why the clause about the stepped word fails: nothing keeps a correction
table from listing one nozzle twice. -/

namespace Sys2Proof.Machine

/-- Correction words that list nozzle 5 twice, with gains one below and one above 0x80: the first of them is in force. -/
def duplicateWords : SMap (BitVec 16) := [(5, 0x7F00), (5, 0x8100)]

/-- Port 0 with these words, at the end of a period in which its nozzle 5 read too high; the loop steps the gains of bar 0. -/
def duplicated : State :=
  let s := { State.reset with
    tabs := [⟨2, 0, .corr duplicateWords, 0, none⟩]
    tim := { State.reset.tim with laps := 1 }
    pho := { State.reset.pho with loop := { State.reset.pho.loop with gains := [⟨0, 5, 100000, 10⟩] } } }
  s.wr .PHO_LOOP_CTRL 0x0100040A

theorem duplicated_sound : duplicated.sound :=
  State.wr_sound _ _ _ _ _ _ (State.sound_set_pho (State.sound_set_tim (State.sound_set_tabs State.reset_sound) rfl) rfl)

theorem duplicated_settled (p : Nat) : (duplicated.tab 2 p).pend = none := by
  cases p with
  | zero => rfl
  | succ q => rfl

/-- The correction word of a nozzle in the state that a command answers. -/
def Out.corrWord (p i : Nat) : Out → BitVec 16
  | .next t => Machine.corrWord (t.tab 2 p).cur.words i
  | .fault _ => 0
  | .refused _ => 0

/-- The stepped word is 0x8000, what an unlisted nozzle reads: writing it takes the first entry away, and the second comes into force. -/
theorem duplicated_steps : Out.corrWord 0 5 (exec .loopPeriodEnd duplicated) = 0x8100 := by decide +kernel

/-- Refutes O30: its second clause lets the correction words of a port be any list, while writing and reading a word agree only where
each nozzle is listed once. In `duplicated` nozzle 5 is listed twice, and the word stepped from gain 0x7F to 0x80 is not the one then in force. -/
theorem not_loopCommandsComplete : ¬ Obligations.LoopCommandsComplete := by
  unfold Obligations.LoopCommandsComplete
  intro holds
  obtain ⟨period, -⟩ := holds duplicated duplicated_sound
  obtain ⟨-, steps⟩ := period (by decide +kernel)
  obtain ⟨t, ran, word, -⟩ := steps ⟨0, 5, 100000, 10⟩ 1 (by decide +kernel) rfl rfl rfl rfl rfl rfl rfl rfl rfl (by decide +kernel)
    (by decide +kernel) (by decide) (by decide) (by decide +kernel) duplicated_settled (by decide +kernel) (by decide)
  have stepped : corrWord (t.tab 2 0).cur.words 5 = 0x8100 := by
    have := duplicated_steps
    rwa [ran] at this
  rw [stepped] at word
  exact absurd word (by decide +kernel)

end Sys2Proof.Machine
end

section
/-! Frames of any type as they leave (R223, R243, R319), and the obligation about the frames of a pair. -/

namespace Sys2Proof.Machine

/-! ### A frame as it leaves -/

/-- Bytes 8 to 27 of a header. -/
def headMid (mid : Bytes) : Bytes := (mid ++ List.replicate 20 0).take 20

theorem headMid_length (mid : Bytes) : (headMid mid).length = 20 := by simp [headMid]

/-- The first 30 bytes of a header that has its sequence number and its payload's CRC. -/
def frameHead (type flags len : Nat) (seq : BitVec 32) (mid : Bytes) (pay : Nat) : Bytes :=
  [BitVec.ofNat 8 type, BitVec.ofNat 8 flags] ++ toLe 2 len ++ toLe 4 seq.toNat ++ headMid mid ++ toLe 2 pay

theorem frameHead_length (type flags len : Nat) (seq : BitVec 32) (mid : Bytes) (pay : Nat) :
    (frameHead type flags len seq mid pay).length = 30 := by
  simp [frameHead, toLe_length, headMid_length]

/-- The payload CRC that a frame of a type carries (R243, R319). -/
def payloadCrc (type : Nat) (payload : Bytes) : Nat :=
  if type = 1 ∨ type = 0x17 ∨ payload.isEmpty then 0 else (crc16 payload).toNat

theorem rawFrame_drop (type flags : Nat) (mid payload : Bytes) : (rawFrame type flags mid payload).drop 32 = payload := by
  unfold rawFrame
  exact List.drop_left' (by simp [toLe_length])

theorem rawFrame_type {type : Nat} (small : type < 256) (flags : Nat) (mid payload : Bytes) :
    byteAt (rawFrame type flags mid payload) 0 = type := by
  show (BitVec.ofNat 8 type).toNat = type
  rw [BitVec.toNat_ofNat, Nat.mod_eq_of_lt small]

theorem rawFrame_head (type flags : Nat) (mid payload : Bytes) (seq : BitVec 32) (pay : Nat) :
    splice ((rawFrame type flags mid payload).take 28) 4 (toLe 4 seq.toNat) ++ toLe 2 pay =
      frameHead type flags payload.length seq mid pay := by
  have front : (rawFrame type flags mid payload).take 28 =
      [BitVec.ofNat 8 type, BitVec.ofNat 8 flags] ++ toLe 2 payload.length ++ toLe 4 0 ++ headMid mid := by
    unfold rawFrame
    rw [List.append_assoc _ (List.replicate 4 0)]
    exact List.take_left' (by simp [toLe_length])
  rw [front, frameHead]
  rfl

/-- A frame as it leaves: its header with the CRC, its payload, and zero bytes up to a whole block. -/
theorem finishFrame_raw {type : Nat} (small : type < 256) (flags : Nat) (mid payload : Bytes) (seq : BitVec 32) :
    finishFrame (rawFrame type flags mid payload) seq =
      withCrc (frameHead type flags payload.length seq mid (payloadCrc type payload)) ++ (payload ++
        List.replicate ((16 - (32 + payload.length) % 16) % 16) 0) := by
  have length : (withCrc (frameHead type flags payload.length seq mid (payloadCrc type payload)) ++ payload).length =
      32 + payload.length := by
    simp [withCrc, toLe_length, frameHead_length]
    omega
  unfold finishFrame
  dsimp only
  rw [rawFrame_type small, rawFrame_drop, rawFrame_head]
  show withCrc (frameHead type flags payload.length seq mid (payloadCrc type payload)) ++ payload ++ List.replicate
    ((16 - (withCrc (frameHead type flags payload.length seq mid (payloadCrc type payload)) ++ payload).length % 16) % 16) 0 = _
  rw [length, List.append_assoc]

theorem withCrc_head_length (type flags : Nat) (mid payload : Bytes) (seq : BitVec 32) (pay : Nat) : (withCrc (frameHead type flags payload.length seq mid pay)).length = 32 := by
  simp [withCrc, toLe_length, frameHead_length]

section
variable {type : Nat} (small : type < 256) (flags : Nat) (mid payload : Bytes) (seq : BitVec 32)
include small

/-- A field within the first 30 bytes of a frame. -/
theorem leAt_finishFrame {o n : Nat} (h : o + n ≤ 30) :
    leAt (finishFrame (rawFrame type flags mid payload) seq) o n =
      leAt (frameHead type flags payload.length seq mid (payloadCrc type payload)) o n := by
  rw [finishFrame_raw small, withCrc, List.append_assoc, leAt_append]
  rwa [frameHead_length]

theorem finishFrame_type : byteAt (finishFrame (rawFrame type flags mid payload) seq) 0 = type := by
  rw [finishFrame_raw small, withCrc, List.append_assoc, byteAt_append _ _ (by simp [frameHead_length])]
  exact rawFrame_type small flags mid payload

theorem finishFrame_payloadLength (short : payload.length < 65536) :
    leAt (finishFrame (rawFrame type flags mid payload) seq) 2 2 = payload.length :=
  (leAt_finishFrame small flags mid payload seq (by decide)).trans ((le_toLe 2 _).trans (Nat.mod_eq_of_lt short))

theorem finishFrame_seq : leAt (finishFrame (rawFrame type flags mid payload) seq) 4 4 = seq.toNat :=
  (leAt_finishFrame small flags mid payload seq (by decide)).trans ((le_toLe 4 _).trans (Nat.mod_eq_of_lt seq.isLt))

/-- A field of bytes 8 to 27. -/
theorem finishFrame_mid {o n : Nat} (h : o + n ≤ 20) :
    leAt (finishFrame (rawFrame type flags mid payload) seq) (8 + o) n = leAt (headMid mid) o n := by
  rw [leAt_finishFrame small flags mid payload seq (by omega)]
  unfold frameHead
  rw [leAt_append _ _ (by simp [toLe_length, headMid_length]; omega)]
  unfold leAt
  rw [← List.drop_drop, List.drop_left' (by simp [toLe_length])]

theorem finishFrame_payloadCrc : leAt (finishFrame (rawFrame type flags mid payload) seq) 28 2 = payloadCrc type payload := by
  have fits : payloadCrc type payload < 2 ^ 16 := by
    unfold payloadCrc
    split
    · decide
    · exact (crc16 payload).isLt
  rw [leAt_finishFrame small flags mid payload seq (by decide)]
  unfold leAt frameHead
  rw [List.drop_left' (by simp [toLe_length, headMid_length]), List.take_of_length_le (by simp [toLe_length]), le_toLe]
  exact Nat.mod_eq_of_lt fits

theorem finishFrame_headerGood : headerGood (finishFrame (rawFrame type flags mid payload) seq) = true := by
  have head := withCrc_head_length type flags mid payload seq (payloadCrc type payload)
  unfold headerGood
  rw [finishFrame_raw small, List.take_left' head, crcOk_withCrc]
  simp [head]

theorem finishFrame_payload (short : payload.length < 65536) :
    framePayload (finishFrame (rawFrame type flags mid payload) seq) = payload := by
  unfold framePayload
  rw [finishFrame_payloadLength small flags mid payload seq short, finishFrame_raw small,
    List.drop_left' (withCrc_head_length type flags mid payload seq _), List.take_left]

/-- A frame of a twin type with a payload of a length that the type has is a good one (R318, R319). -/
theorem twinFrameOk_finishFrame (short : payload.length < 65536) (twin : type ≠ 1) (full : payload ≠ [])
    (length : twinLengthOk type payload.length = true) :
    twinFrameOk type (finishFrame (rawFrame type flags mid payload) seq) = true := by
  have len := finishFrame_payloadLength small flags mid payload seq short
  have whole := finishFrame_payload small flags mid payload seq short
  have crc := finishFrame_payloadCrc small flags mid payload seq
  have filled : payload.length ≠ 0 := by simpa using full
  unfold twinFrameOk payloadGood
  rw [finishFrame_headerGood small, finishFrame_type small, len, whole, crc, length]
  unfold payloadCrc
  by_cases data : type = 0x17
  · simp [data]
  · simp [data, twin, full]

end

/-! ### The frames of a message (R318) -/

/-- What a frame of a message of the pair is, before its sequence number and CRCs. -/
structure TwinRaw (raw : Bytes) (type : Nat) (mid payload : Bytes) : Prop where
  eq : raw = rawFrame type 0 mid payload
  small : type < 256
  twin : type ≠ 1
  full : payload ≠ []
  short : payload.length < 65536
  length : twinLengthOk type payload.length = true

theorem TwinRaw.of_length {type : Nat} {mid payload : Bytes} (known : type ∈ [0x11, 0x12, 0x13, 0x15, 0x16, 0x19, 0x1A, 0x1B] ∨
      type ∈ [0x14, 0x17, 0x18]) (length : twinLengthOk type payload.length = true) : TwinRaw (twinRaw type mid payload) type mid payload := by
  have range : type < 256 ∧ type ≠ 1 ∧ 1 ≤ payload.length ∧ payload.length ≤ 4096 := by
    simp only [List.mem_cons, List.not_mem_nil, or_false] at known
    rcases known with (rfl | rfl | rfl | rfl | rfl | rfl | rfl | rfl) | rfl | rfl | rfl <;> simp [twinLengthOk] at length <;> omega
  obtain ⟨small, twin, full, short⟩ := range
  exact ⟨rfl, small, twin, fun empty => by simp [empty] at full, by omega, length⟩

/-- The chunks of a record hold 1 to 4,096 bytes each. -/
theorem TwinRaw.of_chunk {type id through : Nat} {b raw : Bytes} (known : type ∈ [0x14, 0x17, 0x18])
    (chunk : raw ∈ chunkFrames type id through b) : ∃ mid payload, TwinRaw raw type mid payload := by
  obtain ⟨i, inside, rfl⟩ := List.mem_map.mp chunk
  have below := List.mem_range.mp inside
  refine ⟨_, _, TwinRaw.of_length (.inr known) ?_⟩
  simp only [List.mem_cons, List.not_mem_nil, or_false] at known
  rcases known with rfl | rfl | rfl <;> simp [twinLengthOk] <;> omega

theorem announce_length (l : List AnnEntry) : (l.flatMap AnnEntry.bytes).length = 12 * l.length := by
  induction l with
  | nil => rfl
  | cons e t ih =>
    rw [List.flatMap_cons, List.length_append, ih]
    simp [AnnEntry.bytes, lineBytes, toLe_length]
    omega

theorem CheckBody.bytes_length (c : CheckBody) : (CheckBody.bytes c).length = 32 := by
  cases c <;> simp [CheckBody.bytes, toLe_length]

/-- Every frame of every message is of its type, with a payload of a length that the type has (R318). -/
theorem TwMsg.frames_raw {m : TwMsg} {effort : Nat} {raw : Bytes} (of : raw ∈ m.frames effort)
    (entries : ∀ l, m = .announce l → 1 ≤ l.length ∧ l.length ≤ 8)
    (bytes : ∀ sec plane strip off b, m = .data sec plane strip off b → 1 ≤ b.length ∧ b.length ≤ 4096) :
    ∃ type mid payload, TwinRaw raw type mid payload := by
  have one {type : Nat} {mid payload : Bytes} (only : raw ∈ [twinRaw type mid payload])
      (known : type ∈ [0x11, 0x12, 0x13, 0x15, 0x16, 0x19, 0x1A, 0x1B] ∨ type ∈ [0x14, 0x17, 0x18])
      (length : twinLengthOk type payload.length = true) : ∃ type mid payload, TwinRaw raw type mid payload :=
    ⟨type, mid, payload, List.mem_singleton.mp only ▸ TwinRaw.of_length known length⟩
  cases m with
  | hello h => exact one of (by decide) (by simp [twinLengthOk, toLe_length])
  | hb h => exact one of (by decide) (by simp [twinLengthOk, toLe_length, lineBytes])
  | announce l =>
    refine one of (by decide) ?_
    have := entries l rfl
    rw [announce_length]
    simp [twinLengthOk]
    omega
  | change id line body =>
    obtain ⟨mid, payload, h⟩ := TwinRaw.of_chunk (by decide) of
    exact ⟨_, mid, payload, h⟩
  | vote id yes why => exact one of (by decide) (by simp [twinLengthOk, toLe_length])
  | decide id commit => exact one of (by decide) (by simp [twinLengthOk, toLe_length])
  | data sec plane strip off b => exact one of (by decide) (by simpa [twinLengthOk] using bytes sec plane strip off b rfl)
  | ckpt b through =>
    obtain ⟨mid, payload, h⟩ := TwinRaw.of_chunk (by decide) of
    exact ⟨_, mid, payload, h⟩
  | check c => exact one of (by decide) (by simp [twinLengthOk, CheckBody.bytes_length])
  | give reason => exact one of (by decide) (by simp [twinLengthOk])
  | join line => exact one of (by decide) (by simp [twinLengthOk, lineBytes, toLe_length])

/-- The place of a DATA frame's bytes, in its header (R318). -/
theorem data_place {sec plane strip off : Nat} (b : Bytes) (seq : BitVec 32) (hsec : sec < 4096) (hplane : plane < 8)
    (hstrip : strip < 2 ^ 32) (hoff : off < 2 ^ 32) :
    let f := finishFrame (rawFrame 0x17 0 (toLe 2 sec ++ toLe 2 plane ++ toLe 4 strip ++ toLe 4 off) b) seq
    leAt f 8 2 = sec ∧ leAt f 10 2 = plane ∧ leAt f 12 4 = strip ∧ leAt f 16 4 = off := by
  intro f
  have mid {o n : Nat} (h : o + n ≤ 20) := finishFrame_mid (type := 0x17) (by decide) 0
    (toLe 2 sec ++ toLe 2 plane ++ toLe 4 strip ++ toLe 4 off) b seq h
  have read (n v : Nat) (fits : v < 2 ^ (8 * n)) : le (toLe n v) = v := (le_toLe n v).trans (Nat.mod_eq_of_lt fits)
  exact ⟨(mid (o := 0) (by decide)).trans (read 2 sec (by omega)), (mid (o := 2) (by decide)).trans (read 2 plane (by omega)),
    (mid (o := 4) (by decide)).trans (read 4 strip hstrip), (mid (o := 8) (by decide)).trans (read 4 off hoff)⟩

/-- A frame that fails its header CRC, or but for DATA its payload CRC, is no good frame of any type (R319). -/
theorem twinFrameOk_bad {type : Nat} {f : Bytes} (bad : headerGood f = false ∨ type ≠ 0x17 ∧ payloadGood f = false) :
    twinFrameOk type f = false := by
  unfold twinFrameOk
  rcases bad with header | ⟨other, payload⟩
  · simp [header]
  · simp [other, payload]

/-- Settles O35: every frame of a message is a `TwinRaw`, whose fields on the wire are those of `finishFrame_raw`; a bad frame is none
that a twin port takes. -/
theorem twinFramesCarryCrcs : Obligations.TwinFramesCarryCrcs := by
  unfold Obligations.TwinFramesCarryCrcs
  refine ⟨fun m effort seq raw f of hf entries bytes => ?sent, fun s k type f act bad => ?received⟩
  case sent =>
    obtain ⟨type, mid, payload, form⟩ := TwMsg.frames_raw of entries bytes
    obtain ⟨rfl, small, twin, full, short, length⟩ := form
    subst hf
    have crc := finishFrame_payloadCrc small 0 mid payload seq
    rw [finishFrame_type small, rawFrame_type small, rawFrame_drop, finishFrame_payload small 0 mid payload seq short, crc]
    refine ⟨finishFrame_headerGood small 0 mid payload seq, ?_, rfl,
      twinFrameOk_finishFrame small 0 mid payload seq short twin full length, rfl, fun other => ?_, fun data => ?_,
      fun sec plane strip off b hm hsec hplane hstrip hoff => ?_⟩
    · rw [finishFrame_seq small, BitVec.ofNat_toNat, BitVec.setWidth_eq]
    · simp [payloadCrc, twin, other, full]
    · simp [payloadCrc, data]
    · subst hm
      have raw := List.mem_singleton.mp of
      have same : payload = b := by rw [← rawFrame_drop type 0 mid payload, raw]; exact rawFrame_drop ..
      have data : type = 0x17 := by rw [← rawFrame_type small 0 mid payload, raw]; rfl
      rw [raw]
      obtain ⟨at8, at10, at12, at16⟩ := data_place b seq hsec hplane hstrip hoff
      exact ⟨data, at8, at10, at12, at16, same⟩
  case received =>
    unfold State.takeTwin
    rw [twinFrameOk_bad bad]
    simp

end Sys2Proof.Machine
end

section
/-! The twin ports (R255, R318 to R320): what the taking of a frame changes, and how messages leave the one port that is ACTIVE. -/

namespace Sys2Proof.Machine

theorem State.setTwn_onlyIn (s : State) (x : Twin) : s.onlyIn { s with twn := x } [.twn] := by
  intro z; cases z <;> simp [Part.same]

/-! ### Receiving (R255, R319, R320) -/

/-- A link that has taken the control frame that it expected. -/
def Link.ctlTaken (l : Link) : Link := { l with ctlExpected := l.ctlExpected + 1 }

/-- Twin port `k` has taken the control frame that it expected. -/
def State.ctlTaken (s : State) (k : Nat) : State := s.updLink (24 + k) Link.ctlTaken

section
variable {s t : State} {k type : Nat} {f : Bytes}

theorem State.twinPort_lt (active : s.twinActive k = true) : k < 2 := by
  simp only [State.twinActive, Bool.and_eq_true, decide_eq_true_eq] at active
  exact active.1

theorem twinFrameOk_type (good : twinFrameOk type f = true) : byteAt f 0 = type := by
  simp only [twinFrameOk, Bool.and_eq_true, beq_iff_eq] at good
  exact good.1.1.1.2

/-- A control frame that is the next in order is acted on behind its acknowledgement. -/
theorem State.takeTwin_control (h : s.hears k type f) (act : State → State)
    (control : type ≠ 0x12 ∧ type ≠ 0x17 := by decide) : s.takeTwin k type f act = act (s.ctlTaken k) := by
  obtain ⟨active, good, order⟩ := h
  have kind : isTwinControl f = true := by simp [isTwinControl, twinFrameOk_type good, control]
  unfold State.takeTwin
  rw [if_neg (by simp [active, good]), if_neg (by simp [kind]), if_pos (order kind)]
  rfl

/-- A heartbeat and DATA are acted on in any order. -/
theorem State.takeTwin_message (h : s.hears k type f) (act : State → State)
    (message : type = 0x12 ∨ type = 0x17 := by decide) : s.takeTwin k type f act = act s := by
  obtain ⟨active, good, -⟩ := h
  have kind : isTwinControl f = false := by
    rcases message with rfl | rfl <;> simp [isTwinControl, twinFrameOk_type good]
  unfold State.takeTwin
  rw [if_neg (by simp [active, good]), if_pos (by simp [kind])]

theorem State.ctlTaken_onlyIn (s : State) (k : Nat) : s.onlyIn (s.ctlTaken k) [.links] := s.updLink_onlyIn _ _

theorem State.ctlTaken_sound (sound : s.sound) (k : Nat) : (s.ctlTaken k).sound := s.updLink_sound _ _ sound

/-- What a link holds beside the number that it expects, it holds behind a frame taken. -/
theorem State.ctlTaken_link {α : Type} (s : State) (k q : Nat) (g : Link → α)
    (kept : ∀ l, g (Link.ctlTaken l) = g l := by exact fun _ => rfl) : g ((s.ctlTaken k).link q) = g (s.link q) :=
  State.link_updLink_proj s (24 + k) q g kept

theorem State.heard_of_links (sound : s.sound) (port : k < 2) (links : t.links = (s.ctlTaken k).links) : s.heard t k := by
  have link (q : Nat) : t.link q = (s.ctlTaken k).link q := congrArg (fun l : List Link => l.getD q Link.reset) links
  refine ⟨(link _).trans (s.link_updLink_same _ ?_), fun q other => (link q).trans (s.link_updLink_ne _ other)⟩
  rw [State.sound_links sound]
  omega

/-- A frame taken and acted on beside the links. -/
theorem State.heard_of_onlyIn {l : List Part} (sound : s.sound) (h : s.hears k type f) (acts : (s.ctlTaken k).onlyIn t l)
    (beside : .links ∉ l := by decide) : s.heard t k ∧ s.onlyIn t (.links :: l) :=
  ⟨State.heard_of_links sound (State.twinPort_lt h.1) (acts.same .links beside),
    ((s.ctlTaken_onlyIn k).trans acts).mono (by simp)⟩

end

/-! ### Sending (R255, R320) -/

/-- A frame of a type that no port takes for a SYNC REQ, a QUIESCE or the end of a bank write. -/
theorem endsNoBank_of_twin {raw : Bytes} (twin : 0x10 ≤ byteAt raw 0) : endsNoBank raw := fun bank => by
  have := bank.1
  omega

section
variable {s t : State} {raw : Bytes} {m : TwMsg}

theorem State.sendCtl_onlyIn_narrow (other : endsNoBank raw) (p : Nat) : s.onlyIn (s.sendCtl p raw) [.links, .out] := by
  refine (s.sendCtl_onlyIn p raw).without (k := .wck) ?_
  show (s.sendCtl p raw).wck = s.wck
  rw [State.sendCtl_eq]
  split
  · exact ((State.updLink_onlyIn _ p _).same .wck).trans (s.transmitCtl_wck other p _)
  · exact (s.updLink_onlyIn p _).same .wck

theorem State.sendTwinPort_onlyIn (s : State) (k : Nat) (twin : 0x10 ≤ byteAt raw 0) : s.onlyIn (s.sendTwinPort k raw) [.links, .out] := by
  unfold State.sendTwinPort
  dsimp only
  split
  · exact s.sendFrame_onlyIn _ _
  · split
    · exact State.sendCtl_onlyIn_narrow (endsNoBank_of_twin twin) _
    · exact (s.updLink_onlyIn _ _).mono (by decide)

/-- Which port a frame takes, or that it waits, is noted in the twin block; nothing else of it changes. -/
theorem State.sendTwinFrame_form (s : State) (twin : 0x10 ≤ byteAt raw 0) : ∃ waiting turn,
    (s.sendTwinFrame raw).twn = { s.twn with waiting := waiting, turn := turn } ∧ s.onlyIn (s.sendTwinFrame raw) [.twn, .links, .out] := by
  have port (u : State) (k : Nat) : (u.sendTwinPort k raw).twn = u.twn ∧ u.onlyIn (u.sendTwinPort k raw) [.links, .out] :=
    ⟨(u.sendTwinPort_onlyIn k twin).same .twn, u.sendTwinPort_onlyIn k twin⟩
  unfold State.sendTwinFrame
  split
  · split
    · exact ⟨_, _, rfl, .refl s _⟩
    · exact ⟨_, _, rfl, (s.setTwn_onlyIn _).mono (by decide)⟩
  · exact ⟨_, _, (port s 0).1, (port s 0).2.mono (by decide)⟩
  · exact ⟨_, _, (port s 1).1, (port s 1).2.mono (by decide)⟩
  · split
    · exact ⟨_, _, (port _ 1).1.trans (port s 0).1, ((port s 0).2.trans (port _ 1).2).mono (by decide)⟩
    · exact ⟨_, _, (port _ _).1, ((s.setTwn_onlyIn _).trans (port _ _).2).mono (by decide)⟩

end

end Sys2Proof.Machine
end

section
/-! How a pair comes apart (R326, R327, R336, R339, R340): a follower detaches or takes over, and a primary goes on alone. -/

namespace Sys2Proof.Machine

/-- The twin block of a follower that has detached (R327). -/
def Twin.detachedAt (now : Instant) (rejoin : Bool) (x : Twin) : Twin :=
  { x with pair := .detached, version := 0, since := now, held := [], unvoted := [], anns := [], waiting := [], noRejoin := !rejoin }

/-- The twin block of a primary that goes on alone (R340). -/
def Twin.alone (x : Twin) : Twin :=
  { x with ckpt := { x.ckpt with building := none }, pair := .unpaired, version := 0, joinLine := none, waiting := [], chunks := [] }

/-- The twin block of a standby or secondary that has taken over (R339). -/
def Twin.leading (now : Instant) (x : Twin) : Twin :=
  { x with role := .primary, pair := .unpaired, tookOver := some x.role, version := 0, joinLine := none, since := now,
           unvoted := [], waiting := [], chunks := [] }

section
variable {s : State}

theorem State.sendIdle_onlyIn (s : State) (p : Nat) : s.onlyIn (s.sendIdle p) [.links, .out] :=
  ((s.updLink_onlyIn p _).trans (State.emit_onlyIn _ _)).mono (by decide)

/-- Outside PRINTING, detaching sends IDLE on the ACTIVE ports (R327). -/
theorem State.detach_idle (quiet : s.printing = false) (rejoin : Bool) :
    (s.detach rejoin).twn = s.twn.detachedAt s.clock rejoin ∧ s.onlyIn (s.detach rejoin) [.twn, .links, .out] := by
  have idle (u : State) (l : List Nat) : u.onlyIn (u.each l fun s p => s.sendIdle p) [.links, .out] :=
    State.each_onlyIn (fun v p => v.sendIdle_onlyIn p) u l
  have form : s.detach rejoin = State.each { s with twn := s.twn.detachedAt s.clock rejoin }
      (State.activePorts { s with twn := s.twn.detachedAt s.clock rejoin }) fun s p => s.sendIdle p :=
    if_neg (by simpa [State.printing] using quiet)
  rw [form]
  exact ⟨(idle _ _).same .twn, ((s.setTwn_onlyIn _).trans (idle _ _)).mono (by decide)⟩

/-- TWN.DISAGREE in STANDBY: counted, raised with its detail, and the follower detaches (R326, R327). -/
theorem State.disagree_standby (sound : s.sound) (standby : s.dev.dev = .standby) (why : Nat) :
    (s.disagree why).twn = s.twn.detachedAt s.clock true ∧ s.counted (s.disagree why) .TWN_DISAGREE_CNT ∧
      s.raised (s.disagree why) .twnDisagree 2 0xFF 0xFF 14 (BitVec.ofNat 32 why) ∧
      s.touches (s.disagree why) [.twn, .regs, .ltn, .links, .out] [Reg.TWN_DISAGREE_CNT.addr 0 0 0] := by
  let u := (s.count .TWN_DISAGREE_CNT).raise .twnDisagree (BitVec.ofNat 32 why)
  have quiet : u.printing = false := by
    show (s.dev.dev == .printing) = false
    rw [standby]
    rfl
  obtain ⟨twn, only⟩ := State.detach_idle quiet true
  have counts := (s.count_touches .TWN_DISAGREE_CNT 0 0 0 1).trans
    (State.raise_onlyIn (s.count .TWN_DISAGREE_CNT) .twnDisagree (BitVec.ofNat 32 why) 0xFF 0xFF none none).touches
  have raised : s.raised u .twnDisagree 2 0xFF 0xFF 14 (BitVec.ofNat 32 why) := rfl
  refine ⟨twn, ?_, State.raised_around raised rfl rfl (only.same .ltn), (counts.trans only.touches).mono (by decide) ?_⟩
  · exact (State.counted_count .TWN_DISAGREE_CNT 0 (State.sound_regs sound) (by decide) (by decide)).around rfl
      (only.get .TWN_DISAGREE_CNT 0 0 0)
  · simp [Fld.TWN_DISAGREE_CNT]

/-- A primary without changes under agreement and without an activity goes on alone (R327, R340). -/
theorem State.goAlone_idle (settled : s.twn.proposals = []) (idle : s.lmp.running = []) :
    s.goAlone = { s with twn := s.twn.alone } := by
  have decided : s.decideAlone = s := by
    unfold State.decideAlone
    rw [settled]
    rfl
  unfold State.goAlone State.dropCkpt
  rw [decided, State.actEnd_of_none (State.actFind_of_idle (by exact idle) 7 0)]
  rfl

theorem State.settleHeld_none (settled : s.twn.held = []) : s.settleHeld = s := by
  unfold State.settleHeld
  rw [settled]
  show { s with twn := { s.twn with held := [] } } = s
  rw [← settled]

/-- A follower of MIRROR or DUAL with no change held takes over: counted, raised with the mode, primary and unpaired (R339). -/
theorem State.takeOver_agreeing (sound : s.sound) (mode : 2 ≤ s.twinMode) (settled : s.twn.held = []) :
    s.takeOver.twn.pair = .unpaired ∧ s.takeOver.twn.role = .primary ∧ s.takeOver.twn.tookOver = some s.twn.role ∧
      s.counted s.takeOver .TWN_TAKEOVER_CNT ∧
      s.raised s.takeOver .twnTakeover 1 0xFF 0xFF 0 (BitVec.ofNat 32 s.twinMode) ∧
      s.touches s.takeOver [.regs, .ltn, .twn] [Reg.TWN_TAKEOVER_CNT.addr 0 0 0] := by
  let u := (s.count .TWN_TAKEOVER_CNT).raise .twnTakeover (BitVec.ofNat 32 s.twinMode)
  have form : s.takeOver = { u with twn := s.twn.leading s.clock } := by
    have other : s.twinMode ≠ 1 := by omega
    exact (if_neg other).trans (State.settleHeld_none (by exact settled))
  have counts := (s.count_touches .TWN_TAKEOVER_CNT 0 0 0 1).trans
    (State.raise_onlyIn (s.count .TWN_TAKEOVER_CNT) .twnTakeover (BitVec.ofNat 32 s.twinMode) 0xFF 0xFF none none).touches
  rw [form]
  refine ⟨rfl, rfl, rfl, ?_, rfl, (counts.trans (State.setTwn_onlyIn _ _).touches).mono (by decide) ?_⟩
  · exact State.counted_count .TWN_TAKEOVER_CNT 0 (State.sound_regs sound) (by decide) (by decide)
  · simp [Fld.TWN_TAKEOVER_CNT]

end

end Sys2Proof.Machine
end

section
/-! A checkpoint as it leaves the primary (R318, R335): its chunks on the one twin port that is ACTIVE, and the blocks stored RAW counted. -/

namespace Sys2Proof.Machine

section
variable {s : State} {raw : Bytes}

theorem chunkFrames_type {type id through : Nat} {b : Bytes} (small : type < 256) (chunk : raw ∈ chunkFrames type id through b) :
    byteAt raw 0 = type := by
  obtain ⟨i, -, rfl⟩ := List.mem_map.mp chunk
  show (BitVec.ofNat 8 type).toNat = type
  rw [BitVec.toNat_ofNat, Nat.mod_eq_of_lt small]

/-! ### The blocks stored RAW (R89) -/

/-- A counter that stays at its greatest value counts one more. -/
theorem min_add_succ (a n top : Nat) : min (min (a + n) top + 1) top = min (a + (n + 1)) top := by omega

/-- One block more is counted and raised. -/
theorem State.recordVerify_succ (s : State) (n : Nat) : ∃ x detail inst,
    s.recordVerify (n + 1) = { ((s.recordVerify n).count .STO_VERIFY_CNT).raise x detail inst with free := (s.recordVerify n).free + 1 } :=
  ⟨_, _, _, by rw [State.recordVerify, List.range_succ, State.each, List.foldl_append]; rfl⟩

theorem State.recordVerify_touches (s : State) (n : Nat) :
    s.touches (s.recordVerify n) [.regs, .ltn, .free] [Reg.STO_VERIFY_CNT.addr 0 0 0] := by
  refine State.each_touches (fun u _ => ?_) s (List.range n)
  have free (v : State) : v.touches { v with free := v.free + 1 } [.free] [] :=
    State.onlyIn.touches fun x => by cases x <;> simp [Part.same]
  exact (((u.count_touches .STO_VERIFY_CNT 0 0 0 1).trans (State.raise_onlyIn _ _ _ _ _ _ _).touches).trans (free _)).mono (by decide) (by simp [Fld.STO_VERIFY_CNT])

theorem State.recordVerify_count (sound : s.sound) (n : Nat) :
    (s.recordVerify n).get .STO_VERIFY_CNT = min (s.get .STO_VERIFY_CNT + n) 0xFFFFFFFF := by
  induction n with
  | zero =>
    have bound : s.get .STO_VERIFY_CNT < 2 ^ 32 := Nat.mod_lt _ (by decide)
    show s.get .STO_VERIFY_CNT = _
    omega
  | succ n ih =>
    obtain ⟨x, detail, inst, form⟩ := s.recordVerify_succ n
    have counted := State.counted_count .STO_VERIFY_CNT 0 (State.sound_regs (State.recordVerify_sound s n sound)) (by decide) (by decide)
    have next : (s.recordVerify (n + 1)).get .STO_VERIFY_CNT = ((s.recordVerify n).count .STO_VERIFY_CNT).get .STO_VERIFY_CNT :=
      (congrArg (fun u : State => u.get .STO_VERIFY_CNT) form).trans rfl
    have top : 2 ^ (Fld.STO_VERIFY_CNT.hi + 1 - Fld.STO_VERIFY_CNT.lo) - 1 = 0xFFFFFFFF := by decide
    unfold State.counted at counted
    rw [next, counted, ih, top]
    exact min_add_succ _ n _

theorem State.recordVerify_onlyIn (s : State) (n : Nat) :
    s.onlyIn (s.recordVerify n) (if n = 0 then [] else [.regs, .ltn, .free]) := by
  cases n with
  | zero => exact .refl s []
  | succ n => exact (s.recordVerify_touches (n + 1)).1

/-! ### The chunks -/

/-- With port 0 alone ACTIVE a control frame that does not go ahead of the others leaves there, or waits its turn. -/
theorem State.sendTwinFrame_first (first : s.twinActive 0 = true) (second : s.twinActive 1 = false)
    (type : byteAt raw 0 = 0x18) : s.sendTwinFrame raw = s.sendCtl 24 raw := by
  have control : isTwinControl raw = true := by simp [isTwinControl, type]
  have prompt : isPrompt raw = false := by simp [isPrompt, type]
  have active : (s.link 24).st = .active := by
    simpa [State.twinActive] using first
  rw [State.sendTwinFrame, first, second]
  show s.sendTwinPort 0 raw = _
  unfold State.sendTwinPort
  dsimp only
  rw [if_neg (by simp [control])]
  by_cases room : ((s.link 24).unacked.length < 4 && (s.link 24).queued.isEmpty) = true
  · exact if_pos room
  · rw [if_neg room, State.sendCtl_eq, if_neg (by simp_all)]
    have last : (fun l : Link => { l with queued := enqueueTwin l.queued raw }) = Link.waiting raw := by
      funext l
      simp [enqueueTwin, prompt, Link.waiting]
    rw [last]

theorem State.sendCtl_st (s : State) (p q : Nat) (raw : Bytes) : ((s.sendCtl p raw).link q).st = (s.link q).st := by
  have kept := congrArg (fun x => x.2.2.1) (s.transmitCtl_sending p raw (s.link p).ctlNext q)
  rw [State.sendCtl_eq]
  split
  · exact (State.link_updLink_proj _ p q (f := Link.underWay raw s.clock) Link.st fun _ => rfl).trans kept
  · exact State.link_updLink_proj s p q (f := Link.waiting raw) Link.st fun _ => rfl

theorem State.twinActive_sendCtl (s : State) (k p : Nat) (raw : Bytes) : (s.sendCtl p raw).twinActive k = s.twinActive k :=
  congrArg (fun st => decide (k < 2) && st == LinkState.active) (s.sendCtl_st p (24 + k) raw)

/-- With port 0 alone ACTIVE the chunks of a checkpoint leave there one behind the other. -/
theorem State.each_sendTwinFrame {l : List Bytes} (first : s.twinActive 0 = true) (second : s.twinActive 1 = false)
    (type : ∀ raw ∈ l, byteAt raw 0 = 0x18) : s.each l State.sendTwinFrame = s.each l fun s raw => s.sendCtl 24 raw := by
  induction l generalizing s with
  | nil => rfl
  | cons raw t ih =>
    obtain ⟨head, tail⟩ := List.forall_mem_cons.mp type
    show (s.sendTwinFrame raw).each t State.sendTwinFrame = (s.sendCtl 24 raw).each t _
    rw [State.sendTwinFrame_first first second head]
    exact ih ((s.twinActive_sendCtl 0 24 raw).trans first) ((s.twinActive_sendCtl 1 24 raw).trans second) tail

/-- A list of control frames of the pair leaves port 0 and changes nothing but its link and the outputs. -/
theorem State.each_sendCtl_twin {l : List Bytes} (s : State) (twin : ∀ raw ∈ l, 0x10 ≤ byteAt raw 0) :
    s.onlyIn (s.each l fun s raw => s.sendCtl 24 raw) [.links, .out] ∧
      ∀ q, q ≠ 24 → (s.each l fun s raw => s.sendCtl 24 raw).link q = s.link q := by
  induction l generalizing s with
  | nil => exact ⟨.refl s _, fun q _ => rfl⟩
  | cons raw t ih =>
    obtain ⟨head, tail⟩ := List.forall_mem_cons.mp twin
    obtain ⟨only, others⟩ := ih (s.sendCtl 24 raw) tail
    exact ⟨((State.sendCtl_onlyIn_narrow (endsNoBank_of_twin head) 24).trans only).mono (by decide),
      fun q other => (others q other).trans (s.sendCtl_link_ne raw other)⟩

/-- Chunks leave an idle port 0: four at once, and the others wait (R255, R335). -/
theorem State.each_sendTwinFrame_idle {l : List Bytes} (sound : s.sound) (open' : s.twinOpen) (idle : (s.link 24).unacked = [])
    (type : ∀ raw ∈ l, byteAt raw 0 = 0x18) :
    ((s.each l State.sendTwinFrame).link 24).unacked.map (·.frame) = l.take 4 ∧
      ((s.each l State.sendTwinFrame).link 24).queued = l.drop 4 ∧
      (∀ q, q ≠ 24 → (s.each l State.sendTwinFrame).link q = s.link q) ∧ s.onlyIn (s.each l State.sendTwinFrame) [.links, .out] := by
  obtain ⟨first, second, room, empty⟩ := open'
  have start : s.CtlRun 24 [] := ⟨sound, by decide, by simp [State.muted, State.active], by rw [idle]; rfl, empty⟩
  have run := start.each_sendCtl l
  obtain ⟨only, others⟩ := s.each_sendCtl_twin fun raw chunk => (by decide : 0x10 ≤ 0x18).trans_eq (type raw chunk).symm
  rw [List.nil_append] at run
  rw [State.each_sendTwinFrame first second type]
  exact ⟨run.unacked, run.queued, others, only⟩

/-- The twin block of a primary that sends a checkpoint (R335). -/
def Twin.checkpointing (b : CkptBody) (now : Instant) (x : Twin) : Twin :=
  { x with ckpt := { x.ckpt with building := some b, number := x.ckpt.number + 1, through := x.lastId, at' := now } }

/-- What the sending of a checkpoint does, in the order in which it does it. -/
theorem State.sendCkpt_eq (s : State) {b : CkptBody} (made : b = s.checkpoint s.epochLine (s.twn.ckpt.number + 1)) :
    s.sendCkpt = (State.recordVerify { s with twn := s.twn.checkpointing b s.clock }
      (CkptBody.mismatches b (s.get .STO_CTRL_mirror_effort))).sendTwin (.ckpt b s.twn.lastId) := by
  have kept (u : State) (n : Nat) : (u.recordVerify n).twn = u.twn := (u.recordVerify_touches n).1.same .twn
  subst made
  unfold State.sendCkpt
  simp only [kept]
  rfl

/-- A primary with an idle port 0 sends a checkpoint of its own (R335). -/
theorem State.sendCkpt_sends (sound : s.sound) (open' : s.twinOpen) (idle : (s.link 24).unacked = []) {b : CkptBody} {frames : List Bytes}
    {m : Nat} (made : b = s.checkpoint s.epochLine (s.twn.ckpt.number + 1))
    (chunks : frames = TwMsg.frames (.ckpt b s.twn.lastId) (s.get .STO_CTRL_mirror_effort))
    (raws : m = CkptBody.mismatches b (s.get .STO_CTRL_mirror_effort)) :
    s.sendCkpt.twn = s.twn.checkpointing b s.clock ∧ (s.sendCkpt.link 24).unacked.map (·.frame) = frames.take 4 ∧
      (s.sendCkpt.link 24).queued = frames.drop 4 ∧ (∀ q, q ≠ 24 → s.sendCkpt.link q = s.link q) ∧
      s.sendCkpt.get .STO_VERIFY_CNT = min (s.get .STO_VERIFY_CNT + m) 0xFFFFFFFF ∧
      s.regsOnlyAt s.sendCkpt [Reg.STO_VERIFY_CNT.addr 0 0 0] ∧
      s.onlyIn s.sendCkpt (.twn :: .links :: .out :: if m = 0 then [] else [.regs, .ltn, .free]) := by
  let u := State.recordVerify { s with twn := s.twn.checkpointing b s.clock } m
  have noted : State.sound { s with twn := s.twn.checkpointing b s.clock } := sound
  have touched : State.touches { s with twn := s.twn.checkpointing b s.clock } u _ _ := State.recordVerify_touches _ m
  have effort : u.get .STO_CTRL_mirror_effort = s.get .STO_CTRL_mirror_effort :=
    touched.2.get .STO_CTRL_mirror_effort 0 0 0 (by decide)
  have links : u.links = s.links := touched.1.same .links
  have same (q : Nat) : u.link q = s.link q := touched.1.link q
  have open'' : u.twinOpen := by
    unfold State.twinOpen State.twinActive State.link
    rw [links]
    exact open'
  obtain ⟨unacked, queued, others, only⟩ :=
    State.each_sendTwinFrame_idle (State.recordVerify_sound _ m noted) open'' ((congrArg Link.unacked (same 24)).trans idle)
      (l := frames) fun raw chunk => chunkFrames_type (by decide) (chunks ▸ chunk)
  have form : s.sendCkpt = u.each frames State.sendTwinFrame := by
    rw [s.sendCkpt_eq made, ← raws]
    show u.sendTwin _ = _
    unfold State.sendTwin
    rw [effort, ← chunks]
  rw [form]
  refine ⟨(only.same .twn).trans (touched.1.same .twn), unacked, queued, fun q other => (others q other).trans (same q), ?_, ?_, ?_⟩
  · exact (only.get .STO_VERIFY_CNT 0 0 0).trans (State.recordVerify_count noted m)
  · exact ((State.setTwn_onlyIn s _).touches.trans (touched.trans only.touches)).2
  · refine (((State.setTwn_onlyIn s _).trans (State.recordVerify_onlyIn _ m)).trans only).mono ?_
    split <;> decide

end

end Sys2Proof.Machine
end

section
/-! The obligation about the pair's checkpoints (R334, R335): refuted at a register write's traffic on the host's link. -/

namespace Sys2Proof.Machine

/-- CHECKPOINT_NOW on a primary in COLD sends a checkpoint where the matrix lets it run (R335). -/
theorem State.writeTwnCmd_ckpt {s : State} (reaches : s.reaches (Reg.TWN_CMD.addr 0 0 0) = true) (cold : s.coldPrimary = true)
    (up : s.dev.dev ≠ .held) (idle : s.lmp.running = []) : s.writeTwnCmd 4 =
      (s.traffic.actRun ⟨7, 0, .register, s.traffic.clock, false, none, [], 0, 0⟩).sendCkpt := by
  have starts (act : State → State) : s.traffic.registerStart (Reg.TWN_CMD.addr 0 0 0)
      ⟨7, 0, .register, s.traffic.clock, false, none, [], 0, 0⟩ act = act s.traffic := by
    unfold State.registerStart
    rw [State.verdict_idle (s := s.traffic) idle]
    rfl
  unfold State.writeTwnCmd
  dsimp only
  rw [State.gate_acts reaches (by simp [cold, up])]
  rw [if_pos (by decide), starts, show (4 : Word).getLsbD 0 = false by decide, show (4 : Word).getLsbD 1 = false by decide]
  simp only [Bool.false_and, Bool.false_eq_true, if_false]

/-- A primary PAIRED in COLD with twin port 0 ACTIVE, whose host's link rests in L1. -/
def resting : State :=
  let s := { State.reset with
    dev := { State.reset.dev with dev := .standby }
    hst := { State.reset.hst with l1 := true }
    twn := { State.reset.twn with pair := .paired, role := .primary } }
  (s.wr .TWN_CTRL (BitVec.ofNat 32 (2 ^ Fld.TWN_CTRL_mode.lo))).updLink 24 fun l => { l with st := .active }

theorem resting_sound : resting.sound :=
  State.updLink_sound _ _ _ (State.wr_sound _ _ _ _ _ _
    (State.sound_set_twn (State.sound_set_hst (State.sound_set_dev State.reset_sound) rfl)))

theorem resting_twinOpen : resting.twinOpen := by decide

/-- Refutes O34: its clause (6) leaves the whole host interface as it was at CHECKPOINT_NOW, while the write of TWN_CMD is traffic on the
host's link. In `resting` the link rests in L1, and the write wakes it (R348). -/
theorem not_checkpointCommandsComplete : ¬ Obligations.CheckpointCommandsComplete := by
  unfold Obligations.CheckpointCommandsComplete
  intro h
  obtain ⟨-, -, sends⟩ := h resting resting_sound rfl
  obtain ⟨t, ran, -, -, -, -, -, -, -, -, -, -, kept, -⟩ := sends .checkpointNow _ _ _ (by decide) resting_twinOpen (by decide)
    (.inl rfl) rfl rfl rfl rfl rfl (.inl rfl)
  let u := resting.traffic.actRun ⟨7, 0, .register, resting.traffic.clock, false, none, [], 0, 0⟩
  obtain ⟨-, -, -, -, -, -, only⟩ := State.sendCkpt_sends (s := u) (State.actRun_sound _ _ (State.traffic_sound _ resting_sound)) resting_twinOpen
    (by decide) rfl rfl rfl
  have leaves : t = u.sendCkpt := by
    have ran' : Host.Outcome.next (resting.writeTwnCmd 4) = .next t := ran
    rw [State.writeTwnCmd_ckpt (by decide) (by decide) (by decide) rfl] at ran'
    exact (Host.Outcome.next.inj ran').symm
  have awake : t.hst.l1 = false := by
    rw [leaves]
    exact (only.same .pcie (by split <;> decide)).1
  have asleep : t.hst.l1 = true := congrArg Host'.l1 (kept rfl)
  exact absurd (asleep.symm.trans awake) (by decide)

end Sys2Proof.Machine
end

section
/-! The obligation about the partner's life (R315, R318, R320, R324, R327, R336, R339, R340). -/

namespace Sys2Proof.Machine

/-! ### A heartbeat as it leaves (R318, R320, R324) -/

section
variable {type : Nat} (small : type < 256) (flags : Nat) (mid payload : Bytes) (seq : BitVec 32)
include small

/-- A payload field of a frame. -/
theorem leAt_finishFrame_payload {o n : Nat} (h : o + n ≤ payload.length) :
    leAt (finishFrame (rawFrame type flags mid payload) seq) (32 + o) n = leAt payload o n := by
  rw [finishFrame_raw small]
  unfold leAt
  rw [← List.drop_drop, List.drop_left' (withCrc_head_length type flags mid payload seq _)]
  exact leAt_append payload _ h

theorem byteAt_finishFrame_payload {o : Nat} (h : o < payload.length) :
    byteAt (finishFrame (rawFrame type flags mid payload) seq) (32 + o) = byteAt payload o := by
  have head := withCrc_head_length type flags mid payload seq (payloadCrc type payload)
  rw [finishFrame_raw small]
  unfold byteAt
  rw [List.getD_append_right _ _ _ _ (by omega), head, Nat.add_sub_cancel_left, List.getD_append _ _ _ _ h]

end

/-- The payload of a heartbeat. -/
def hbPayload (h : HbInfo) : Bytes :=
  [BitVec.ofNat 8 h.state, BitVec.ofNat 8 h.role, BitVec.ofNat 8 (h.held.toNat + 2 * h.ready.toNat + 4 * h.detached.toNat)]
    ++ lineBytes h.line ++ toLe 2 h.digest.toNat ++ List.replicate 6 0

/-- The one frame of a heartbeat. -/
def hbRaw (h : HbInfo) : Bytes := rawFrame 0x12 0 ([0, 0, 0, 0] ++ toLe 4 h.ack.toNat) (hbPayload h)

theorem hbPayload_length (h : HbInfo) : (hbPayload h).length = 16 := by
  simp [hbPayload, lineBytes, toLe_length]

/-- What a heartbeat says stands in its frame. -/
theorem hbRaw_fields (h : HbInfo) (state : h.state < 256) (role : h.role < 256) :
    let f := finishFrame (hbRaw h) 0
    byteAt f 0 = 0x12 ∧ leAt f 2 2 = 16 ∧ leAt f 4 4 = 0 ∧ leAt f 12 4 = h.ack.toNat ∧ byteAt f 32 = h.state ∧ byteAt f 33 = h.role ∧
      lineAt f 35 = h.line ∧ leAt f 40 2 = h.digest.toNat := by
  intro f
  have small : 0x12 < 256 := by decide
  have length := hbPayload_length h
  have bytes {o : Nat} (inside : o < 16) : byteAt f (32 + o) = byteAt (hbPayload h) o :=
    byteAt_finishFrame_payload small 0 _ (hbPayload h) 0 (by omega)
  have field {o n : Nat} (inside : o + n ≤ 16) : leAt f (32 + o) n = leAt (hbPayload h) o n :=
    leAt_finishFrame_payload small 0 _ (hbPayload h) 0 (by omega)
  have read (n v : Nat) (fits : v < 2 ^ (8 * n)) : le (toLe n v) = v := (le_toLe n v).trans (Nat.mod_eq_of_lt fits)
  refine ⟨finishFrame_type small .., (finishFrame_payloadLength small 0 _ (hbPayload h) 0 (by omega)).trans length,
    finishFrame_seq small .., ?_, ?_, ?_, ?_, ?_⟩
  · exact (finishFrame_mid small 0 _ (hbPayload h) 0 (o := 4) (by decide)).trans (read 4 _ h.ack.isLt)
  · exact (bytes (o := 0) (by decide)).trans ((BitVec.toNat_ofNat ..).trans (Nat.mod_eq_of_lt state))
  · exact (bytes (o := 1) (by decide)).trans ((BitVec.toNat_ofNat ..).trans (Nat.mod_eq_of_lt role))
  · have line : leAt f 35 5 = h.line.toNat := (field (o := 3) (by decide)).trans (read 5 _ h.line.isLt)
    rw [lineAt, line, BitVec.ofNat_toNat, BitVec.setWidth_eq]
  · exact (field (o := 8) (by decide)).trans (read 2 _ h.digest.isLt)

/-- HB_SEND sends this module's heartbeat, under no sequence number (R318, R320). -/
theorem exec_hbSend {s : State} {k : Nat} (active : s.twinActive k = true) :
    exec (.hbSend k) s = .next (s.sendFrame (24 + k) (finishFrame (hbRaw (s.heartbeat k)) 0)) := by
  have port : s.sendTwinPort k (hbRaw (s.heartbeat k)) = s.sendFrame (24 + k) (finishFrame (hbRaw (s.heartbeat k)) 0) := by
    unfold State.sendTwinPort
    exact if_pos rfl
  refine (if_pos active).trans ?_
  rw [← port]
  rfl

theorem State.sendFrame_link_proj {α : Type} (s : State) (p q : Nat) (frame : Bytes) (g : Link → α)
    (kept : ∀ l r, g (Link.scrambled r l) = g l := by exact fun _ _ => rfl) : g ((s.sendFrame p frame).link q) = g (s.link q) :=
  (State.link_updLink_proj _ p q g fun l => kept l _).trans (State.link_updLink_proj s p q g fun l => kept l _)

/-! ### A heartbeat as it is taken (R320, R324, R327) -/

/-- A link whose frames up to a number are acknowledged. -/
def Link.acked (ack : BitVec 32) (l : Link) : Link :=
  { l with ctlAck := some ack, unacked := l.unacked.filter fun f => !lineLe f.seq ack }

/-- The twin block behind a heartbeat. -/
def Twin.beaten (state : Nat) (now : Instant) (silent : Bool) (x : Twin) : Twin :=
  { x with hbAt := now, peerState := state, hbBroken := x.hbBroken && silent }

/-- What a heartbeat changes before it is judged: the heartbeat time, and the acknowledgement of its port. -/
def State.beaten (s : State) (k : Nat) (h : HbInfo) : State :=
  State.updLink { s with twn := s.twn.beaten h.state s.clock s.aliveSilent } (24 + k) (Link.acked h.ack)

theorem State.beaten_onlyIn (s : State) (k : Nat) (h : HbInfo) : s.onlyIn (s.beaten k h) [.twn, .links] :=
  ((s.setTwn_onlyIn _).trans (State.updLink_onlyIn _ _ _)).mono (by decide)

/-- What a PAIRED module does at a heartbeat that it has noted (R324, R327). -/
def State.judgedHb (s : State) (h : HbInfo) : State :=
  if s.follower then (if h.digest ≠ s.digest then s.disagree 3 else s) else if h.detached then s.goAlone else s

/-- A heartbeat on a PAIRED module without a checkpoint under way and without frames that wait: acknowledged, then judged. -/
theorem exec_hb_paired {s : State} {k : Nat} {f : Bytes} (heard : s.hears k 0x12 f) (paired : s.twn.pair = .paired)
    (empty : (s.link (24 + k)).queued = []) (settled : s.twn.ckpt.building = none) :
    exec (.hb k f) s = .next ((s.beaten k (readHb f)).judgedHb (readHb f)) := by
  have drained (n : Nat) : (s.beaten k (readHb f)).drainCtl (24 + k) n = s.beaten k (readHb f) :=
    State.drainCtl_none ((State.link_updLink_proj { s with twn := s.twn.beaten (readHb f).state s.clock s.aliveSilent } (24 + k) (24 + k)
      (f := Link.acked (readHb f).ack) Link.queued fun _ => rfl).trans empty) n
  have whole : (s.beaten k (readHb f)).ckptAcked = s.beaten k (readHb f) := by
    unfold State.ckptAcked
    rw [show (s.beaten k (readHb f)).twn.ckpt.building = none from settled]
  have acked : (State.ackCtl { s with twn := s.twn.beaten (readHb f).state s.clock s.aliveSilent } (24 + k) (readHb f).ack).ckptAcked =
      s.beaten k (readHb f) := (congrArg State.ckptAcked (drained 4)).trans whole
  have joined := (congrArg (fun u : State => u.twn.pair) acked).trans paired
  show Host.Outcome.next _ = _
  rw [State.takeTwin_message heard]
  refine congrArg Host.Outcome.next ?_
  unfold State.hearHb
  dsimp only
  split
  case h_1 => exact congrArg (fun u : State => u.judgedHb (readHb f)) acked
  case h_2 other => exact absurd (joined.symm.trans other) (by decide)
  case h_3 other _ => exact absurd joined other

theorem State.beaten_judged (s : State) (k : Nat) (h : HbInfo) : (s.beaten k h).follower = s.follower ∧
    (s.beaten k h).digest = s.digest := ⟨rfl, rfl⟩

theorem State.beaten_sound {s : State} (sound : s.sound) (k : Nat) (h : HbInfo) : (s.beaten k h).sound :=
  State.updLink_sound _ _ _ (State.sound_set_twn sound)

theorem State.beaten_link {s : State} (sound : s.sound) {k : Nat} (port : k < 2) (h : HbInfo) :
    (s.beaten k h).link (24 + k) = Link.acked h.ack (s.link (24 + k)) ∧ ∀ q, q ≠ 24 + k → (s.beaten k h).link q = s.link q := by
  refine ⟨State.link_updLink_same _ _ ?_, fun q other => State.link_updLink_ne _ _ other⟩
  show 24 + k < s.links.length
  rw [State.sound_links sound]
  omega

theorem DevState.code_lt (d : DevState) : d.code < 256 := by cases d <;> decide

theorem Role.code_lt (r : Role) : r.code < 256 := by cases r <;> decide

/-! ### The partner judged failed (R336, R339, R340) -/

/-- A follower that judges the primary failed takes over (R339). -/
theorem State.partnerFailed_follower {s : State} (follows : s.twn.role ≠ .primary) (silence : Bool) : s.partnerFailed silence = s.takeOver := by
  have other : (s.twn.role == .primary) = false := by simpa using follows
  unfold State.partnerFailed
  rw [other]
  rfl

/-- A primary whose partner is silent goes on alone (R340). -/
theorem State.partnerFailed_primary {s : State} (primary : s.twn.role = .primary) (settled : s.twn.proposals = [])
    (idle : s.lmp.running = []) : s.partnerFailed true = { s.raise .twnHeartbeat 2 with twn := s.twn.alone } := by
  unfold State.partnerFailed
  rw [primary]
  exact State.goAlone_idle (s := s.raise .twnHeartbeat 2) settled idle

/-- HB_SEND (R318, R320, R324). -/
theorem exec_hbSend_sends {s : State} (k : Nat) (active : s.twinActive k = true) :
    ∃ t raw frame lane block lane', exec (.hbSend k) s = .next t ∧ TwMsg.frames (.hb (s.heartbeat k)) 0 = [raw] ∧
      frame = finishFrame raw 0 ∧ t.out = s.out ++ [Output.linkFrame (24 + k) frame lane, Output.idle (24 + k) block lane'] ∧
      byteAt frame 0 = 0x12 ∧ leAt frame 2 2 = 16 ∧ leAt frame 4 4 = 0 ∧ leAt frame 12 4 = ((s.link (24 + k)).ctlExpected - 1).toNat ∧
      byteAt frame 32 = s.dev.dev.code ∧ byteAt frame 33 = s.twn.role.code ∧ lineAt frame 35 = s.highestAll ∧
      leAt frame 40 2 = s.digest.toNat ∧ (t.link (24 + k)).ctlNext = (s.link (24 + k)).ctlNext ∧
      (t.link (24 + k)).unacked = (s.link (24 + k)).unacked ∧ (∀ q, q ≠ 24 + k → t.link q = s.link q) ∧ s.onlyIn t [.links, .out] := by
  let frame := finishFrame (hbRaw (s.heartbeat k)) 0
  obtain ⟨lane, block, lane', out⟩ := s.sendFrame_out (24 + k) frame
  obtain ⟨type, length, seq, ack, dev, role, line, digest⟩ := hbRaw_fields (s.heartbeat k) (DevState.code_lt _) (Role.code_lt _)
  have single : TwMsg.frames (.hb (s.heartbeat k)) 0 = [hbRaw (s.heartbeat k)] := rfl
  have own : (s.heartbeat k).digest = s.digest := by simp only [State.heartbeat]
  rw [own] at digest
  exact ⟨_, hbRaw (s.heartbeat k), frame, lane, block, lane', exec_hbSend active, single, rfl, out, type, length, seq, ack, dev, role, line,
    digest, s.sendFrame_link_proj _ _ _ Link.ctlNext, s.sendFrame_link_proj _ _ _ Link.unacked,
    fun q other => s.sendFrame_link_ne _ other, s.sendFrame_onlyIn _ _⟩

section
variable {s : State} (sound : s.sound)
include sound

/-- HB on a PAIRED module (R320, R324, R327). -/
theorem exec_hb_judges (k : Nat) (f : Bytes) (h : HbInfo) (heard : s.hears k 0x12 f) (read : h = readHb f) (paired : s.twn.pair = .paired)
    (empty : (s.link (24 + k)).queued = []) (settled : s.twn.ckpt.building = none) :
    (s.follower = true ∧ h.digest = s.digest ∨ s.follower = false ∧ h.detached = false → ∃ t, exec (.hb k f) s = .next t ∧
      t.twn = { s.twn with hbAt := s.clock, peerState := h.state, hbBroken := s.twn.hbBroken && s.aliveSilent } ∧
      t.link (24 + k) = { s.link (24 + k) with ctlAck := some h.ack, unacked := (s.link (24 + k)).unacked.filter fun f => !lineLe f.seq h.ack } ∧
      (∀ q, q ≠ 24 + k → t.link q = s.link q) ∧ s.onlyIn t [.twn, .links]) ∧
    (h.digest ≠ s.digest → s.follower = true → s.dev.dev = .standby → ∃ t, exec (.hb k f) s = .next t ∧ t.twn.pair = .detached ∧
      t.twn.since = s.clock ∧ t.twn.role = s.twn.role ∧ s.counted t .TWN_DISAGREE_CNT ∧ s.raised t .twnDisagree 2 0xFF 0xFF 14 3 ∧
      s.regsOnlyAt t [Reg.TWN_DISAGREE_CNT.addr 0 0 0] ∧ s.onlyIn t [.twn, .regs, .ltn, .links, .out]) ∧
    (h.detached = true → s.follower = false → s.twn.proposals = [] → s.lmp.running = [] → ∃ t, exec (.hb k f) s = .next t ∧
      t.twn.pair = .unpaired ∧ t.twn.role = s.twn.role ∧ t.twn.joinLine = none ∧ s.onlyIn t [.twn, .links]) := by
  have runs := exec_hb_paired heard paired empty settled
  obtain ⟨role, digest⟩ := s.beaten_judged k h
  have only := s.beaten_onlyIn k h
  rw [← read] at runs
  refine ⟨fun quiet => ?agrees, fun other follows standby => ?disagrees, fun gone leads settled idle => ?alone⟩
  case agrees =>
    obtain ⟨link, others⟩ := State.beaten_link sound (State.twinPort_lt heard.1) h
    have keeps : (s.beaten k h).judgedHb h = s.beaten k h := by
      unfold State.judgedHb
      rw [role, digest]
      rcases quiet with ⟨follows, same⟩ | ⟨leads, stays⟩
      · simp [follows, same]
      · simp [leads, stays]
    exact ⟨_, runs.trans (congrArg Host.Outcome.next keeps), rfl, link, others, only⟩
  case disagrees =>
    have judged : (s.beaten k h).judgedHb h = (s.beaten k h).disagree 3 := by
      unfold State.judgedHb
      rw [role, digest, if_pos follows, if_pos other]
    obtain ⟨twn, counts, raises, touches⟩ := State.disagree_standby (s.beaten_sound sound k h) standby 3
    obtain ⟨parts, regs⟩ := only.touches.trans touches
    refine ⟨_, runs.trans (congrArg Host.Outcome.next judged), ?_, ?_, ?_, counts.around rfl rfl, raises, regs, parts.mono (by decide)⟩ <;>
      rw [twn] <;> rfl
  case alone =>
    have judged : (s.beaten k h).judgedHb h = { s.beaten k h with twn := (s.beaten k h).twn.alone } := by
      unfold State.judgedHb
      rw [role, if_neg (by simp [leads]), if_pos gone]
      exact State.goAlone_idle settled idle
    exact ⟨_, runs.trans (congrArg Host.Outcome.next judged), rfl, rfl, rfl, (only.trans (State.setTwn_onlyIn _ _)).mono (by decide)⟩

omit sound in
/-- PARTNER_TIMEOUT with both paths silent on a primary (R336, R340). -/
theorem exec_partnerTimeout_fails (paired : s.twn.pair = .paired) (hb : s.hbSilent = true) (alive : s.aliveSilent = true)
    (primary : s.twn.role = .primary) (settled : s.twn.proposals = []) (idle : s.lmp.running = []) :
    ∃ t, exec .partnerTimeout s = .next t ∧ t.twn.pair = .unpaired ∧ t.twn.role = .primary ∧ t.twn.joinLine = none ∧
      s.raised t .twnHeartbeat 2 0xFF 0xFF 0 2 ∧ s.onlyIn t [.twn, .ltn] := by
  have runs : exec .partnerTimeout s = .next (s.partnerFailed true) := by
    show execPartnerTimeout s = _
    simp [execPartnerTimeout, State.paired, paired, hb, alive]
  rw [State.partnerFailed_primary primary settled idle] at runs
  have raises := s.raise_onlyIn .twnHeartbeat 2 0xFF 0xFF none none
  exact ⟨_, runs, rfl, primary, rfl, rfl, (raises.trans (State.setTwn_onlyIn _ _)).mono (by decide)⟩

/-- PARTNER_TIMEOUT with one path silent (R336). -/
theorem exec_partnerTimeout_breaks (paired : s.twn.pair = .paired) (one : s.hbSilent ≠ s.aliveSilent) (whole : s.twn.hbBroken = false) :
    ∃ t, exec .partnerTimeout s = .next t ∧ t.twn = { s.twn with hbBroken := true } ∧ s.counted t .TWN_HB_MISS_CNT ∧
      s.raised t .twnHeartbeat 2 0xFF 0xFF 0 (if s.hbSilent then 0 else 1) ∧ s.regsOnlyAt t [Reg.TWN_HB_MISS_CNT.addr 0 0 0] ∧
      s.onlyIn t [.twn, .regs, .ltn] := by
  let u : State := { s with twn := { s.twn with hbBroken := true } }
  let t := (u.count .TWN_HB_MISS_CNT).raise .twnHeartbeat (if s.hbSilent then 0 else 1)
  have runs : exec .partnerTimeout s = .next t := by
    show execPartnerTimeout s = _
    cases hb : s.hbSilent <;> cases alive : s.aliveSilent <;> simp_all [execPartnerTimeout, State.paired, t, u]
  obtain ⟨parts, regs⟩ := ((s.setTwn_onlyIn { s.twn with hbBroken := true }).touches.trans
    ((u.count_touches .TWN_HB_MISS_CNT 0 0 0 1).trans
      (State.raise_onlyIn (u.count .TWN_HB_MISS_CNT) .twnHeartbeat (if s.hbSilent then 0 else 1) 0xFF 0xFF none none).touches)).mono
    (m := [.twn, .regs, .ltn]) (b := [Reg.TWN_HB_MISS_CNT.addr 0 0 0]) (by decide) (by simp [Fld.TWN_HB_MISS_CNT])
  refine ⟨t, runs, rfl, ?_, rfl, regs, parts⟩
  exact (State.counted_count (s := u) .TWN_HB_MISS_CNT 0 (State.sound_regs sound) (by decide) (by decide)).around rfl rfl

/-- GIVE of a failing partner on a MIRROR standby (R336, R339). -/
theorem exec_give_takesOver (k : Nat) (f : Bytes) (paired : s.twn.pair = .paired) (heard : s.hears k 0x1A f)
    (failed : byteAt (framePayload f) 0 ≠ 2) (mode : s.twinMode = 2) (standby : s.twn.role = .standby) (settled : s.twn.held = []) :
    ∃ t, exec (.give k f) s = .next t ∧ t.twn.pair = .unpaired ∧ t.twn.role = .primary ∧ t.twn.tookOver = some .standby ∧
      s.counted t .TWN_TAKEOVER_CNT ∧ s.raised t .twnTakeover 1 0xFF 0xFF 0 2 ∧ s.heard t k ∧
      s.regsOnlyAt t [Reg.TWN_TAKEOVER_CNT.addr 0 0 0] ∧ s.onlyIn t [.twn, .links, .regs, .ltn] := by
  let u : State := { s.ctlTaken k with twn := { s.twn with greeting := none } }
  have runs : exec (.give k f) s = .next u.takeOver := by
    refine congrArg Host.Outcome.next ((State.takeTwin_control heard _).trans ?_)
    have follows : u.twn.role ≠ .primary := by
      show s.twn.role ≠ _
      rw [standby]
      decide
    unfold State.hearGive
    rw [if_neg failed, ← State.partnerFailed_follower follows false]
    exact if_pos (by simp [State.paired, State.ctlTaken, paired])
  have small : 2 ≤ u.twinMode := mode.symm ▸ Nat.le_refl _
  obtain ⟨pair, role, former, counts, raises, touches⟩ :=
    State.takeOver_agreeing (s := u) (State.sound_set_twn (s.ctlTaken_sound sound k)) small settled
  have before : (s.ctlTaken k).onlyIn u [.twn] := State.setTwn_onlyIn _ _
  obtain ⟨heard', -⟩ := State.heard_of_onlyIn sound heard (before.trans touches.1)
  obtain ⟨parts, regs⟩ := ((s.ctlTaken_onlyIn k).trans before).touches.trans touches
  have code : BitVec.ofNat 32 u.twinMode = 2 := congrArg (BitVec.ofNat 32) mode
  rw [code] at raises
  exact ⟨_, runs, pair, role, former.trans (congrArg some standby), counts.around rfl rfl, raises, heard', regs, parts.mono (by decide)⟩

/-- ANNOUNCE_TIMEOUT on a DUAL secondary (R336, R339). -/
theorem exec_announceTimeout_takesOver (p : Nat) (a : Instant) (paired : s.twn.pair = .paired) (port : p < 24) (mode : s.twinMode = 3)
    (secondary : s.twn.role = .secondary) (settled : s.twn.held = []) (prints : s.dev.dev = .printing) (runs : (s.pipe p).running = true)
    (missing : s.twn.anns.any (fun a => a.port == p) = false) (opened : (s.pipe p).openSince = some a) (late : s.elapsed a 2500 = true)
    (silent : s.elapsed s.twn.aliveAt 2000 = true) :
    ∃ t, exec (.announceTimeout p) s = .next t ∧ t.twn.pair = .unpaired ∧ t.twn.role = .primary ∧ t.twn.tookOver = some .secondary ∧
      s.counted t .TWN_TAKEOVER_CNT ∧ s.raised t .twnTakeover 1 0xFF 0xFF 0 3 ∧
      s.regsOnlyAt t [Reg.TWN_TAKEOVER_CNT.addr 0 0 0] ∧ s.onlyIn t [.twn, .regs, .ltn] := by
  have acts : exec (.announceTimeout p) s = .next s.takeOver := by
    rw [← State.partnerFailed_follower (by rw [secondary]; decide) true]
    show execAnnounceTimeout p s = _
    simp [execAnnounceTimeout, State.paired, State.printing, paired, port, secondary, prints, runs, missing, opened, late, silent]
  obtain ⟨pair, role, former, counts, raises, parts, regs⟩ := State.takeOver_agreeing sound (by omega) settled
  rw [mode] at raises
  exact ⟨_, acts, pair, role, former.trans (congrArg some secondary), counts, raises, regs, parts.mono (by decide)⟩

end

/-- Settles O32, a lemma for each command; the edge and the toggle of TWIN_ALIVE each only replace fields of the twin block. -/
theorem partnerLifeCommandsComplete : Obligations.PartnerLifeCommandsComplete := by
  unfold Obligations.PartnerLifeCommandsComplete
  intro s sound
  refine ⟨exec_hbSend_sends, exec_hb_judges sound, ⟨_, rfl, rfl, s.setTwn_onlyIn _⟩, fun up => ⟨_, if_pos up, rfl, rfl, ?toggles⟩,
    fun held high => ?falls, fun paired => ⟨exec_partnerTimeout_fails paired,
      exec_partnerTimeout_breaks sound paired, fun k f heard => exec_give_takesOver sound k f paired heard,
      fun p a => exec_announceTimeout_takesOver sound p a paired⟩⟩
  case toggles => exact ((s.setTwn_onlyIn _).trans (State.emit_onlyIn _ _)).mono (by decide)
  case falls =>
    exact ⟨_, (if_neg (by simp [State.devIn, held])).trans (if_pos high), rfl, rfl,
      ((s.setTwn_onlyIn _).trans (State.emit_onlyIn _ _)).mono (by decide)⟩

end Sys2Proof.Machine
end

section
/-! The readiness of R41 is not in the links' control numbers: a frame taken on a twin port leaves it as it was. -/

namespace Sys2Proof.Machine

section
variable (s : State) (k : Nat)

/-! ### Geometry -/

theorem State.ctlTaken_heads : (s.ctlTaken k).heads = s.heads := by
  funext p
  exact congrArg (fun g : Option HeadGeom => g.getD ⟨8, 4, 4096⟩) (s.ctlTaken_link k p Link.geom)

theorem State.ctlTaken_nozzles : (s.ctlTaken k).nozzles = s.nozzles := by
  funext p
  unfold State.nozzles
  rw [s.ctlTaken_heads k]

theorem State.ctlTaken_delayUse : (s.ctlTaken k).delayUse = s.delayUse := by
  funext g p
  unfold State.delayUse
  rw [s.ctlTaken_heads k]

theorem State.ctlTaken_barHeads : (s.ctlTaken k).barHeads = s.barHeads := by
  funext g b
  unfold State.barHeads
  rw [s.ctlTaken_heads k]

theorem State.ctlTaken_oddDelay : (s.ctlTaken k).oddDelay = s.oddDelay := by
  funext g p
  unfold State.oddDelay
  rw [s.ctlTaken_heads k]

theorem State.ctlTaken_geomOk : (s.ctlTaken k).geomOk = s.geomOk := by
  unfold State.geomOk State.barGeomOk
  rw [s.ctlTaken_barHeads k, s.ctlTaken_delayUse k, s.ctlTaken_oddDelay k]
  rfl

/-! ### Readiness (R41) -/

theorem State.ctlTaken_active : (s.ctlTaken k).active = s.active := by
  funext p
  exact congrArg (fun st => decide (p < 24) && st == LinkState.active) (s.ctlTaken_link k p Link.st)

theorem State.ctlTaken_lineActive : (s.ctlTaken k).lineActive = s.lineActive := by
  funext p
  unfold State.lineActive State.tooShort
  rw [s.ctlTaken_active k, s.ctlTaken_link k p Link.laShort, s.ctlTaken_link k p Link.lmin]
  rfl

theorem State.ctlTaken_tMin : (s.ctlTaken k).tMin = s.tMin := by
  funext p
  unfold State.tMin State.practicalRate
  rw [s.ctlTaken_link k p Link.fireEff]

theorem State.ctlTaken_wickReady : (s.ctlTaken k).wickReady = s.wickReady := by
  funext p
  unfold State.wickReady State.wavePasses
  rw [s.ctlTaken_tMin k, s.ctlTaken_heads k, s.ctlTaken_link k p Link.version]
  rfl

theorem State.ctlTaken_geomAcked : (s.ctlTaken k).geomAcked = s.geomAcked := by
  funext p
  unfold State.geomAcked
  dsimp only
  rw [s.ctlTaken_link k p Link.geomSent, s.ctlTaken_link k p Link.unacked, s.ctlTaken_link k p Link.queued]

theorem State.ctlTaken_ready : (s.ctlTaken k).ready = s.ready := by
  have geom (p : Nat) := s.ctlTaken_link k p Link.geom
  unfold State.ready State.rdyTrn State.rdyMer State.rdyWck State.rdyGhl
  simp only [s.ctlTaken_lineActive k, s.ctlTaken_heads k, s.ctlTaken_nozzles k, s.ctlTaken_delayUse k, s.ctlTaken_geomOk k,
    s.ctlTaken_wickReady k, s.ctlTaken_geomAcked k, geom]
  rfl

end

end Sys2Proof.Machine
end

section
/-! The obligation about agreed changes (R328 to R331), refuted at a SEAL that is said to come from no ring of the block. -/

namespace Sys2Proof.Machine

/-- A SEAL proposed 1 ms ago and more, for a descriptor of ring 34,690; the block has rings 0 to 63. -/
def straySeal : Proposal := ⟨1, none, .seal 0, 0, some ⟨34690, 0, 4, 9, false, false, 0⟩, 0, none, false⟩

/-- HST_RING_CFG of a ring of that number would lie where TWN_ABORT_CNT lies. -/
theorem ringCfg_addr_straySeal : Reg.HST_RING_CFG.addr 34690 0 0 = Reg.TWN_ABORT_CNT.addr 0 0 0 := rfl

/-- The primary of a pair in MIRROR, twin port 0 ACTIVE, that has aborted 255 changes and waits for the vote on its SEAL. -/
def strayPrimary : State :=
  let s := { State.reset with
    sto := { State.reset.sto with sections := [(0, ⟨.opened, 0, 0, [], [], []⟩)] }
    twn := { State.reset.twn with pair := .paired, role := .primary, proposals := [straySeal] }
    tim := { State.reset.tim with laps := 1 } }
  ((s.wr .TWN_CTRL (BitVec.ofNat 32 (2 * 2 ^ Fld.TWN_CTRL_mode.lo))).wr .TWN_ABORT_CNT 255).updLink 24 fun l => { l with st := .active }

theorem strayPrimary_sound : strayPrimary.sound := by decide +kernel

theorem strayPrimary_cring : strayPrimary.cring 34690 = 0 := by
  show field (strayPrimary.regs.get _ (Reg.HST_RING_CFG.addr 34690 0 0)) 13 8 = 0
  rw [ringCfg_addr_straySeal]
  decide

/-- The 256th abort is counted before the descriptor completes: the count reads as COMPLETE ring 1, so that nothing waits for ring 0. -/
theorem strayPrimary_unanswered : Out.waiting 0 (exec .voteTimeout strayPrimary) = [] := by decide +kernel

/-- Refutes O33: its clause (6) takes a SEAL whose descriptor may name any number as its ring, and has the completion wait for the
COMPLETE ring that this ring named before the abort was counted. In `strayPrimary` the number is none of the block's 64, so that
`ringCfg_addr_straySeal` makes the ring's COMPLETE ring part of TWN_ABORT_CNT; it is 0 before, and no completion waits there. -/
theorem not_agreementCommandsComplete : ¬ Obligations.AgreementCommandsComplete := by
  unfold Obligations.AgreementCommandsComplete
  intro holds
  obtain ⟨-, primary⟩ := holds strayPrimary strayPrimary_sound rfl (by decide)
  obtain ⟨-, aborts⟩ := primary straySeal 0 _ _ rfl (by decide) rfl rfl rfl rfl rfl
  obtain ⟨t, ran, -, -, -, completes, -⟩ := aborts .voteTimeout (.inr ⟨rfl, by decide⟩)
  have lost : (t.ring 0).waiting = [] := by
    have := strayPrimary_unanswered
    rwa [ran] at this
  unfold State.completes at completes
  rw [show strayPrimary.cring (Ctx.ring ⟨34690, 0, 4, 9, false, false, 0⟩) = 0 from strayPrimary_cring, lost] at completes
  simp at completes

end Sys2Proof.Machine
end

section
/-! JOIN (R323): the lines at which the pipelines start, each from what it has passed. -/

namespace Sys2Proof.Machine

/-- The first line of a pipeline that starts from an agreed line: at or above it, and behind every line passed (R199, R422). -/
def State.agreedFirst (s : State) (line : Line) (passed : Option Line) : Line :=
  match passed with
  | some l => lineMax (s.evenUp line) (s.nextAfter l)
  | none => s.evenUp line

/-- From `s` to `t` the device enters PRINTING at an agreed line: it prints, every pipeline runs from its own first line, and no control
frame is taken (R323, R419). -/
structure State.EntersAgreed (s t : State) (line : Line) : Prop where
  dev : t.dev.dev = .printing
  twn : t.twn = { s.twn with entering := false }
  expected : ∀ q, (t.link q).ctlExpected = (s.link q).ctlExpected
  starts : ∀ p < 24, (t.pipe p).running = true ∧ (t.pipe p).first = some (s.agreedFirst line (s.pipe p).passed)

/-- Whether lines are even is in MER_CTRL alone (R200). -/
theorem State.agreedFirst_congr {s t : State} (same : t.rd .MER_CTRL = s.rd .MER_CTRL) (line : Line) (passed : Option Line) :
    t.agreedFirst line passed = s.agreedFirst line passed := by
  unfold State.agreedFirst State.nextAfter State.evenUp State.lpi600 State.on
  rw [show t.get .MER_CTRL_lpi600 = s.get .MER_CTRL_lpi600 from congrArg (fun w => field w _ _) same]

theorem merCtrl_ne_nocLost (p : Nat) : Reg.MER_CTRL.addr 0 0 0 ≠ Reg.TRN_NOC_LOST_CNT.addr p 0 0 := by
  simp only [Reg.addr, Reg.MER_CTRL, Reg.TRN_NOC_LOST_CNT]
  omega

section
variable {s : State}

/-! ### What a starting pipeline keeps -/

theorem State.prime_pipe_proj {α : Type} (s : State) (p q : Nat) (f : Line) (g : Pipe → α)
    (dec : ∀ x d, g { x with dec := d } = g x := by exact fun _ _ => rfl)
    (delay : ∀ x d, g { x with delay := d } = g x := by exact fun _ _ => rfl) : g ((s.prime p f).pipe q) = g (s.pipe q) :=
  State.each_same (fun s => g (s.pipe q))
    (by exact fun s l => (State.pipe_updPipe_proj _ p q g fun x => delay x _).trans (s.screened_pipe_proj p q (s.screen p l (s.pipe p).dec) g dec))
    s _

theorem State.badStrips_touches (s : State) (p : Nat) (l : List (Nat × Nat × Nat)) :
    s.touches (s.badStrips p l) [.regs, .ltn] [Reg.STO_BADSTREAM_CNT.addr 0 0 0] :=
  State.each_touches (fun s _ => ((s.count_touches .STO_BADSTREAM_CNT 0 0 0 1).trans (State.raise_onlyIn _ _ _ _ _ _ _).touches).mono
    (by decide) (by simp [Fld.STO_BADSTREAM_CNT])) s l

theorem State.prime_touches (s : State) (p : Nat) (f : Line) : s.touches (s.prime p f) [.regs, .ltn, .pipes]
    [Reg.STO_BADSTREAM_CNT.addr 0 0 0, Reg.TRN_NOC_LOST_CNT.addr p 0 0] :=
  State.each_touches (fun s _ => ((((s.badStrips_touches p _).trans (State.count_touches _ .TRN_NOC_LOST_CNT p 0 0 _)).trans
    (State.updPipe_onlyIn _ p _).touches).trans (State.updPipe_onlyIn _ p _).touches).mono (by decide) (by simp [Fld.TRN_NOC_LOST_CNT])) s _

/-- A pipeline that starts counts its seek, and what its priming loses. -/
theorem State.startPipe_regs (s : State) (e : Option Line) (p : Nat) : s.regsOnlyAt (s.startPipe e p)
    [Reg.STO_SEEK_CNT.addr 0 0 0, Reg.STO_BADSTREAM_CNT.addr 0 0 0, Reg.TRN_NOC_LOST_CNT.addr p 0 0] :=
  (((((State.touches_if _ (s.count_touches .STO_SEEK_CNT 0 0 0 1)).trans (State.updPipe_onlyIn _ p _).touches).trans
    (State.prime_touches _ p _)).trans ((State.updLink_onlyIn _ p _).touches.trans
      (State.touches_if _ (State.raise_onlyIn _ _ _ _ _ _ _).touches))).mono
    (m := [.regs, .ltn, .pipes, .links]) (by decide) (by simp [Fld.STO_SEEK_CNT])).2

theorem State.startPipe_merCtrl (s : State) (e : Option Line) (p : Nat) : (s.startPipe e p).rd .MER_CTRL = s.rd .MER_CTRL :=
  (s.startPipe_regs e p).rd .MER_CTRL 0 0 0 (by
    simp only [List.mem_cons, List.not_mem_nil, or_false, merCtrl_ne_nocLost]
    decide)

theorem State.startPipe_passed (s : State) (e : Option Line) (p q : Nat) : ((s.startPipe e p).pipe q).passed = (s.pipe q).passed := by
  refine (congrArg Pipe.passed (State.checked_pipe _ p q _ _)).trans ((State.prime_pipe_proj _ p q _ Pipe.passed).trans ?_)
  exact (State.pipe_updPipe_proj _ p q Pipe.passed).trans (congrArg (fun l : List Pipe => (l.getD q Pipe.reset).passed) (s.seeked_pipes _))

theorem State.startPipe_first_same (line : Line) {p : Nat} (h : p < s.pipes.length) :
    ((s.startPipe (some line) p).pipe p).first = some (s.agreedFirst line (s.pipe p).passed) := by
  refine (congrArg Pipe.first (State.checked_pipe _ p p _ _)).trans ((State.prime_pipe_proj _ p p _ Pipe.first).trans ?_)
  rw [State.pipe_updPipe_same]
  · rfl
  · rwa [State.seeked_pipes]

theorem State.startPipe_first_ne (s : State) (e : Option Line) {p q : Nat} (h : q ≠ p) :
    ((s.startPipe e p).pipe q).first = (s.pipe q).first := by
  refine (congrArg Pipe.first (State.checked_pipe _ p q _ _)).trans ((State.prime_pipe_proj _ p q _ Pipe.first).trans ?_)
  rw [State.pipe_updPipe_ne _ _ h]
  exact congrArg (fun l : List Pipe => (l.getD q Pipe.reset).first) (s.seeked_pipes _)

/-- Every pipeline starts at its own first line. -/
theorem State.startPipes_first (sound : s.sound) (line : Line) {p : Nat} (hp : p < 24) :
    ((s.each (List.range 24) fun s p => s.startPipe (some line) p).pipe p).first = some (s.agreedFirst line (s.pipe p).passed) := by
  refine State.each_makes (I := fun u => u.sound ∧ u.rd .MER_CTRL = s.rd .MER_CTRL ∧ ∀ q, (u.pipe q).passed = (s.pipe q).passed)
    (Q := fun p u => p < 24 → (u.pipe p).first = some (s.agreedFirst line (s.pipe p).passed))
    ?inv ?makes ?keeps _ ⟨sound, rfl, fun _ => rfl⟩ (.inl (List.mem_range.mpr hp)) hp
  case inv =>
    rintro u i ⟨good, even, passed⟩
    exact ⟨State.startPipe_sound u (some line) i good, (u.startPipe_merCtrl (some line) i).trans even,
      fun q => (u.startPipe_passed (some line) i q).trans (passed q)⟩
  case makes =>
    rintro u i ⟨good, even, passed⟩ inside
    rw [State.startPipe_first_same line ((State.sound_pipes good).symm ▸ inside), passed, State.agreedFirst_congr even]
  case keeps =>
    rintro u i j ⟨good, even, passed⟩ had inside
    by_cases same : j = i
    · subst same
      rw [State.startPipe_first_same line ((State.sound_pipes good).symm ▸ inside), passed, State.agreedFirst_congr even]
    · rw [State.startPipe_first_ne u (some line) same]
      exact had inside

theorem State.startPipe_ctlExpected (s : State) (e : Option Line) (p q : Nat) :
    ((s.startPipe e p).link q).ctlExpected = (s.link q).ctlExpected := by
  have raised (u : State) (g : Link → Link) (short : Bool) :
      (if short then (u.updLink p g).raise .ghlDown 0x100 p else u.updLink p g).link q = (u.updLink p g).link q := by split <;> rfl
  have seeked (c : Bool) : s.onlyIn (if c then s.count .STO_SEEK_CNT else s) [.regs] :=
    State.onlyIn_if _ (s.count_touches .STO_SEEK_CNT 0 0 0 1).1
  refine (congrArg Link.ctlExpected (raised _ _ _)).trans ((State.link_updLink_proj _ p q Link.ctlExpected).trans ?_)
  exact congrArg Link.ctlExpected ((((seeked _).trans (State.updPipe_onlyIn _ p _)).trans (State.prime_onlyIn _ p _)).link q)

theorem State.enterPrinting_agreed (sound : s.sound) (outside : s.dev.dev ≠ .printing) (line : Line) :
    s.EntersAgreed (s.enterPrinting (some line)) line := by
  obtain ⟨dev, runs, -, twn, -, -⟩ := State.enterPrinting_enters (some line) sound outside
  let w : State := { s with twn := { s.twn with entering := false } }
  let u := w.each (List.range 24) fun s p => s.startPipe (some line) p
  have devU : u.dev.dev ≠ .printing := by
    have same : u.dev = w.dev := (State.each_onlyIn (fun s p => s.startPipe_onlyIn (some line) p) w (List.range 24)).same .dev
    rw [same]
    exact outside
  have behind : u.onlyIn (s.enterPrinting (some line)) [.dev, .hst, .regs, .pcie, .out, .drm] :=
    (State.enter_printing_onlyIn devU).trans (State.wakeDram_onlyIn _)
  refine ⟨by rw [dev], twn, fun q => ?_, fun p hp => ⟨(runs p hp).1, ?_⟩⟩
  · rw [behind.link q]
    exact State.each_same (fun s => (s.link q).ctlExpected) (by exact fun s p => s.startPipe_ctlExpected (some line) p q) w _
  · rw [behind.pipe p]
    exact State.startPipes_first (s := w) (State.sound_set_twn sound) line hp

/-! ### JOIN is taken (R41, R323) -/

/-- The twin block of a module that is PAIRED from a join line on. -/
def Twin.joined (line : Line) (x : Twin) : Twin :=
  { x with joinShown := line, pair := .paired, step := 8, joining := false, before := none, kept := none, joinLine := some line,
           tookOver := none }

theorem State.becomePaired_joined (agrees : s.twinMode ≠ 1) (line : Line) :
    s.becomePaired (some line) = { s with twn := s.twn.joined line } := by
  have other : (s.twinMode == 1) = false := by simpa using agrees
  refine if_neg ?_
  show ¬ (State.follower _ && s.twinMode == 1) = true
  simp [other]

/-- A joining module in MIRROR or DUAL takes JOIN. -/
theorem State.hearJoin_eq (pairing : s.twn.pair = .pairing) (joining : s.twn.joining = true) (last : s.twn.step = 7)
    (agrees : s.twinMode ≠ 1) (line : Line) : s.hearJoin line =
      if s.twn.peerState = 3 ∧ s.dev.dev == .standby ∧ s.ready then State.enterPrinting { s with twn := s.twn.joined line } (some line)
      else { s with twn := s.twn.joined line } := by
  unfold State.hearJoin
  rw [if_pos (by simp [pairing, joining, last]), State.becomePaired_joined agrees]
  rfl

/-- JOIN (R323). -/
theorem exec_join_pairs (sound : s.sound) (standby : s.dev.dev = .standby) (k : Nat) (f : Bytes) (line : Line)
    (pairing : s.twn.pair = .pairing) (joining : s.twn.joining = true) (last : s.twn.step = 7) (agrees : s.twinMode ≠ 1)
    (heard : s.hears k 0x1B f) (named : line = lineAt (framePayload f) 0) :
    ∃ t, exec (.join k f) s = .next t ∧ t.twn.pair = .paired ∧ t.twn.joinLine = some line ∧ t.twn.joinShown = line ∧
      t.twn.role = s.twn.role ∧ (s.twn.peerState ≠ 3 → s.heard t k ∧ s.onlyIn t [.twn, .links]) ∧
      (s.twn.peerState = 3 → s.ready = true → t.dev.dev = .printing ∧
        (t.link (24 + k)).ctlExpected = (s.link (24 + k)).ctlExpected + 1 ∧
        ∀ p < 24, (t.pipe p).running = true ∧ (t.pipe p).first = some (match (s.pipe p).passed with
          | some l => lineMax (s.evenUp line) (s.nextAfter l)
          | none => s.evenUp line)) := by
  let v := s.ctlTaken k
  let u : State := { v with twn := s.twn.joined line }
  have runs : exec (.join k f) s = .next (if s.twn.peerState = 3 ∧ s.dev.dev == .standby ∧ s.ready then u.enterPrinting (some line) else u) := by
    refine congrArg Host.Outcome.next ((State.takeTwin_control heard _).trans ?_)
    rw [← named, State.hearJoin_eq (s := s.ctlTaken k) pairing joining last agrees line, s.ctlTaken_ready k]
    rfl
  have joins : v.onlyIn u [.twn] := State.setTwn_onlyIn _ _
  by_cases prints : s.twn.peerState = 3 ∧ s.dev.dev == .standby ∧ s.ready
  · obtain ⟨dev, twn, expected, starts⟩ := State.enterPrinting_agreed (s := u) (State.sound_set_twn (s.ctlTaken_sound sound k) fun _ => Twin.fit_of_none rfl)
      (by show s.dev.dev ≠ _; rw [standby]; decide) line
    have taken : (s.ctlTaken k).link (24 + k) = Link.ctlTaken (s.link (24 + k)) := s.link_updLink_same _ (by
      rw [State.sound_links sound]
      have := State.twinPort_lt heard.1
      omega)
    rw [if_pos prints] at runs
    refine ⟨_, runs, by rw [twn]; rfl, by rw [twn]; rfl, by rw [twn]; rfl, by rw [twn]; rfl, fun quiet => absurd prints.1 quiet,
      fun _ _ => ⟨dev, (expected _).trans (congrArg Link.ctlExpected taken), fun p hp => ?_⟩⟩
    exact starts p hp
  · rw [if_neg prints] at runs
    refine ⟨u, runs, rfl, rfl, rfl, rfl, fun _ => ?_, fun printing ready => absurd ⟨printing, by simp [standby], ready⟩ prints⟩
    obtain ⟨heard', only⟩ := State.heard_of_onlyIn sound heard joins
    exact ⟨heard', only.mono (by decide)⟩

end

end Sys2Proof.Machine
end

section
/-! How pairing starts and fails (R311, R322 to R324, R345). -/

namespace Sys2Proof.Machine

section
variable {s : State}

/-! ### Pairing starts (R323) -/

/-- The twin block of a module that starts to pair. -/
def Twin.pairing (now : Instant) (x : Twin) : Twin :=
  { x with
    pair := .pairing, step := 1, since := now, joining := false, prior := x.role, before := none, index := none,
    peerIndex := none, joinLine := none, noRejoin := false, seen := [], unvoted := [], held := [], anns := [], staged := [], chunks := [],
    waiting := x.waiting.filter fun f => byteAt f 0 == 0x1A, hbAt := now, aliveAt := now,
    kept := some ⟨x.ckpt, x.ckptLine, x.peers⟩,
    ckpt := { x.ckpt with journal := [], journalBytes := 0, building := none } }

/-- With no twin port ACTIVE, pairing starts at step 1. -/
theorem State.beginPair_silent (first : s.twinActive 0 = false) (second : s.twinActive 1 = false) :
    s.beginPair = { s with twn := s.twn.pairing s.clock } := by
  have starts : s.startPair = { s with twn := s.twn.pairing s.clock } := by
    refine if_neg ?_
    show ¬ (s.twinActive 0 || s.twinActive 1) = true
    simp [first, second]
  unfold State.beginPair
  dsimp only
  rw [starts]
  show (match s.twn.greeting with
    | some h => if (1 : Nat) = 2 then _ else _
    | none => _) = _
  cases s.twn.greeting <;> rfl

/-- A command of TWN_CMD that pairs or unpairs acts behind the traffic of its write (R345). -/
theorem State.writeTwnCmd_pair (reaches : s.reaches (Reg.TWN_CMD.addr 0 0 0) = true) (standby : s.dev.dev = .standby)
    (free : s.twn.pair = .unpaired ∨ s.twn.pair = .detached) : s.writeTwnCmd 1 = s.traffic.beginPair := by
  have pairs : (s.traffic.twn.pair == .unpaired || s.traffic.twn.pair == .detached) = true := by
    show (s.twn.pair == .unpaired || s.twn.pair == .detached) = true
    rcases free with h | h <;> simp [h]
  unfold State.writeTwnCmd
  dsimp only
  rw [State.gate_acts reaches (by simp [State.notStandby, standby]), if_neg (by decide),
    show (1 : Word).getLsbD 0 = true by decide, show (1 : Word).getLsbD 1 = false by decide]
  simp only [Bool.false_eq_true, if_false, Bool.true_and, pairs, if_true]

theorem State.writeTwnCmd_unpair (reaches : s.reaches (Reg.TWN_CMD.addr 0 0 0) = true) : s.writeTwnCmd 2 =
    (if s.traffic.paired || s.traffic.twn.pair == .pairing then s.traffic.endPair.sendTwin (.give 2) else s.traffic.endPair) := by
  unfold State.writeTwnCmd
  dsimp only
  rw [State.gate_acts reaches (by simp), if_neg (by decide),
    show (2 : Word).getLsbD 0 = false by decide, show (2 : Word).getLsbD 1 = true by decide]
  simp only [Bool.false_and, Bool.false_eq_true, if_false, if_true]

end

end Sys2Proof.Machine
end

section
/-! What a joining module had is put back (R323): its ports go down and its waves are placed again, and nothing of that touches the units that
`undoJoin` has restored. -/

namespace Sys2Proof.Machine

/-- What a port's going down and a wave's placing leave alone: the device state, the loads that wait, timing, the display, the Almanac, the
raster store, Meridian, the loop, and of the twin block what was before the pairing. -/
def State.lasting (s : State) :
    (Device × List WaitLoad × TimeBlock × Eyepiece) × Almanac × Store × Meridian × Photometer × Role × Option Kept × Word :=
  ((s.dev, s.waits, s.tim, s.eye), s.alm, s.sto, s.mer, s.pho, s.twn.prior, s.twn.kept, s.twn.ckpt.number)

section
variable (s : State) (p : Nat)

@[simp] theorem State.updLink_lasting (f : Link → Link) : (s.updLink p f).lasting = s.lasting := rfl

@[simp] theorem State.updWick_lasting (f : WickPort → WickPort) : (s.updWick p f).lasting = s.lasting := rfl

@[simp] theorem State.emit_lasting (o : Output) : (s.emit o).lasting = s.lasting := rfl

@[simp] theorem State.resetXing_lasting (x : Nat) : (s.resetXing x).lasting = s.lasting := rfl

theorem State.wr_lasting (r : Reg) (v : Word) (i : Nat) : (s.wr r v i).lasting = s.lasting := rfl

theorem State.set_lasting (f : Fld) (v i : Nat) : (s.set f v i).lasting = s.lasting := s.wr_lasting _ _ i

theorem State.lasting_if {s t : State} (c : Prop) [Decidable c] (h : t.lasting = s.lasting) : (if c then t else s).lasting = s.lasting := by
  split
  · exact h
  · rfl

/-! ### Frames that go to the other twin port (R338) -/

theorem State.sendCtl_lasting (raw : Bytes) : (s.sendCtl p raw).lasting = s.lasting := by
  obtain ⟨f, frame, g, w, eq, -⟩ := s.transmitCtl_form p raw (s.link p).ctlNext
  rw [State.sendCtl_eq]
  split
  · simp [eq, State.sendFrame, State.sendIdle]
  · simp

theorem State.sendTwinPort_lasting (k : Nat) (raw : Bytes) : (s.sendTwinPort k raw).lasting = s.lasting := by
  unfold State.sendTwinPort
  dsimp only
  split
  · simp [State.sendFrame, State.sendIdle]
  · split
    · exact s.sendCtl_lasting _ raw
    · simp

theorem State.sendTwinFrame_lasting (raw : Bytes) : (s.sendTwinFrame raw).lasting = s.lasting := by
  unfold State.sendTwinFrame
  split
  · split <;> rfl
  · exact s.sendTwinPort_lasting 0 raw
  · exact s.sendTwinPort_lasting 1 raw
  · split
    · exact (State.sendTwinPort_lasting _ 1 raw).trans (s.sendTwinPort_lasting 0 raw)
    · exact State.sendTwinPort_lasting _ _ raw

theorem State.twinPortLost_lasting : (s.twinPortLost p).lasting = s.lasting := by
  unfold State.twinPortLost
  dsimp only
  split
  · rfl
  · exact State.each_same State.lasting (fun u raw => u.sendTwinFrame_lasting raw) _ _

/-! ### What ends with a port (R157, R435) -/

theorem State.completeOpt_lasting (c : Option Ctx) (st : Status) : (s.completeOpt c st).lasting = s.lasting := by
  cases c with
  | none => rfl
  | some c =>
    show (s.complete c st).lasting = _
    rw [State.complete_eq_withHst]
    rfl

theorem State.actEnd_lasting (code target : Nat) (st : Status) : (s.actEnd code target st).lasting = s.lasting := by
  unfold State.actEnd
  split
  · rfl
  · unfold State.actReport
    split
    · rw [State.complete_eq_withHst]
      rfl
    · rfl

theorem State.leaveActive_lasting : (s.leaveActive p).lasting = s.lasting := by
  have drops : (s.dropBank p).lasting = s.lasting := by
    unfold State.dropBank
    split
    · rfl
    · dsimp only
      split
      · exact State.completeOpt_lasting _ _ _
      · rfl
      · exact State.actEnd_lasting _ _ _ _
  refine State.lasting_if _ ?_
  exact (State.actEnd_lasting (s.dropBank p) 5 p .link).trans drops

theorem State.irq_lasting (x : IrqSrc) (bit : Nat) : (s.irq x bit).lasting = s.lasting := by
  have sends (u : State) (vec : Nat) (c : Option IrqSrc) : (u.msix vec c).lasting = u.lasting := by
    unfold State.msix
    split
    · rfl
    · split <;> rfl
  unfold State.irq
  dsimp only
  split
  · exact sends _ _ _
  · rfl

theorem State.portDown_lasting (reason : Nat) : (s.portDown p reason false).lasting = s.lasting := by
  have leaves : ((s.leaveActive p).twinPortLost p).lasting = s.lasting := (State.twinPortLost_lasting _ p).trans (s.leaveActive_lasting p)
  have ends (u : State) : (u.endBusy p).lasting = u.lasting := State.lasting_if _ (State.irq_lasting _ _ _)
  have down (u : State) (h : u.lasting = s.lasting) : (if isHead p then (u.endBusy p).actEnd 4 p .link else u).lasting = s.lasting :=
    (State.lasting_if _ ((State.actEnd_lasting (u.endBusy p) 4 p .link).trans (ends u))).trans h
  have low (f : Link → Link) :
      (((((s.leaveActive p).twinPortLost p).updLink p f).emit (.electricalIdle p)).resetXing p).lasting = s.lasting := by simp [leaves]
  unfold State.portDown
  simp only [Bool.false_and, Bool.false_eq_true, if_false]
  exact down _ (low _)

/-! ### A wave in force (R137, R158) -/

theorem State.headRaises_lasting (h : Nat) (temp : BitVec 16) (e : HeadEvents) (d : Word) : (s.headRaises p h temp e d).lasting = s.lasting := by
  have raises (u : State) (c : Bool) (x : Src) (d : Word) : (if c then u.raise x d p h else u).lasting = u.lasting := State.lasting_if _ rfl
  have counts (u : State) (c : Bool) : (if c then u.count .WCK_HOT_RECOVER_CNT p else u).lasting = u.lasting := State.lasting_if _ rfl
  exact (counts _ _).trans ((raises _ _ _ _).trans ((raises _ _ _ _).trans (raises _ _ _ _)))

theorem State.waveInForce_lasting (body : Bytes) (since : Line) (loaded : Bool) :
    (s.waveInForce p body since loaded).lasting = s.lasting :=
  State.each_same State.lasting (by exact fun u h => State.headRaises_lasting _ p h _ _ _) _ _

theorem State.placeWave_lasting (body : Bytes) (e : Line) (now loaded : Bool) : (s.placeWave p body e now loaded).lasting = s.lasting := by
  unfold State.placeWave
  dsimp only
  split
  · split
    · exact State.waveInForce_lasting _ p body e loaded
    · split <;> exact State.waveInForce_lasting _ p body e loaded
  · split
    · rfl
    · split <;> rfl

end

/-! ### What a joining module had (R323) -/

section
variable {s : State}

/-- What is put back lies in the state that the ports' going down leaves alone; the position moves back last. -/
theorem State.undoJoin_puts (s : State) (b : Before) : ∃ u : State, s.undoJoin b = u.loadPos (u.mer.pos - b.shift) ∧ u.lasting =
    ((s.dev, s.waits, s.tim, s.eye), s.alm, b.sto, { s.mer with geom := b.geom },
      { s.pho with loop := { s.pho.loop with gref := b.gref, delta := b.delta, base := b.base } }, s.twn.prior, s.twn.kept,
      s.twn.ckpt.number) := by
  refine ⟨_, rfl, ?_⟩
  refine (State.each_same State.lasting ?ports _ _).trans ((State.each_same State.lasting ?seqs _ _).trans
    ((State.each_same State.lasting ?settings _ _).trans (State.each_same State.lasting ?waves _ _)))
  case ports =>
    rintro u ⟨was, p⟩
    dsimp only
    split
    · rfl
    · exact (State.portDown_lasting _ p 1).trans (u.set_lasting _ _ p)
  case seqs =>
    rintro u ⟨⟨q, l⟩, p⟩
    rfl
  case settings =>
    rintro u ⟨⟨r, i⟩, v⟩
    exact u.wr_lasting r v i
  case waves =>
    rintro u ⟨⟨body, loaded⟩, p⟩
    dsimp only
    split
    · rfl
    · exact u.placeWave_lasting p body _ true loaded

end

end Sys2Proof.Machine
end

section
/-! The obligation about pairing (R311, R322 to R324, R345), a theorem for each command. -/

namespace Sys2Proof.Machine

/-! ### Pairing fails (R323) -/

/-- The twin block of a module whose pairing has failed with a reason. -/
def Twin.failed (reason : Nat) (x : Twin) : Twin :=
  { x with pair := .unpaired, role := x.prior, step := 0, joining := false, before := none, fail := reason, version := 0,
           staged := [], held := [], unvoted := [], chunks := [], waiting := [], kept := none, greeting := none,
           ckpt := { (x.kept.getD ⟨x.ckpt, x.ckptLine, x.peers⟩).ckpt with building := none, number := x.ckpt.number },
           ckptLine := (x.kept.getD ⟨x.ckpt, x.ckptLine, x.peers⟩).line, peers := (x.kept.getD ⟨x.ckpt, x.ckptLine, x.peers⟩).peers }

section
variable {s t : State}

theorem State.failPair_none (received : s.twn.before = none) (reason : Nat) : s.failPair reason = { s with twn := s.twn.failed reason } := by
  unfold State.failPair
  rw [received]
  rfl

theorem State.failPair_some {b : Before} (received : s.twn.before = some b) (reason : Nat) :
    s.failPair reason = { s.undoJoin b with twn := (s.undoJoin b).twn.failed reason } := by
  unfold State.failPair
  rw [received]
  rfl

/-- A pairing has failed where the twin block of a module says so, whatever it sends afterwards. -/
theorem State.pairingFailed_of_twn {x : Twin} {reason : Nat} (fails : ∃ waiting turn rejoin,
      t.twn = { x.failed reason with waiting := waiting, turn := turn, noRejoin := rejoin })
    (prior : x.prior = s.twn.prior) (kept : x.kept = s.twn.kept) (number : x.ckpt.number = s.twn.ckpt.number) :
    s.pairingFailed t reason := by
  obtain ⟨waiting, turn, rejoin, twn⟩ := fails
  unfold State.pairingFailed
  rw [twn]
  refine ⟨rfl, prior, rfl, rfl, rfl, rfl, rfl, rfl, rfl, rfl, rfl, fun k known => ?_⟩
  have had : x.kept = some k := kept.trans known
  simp [Twin.failed, had, number]

/-- One of the timeouts of a pairing in which nothing was received (R323). -/
theorem State.failPair_fails (received : s.twn.before = none) (reason : Nat) : s.pairingFailed (s.failPair reason) reason ∧
    (s.failPair reason).twn.waiting = [] ∧ s.onlyIn (s.failPair reason) [.twn] := by
  rw [State.failPair_none received]
  exact ⟨State.pairingFailed_of_twn (x := s.twn) ⟨_, _, _, rfl⟩ rfl rfl rfl, rfl, s.setTwn_onlyIn _⟩

/-! ### The commands of TWN_CMD (R323, R345) -/

theorem State.reaches_twnCmd (standby : s.dev.dev = .standby) : s.reaches (Reg.TWN_CMD.addr 0 0 0) = true := by
  have free : s.xingOf (Reg.TWN_CMD.addr 0 0 0) = none := by simp [State.xingOf, Reg.addr, Reg.TWN_CMD]
  unfold State.reaches
  rw [standby, free]
  rfl

/-- PAIR (R323). -/
theorem exec_pair_starts (standby : s.dev.dev = .standby) (free : s.twn.pair = .unpaired ∨ s.twn.pair = .detached)
    (first : s.twinActive 0 = false) (second : s.twinActive 1 = false) :
    ∃ t, exec .pair s = .next t ∧ t.twn.pair = .pairing ∧ t.twn.step = 1 ∧ t.twn.since = s.clock ∧ t.twn.role = s.twn.role ∧
      t.twn.prior = s.twn.role ∧ s.onlyIn t [.twn, .pcie] := by
  have starts : s.writeTwnCmd 1 = { s.traffic with twn := s.twn.pairing s.clock } :=
    (State.writeTwnCmd_pair (State.reaches_twnCmd standby) standby free).trans (State.beginPair_silent (s := s.traffic) first second)
  exact ⟨_, congrArg Host.Outcome.next starts, rfl, rfl, rfl, rfl, rfl, (s.traffic_onlyIn.trans (State.setTwn_onlyIn _ _)).mono (by decide)⟩

/-- GIVE is one frame, which leaves, or waits where no twin port is ACTIVE (R338, R345). -/
theorem State.sendTwin_give (s : State) (reason : Nat) : ∃ waiting turn,
    (s.sendTwin (.give reason)).twn = { s.twn with waiting := waiting, turn := turn } ∧
      s.onlyIn (s.sendTwin (.give reason)) [.twn, .links, .out] :=
  s.sendTwinFrame_form (raw := twinRaw 0x1A [] ([BitVec.ofNat 8 reason] ++ List.replicate 7 0)) (show 0x10 ≤ 0x1A by decide)

theorem State.sendTwin_give_silent (first : s.twinActive 0 = false) (second : s.twinActive 1 = false) (reason : Nat) :
    s.sendTwin (.give reason) =
      { s with twn := { s.twn with waiting := s.twn.waiting ++ TwMsg.frames (.give reason) (s.get .STO_CTRL_mirror_effort) } } := by
  show s.sendTwinFrame _ = _
  unfold State.sendTwinFrame
  rw [first, second]
  rfl

/-- UNPAIR while pairing, before anything was received (R345). -/
theorem exec_unpair_fails (standby : s.dev.dev = .standby) (pairing : s.twn.pair = .pairing) (received : s.twn.before = none) :
    ∃ t, exec .unpair s = .next t ∧ s.pairingFailed t s.twn.fail ∧ t.twn.noRejoin = true ∧
      (s.twinActive 0 = false → s.twinActive 1 = false →
        t.twn.waiting = TwMsg.frames (.give 2) (s.get .STO_CTRL_mirror_effort) ∧ s.onlyIn t [.twn, .pcie]) ∧
      s.onlyIn t [.twn, .links, .out, .pcie] := by
  let u : State := { s.traffic with twn := { s.twn.failed s.twn.fail with noRejoin := true } }
  have ends : s.traffic.endPair = u := by
    unfold State.endPair
    rw [show s.traffic.twn.pair = .pairing from pairing]
    dsimp only
    rw [State.failPair_none (s := s.traffic) received]
    rfl
  have runs : exec .unpair s = .next (u.sendTwin (.give 2)) := by
    refine congrArg Host.Outcome.next ((State.writeTwnCmd_unpair (State.reaches_twnCmd standby)).trans ?_)
    rw [if_pos (by simp [pairing]), ends]
  obtain ⟨waiting, turn, twn, only⟩ := u.sendTwin_give 2
  have before : s.onlyIn u [.pcie, .twn] := s.traffic_onlyIn.trans (State.setTwn_onlyIn _ _)
  refine ⟨_, runs, State.pairingFailed_of_twn (x := s.twn) ⟨waiting, turn, true, twn⟩ rfl rfl rfl, by rw [twn], fun first second => ?_,
    (before.trans only).mono (by decide)⟩
  rw [State.sendTwin_give_silent (s := u) first second]
  exact ⟨rfl, (before.trans (State.setTwn_onlyIn _ _)).mono (by decide)⟩

/-- UNPAIR of a detached module (R345). -/
theorem exec_unpair_detached (standby : s.dev.dev = .standby) (detached : s.twn.pair = .detached) :
    ∃ t, exec .unpair s = .next t ∧ t.twn = { s.twn with noRejoin := true } ∧ s.onlyIn t [.twn, .pcie] := by
  have ends : s.traffic.endPair = { s.traffic with twn := { s.twn with noRejoin := true } } := by
    unfold State.endPair
    rw [show s.traffic.twn.pair = .detached from detached]
    rfl
  have runs : exec .unpair s = .next { s.traffic with twn := { s.twn with noRejoin := true } } := by
    refine congrArg Host.Outcome.next ((State.writeTwnCmd_unpair (State.reaches_twnCmd standby)).trans ?_)
    rw [if_neg (by simp [State.paired, detached]), ends]
  exact ⟨_, runs, rfl, (s.traffic_onlyIn.trans (State.setTwn_onlyIn _ _)).mono (by decide)⟩

/-! ### The timeouts (R323) -/

/-- PAIR_READY_TIMEOUT of a joining module puts back what it had (R323). -/
theorem exec_pairReadyTimeout_restores (b : Before) (pairing : s.twn.pair = .pairing) (last : s.twn.step = 7)
    (received : s.twn.before = some b) (late : s.elapsed s.twn.since 10000000000 = true) :
    ∃ t, exec .pairReadyTimeout s = .next t ∧ s.pairingFailed t 7 ∧ t.twn.waiting = [] ∧ t.sto = b.sto ∧ t.mer.geom = b.geom ∧
      t.pho.loop.gref = b.gref ∧ t.pho.loop.delta = b.delta ∧ t.pho.loop.base = b.base ∧ t.mer.pos = s.mer.pos - b.shift ∧
      t.dev = s.dev ∧ t.waits = s.waits ∧ t.tim = s.tim ∧ t.eye = s.eye ∧ t.alm = s.alm := by
  have runs : exec .pairReadyTimeout s = .next (s.failPair 7) := if_pos (by simp [pairing, last, late])
  obtain ⟨u, puts, lasts⟩ := s.undoJoin_puts b
  simp only [State.lasting, Prod.mk.injEq] at lasts
  obtain ⟨⟨dev, waits, tim, eye⟩, alm, sto, mer, pho, prior, kept, number⟩ := lasts
  rw [State.failPair_some received, puts] at runs
  refine ⟨_, runs, State.pairingFailed_of_twn (x := u.twn) ⟨_, _, _, rfl⟩ prior kept number, rfl, sto, ?_, ?_, ?_, ?_, ?_, dev, waits, tim,
    eye, alm⟩
  · exact congrArg Meridian.geom mer
  · exact congrArg (fun x : Photometer => x.loop.gref) pho
  · exact congrArg (fun x : Photometer => x.loop.delta) pho
  · exact congrArg (fun x : Photometer => x.loop.base) pho
  · show u.mer.pos - b.shift = _
    rw [mer]

/-- REJOIN_TIMER (R327). -/
theorem exec_rejoinTimer_starts (detached : s.twn.pair = .detached) (auto : s.on .TWN_CTRL_auto_rejoin = true)
    (willing : s.twn.noRejoin = false) (late : s.elapsed s.twn.since 1000000000 = true) (first : s.twinActive 0 = false)
    (second : s.twinActive 1 = false) :
    ∃ t, exec .rejoinTimer s = .next t ∧ t.twn.pair = .pairing ∧ t.twn.step = 1 ∧ t.twn.since = s.clock ∧ s.onlyIn t [.twn] := by
  have runs : exec .rejoinTimer s = .next s.beginPair := if_pos (by simp [detached, auto, willing, late])
  rw [State.beginPair_silent first second] at runs
  exact ⟨_, runs, rfl, rfl, rfl, s.setTwn_onlyIn _⟩

/-! ### HELLO (R311, R322 to R324) -/

/-- A module that has shown the partner's serial, and offers a version of the protocol (R322, R323). -/
def State.greeted (s : State) (h : Hello) (version : Nat) : State :=
  { (s.wr .TWN_PARTNER_LO (h.serial.extractLsb' 0 32)).wr .TWN_PARTNER_HI (h.serial.extractLsb' 32 32) with
    twn := { s.twn with version := version } }

/-- From `s` to `t` the partner's serial is shown, beside what changes in the twin block (R323). -/
structure State.ShowsPartner (s t : State) (h : Hello) : Prop where
  low : t.rd .TWN_PARTNER_LO = h.serial.extractLsb' 0 32
  high : t.rd .TWN_PARTNER_HI = h.serial.extractLsb' 32 32
  touches : s.touches t [.twn, .regs] [Reg.TWN_PARTNER_LO.addr 0 0 0, Reg.TWN_PARTNER_HI.addr 0 0 0]

theorem State.greeted_shows (sound : s.sound) (h : Hello) (version : Nat) : s.ShowsPartner (s.greeted h version) h := by
  have low := State.wr_sound s .TWN_PARTNER_LO (h.serial.extractLsb' 0 32) 0 0 0 sound
  refine ⟨?_, State.rd_wr_same _ _ _ 0 0 0 (State.sound_regs low), ?_⟩
  · exact (State.rd_wr_ne _ _ _ _ 0 0 0 0 0 0 (by decide)).trans (State.rd_wr_same _ _ _ 0 0 0 (State.sound_regs sound))
  · have writes (u : State) (r : Reg) (v : Word) : u.touches (u.wr r v) [.regs] [r.addr 0 0 0] :=
      ⟨u.wr_onlyIn r v 0 0 0, u.wr_regsOnlyAt r v 0 0 0⟩
    exact (((writes s _ _).trans (writes _ _ _)).trans (State.setTwn_onlyIn _ _).touches).mono

/-- A HELLO of another mode ends the pairing (R322). -/
theorem State.takeHello_otherMode (h : Hello) (other : h.mode ≠ s.twinMode) :
    s.takeHello h = (s.greeted h (twinVersion s.hello.versions h.versions)).failPair 2 := by
  unfold State.takeHello
  exact if_pos (.inr (.inl fun same => other same.symm))

/-- Twin 2 is in both offers (R322). -/
theorem State.twinVersion_two (offers : s.get .TWN_CTRL_max_ver ≠ 1) {h : Hello} (two : h.versions.testBit 1 = true) :
    twinVersion s.hello.versions h.versions = 2 := by
  have mine : s.hello.versions = 3 := if_neg offers
  unfold twinVersion
  rw [mine, two]
  rfl

/-- A HELLO of the same mode, with Twin 2 and no conflict of roles: the digests decide (R311, R324). -/
theorem State.takeHello_judges {h : Hello} {first : Bool} (mode : h.mode = s.twinMode) (pairs : h.mode ≠ 0)
    (two : h.versions.testBit 1 = true) (offers : s.get .TWN_CTRL_max_ver ≠ 1) (roles : primaryOf s.hello h = some first) :
    s.takeHello h = let u := s.greeted h 2
      if s.hello.digest ≠ h.digest then u.failPair 4
      else { u with twn := { u.twn with
        role := if first then .primary else if u.twinMode = 3 then .secondary else .standby, joining := !first, step := 4, since := u.clock,
        index := none, peerIndex := none } } := by
  have version := State.twinVersion_two offers two
  have mine : s.hello.mode = h.mode := mode.symm
  unfold State.takeHello
  dsimp only
  rw [version, roles, if_neg (by simp [mine, pairs])]
  rfl

/-- In step 2 of pairing a HELLO is judged (R323). -/
theorem exec_hello_judges {k : Nat} {f : Bytes} (pairing : s.twn.pair = .pairing) (second : s.twn.step = 2) (heard : s.hears k 0x11 f) :
    exec (.hello k f) s = .next ((s.ctlTaken k).takeHello (readHello (framePayload f))) := by
  refine congrArg Host.Outcome.next ((State.takeTwin_control heard _).trans ?_)
  have judges : (s.ctlTaken k).twn.pair = .pairing ∧ (s.ctlTaken k).twn.step = 2 := ⟨pairing, second⟩
  unfold State.hearHello
  simp [judges]

section
variable (sound : s.sound) (received : s.twn.before = none)
include sound received

/-- A HELLO that ends the pairing. -/
theorem State.greeted_fails (k : Nat) (port : k < 2) (h : Hello) (version reason : Nat) :
    let t := ((s.ctlTaken k).greeted h version).failPair reason
    s.pairingFailed t reason ∧ s.heard t k ∧ t.rd .TWN_PARTNER_LO = h.serial.extractLsb' 0 32 ∧
      t.rd .TWN_PARTNER_HI = h.serial.extractLsb' 32 32 ∧
      s.regsOnlyAt t [Reg.TWN_PARTNER_LO.addr 0 0 0, Reg.TWN_PARTNER_HI.addr 0 0 0] ∧ s.onlyIn t [.twn, .links, .regs] := by
  obtain ⟨low, high, touches⟩ := State.greeted_shows (s.ctlTaken_sound sound k) h version
  rw [State.failPair_none (s := (s.ctlTaken k).greeted h version) received]
  obtain ⟨parts, regs⟩ := ((s.ctlTaken_onlyIn k).touches.trans touches).trans (State.setTwn_onlyIn _ _).touches
  exact ⟨State.pairingFailed_of_twn ⟨_, _, _, rfl⟩ rfl rfl rfl, State.heard_of_links sound port rfl, low, high, regs, parts.mono (by decide)⟩

/-- HELLO in step 2 (R311, R322 to R324). -/
theorem exec_hello_pairs (k : Nat) (f : Bytes) (h : Hello) (pairing : s.twn.pair = .pairing) (second : s.twn.step = 2)
    (heard : s.hears k 0x11 f) (read : h = readHello (framePayload f)) :
    (h.mode ≠ s.twinMode → ∃ t, exec (.hello k f) s = .next t ∧ s.pairingFailed t 2 ∧ s.heard t k ∧ s.onlyIn t [.twn, .links, .regs]) ∧
    (h.mode = s.twinMode → h.mode ≠ 0 → h.versions.testBit 1 = true → s.get .TWN_CTRL_max_ver ≠ 1 →
      ∀ first, primaryOf s.hello h = some first →
      ∃ t, exec (.hello k f) s = .next t ∧ t.rd .TWN_PARTNER_LO = h.serial.extractLsb' 0 32 ∧
        t.rd .TWN_PARTNER_HI = h.serial.extractLsb' 32 32 ∧ s.heard t k ∧
        s.regsOnlyAt t [Reg.TWN_PARTNER_LO.addr 0 0 0, Reg.TWN_PARTNER_HI.addr 0 0 0] ∧ s.onlyIn t [.twn, .links, .regs] ∧
        (h.digest = s.digest → t.twn.pair = .pairing ∧ t.twn.step = 4 ∧ t.twn.version = 2 ∧ t.twn.joining = !first ∧
          t.twn.role = if first then .primary else if s.twinMode = 3 then .secondary else .standby) ∧
        (h.digest ≠ s.digest → s.pairingFailed t 4)) := by
  have runs := exec_hello_judges pairing second heard
  have port := State.twinPort_lt heard.1
  rw [← read] at runs
  refine ⟨fun other => ?_, fun mode pairs two offers first roles => ?_⟩
  · rw [State.takeHello_otherMode (s := s.ctlTaken k) h other] at runs
    obtain ⟨fails, heard', -, -, -, only⟩ := State.greeted_fails sound received k port h _ 2
    exact ⟨_, runs, fails, heard', only⟩
  · have mine : (s.ctlTaken k).hello = s.hello := rfl
    have digest : s.hello.digest = s.digest := by simp only [State.hello]
    rw [State.takeHello_judges (s := s.ctlTaken k) mode pairs two offers (mine ▸ roles), mine, digest] at runs
    by_cases same : s.digest = h.digest
    · rw [if_neg (not_not_intro same)] at runs
      let u := (s.ctlTaken k).greeted h 2
      obtain ⟨low, high, touches⟩ := State.greeted_shows (s.ctlTaken_sound sound k) h 2
      have sameMode : u.twinMode = s.twinMode := touches.2.get .TWN_CTRL_mode 0 0 0 (by decide)
      obtain ⟨parts, regs⟩ := ((s.ctlTaken_onlyIn k).touches.trans touches).trans
        (State.setTwn_onlyIn u { u.twn with
          role := if first then .primary else if u.twinMode = 3 then .secondary else .standby, joining := !first, step := 4,
          since := u.clock, index := none, peerIndex := none }).touches
      refine ⟨_, runs, low, high, State.heard_of_links sound port rfl, regs, parts.mono (by decide),
        fun _ => ⟨pairing, rfl, rfl, rfl, ?_⟩, fun other => absurd same.symm other⟩
      rw [← sameMode]
    · rw [if_pos same] at runs
      obtain ⟨fails, heard', low, high, regs, only⟩ := State.greeted_fails sound received k port h 2 4
      exact ⟨_, runs, low, high, heard', regs, only, fun agrees => absurd agrees.symm same, fun _ => fails⟩

end

end

/-- Settles O31, a lemma for each command. -/
theorem pairingCommandsComplete : Obligations.PairingCommandsComplete := by
  unfold Obligations.PairingCommandsComplete
  intro s sound standby
  refine ⟨exec_pair_starts standby, fun pairing received => ⟨exec_unpair_fails standby pairing received, ?link, ?index, ?ready⟩,
    exec_unpair_detached standby, exec_pairReadyTimeout_restores,
    fun k f h pairing second received heard read => exec_hello_pairs sound received k f h pairing second heard read,
    fun k f line pairing joining last agrees heard named => exec_join_pairs sound standby k f line pairing joining last agrees heard named,
    exec_rejoinTimer_starts⟩
  case link => exact fun step late => ⟨_, if_pos (by simp [pairing, step, late]), State.failPair_fails received 1⟩
  case index => exact fun step late => ⟨_, if_pos (by simp [pairing, step, late]), State.failPair_fails received 5⟩
  case ready => exact fun step late => ⟨_, if_pos (by simp [pairing, step, late]), State.failPair_fails received 7⟩

end Sys2Proof.Machine
end

section
/-! Lamplighter's own work (R335, R434 to R441): SPIT and STRIP, the defer queue, and the schedule. -/

namespace Sys2Proof.Machine

/-! ### SPIT and STRIP (R439 to R441) -/

/-- An activity that prints from a line on. -/
def Activity.printing (line base : Line) (left : Nat) (a : Activity) : Activity :=
  { a with line := some line, base := base, left := left }

/-- The activity that a MAINT with a parameter asks for, once it is taken. -/
def State.printOf (s : State) (r : Nat) (d q : Bytes) : Activity := (s.take r).maintAct (s.ctxOf r d) d q

/-- From `s` to `t` the descriptor `d` of ring `r` has come into flight, and the activity that it asks for alone runs, from a line on. -/
structure State.PrintsFrom (s t : State) (r : Nat) (d : Bytes) (line : Line) (left : Nat) : Prop where
  flies : s.inFlight t r
  only : s.onlyIn t [.hst, .lmp, .pcie]
  prints : t.lmp.running.map (fun a => (a.code, a.target, a.line, a.left)) = [(byteAt d 4, byteAt d 5, some line, left)]

/-- The state in which that activity runs. -/
def State.printStarted (s : State) (r : Nat) (d q : Bytes) : State := (s.take r).actRun (s.printOf r d q)

section
variable {s : State} {a : Activity}

theorem State.actRun_epochLine (s : State) (a : Activity) : (s.actRun a).epochLine = s.epochLine :=
  congrArg (fun l : Line => upTo64 (l + 256)) (by rfl : (s.actRun a).highestAll = s.highestAll)

theorem State.updAct_alone (alone : s.lmp.running = [a]) (f : Activity → Activity) :
    s.updAct a.code a.target f = s.runningOnly (f a) := by
  unfold State.updAct
  rw [alone, List.map_singleton, if_pos ⟨rfl, rfl⟩]
  rfl

/-- A module that runs the activity already starts none for its partner. -/
theorem State.partnerAct_running (alone : s.lmp.running = [a]) (param : Bytes) : s.partnerAct a.code a.target param = s := by
  simp [State.partnerAct, State.actFind, alone]

theorem toNat_mask (byte : a.target < 256) : (BitVec.ofNat 8 a.target).toNat = a.target := Nat.mod_eq_of_lt byte

/-- A SPIT of a module without a partner prints from the epoch line, where its group has a gap (R439). -/
theorem State.spitBegin_gap (single : s.twn.role = .none) (alone : s.lmp.running = [a]) (code : a.code = 9) (byte : a.target < 256)
    {p : Placement} (running : s.runningPlacement (byteAt a.param 4) = some p) (gap : s.heightOf p.sec < p.pitch) :
    s.spitBegin a = s.runningOnly (a.printing s.epochLine s.epochLine (leAt a.param 0 2)) := by
  unfold State.spitBegin State.startLines
  simp only [running, gap, decide_true, if_true]
  rw [State.agree_alone single]
  show (s.partnerAct 9 (BitVec.ofNat 8 a.target).toNat a.param).spitFrom (BitVec.ofNat 8 a.target).toNat a.param s.epochLine = _
  rw [toNat_mask byte, ← code, State.partnerAct_running alone, State.spitFrom, ← code, State.updAct_alone alone]
  rfl

/-- A STRIP of a module without a partner prints from the epoch line under its group's placement, where its section fits the gap (R440). -/
theorem State.stripBegin_gap (single : s.twn.role = .none) (alone : s.lmp.running = [a]) (code : a.code = 10) (byte : a.target < 256)
    {x : Section'} (named : s.section (stripSection a.param) = some x) (sealed' : x.st = .sealed') {p : Placement}
    (running : s.runningPlacement (byteAt a.param 2) = some p) (below : s.heightOf p.sec ≤ leAt a.param 4 4)
    (above : leAt a.param 4 4 + x.height ≤ p.pitch) :
    ∃ base, s.stripBegin a = s.runningOnly (a.printing s.epochLine base p.handle) := by
  have begins : s.stripBegin a =
      (s.partnerAct 10 (BitVec.ofNat 8 a.target).toNat a.param).stripFrom (BitVec.ofNat 8 a.target).toNat a.param s.epochLine := by
    unfold State.stripBegin State.startLines
    simp only [named, sealed', running, below, above, decide_true, ne_eq, not_true_eq_false, if_false, Bool.and_self, if_true]
    exact State.agree_alone single ..
  rw [begins, toNat_mask byte, ← code, State.partnerAct_running alone, State.stripFrom, ← code]
  simp only [running]
  exact ⟨_, State.updAct_alone alone _⟩

end

section
variable {s : State} {r k n : Nat} {d q : Bytes}

/-- A SPIT or STRIP with a good parameter starts at once on a module that prints alone with nothing running (R435, R437). -/
theorem State.printMaint_starts (h : s.accepts r d 8) (code : byteAt d 4 = k) (size : leAt d 16 4 = n) (whole : q.length = n)
    (crc : crcOk q = true) (window : s.windowOk false (leAt d 8 8) n = true) (printing : s.dev.dev = .printing) (single : s.twn.role = .none)
    (idle : s.lmp.running = []) (allowed : (actStates k).contains .printing = true) {ok : State → Bytes → Bool}
    (good : ok (s.take r) q = true) (start : State → Activity → State) :
    s.printMaint r d k n q ok start = start (s.printStarted r d q) (s.printOf r d q) := by
  have alone : (s.take r).follower = false := by simp [State.follower, single]
  have param : q.take n = q := by rw [← whole, List.take_length]
  unfold State.printMaint State.maint
  rw [State.descriptor_of_accepts h (by simp [code]), State.take_dev, printing, if_neg (by decide), if_neg (by simp [size]),
    if_neg (by decide)]
  dsimp only
  rw [alone, State.take_dev, printing, allowed, if_neg (by decide), if_neg (by decide), State.withRead,
    if_pos (.inr (by rw [State.take_windowOk, window])), param, if_neg (by simp [crc, whole]), if_neg (by simp [good]), State.actArrive_idle (State.take_running idle)]
  rfl

theorem State.printStarted_running (idle : s.lmp.running = []) : (s.printStarted r d q).lmp.running = [s.printOf r d q] :=
  congrArg (· ++ [s.printOf r d q]) (State.take_running idle)

theorem State.printStarted_onlyIn (s : State) (r : Nat) (d q : Bytes) : s.onlyIn (s.printStarted r d q) [.hst, .pcie, .lmp] :=
  ((s.take_onlyIn r).trans (State.actRun_onlyIn _ _)).mono (by decide)

theorem State.printStarted_epochLine (s : State) (r : Nat) (d q : Bytes) : (s.printStarted r d q).epochLine = s.epochLine :=
  (State.actRun_epochLine _ _).trans (s.take_epochLine r)

theorem State.printStarted_section (s : State) (r : Nat) (d q : Bytes) (m : Nat) : (s.printStarted r d q).section m = s.section m :=
  s.take_section r m

theorem State.printStarted_heightOf (s : State) (r : Nat) (d q : Bytes) (m : Nat) : (s.printStarted r d q).heightOf m = s.heightOf m :=
  congrArg (fun x : Option Section' => (x.map Section'.height).getD 0) (s.printStarted_section r d q m)

theorem State.printStarted_runningPlacement (s : State) (r : Nat) (d q : Bytes) (g : Nat) :
    (s.printStarted r d q).runningPlacement g = s.runningPlacement g := by
  have sto : (s.printStarted r d q).sto = s.sto := s.take_sto r
  unfold State.runningPlacement State.group
  rw [sto]

theorem State.printStarted_role (single : s.twn.role = .none) : (s.printStarted r d q).twn.role = .none := by
  rw [(s.printStarted_onlyIn r d q).same .twn, single]

theorem State.printStarted_prints (sound : s.sound) (h : s.accepts r d 8) (line base : Line) (left : Nat) :
    s.PrintsFrom ((s.printStarted r d q).runningOnly ((s.printOf r d q).printing line base left)) r d line left :=
  ⟨State.inFlight_of_hst sound h rfl, ((s.printStarted_onlyIn r d q).trans (State.runningOnly_onlyIn _ _)).mono (by decide), rfl⟩

theorem State.stripOk_take (s : State) (r m : Nat) (q : Bytes) : (s.take r).stripOk m q = s.stripOk m q := by
  unfold State.stripOk
  rw [State.take_section]

theorem State.spitOk_take (s : State) (r m : Nat) (q : Bytes) : (s.take r).spitOk m q = s.spitOk m q := by
  rw [State.take_eq]
  rfl

/-- A standby or a secondary takes neither a SPIT nor a STRIP of its own (R441). -/
theorem State.printMaint_follower (h : s.accepts r d 8) (code : byteAt d 4 = k) (size : leAt d 16 4 = n) (follows : s.follower = true)
    (awake : s.devIn [.firstLight, .standby, .printing] = true) (ok : State → Bytes → Bool) (start : State → Activity → State) :
    s.printMaint r d k n q ok start = (s.take r).complete (s.ctxOf r d) .role := by
  have held : s.dev.dev ≠ .held := by
    intro held
    rw [State.devIn, held] at awake
    exact absurd awake (by decide)
  have follower : (s.take r).follower = true := by
    rw [State.take_eq]
    exact follows
  unfold State.printMaint State.maint
  rw [State.descriptor_of_accepts h (by simp [code]), State.take_dev, if_neg (by simpa using held), if_neg (by simp [size]),
    if_neg (by rw [show (actStates 4).contains s.dev.dev = true from awake]; decide)]
  exact if_pos follower

end

/-! ### The defer queue (R438) -/

section
variable {s : State} {a : Activity}

/-- The one activity deferred has left the queue. -/
theorem State.undefer_alone (queue : s.lmp.queue = [a]) : s.undefer a = { s with lmp := { s.lmp with queue := [] } } := by
  rw [State.undefer, queue, List.erase_cons_head]

theorem State.undefer_onlyIn (s : State) (a : Activity) : s.onlyIn (s.undefer a) [.lmp] := by
  intro z; cases z <;> simp [Part.same, State.undefer]

theorem exec_deferredStart_alone (queue : s.lmp.queue = [a]) : exec .deferredStart s = .next (s.recheckAct a) := by
  show Host.Outcome.next (s.each s.lmp.queue State.recheckAct) = _
  rw [queue]
  rfl

/-- A calibration of one channel that was deferred begins where the matrix now gives R. -/
theorem State.recheckAct_zq (runs : (s.verdict a.code a.target).1 = .run) (code : a.code = 2) (one : a.target < 4)
    (standby : s.dev.dev = .standby) : s.recheckAct a = ((s.undefer a).actRun { a with since := s.clock }).zqAsked a.target := by
  have allowed : s.actAllowed a = true := by simp [State.actAllowed, standby, code, actStates]
  unfold State.recheckAct
  rw [if_neg (by simp [runs]), if_pos allowed]
  dsimp only
  rw [State.beginAct]
  simp only [code]
  show State.each _ (targetChans a.target) State.zqAsked = _
  rw [targetChans, if_neg (by omega)]
  rfl

/-- The registers of an activity that has been deferred for too long (R438). -/
def State.timedOut (s : State) (code blocking : Nat) : State :=
  ((s.count .LMP_TIMEOUT_CNT).set .LMP_LAST_CONFLICT_blocking blocking).set .LMP_LAST_CONFLICT_refused code

theorem State.timedOut_touches (s : State) (code blocking : Nat) :
    s.touches (s.timedOut code blocking) [.regs] [Reg.LMP_TIMEOUT_CNT.addr 0 0 0, Reg.LMP_LAST_CONFLICT.addr 0 0 0] :=
  (((s.count_touches .LMP_TIMEOUT_CNT 0 0 0 1).trans (State.set_touches _ .LMP_LAST_CONFLICT_blocking blocking 0 0 0)).trans
    (State.set_touches _ .LMP_LAST_CONFLICT_refused code 0 0 0)).mono
      (by decide) (by simp [Fld.LMP_TIMEOUT_CNT, Fld.LMP_LAST_CONFLICT_blocking, Fld.LMP_LAST_CONFLICT_refused])

theorem State.timedOut_shows (sound : s.sound) {code : Nat} (fits : code < 16) (blocking : Nat) :
    s.counted (s.timedOut code blocking) .LMP_TIMEOUT_CNT ∧ (s.timedOut code blocking).get .LMP_LAST_CONFLICT_refused = code := by
  have counts := s.count_sound .LMP_TIMEOUT_CNT 0 0 0 1 sound
  have blocks := State.set_sound _ .LMP_LAST_CONFLICT_blocking blocking 0 0 0 counts
  have later := (State.set_touches (s.count .LMP_TIMEOUT_CNT) .LMP_LAST_CONFLICT_blocking blocking 0 0 0).trans
    (State.set_touches _ .LMP_LAST_CONFLICT_refused code 0 0 0)
  constructor
  · exact (State.counted_count .LMP_TIMEOUT_CNT 0 (State.sound_regs sound) (by decide) (by decide)).around rfl
      (later.2.get .LMP_TIMEOUT_CNT 0 0 0 (by decide))
  · refine (State.get_set_same .LMP_LAST_CONFLICT_refused code 0 0 0 (State.sound_regs blocks) (by decide) (by decide)).trans ?_
    simp only [Fld.LMP_LAST_CONFLICT_refused]
    omega

/-- No ring's configuration lies at the registers of a conflict. -/
theorem State.timedOut_cring (s : State) (code blocking r : Nat) : (s.timedOut code blocking).cring r = s.cring r := by
  refine (s.timedOut_touches code blocking).2.get .HST_RING_CFG_cring r 0 0 ?_
  simp only [Fld.HST_RING_CFG_cring, Reg.addr, Reg.HST_RING_CFG, Reg.LMP_TIMEOUT_CNT, Reg.LMP_LAST_CONFLICT, List.mem_cons,
    List.not_mem_nil, or_false]
  omega

/-- The fault of an activity that has been deferred for too long (R438). -/
def State.expired (s : State) (a : Activity) : State :=
  ((s.undefer a).timedOut a.code (s.verdict a.code a.target).2).raise .lmpConflict
    (BitVec.ofNat 32 (a.code + 256 * (s.verdict a.code a.target).2)) a.code

/-- A descriptor that does not complete OK carries no result of its own (R380). -/
theorem State.complete_failed {c : Ctx} {st : Status} (failed : st ≠ .ok) (result : Nat) : s.complete c st result = s.complete c st := by
  simp [State.complete, failed]

theorem exec_deferTimeout_alone (queue : s.lmp.queue = [a]) {c : Ctx} (asked : a.src = .maint c)
    (late : s.elapsed a.since (s.get .LMP_CTRL_defer_ms * 1000000) = true) :
    exec .deferTimeout s = .next ((s.expired a).complete c .conflict) := by
  show Host.Outcome.next (s.each (s.lmp.queue.filter s.deferExpired) State.expireAct) = _
  rw [queue, List.filter_cons_of_pos (by simp [State.deferExpired, Activity.byMaint, asked, late])]
  have report (u : State) : u.actReport a .conflict = u.complete c .conflict := by
    simp only [State.actReport, asked]
    exact State.complete_failed (by decide) _
  exact congrArg Host.Outcome.next (report _)

theorem State.expired_touches (s : State) (a : Activity) :
    s.touches (s.expired a) [.lmp, .regs, .ltn] [Reg.LMP_TIMEOUT_CNT.addr 0 0 0, Reg.LMP_LAST_CONFLICT.addr 0 0 0] :=
  (((s.undefer_onlyIn a).touches.trans (State.timedOut_touches _ _ _)).trans (State.raise_onlyIn _ _ _ _ _ _ _).touches).mono
    (by decide) (by simp)

theorem State.expired_cring (s : State) (a : Activity) (r : Nat) : (s.expired a).cring r = s.cring r :=
  ((State.raise_onlyIn _ .lmpConflict _ a.code 0xFF none none).get .HST_RING_CFG_cring r 0 0).trans
    ((State.timedOut_cring _ _ _ r).trans ((s.undefer_onlyIn a).get .HST_RING_CFG_cring r 0 0))

theorem State.expired_lmp (queue : s.lmp.queue = [a]) : (s.expired a).lmp = { s.lmp with queue := [] } := by
  have raises := State.raise_onlyIn ((s.undefer a).timedOut a.code (s.verdict a.code a.target).2) .lmpConflict
    (BitVec.ofNat 32 (a.code + 256 * (s.verdict a.code a.target).2)) a.code 0xFF none none
  refine (raises.same .lmp).trans (((State.timedOut_touches _ _ _).1.same .lmp).trans ?_)
  rw [State.undefer_alone queue]

theorem State.expired_shows (sound : s.sound) (a : Activity) (code : a.code < 16) :
    s.counted (s.expired a) .LMP_TIMEOUT_CNT ∧ (s.expired a).get .LMP_LAST_CONFLICT_refused = a.code ∧
      s.raised (s.expired a) .lmpConflict 1 a.code 0xFF 9 (BitVec.ofNat 32 (a.code + 256 * (s.verdict a.code a.target).2)) := by
  have fault (u : State) (w : Word) : u.raised (u.raise .lmpConflict w a.code) .lmpConflict 1 a.code 0xFF 9 w := rfl
  have raises := State.raise_onlyIn ((s.undefer a).timedOut a.code (s.verdict a.code a.target).2) .lmpConflict
    (BitVec.ofNat 32 (a.code + 256 * (s.verdict a.code a.target).2)) a.code 0xFF none none
  obtain ⟨counted, refused⟩ := State.timedOut_shows (s := s.undefer a) sound code (s.verdict a.code a.target).2
  have marked := State.timedOut_touches (s.undefer a) a.code (s.verdict a.code a.target).2
  exact ⟨counted.around rfl (raises.get .LMP_TIMEOUT_CNT 0 0 0), (raises.get .LMP_LAST_CONFLICT_refused 0 0 0).trans refused,
    State.raised_around (fault _ _) (marked.1.same .ltn) marked.1.clock rfl⟩

/-- A completion of one ring's entry changes one COMPLETE ring alone, whatever its status. -/
theorem State.ringsOnly_complete {u : State} {c : Ctx} (hst : u.hst = s.hst) (cring : u.cring c.ring = s.cring c.ring) (st : Status)
    (result : Nat) : s.ringsOnly (u.complete c st result) [s.cring c.ring] := by
  refine ⟨?_, fun q => ?_⟩
  · rw [← hst]
    exact congrArg (fun x : Host' => { x with l1 := false, busyAt := 0, turn := 0 }) (u.complete_hst c st result)
  · by_cases own : q = s.cring c.ring
    · exact .inl (by simp [own])
    · exact .inr ((State.ring_complete_ne (cring.symm ▸ own) st result).trans (congrArg (fun x : Host' => x.rings.getD q Ring.reset) hst))

end

/-! ### The schedule (R434, R335) -/

section
variable {s : State}

/-- A calibration or a retrain of the schedule has its period noted before it runs. -/
def State.zqNoted (s : State) : State := { s with lmp := { s.lmp with zqAt := s.clock } }

def State.retrainNoted (s : State) : State :=
  { s with lmp := { s.lmp with retrainNext := (s.lmp.retrainNext + 1) % 4, retrainAt := s.clock } }

theorem State.zqNoted_onlyIn (s : State) : s.onlyIn s.zqNoted [.lmp] := by
  intro z; cases z <;> simp [Part.same, State.zqNoted]

theorem State.retrainNoted_onlyIn (s : State) : s.onlyIn s.retrainNoted [.lmp] := by
  intro z; cases z <;> simp [Part.same, State.retrainNoted]

/-- The calibration of every channel that the schedule asks for. -/
def State.scheduledZq (s : State) : Activity := s.ownActivity 2 0xFF .schedule

/-- The retrain that the schedule asks for. -/
def State.scheduledRetrain (s : State) : Activity := s.ownActivity 1 s.lmp.retrainNext .schedule

theorem exec_scheduledZq_begins (schedule : s.scheduleOn = true) (idle : s.lmp.running = []) (on : s.on .LMP_SCHED_zq_ms = true)
    (late : s.elapsed s.lmp.zqAt (s.get .LMP_SCHED_zq_ms * 1000000) = true) :
    exec .scheduledZq s = .next ((s.zqNoted.actRun s.scheduledZq).zqBegin s.scheduledZq) := by
  show execScheduledZq s = _
  unfold execScheduledZq
  rw [if_pos (by simp [schedule, on, late])]
  exact congrArg Host.Outcome.next (State.actArrive_idle (s := s.zqNoted) idle s.scheduledZq State.zqBegin)

theorem State.scheduledZq_calibrates (sound : s.sound) (idle : s.lmp.running = []) :
    let t := (s.zqNoted.actRun s.scheduledZq).zqBegin s.scheduledZq
    t.lmp = { s.lmp with zqAt := s.clock, running := [⟨2, 0xFF, .schedule, s.clock, false, none, [], 0, 0⟩] } ∧
      (∀ c, c < 4 → t.chan c = { s.chan c with zqPending := some s.clock }) ∧
      t.out = s.out ++ (List.range 4).map (fun c => Output.dramCommand c 12 2 0) ∧ s.onlyIn t [.lmp, .drm, .out] := by
  intro t
  have eq : t = ((((s.zqNoted.actRun s.scheduledZq).zqAsked 0).zqAsked 1).zqAsked 2).zqAsked 3 := State.zqBegin_all rfl
  refine ⟨?_, fun c inside => ?_, ?_, ?_⟩
  · rw [eq]
    show { s.lmp with zqAt := s.clock, running := s.lmp.running ++ [s.scheduledZq] } = _
    rw [idle]
    rfl
  · exact State.zqBegin_chan (s := s.zqNoted.actRun s.scheduledZq) (State.sound_chans sound) rfl inside
  · rw [eq]
    show (((s.out ++ _) ++ _) ++ _) ++ _ = _
    rw [List.append_assoc, List.append_assoc, List.append_assoc]
    rfl
  · rw [eq]
    exact (((((s.zqNoted_onlyIn.trans (State.actRun_onlyIn _ _)).trans (State.zqAsked_onlyIn _ 0)).trans (State.zqAsked_onlyIn _ 1)).trans
      (State.zqAsked_onlyIn _ 2)).trans (State.zqAsked_onlyIn _ 3)).mono (by decide)

theorem exec_scheduledRetrain_begins (schedule : s.scheduleOn = true) (idle : s.lmp.running = []) (on : s.on .LMP_SCHED_retrain_s = true)
    (late : s.elapsed s.lmp.retrainAt (s.get .LMP_SCHED_retrain_s * 1000000000) = true) :
    exec .scheduledRetrain s = .next ((s.retrainNoted.actRun s.scheduledRetrain).retrainBegin s.scheduledRetrain) := by
  show execScheduledRetrain s = _
  unfold execScheduledRetrain
  rw [if_pos (by simp [schedule, on, late])]
  exact congrArg Host.Outcome.next (State.actArrive_idle (s := s.retrainNoted) idle s.scheduledRetrain State.retrainBegin)

theorem State.scheduledRetrain_retrains (sound : s.sound) (idle : s.lmp.running = []) (next : s.lmp.retrainNext < 4) :
    let t := (s.retrainNoted.actRun s.scheduledRetrain).retrainBegin s.scheduledRetrain
    t.lmp.retrainNext = (s.lmp.retrainNext + 1) % 4 ∧ t.lmp.retrainAt = s.clock ∧
      t.lmp.running.map (fun a => (a.code, a.target, a.left)) = [(1, s.lmp.retrainNext, s.lmp.retrainNext)] ∧
      t.chan s.lmp.retrainNext = { s.chan s.lmp.retrainNext with lastSlice := none } ∧ t.lmp.queue = s.lmp.queue ∧
      s.onlyIn t [.lmp, .drm] := by
  intro t
  have eq : t = ((s.retrainNoted.actRun s.scheduledRetrain).runningOnly (s.scheduledRetrain.workingOn s.lmp.retrainNext)).updChan
      s.lmp.retrainNext Channel.unsliced :=
    State.retrainBegin_one (congrArg (· ++ [s.scheduledRetrain]) idle) next
  rw [eq]
  refine ⟨rfl, rfl, rfl, State.chan_updChan_same _ ?_, rfl, ?_⟩
  · exact next.trans_eq (State.sound_chans sound).symm
  · exact (((s.retrainNoted_onlyIn.trans (State.actRun_onlyIn _ _)).trans (State.runningOnly_onlyIn _ _)).trans
      (State.updChan_onlyIn _ _ _)).mono (by decide)

/-- The checkpoint that the schedule asks for. -/
def State.scheduledCkpt (s : State) : Activity := s.ownActivity 7 0 .schedule

theorem exec_scheduledCheckpoint_sends (schedule : s.scheduleOn = true) (idle : s.lmp.running = []) (cold : s.coldPrimary = true)
    (due : s.elapsed s.twn.ckpt.at' (s.get .TWN_CKPT_period * 1000000000) = true ∨
      s.get .TWN_CKPT_journal_mb * 1048576 ≤ s.twn.ckpt.journalBytes) :
    exec .scheduledCheckpoint s = .next (s.actRun s.scheduledCkpt).sendCkpt := by
  have full : (s.elapsed s.twn.ckpt.at' (s.get .TWN_CKPT_period * 1000000000) || s.journalFull) = true := by
    simpa [State.journalFull] using due
  show execScheduledCheckpoint s = _
  unfold execScheduledCheckpoint
  dsimp only
  rw [if_pos (by rw [schedule, cold, full]; decide), State.ckptStart, if_neg (by simp [cold])]
  exact congrArg Host.Outcome.next (State.actArrive_idle idle s.scheduledCkpt _)

end

/-- Settles O45: SPIT and STRIP up to the one activity that then prints, a deferred one by what its new check or its timeout does, and the
schedule's three by the start of their activity. -/
theorem scheduleCommandsComplete : Obligations.ScheduleCommandsComplete := by
  unfold Obligations.ScheduleCommandsComplete
  intro s sound
  refine ⟨?spit, ?strip, ?deferred, ?scheduled, ?follower⟩
  case spit =>
    intro r d q m p h code target size whole crc window printing single good idle running gap
    have begins := State.spitBegin_gap (State.printStarted_role (r := r) (d := d) (q := q) single) (State.printStarted_running idle) code
      (byteAt_lt d 5) ((s.printStarted_runningPlacement r d q _).trans running) ((s.printStarted_heightOf r d q _).trans_lt gap)
    obtain ⟨flies, only, prints⟩ := State.printStarted_prints (d := d) (q := q) sound h s.epochLine s.epochLine (leAt q 0 2)
    rw [s.printStarted_epochLine r d q] at begins
    refine ⟨_, congrArg Host.Outcome.next ((State.printMaint_starts h code size whole crc window printing single idle (by decide)
      (by rw [target, State.spitOk_take, good]) _).trans begins), flies, only, ?_⟩
    rwa [code, target] at prints
  case strip =>
    intro r d q m p x h code target size whole crc window printing single good idle named sealed' running below above
    obtain ⟨base, begins⟩ := State.stripBegin_gap (State.printStarted_role (r := r) (d := d) (q := q) single)
      (State.printStarted_running idle) code (byteAt_lt d 5) ((s.printStarted_section r d q _).trans named) sealed'
      ((s.printStarted_runningPlacement r d q _).trans running) ((s.printStarted_heightOf r d q _).trans_le below) above
    obtain ⟨flies, only, prints⟩ := State.printStarted_prints (d := d) (q := q) sound h s.epochLine base p.handle
    rw [s.printStarted_epochLine r d q] at begins
    refine ⟨_, congrArg Host.Outcome.next ((State.printMaint_starts h code size whole crc window printing single idle (by decide)
      (by rw [target, State.stripOk_take, good, Bool.or_true]) _).trans begins), flies, only, ?_⟩
    rwa [code, target] at prints
  case deferred =>
    intro a queue
    refine ⟨fun waits => ?stays, fun runs code one standby => ?starts, fun c asked known late fits => ?expires⟩
    case stays => rw [exec_deferredStart_alone queue, State.recheckAct, if_pos waits]
    case starts =>
      have four : a.target < s.drm.chans.length := one.trans_eq (State.sound_chans sound).symm
      refine ⟨_, (exec_deferredStart_alone queue).trans (congrArg Host.Outcome.next (State.recheckAct_zq runs code one standby)), ?_, rfl,
        State.zqAsked_chan_same four, rfl, fun c other => State.zqAsked_chan_ne other, ?_⟩
      · exact congrArg (fun u : State => u.lmp.queue) (State.undefer_alone queue)
      · exact (((s.undefer_onlyIn a).trans (State.actRun_onlyIn _ _)).trans (State.zqAsked_onlyIn _ _)).mono (by decide)
    case expires =>
      have touched := s.expired_touches a
      have ends := State.complete_onlyIn (s.expired a) c .conflict 0
      obtain ⟨counted, refused, raised⟩ := State.expired_shows sound a fits
      have completes := State.completes_complete_failed (st := .conflict) sound known touched.1.hst (s.expired_cring a c.ring) (by decide)
      refine ⟨_, exec_deferTimeout_alone queue asked late, (ends.same .lmp).trans (State.expired_lmp queue), completes,
        counted.around rfl (ends.get .LMP_TIMEOUT_CNT 0 0 0), (ends.get .LMP_LAST_CONFLICT_refused 0 0 0).trans refused,
        State.raised_around raised rfl rfl (ends.same .ltn), State.ringsOnly_complete touched.1.hst (s.expired_cring a c.ring) _ _,
        (touched.1.trans ends).mono (by decide)⟩
  case scheduled =>
    intro schedule idle
    refine ⟨fun on late => ?zq, fun on late next => ?retrain, fun frames b m cold open' unacked queue due made chunks raws => ?checkpoint,
      fun early => ?zqEarly, fun early => ?retrainEarly⟩
    case zq => exact ⟨_, exec_scheduledZq_begins schedule idle on late, State.scheduledZq_calibrates sound idle⟩
    case retrain =>
      exact ⟨_, exec_scheduledRetrain_begins schedule idle on late, State.scheduledRetrain_retrains sound idle next⟩
    case checkpoint =>
      obtain ⟨twin, four, rest, others, counts, regs, only⟩ := State.sendCkpt_sends (s := s.actRun s.scheduledCkpt) sound open' unacked
        (by rw [State.actRun_epochLine]; exact made) chunks raws
      refine ⟨_, exec_scheduledCheckpoint_sends schedule idle cold due, congrArg (·.ckpt.building) twin, congrArg (·.ckpt.number) twin,
        congrArg (·.ckpt.at') twin, four, rest, others, ?_, counts, regs, (State.actRun_onlyIn s _).trans only⟩
      rw [only.same .lmp (by split <;> decide)]
      show (s.lmp.running ++ [s.scheduledCkpt]).map _ = _
      rw [idle]
      rfl
    case zqEarly =>
      show execScheduledZq s = _
      rw [execScheduledZq, if_neg (by simp [early])]
    case retrainEarly =>
      show execScheduledRetrain s = _
      rw [execScheduledRetrain, if_neg (by simp [early])]
  case follower =>
    intro i r d q n k row h code size follows awake
    simp only [List.mem_cons, Prod.mk.injEq, List.not_mem_nil, or_false] at row
    obtain ⟨rfl, rfl, rfl⟩ | ⟨rfl, rfl, rfl⟩ := row
    all_goals
      exact ⟨_, congrArg Host.Outcome.next (State.printMaint_follower h code size follows awake _ _),
        State.answered_failed sound h rfl (s.take_cring r r) (by decide) 0,
        ((s.take_onlyIn r).trans (State.complete_onlyIn _ _ _ _)).mono (by decide)⟩

end Sys2Proof.Machine
end
